-- ==== Sys2Proof/Word.lean ====
section
/-! DEFINITION. The words the manual writes: bytes, 32-bit registers, 64-bit ticks (00_scope.md, "Numbers, units
and bit order"). -/

namespace Sys2Proof

/-- A 32-bit register or descriptor word (R3). -/
abbrev Word := BitVec 32

/-- One byte. -/
abbrev Byte := BitVec 8

/-- A 64-bit value of the tick time base (R155). -/
abbrev Tick := BitVec 64

end Sys2Proof
end

