-- ==== Sys2Proof/Syntax.lean ====
section
/-! DEFINITION. The commands of the block: one constructor of `Instr` per row of spec/opcode_table.json. The table gives
the rows no operands; each constructor carries what its rule takes from outside the device (log entry 9). -/

namespace Sys2Proof

/-- The five requesters of R100, in the order of their numbers. -/
inductive Req where
  | mp | frp | icp | jtag | qe
  deriving DecidableEq, Repr

/-- The PLLs of R150. -/
inductive Pll where
  | sys | eth | hl
  | fcg (n : Fin 4)
  deriving DecidableEq, Repr

/-- What the error check of one 64-bit code word of the frame store finds at the end of a read with its repeats (R251, R252);
`raw` is the word as the last of three uncorrectable reads delivers it. -/
inductive Ecc where
  | clean | corrected
  | uncorrectable (raw : BitVec 64)
  deriving DecidableEq, Repr

/-- The two inputs of a keep-count counter (R49). -/
inductive KcPin where
  | a | b
  deriving DecidableEq, Repr

/-- The three inputs of an encoder (R159). -/
inductive EncPin where
  | a | b | z
  deriving DecidableEq, Repr

/-- The three outputs of a trigger sequencer (R182). -/
inductive TsqOut where
  | strobe | expose | pretrig
  deriving DecidableEq, Repr

/-- Quota classes of the Page Warden, in the order of their numbers (R256). -/
inductive PwClass where
  | capture | fabric | host
  deriving DecidableEq, Repr

/-- Who a Page Warden answer goes to: the slot of a sequencer (R199), the line a channel assembles (R224, R228), the
host's result register (R287), a sequencer whose slot has gone and whose grant is returned (R199), a fabric streaming port (R376), or a
requester outside the model, whose answer only the page map shows. -/
inductive PwDest where
  | tsqSlot (n : Fin 16) (slot : Fin 64)
  | capLine (n : Fin 16)
  | host
  | gone (n : Fin 16)
  | fabric (p : Fin 8)
  | none
  deriving DecidableEq, Repr

/-- The consumers that have a scheduler (R290): egress ports, streaming ports, and the two halves of the management
engine (R288: HOST-produced and FABRIC-produced rings). -/
inductive Consumer where
  | egress (n : Fin 4)
  | fabric (p : Fin 8)
  | mgmtHost
  | mgmtFabric
  deriving DecidableEq, Repr

/-- The instances that hold a shadow group and a COMMIT register (R7, R82). -/
inductive Group where
  | acc
  | enc (n : Fin 8)
  | tsq (n : Fin 16)
  | cap (n : Fin 16)
  | pw
  | ring (r : Fin 1024)
  | egr (n : Fin 4)
  | hl
  | ua (n : Fin 18)
  | spc (m : Fin 2)
  | adc
  deriving DecidableEq, Repr

/-- Blocks of the Internal Space map (R89). -/
inductive Block where
  | mirror | sys | acc | lcs | tbe | tsq | cap | pw | qe | desc | egr | hl | ua | spc | pio | hkadc | cfg | scb | bkp | fs
  deriving DecidableEq, Repr

/-- What the clause 49 receiver of an egress port reports (R306). -/
structure LinkRx where
  blockLock : Bool
  hiBer : Bool
  localFault : Bool
  remoteFault : Bool
  deriving DecidableEq, Repr

/-- What one pixel clock brings (R216): the 28 bits of the channel-link receiver of CHn, and in a Medium gang those of CH2k+1's
aligned to them. Bit i is the bit that the Camera Link specification calls TXi. -/
structure CamWord where
  head : BitVec 28
  tail : BitVec 28
  deriving DecidableEq, Repr

/-- A line that a UART can receive from (R477): a multi-function pin, or the SerTFG pair of a channel. -/
inductive UaLine where
  | pin (p : Fin 96)
  | serTfg (c : Fin 16)
  deriving DecidableEq, Repr

/-- What the receiver finds of a line: its level in each sample period since the last one it examined, oldest first (R463). -/
structure UaSamples where
  line : UaLine
  levels : List Bool
  deriving DecidableEq, Repr

/-- A data line over the 8 SCK periods of a byte: its level at each rising and at each falling edge of SCK, the first one in bit 0 (R486). -/
structure SpiBits where
  rise : BitVec 8
  fall : BitVec 8
  deriving DecidableEq, Repr

/-- Common fields of a received herd-link message (R338): port it came in on, origin, hops already made, herd. -/
structure HlHead where
  port : Fin 2
  origin : Fin 8
  hops : Fin 8
  herd : Fin 4
  deriving DecidableEq, Repr

/-- What a receiver gets at a slot start (R337, R339): nothing, or 20 code groups, the first bit received the most significant. -/
inductive HlSlot where
  | missing
  | groups (g : List (BitVec 10))
  deriving DecidableEq, Repr

/-- Payload of a class-0 message (R338). -/
structure HlCmd where
  tEff : BitVec 48
  serial : Byte
  reason : Byte
  seq : Word
  deriving DecidableEq, Repr

/-- Payload of a POSITION message (R338). -/
structure HlPos where
  pos : Word
  stamp : BitVec 48
  rev : Bool
  suspect : Bool
  failed : Bool
  valid : Bool
  deriving DecidableEq, Repr

/-- The pieces of the scrubber's own control that a vote can correct (R443): a register by its offset, or the
sequencing state. -/
inductive VoteTarget where
  | register (offset : BitVec 16)
  | sequencing
  deriving DecidableEq, Repr

/-- The commands. The comment of each constructor names the row's rule. -/
inductive Instr where
  -- supplies, reset, start-up (chapter 02)
  /-- R4, and what a merging frame-store read finds (R254) -/ | registerWrite (req : Req) (addr data : Word) (ecc : Ecc)
  /-- R33 -/ | supplyOutOfRange
  /-- R47 -/ | vbatPowerUp
  /-- R35, R543: the low pulse lasts lowNs nanoseconds -/ | pinReset (lowNs : Nat)
  /-- R38, R393, R556: t_RH was met, and the level of PC_EN -/ | resetNRise (held pcEn : Bool)
  /-- R561: us is the time since RESET_N rose -/ | pllLock (pll : Pll) (us : Nat)
  /-- R408 -/ | bootSelection
  /-- R409: whether a check word differed in the transfer -/ | frameTransferDone (mismatch : Bool)
  /-- R37 -/ | softReset
  /-- R410 -/ | reconfiguration (mismatch : Bool)
  -- backup domain (chapter 02)
  /-- R49 -/ | kcEdge (ch : Fin 2) (pin : KcPin) (level inLimits : Bool)
  /-- R50 -/ | alarmAccept (n : Fin 4) (level : Bool)
  /-- R53 -/ | bkpCapture
  /-- R53 -/ | bkpPairTake
  /-- R51 -/ | logClear
  /-- R48 -/ | bcLoad
  /-- R56 -/ | kc0Clear
  /-- R56 -/ | kc1Clear
  -- management port (chapter 03); cycles is the number of rising SCK edges of the transaction
  /-- R69 -/ | directWrite (reg : Byte) (data : Word) (cycles : Nat)
  /-- R67 -/ | directRead (reg : Byte) (cycles : Nat)
  /-- R85 -/ | stream (bytes : List Byte) (cycles : Nat)
  /-- R70 -/ | windowBurstWrite (addr : Word) (words : List Word) (cycles : Nat)
  /-- R71 -/ | windowBurstRead (addr : Word) (ecc : List Ecc) (cycles : Nat)
  /-- R68 -/ | unlistedOpcode (op : Byte) (cycles : Nat)
  /-- R69 -/ | winDataWrite (data : Word)
  /-- R87 -/ | streamAbort
  /-- R79 -/ | stickyClear
  /-- R77, and what a merging frame-store read finds (R254) -/ | postedWriteApply (req : Req) (blk : Block) (ecc : Ecc)
  -- accesses (chapter 04)
  /-- R113 -/ | accessAnswer (req : Req)
  /-- R373, and what a frame-store read finds (R252) -/ | frpAccess (write : Bool) (addr data : Word) (ecc : Ecc)
  /-- R426, and what a frame-store read finds (R252) -/ | icpAccess (write : Bool) (addr data : Word) (ecc : Ecc)
  /-- R82 -/ | commitGo (grp : Group)
  /-- R117 -/ | accCommitApply
  -- life-cycle and debug (chapter 05)
  /-- R129 -/ | lcsTransition (req : Req) (target : BitVec 3)
  /-- R129 -/ | programKeyHash (req : Req)
  /-- R128 -/ | programNoFieldDebug (req : Req)
  /-- R129 -/ | lcsNoOperation (req : Req)
  /-- R129 -/ | lcsOperationDone
  /-- R134 -/ | newChallenge (req : Req)
  /-- R134, R135: whether the health tests passed -/ | challengeReady (healthy : Bool)
  /-- R139 -/ | verify (req : Req)
  /-- R140 -/ | verdict
  /-- R140 -/ | lockoutEnd
  /-- R132 -/ | extest (chain : List Bool)
  /-- R132 -/ | samplePreload (chain : List Bool)
  /-- R132 -/ | idcode
  /-- R132 -/ | bypass (opcode : Byte)
  /-- R133 -/ | auth (go write : Bool) (addr data : Word)
  /-- R133, and what a frame-store read finds (R252) -/ | debugBus (go write : Bool) (addr data : Word) (ecc : Ecc)
  /-- R133 -/ | rlog (go write : Bool) (addr data : Word)
  /-- R447 -/ | readback (frame : Word)
  /-- R447 -/ | readbackFrameRead
  -- PLLs, time base, encoders (chapter 06)
  /-- R152 -/ | pllLossOfLock (pll : Pll)
  /-- R152 -/ | pllRelock (pll : Pll)
  /-- R162: the levels accepted in this tick -/ | encoderTransition (n : Fin 8) (a b : Bool)
  /-- R165: the level of Z accepted -/ | index (n : Fin 8) (level : Bool)
  /-- R159 -/ | losEntry (n : Fin 8) (pin : EncPin)
  /-- R159 -/ | losExit (n : Fin 8) (pin : EncPin)
  /-- R171 -/ | illegalWindowEnd (n : Fin 8)
  /-- R171: z true for LOS_Z -/ | losLimitExpiry (n : Fin 8) (z : Bool)
  /-- R164 -/ | load (n : Fin 8)
  /-- R165 -/ | zarm (n : Fin 8)
  /-- R173 -/ | restore (n : Fin 8)
  /-- R173 -/ | errClear (n : Fin 8)
  /-- R170 -/ | snap
  /-- R162 -/ | encCommitApply (n : Fin 8)
  /-- R156 -/ | loRead (req : Req) (addr : Word)
  /-- R156 -/ | hiRead (req : Req) (addr : Word)
  -- trigger sequencers (chapter 07)
  /-- R189 -/ | slotOpen (n : Fin 16)
  /-- R192 -/ | slotCommit (n : Fin 16)
  /-- R192 -/ | strobeRise (n : Fin 16)
  /-- R192 -/ | pretrigRise (n : Fin 16)
  /-- R183 -/ | pulseEnd (n : Fin 16) (out : TsqOut)
  /-- R195 -/ | holdExpiry (n : Fin 16)
  /-- R191 -/ | stopTicksExpiry (n : Fin 16)
  /-- R348 -/ | predictorEntry (h : Fin 4)
  /-- R202 -/ | tsqCommitApply (n : Fin 16)
  /-- R198 -/ | tsqCntClear (n : Fin 16)
  -- capture channels (chapter 08)
  /-- R220: rising edges counted in the window -/ | pclkMeasure (n : Fin 16) (count : Nat)
  /-- R220 -/ | lockSuccess (n : Fin 16)
  /-- R220 -/ | lockAttemptFail (n : Fin 16)
  /-- R235 -/ | lossOfLock (n : Fin 16)
  /-- R222: FVAL, and for a gang the distance of CH2k+1's rise in pixel clocks -/ | lineStart (n : Fin 16) (fval : Bool) (skew : Nat)
  /-- R225, R228, R229: the words received since the line's start or the last such command, how many of the line's 256-byte writes the
  banks have stored, and whether LVAL falls -/
    | lineEnd (n : Fin 16) (words : List CamWord) (stored : Nat) (falls : Bool)
  /-- R222 -/ | matchExpiry (n : Fin 16)
  /-- R234 -/ | capLinkWindowEnd (n : Fin 16)
  /-- R237 -/ | capRevive (n : Fin 16)
  /-- R233 -/ | capCntClear (n : Fin 16)
  /-- R231 -/ | capTagBaseWrite (value : BitVec 3)
  /-- R240 -/ | capCommitApply (n : Fin 16)
  -- Page Warden (chapter 09)
  /-- R258 -/ | reserve (dest : PwDest) (cls : PwClass) (owner : Fin 16) (n : Nat)
  /-- R258 -/ | returnRes (res : Nat)
  /-- R258 -/ | map (dest : PwDest) (res : Nat) (stride : BitVec 9)
  /-- R258 -/ | alloc (dest : PwDest) (cls : PwClass) (owner : Fin 16) (n : Nat) (stride : BitVec 9)
  /-- R258 -/ | trim (h : Fin 2048) (gen : BitVec 7) (n : Nat)
  /-- R258 -/ | seal (dest : PwDest) (h : Fin 2048) (gen : BitVec 7)
  /-- R258 -/ | addref (dest : PwDest) (h : Fin 2048) (gen : BitVec 7)
  /-- R258 -/ | release (dest : PwDest) (h : Fin 2048) (gen : BitVec 7)
  /-- R258 -/ | abandon (dest : PwDest) (h : Fin 2048) (gen : BitVec 7)
  /-- R252: byte address of the code word, the Queue Engine entry the read is made for, repeats made before, what it finds -/
    | readRepeat (addr : BitVec 24) (entry : Option (Fin 1024 × BitVec 16)) (repeats : Nat) (found : Ecc)
  /-- R253 -/ | poisonRewriteDone
  /-- R265 -/ | pwCommitApply
  /-- R260 -/ | pwCntClear
  -- Queue Engine (chapter 10)
  /-- R284, R285 -/ | doorbellPi (req : Req) (ring : Fin 1024) (idx : BitVec 16)
  /-- R284, R285 -/ | doorbellCi (req : Req) (ring : Fin 1024) (idx : BitVec 16)
  /-- R287 -/ | hostAlloc
  /-- R287 -/ | hostAddref (h : Fin 2048) (gen : BitVec 7)
  /-- R287 -/ | hostRelease (h : Fin 2048) (gen : BitVec 7)
  /-- R287 -/ | hostSeal (h : Fin 2048) (gen : BitVec 7)
  /-- R287 -/ | hostAbandon (h : Fin 2048) (gen : BitVec 7)
  /-- R290 -/ | dispatch (c : Consumer)
  /-- R282: the oldest operation of a half of the engine, and what a frame-store read finds -/ | mgmtWordIssue (fabric : Bool) (ecc : Ecc)
  /-- R283 -/ | entryComplete (ring : Fin 1024) (idx : BitVec 16)
  /-- R292 -/ | ringTimeout (ring : Fin 1024) (idx : BitVec 16)
  /-- R278 -/ | qeRingCommitApply (r : Fin 1024)
  /-- R295 -/ | qeCntClear
  -- egress ports (chapter 11)
  /-- R306 -/ | linkUp (n : Fin 4)
  /-- R319 -/ | linkDown (n : Fin 4) (rx : LinkRx)
  /-- R314 -/ | frameBuild (n : Fin 4)
  /-- R315: what each code word of the fragment is found to be, in the order read -/ | payloadReadDone (n : Fin 4) (ecc : List Ecc)
  /-- R309 -/ | frameSend (n : Fin 4)
  /-- R318 -/ | frameDiscard (n : Fin 4)
  /-- R321: the bytes from destination address to FCS -/ | receiveFrame (n : Fin 4) (bytes : List Byte)
  /-- R322 -/ | rxCiWrite (n : Fin 4) (ci : Byte)
  /-- R324 -/ | egrLinkWindowEnd (n : Fin 4)
  /-- R325 -/ | egrRevive (n : Fin 4)
  /-- R323 -/ | egrCntClear (n : Fin 4)
  /-- R313 -/ | gapReset (n : Fin 4) (mask : BitVec 16)
  /-- R323 -/ | egrCommitApply (n : Fin 4)
  -- herd link (chapter 12)
  /-- R340 -/ | trainComplete (p : Fin 2)
  /-- R340: a PROBE that starts to arrive -/ | probe (p : Fin 2)
  /-- R340: TA in ticks; the present tick is its receive start -/ | echo (p : Fin 2) (ta : BitVec 16)
  /-- R338 -/ | idleMessage (p : Fin 2)
  /-- R339, R355: the slot received -/ | badMessage (p : Fin 2) (slot : HlSlot)
  /-- R345 -/ | timeOriginate
  /-- R345: value carried and the local tick R -/ | timeMessage (head : HlHead) (value r : Tick)
  /-- R347 -/ | positionDue (h : Fin 4)
  /-- R348 -/ | positionMessage (head : HlHead) (body : HlPos)
  /-- R350 -/ | readyOriginate (h : Fin 4)
  /-- R350 -/ | eventReady (head : HlHead)
  /-- R350 -/ | readySeenExpiry (h : Fin 4) (d : Fin 8)
  /-- R351 -/ | herdStart (h : Fin 4)
  /-- R352 -/ | herdStop (h : Fin 4)
  /-- R354 -/ | herdRevive (h : Fin 4)
  /-- R344 -/ | startMessage (head : HlHead) (cmd : HlCmd)
  /-- R344 -/ | stopMessage (head : HlHead) (cmd : HlCmd)
  /-- R353 -/ | retireMessage (head : HlHead) (cmd : HlCmd)
  /-- R344 -/ | reviveMessage (head : HlHead) (cmd : HlCmd)
  /-- R351 -/ | herdStarted (h : Fin 4)
  /-- R352 -/ | herdStopped (h : Fin 4)
  /-- R353 -/ | herdRetired (h : Fin 4)
  /-- R354 -/ | herdRevived (h : Fin 4)
  /-- R358 -/ | halt
  /-- R358 -/ | haltRelease
  /-- R359: whether another device drives HERD_HALT_N low -/ | herdHaltAccept (low : Bool)
  /-- R356 -/ | portRevive (p : Fin 2)
  /-- R355 -/ | hlCntClear
  /-- R361 -/ | hlCommitApply
  -- fabric streaming ports (chapter 13)
  /-- R374 -/ | fspTake (p : Fin 8) (ring : Fin 1024) (idx : BitVec 16)
  /-- R376 -/ | fspAlloc (p : Fin 8) (n : Nat) (stride : BitVec 9)
  /-- R376 -/ | fspAddref (p : Fin 8) (h : Fin 2048) (gen : BitVec 7)
  /-- R376 -/ | fspRelease (p : Fin 8) (h : Fin 2048) (gen : BitVec 7)
  /-- R376 -/ | fspSeal (p : Fin 8) (h : Fin 2048) (gen : BitVec 7)
  /-- R376 -/ | fspAbandon (p : Fin 8) (h : Fin 2048) (gen : BitVec 7)
  /-- R377: what each code word is found to be, four a beat -/ | fspRead (p : Fin 8) (h : Fin 2048) (gen : BitVec 7) (offset beats : Nat) (ecc : List Ecc)
  /-- R376 -/ | fspWrite (p : Fin 8) (h : Fin 2048) (gen : BitVec 7) (offset beats : Nat) (data : List Byte)
  /-- R376 -/ | fspPost (p : Fin 8) (ring : Fin 1024) (entry : List Byte)
  /-- R376 -/ | fspComplete (p : Fin 8) (ring : Fin 1024) (idx : BitVec 16) (status : Byte)
  -- configuration images (chapter 14)
  /-- R394 -/ | pcStbByte (b : Byte)
  /-- R393 -/ | pcpEnWrite (v : Bool)
  /-- R396 -/ | syncWord
  /-- R396 -/ | nop
  /-- R397 -/ | idc
  /-- R397 -/ | seq
  /-- R397 -/ | len
  /-- R397 -/ | ztab
  /-- R397 -/ | sig
  /-- R400 -/ | begin_
  /-- R398 -/ | ctlAbort
  /-- R399 -/ | ctlNop
  /-- R398 -/ | faddr
  /-- R397 -/ | fdata
  /-- R401 -/ | end_
  /-- R401, R403: whether the erase verified -/ | erasingDone (ok : Bool)
  /-- R401 -/ | frameArrival
  /-- R403: whether the read-back agreed -/ | frameProgramDone (ok : Bool)
  /-- R401 -/ | finishingDone
  /-- R406 -/ | invalidate (slot : BitVec 2)
  /-- R406 -/ | erase (slot : BitVec 2)
  /-- R407 -/ | saveBoot
  /-- R404 -/ | clear
  /-- R406: whether an erase verified -/ | cfgCmdDone (ok : Bool)
  -- swap zones and scrubber (chapter 15)
  /-- R429 -/ | zoneOpen (z : Fin 8)
  /-- R432 -/ | zoneAbort (z : Fin 8)
  /-- R433 -/ | zoneRestore (z : Fin 8)
  /-- R430: the ICP writes one word -/ | zdataWrite (word : Word)
  /-- R431 -/ | zoneVerifyDone (z : Fin 8)
  /-- R433 -/ | zoneRestoreDone (z : Fin 8)
  /-- R434 -/ | passStart
  /-- R434: bits of the frame that upsets flipped -/ | frameScrub (flips : List Nat)
  /-- R438: whether the attempt verified -/ | reloadAttempt (ok : Bool)
  /-- R439 -/ | passEnd
  /-- R443 -/ | voteCorrection (what : VoteTarget)
  /-- R445 -/ | save
  /-- R445 -/ | saveDone
  -- UARTs (chapter 16)
  /-- R464 -/ | characterReceive (n : Fin 18) (rx : UaSamples)
  /-- R458 -/ | characterTransmit (n : Fin 18)
  /-- R474 -/ | irPulseAccept (n : Fin 18)
  /-- R475 -/ | irFlood (n : Fin 18)
  /-- R475 -/ | quietExit (n : Fin 18)
  /-- R471 -/ | uaTxdataWrite (n : Fin 18) (data : BitVec 9)
  /-- R471 -/ | uaRxdataRead (n : Fin 18) (req : Req)
  /-- R483 -/ | uaRxFlush (n : Fin 18)
  /-- R471 -/ | uaTxFlush (n : Fin 18)
  /-- R484 -/ | uaCntClear (n : Fin 18)
  /-- R460 -/ | break_ (n : Fin 18) (v : Bool)
  /-- R477 -/ | uaRouteWrite (n : Fin 18) (pins loop : Bool)
  /-- R478 -/ | uaCommitApply (n : Fin 18)
  -- SPI controllers (chapter 17)
  /-- R487 -/ | duplex (m : Fin 2)
  /-- R487 -/ | tx (m : Fin 2)
  /-- R487 -/ | rx (m : Fin 2)
  /-- R487 -/ | delay (m : Fin 2)
  /-- R488: MISO over the byte -/ | masterByte (m : Fin 2) (miso : SpiBits)
  /-- R496 -/ | modeFault (m : Fin 2)
  /-- R507 -/ | spcAbort (m : Fin 2)
  /-- R496 -/ | resume (m : Fin 2)
  /-- R510 -/ | spcRxFlush (m : Fin 2)
  /-- R504 -/ | spcTxFlush (m : Fin 2)
  /-- R512 -/ | spcCntClear (m : Fin 2)
  /-- R498 -/ | slaveFrameStart (m : Fin 2)
  /-- R500 -/ | slaveByte (m : Fin 2) (mosi : SpiBits)
  /-- R501: bits of a byte cut short -/ | slaveFrameEnd (m : Fin 2) (bits : Nat)
  /-- R503 -/ | spcTxdataWrite (m : Fin 2) (b : Byte)
  /-- R503 -/ | spcTxdata4Write (m : Fin 2) (w : Word)
  /-- R503 -/ | spcRxdataRead (m : Fin 2) (req : Req)
  /-- R504 -/ | spcCommitApply (m : Fin 2)
  -- pins, pin interrupts, HKADC (chapter 18)
  /-- R533 -/ | pioOutSet (b : Fin 6) (mask : BitVec 16)
  /-- R533 -/ | pioOutClr (b : Fin 6) (mask : BitVec 16)
  /-- R530 -/ | pilCfgWrite (k : Fin 16) (value : Word)
  /-- R522, R524: the level at the line's synchronizer -/ | pilActiveEdge (k : Fin 16) (level : Bool)
  /-- R524 -/ | pioCntClear
  /-- R526 -/ | hkadcStart
  /-- R526 -/ | scanPeriod
  /-- R528: the codes of the channel's conversions -/ | channelResult (codes : List (BitVec 12))
  /-- R529 -/ | hkadcCommitApply
  -- rows that stand last in the table
  /-- R487 -/ | spcCmdWrite (m : Fin 2) (w : Word)
  /-- R317 -/ | frameSent (n : Fin 4)
  /-- R359 -/ | herdHaltNHigh
  /-- R90 -/ | bkpOscillatorStop
  /-- R90 -/ | bkpOscillatorStart
  /-- R340 -/ | trainStart (p : Fin 2)
  deriving DecidableEq, Repr

end Sys2Proof
end

