-- ==== Sys2Proof/WellFormed.lean ====
section
/-! DEFINITION. The commands that can come from outside: what a rule of the manual says of an operand and its type does not.
The machine's meanings are total; a command that is not well formed names no event of the hardware. -/

namespace Sys2Proof

/-- The opcodes of the transactions of the management port (R67). -/
def portOpcodes : List Byte := [0x02, 0x03, 0x0A, 0x0B, 0x0C]

/-- The public JTAG instructions that do not select the bypass register (R132). -/
def publicOpcodes : List Byte := [0x00, 0x01, 0x02, 0x10]

/-- A burst brings one word for every 32 cycles after its address and a stream one byte for every 8 cycles (R67); a lock comes
within its limit (R561); PLL_SYS does not relock (R152); a beat burst keeps R376; a queue entry is 32 bytes (R277); a frame
has 3,104 bits (R387). -/
def Instr.wf : Instr → Bool
  | .pllLock .sys us => decide (us ≤ 200)
  | .pllLock .hl us => decide (us ≤ 200)
  | .pllRelock pll => pll != .sys
  | .stream bytes cycles => decide ((cycles - 8) / 8 ≤ bytes.length)
  | .windowBurstWrite _ words cycles => decide ((cycles - 40) / 32 ≤ words.length)
  | .unlistedOpcode op _ => !portOpcodes.contains op
  | .bypass op => !publicOpcodes.contains op
  | .loRead _ addr => addr.toNat % 4 == 0
  | .hiRead _ addr => addr.toNat % 4 == 0
  | .fspRead _ _ _ offset beats _ => decide (1 ≤ beats ∧ beats ≤ 256) && offset % 32 == 0
  | .fspWrite _ _ _ offset beats data =>
    decide (1 ≤ beats ∧ beats ≤ 256) && offset % 32 == 0 && data.length == 32 * beats
  | .fspPost _ _ entry => entry.length == 32
  | .frameScrub flips => flips.all fun i => decide (i < 3104)
  | .slaveFrameEnd _ bits => decide (bits < 8)
  | _ => true

end Sys2Proof
end

