-- ==== Sys2Proof/Decode.lean ====
section
/-! DEFINITION. The words of the commands. The table gives no row any bits: a command reaches the block as an event on its
pins or inside it, not as a word, so no word spells one (log entry 19). -/

namespace Sys2Proof

/-- The command that a word spells by the table's bits: none, since no row gives bits. -/
def decodeTableWord (_nbits _w : Nat) : Option Instr := none

end Sys2Proof
end

