-- ==== Sys2Proof/Config.lean ====
section
/-! DEFINITION. What an implementation or an image fixes, and the source of every free value. The constants have no body:
no proof can see a value of one. -/

namespace Sys2Proof.Config

/-- The source of every free value: applied to the state's counter `freeCtr`, which the reader advances (log entry 8).
DESIGN CHOICE: where the manual leaves a value open the model reads the next one of these. -/
opaque freeNat : Nat → Nat

/-- What the merging frame-store read of a posted write finds when the write takes effect because a later access of its
requester waits for it (R76, R254), by the write's number; the manual leaves errors to chance (log entry 88). -/
opaque mergeRead : Nat → Nat

/-- Whether the TRNG passes its health tests for a challenge that ends in a given tick of the model's clock (R135; log
entry 95). -/
opaque trngHealthy : Nat → Bool

/-- The fused device UID of LCS_UID (R134); the manual gives no value (log entry 3). -/
opaque uid : BitVec 128

/-- The initial value that the I/O column frames of an image hold for PIO_PIN(p), p = 0 to 95, PIO_OUT(b) at 96 + b and
PIO_OE(b) at 102 + b (R518), named by the image's signature words; the place inside the frames is not stated
(log entry 4). -/
opaque pioInit : List Word → Nat → Word

/-- Whether the image connects fabric streaming port p (FSP_STAT.USED, chapter 13), by its signature (log entry 4). -/
opaque fspUsed : List Word → Nat → Bool

/-- The GC that an image assigns to a global network, if any (R371; log entry 4). -/
opaque netGc : List Word → Nat → Option (Fin 32)

/-- The source an image chooses for RCK(r,k): a network 0 to 15, or 16 and above a clock-capable pin (R371; log entry 4). -/
opaque rck : List Word → Nat → Nat → Nat

/-- The global network that clocks streaming port p in an image (FSP_STAT.NET, R372; log entry 4). -/
opaque fspNet : List Word → Nat → Fin 16

/-- The global network that clocks the FRP in an image (R372; log entry 4). -/
opaque frpNet : List Word → Fin 16

/-- The global network that clocks the ICP in an image (R372, R427; log entry 4). -/
opaque icpNet : List Word → Fin 16

/-- Whether the network of streaming port p carries a clock outside 100 to 350 MHz (R372; log entry 4). -/
opaque fspClkBad : List Word → Nat → Bool

/-- Whether the ICP clock of an image lies outside 25 to 200 MHz (R427; log entry 4). -/
opaque icpClkBad : List Word → Bool

/-- Whether any signal or handshake of streaming port p is driven from configuration column c (R424; log entry 4). -/
opaque fspColumn : List Word → Nat → Nat → Bool

/-- Whether any signal of the fabric register port is driven from configuration column c (R424; log entry 4). -/
opaque frpColumn : List Word → Nat → Bool

/-- Whether any signal of the internal configuration port is driven from configuration column c (R424; log entry 4). -/
opaque icpColumn : List Word → Nat → Bool

/-- What a shifted-in EXTEST chain drives at a pin, none where it leaves it high-impedance (R132; log entry 4). -/
opaque extestPin : List Bool → Nat → Option Bool

/-- What the board drives at pin p in a tick of the model's clock, none where it drives nothing (log entry 107). -/
opaque board : Nat → Nat → Option Bool

/-- The level that pin p is read at while nothing drives it and no pull acts, in a tick of the model's clock (log entry 107). -/
opaque floating : Nat → Nat → Bool

/-- What fabric logic of an image drives at pin p in a tick of the model's clock, none while its output enable is off (R378, R513). -/
opaque fabricPin : List Word → Nat → Nat → Option Bool

/-- The level of an SPI data output between bits, where no rule gives it, in a tick of the model's clock (log entry 106). -/
opaque restLevel : Nat → Bool

end Sys2Proof.Config
end

