-- ==== Sys2Proof/Machine/State.lean ====
section
/-! DEFINITION. The state of the DN-1610 as plain data, why a step can stop, and the machine right after reset
(02_power_reset_backup.md R36, R40; INVENTORY.md, "State"). Ticks inside the state are natural numbers or integers of
the time base (log entry 20); the time base itself is the 64-bit counter of R155. -/

namespace Sys2Proof.Machine

/-- Why every behaviour, or every behaviour of the blocks PLL_SYS clocks, is undefined (R33, R556, R152). -/
inductive UndefCause where
  | railOut | earlyReset | pllSysLost
  deriving DecidableEq, Repr

/-- Why the machine stops. -/
inductive Fault where
  /-- Raised by every command that reaches logic whose behaviour the manual calls undefined (R33, R556, R152).
  Safe: the hardware may do anything there, and the model says nothing. -/
  | undefinedBehaviour (c : UndefCause)
  deriving DecidableEq, Repr

/-- Why a command has no meaning. -/
inductive Refusal where
  /-- Raised by no meaning: an arm not written yet rejects by name. Safe. -/
  | notModelled (mnemonic : String)
  deriving DecidableEq, Repr

/-- A W1C register (R4): its bits, and those that hardware set in the present tick, which a write of that tick does not clear
(R8). -/
structure Flags (n : Nat) where
  bits : BitVec n
  fresh : BitVec n
  deriving DecidableEq, Repr

/-- No flag set. -/
def Flags.none {n : Nat} : Flags n := ⟨0, 0⟩

/-- A shadow group: its two copies and its COMMIT register (R7, R82, R84); `again` when a GO of the present tick met a commit
that was already pending (R9), and `wait` the ticks since the pending GO. -/
structure Shadowed (α : Type) where
  shadow : α
  active : α
  view : Bool
  pending : Bool
  again : Bool
  wait : Nat
  count : BitVec 16
  deriving DecidableEq, Repr

/-- A group at reset: both copies at their reset values and nothing pending (R84). -/
def Shadowed.init {α : Type} (a : α) : Shadowed α := ⟨a, a, false, false, false, 0, 0⟩

/-! ### SYS -/

/-- Where start-up stands (R38 to R41). -/
inductive Phase where
  | held | waitLock | bootSelect
  | transfer (order : List (Fin 3))
  | released | failed
  deriving DecidableEq, Repr

structure Sys where
  resetN : Bool
  phase : Phase
  cause : BitVec 3
  reconfCount : Byte
  fallbacks : BitVec 4
  totalUs : BitVec 16
  lockUs : Nat
  softReq : Option Req
  reconfReq : Bool
  sysLock : Bool
  ethLock : Bool
  hlLock : Bool
  fcgLock : BitVec 4
  lol : Flags 8
  ethFirst : Bool
  hlFirst : Bool
  clkFlag : Flags 1
  clkFlagEn : Bool
  deriving DecidableEq, Repr

/-! ### Management port and accesses -/

/-- What the port shifted out in the last transaction: the status byte and the data words (R64 to R67, R79). -/
structure Miso where
  status : Byte
  data : List Word
  deriving DecidableEq, Repr

/-- The management port. `losses` are the places in the stream buffer, as numbers of bytes before them, at which a byte was discarded
(R86, R88). -/
structure Mp where
  lastOk : Bool
  denied : Bool
  noresp : Bool
  deniedSeen : Bool
  norespSeen : Bool
  voidSeen : Bool
  lastOpcode : Byte
  wellFormed : Bool
  lastWords : BitVec 16
  attnMask : BitVec 18
  winAddr : Word
  winData : Word
  autoinc : Bool
  scratch : Word
  buffer : List Byte
  losses : List Nat
  overflow : Bool
  cut : Bool
  fresh : Bool
  viewStatus : Word
  viewAttn : BitVec 18
  viewStream : Word
  miso : Option Miso
  deriving DecidableEq, Repr

/-- A posted write that was permitted and has not taken effect (R77, R107); `order` counts the table commits before it,
and `at_` is the tick of its issue by the model's clock. -/
structure Access where
  id : Nat
  req : Req
  addr : Word
  data : Word
  order : Nat
  at_ : Nat
  deriving DecidableEq, Repr

/-- Response codes of FRP and ICP (R373, R426). -/
inductive RespCode where
  | ok | denied | noresp
  deriving DecidableEq, Repr

/-- An answer owed to FRP, ICP or JTAG (R113); `holds` when the access itself retires with it (R110). -/
structure Owed where
  req : Req
  write : Bool
  addr : Word
  due : Nat
  order : Nat
  holds : Bool
  code : RespCode
  data : Word
  deriving DecidableEq, Repr

structure HiLatch where
  req : Req
  addr : Word
  word : Word
  deriving DecidableEq, Repr

structure Bus where
  nextId : Nat
  epochOrder : Nat
  inflight : List Access
  bkpBuf : List Access
  bkpEdges : Nat
  owed : List Owed
  frpAnswer : Option (RespCode × Word)
  icpAnswer : Option (RespCode × Word)
  hiLatches : List HiLatch
  deriving DecidableEq, Repr

/-- One entry of the access table: the register words ACC_BASE, ACC_LIMIT, ACC_ATTR (R103). -/
structure AccEntry where
  base : Word
  limit : Word
  attr : Word
  deriving DecidableEq, Repr

structure RlogEntry where
  addr : Word
  req : BitVec 3
  dir : Bool
  reason : BitVec 4
  valid : Bool
  epoch : Word
  tick : Word
  deriving DecidableEq, Repr

structure Acc where
  group : Shadowed (Vector AccEntry 64)
  epoch : Word
  fenceDone : Flags 1
  flagEn : Bool
  rlog : Vector RlogEntry 16
  rlogNext : Fin 16
  rlogCount : Nat
  rlogOver : Byte
  deriving DecidableEq, Repr

/-! ### Life cycle, debug, JTAG -/

inductive DbgState where
  | idle | generating | challengeReady | verifying | session | lockout | trngFault
  deriving DecidableEq, Repr

inductive LcsOp where
  | transition (target : BitVec 3)
  | keyHash | noFieldDebug | nothing
  deriving DecidableEq, Repr

/-- The copies the verifier works on and the tick of VERIFY (R139). -/
structure Verifying where
  at_ : Nat
  challenge : List Byte
  pubkey : List Byte
  ticket : List Byte
  deriving DecidableEq, Repr

structure Lcs where
  lcw : BitVec 30
  keyLock : BitVec 5
  nfd : BitVec 5
  keyHash : Vector Word 8
  latched : BitVec 3
  erased : Bool
  flags : Flags 2
  enVerdict : Bool
  enTrans : Bool
  running : Option (LcsOp × Nat)
  opWhy : BitVec 4
  opHash : Vector Word 8
  result : BitVec 2
  why : BitVec 4
  dbg : DbgState
  lastVerdict : Bool
  scope : Option Word
  nonce : List Byte
  replaced : List Byte
  genAt : Nat
  pubkey : Vector Word 16
  ticket : Vector Word 17
  stage : Vector Word 8
  verifying : Option Verifying
  lockoutEnd : Nat
  deriving DecidableEq, Repr

structure Jtag where
  ir : Byte
  bscan : List Bool
  dr : List Word
  lastWrite : Bool
  lastAddr : Word
  lastData : Word
  ok : Bool
  denied : Bool
  pendingAnswer : Bool
  bypassReg : Bool
  rbFrame : Word
  rbRequested : Bool
  rbReady : Bool
  rbInvalid : Bool
  rbWords : List Word
  deriving DecidableEq, Repr

/-! ### Time base and encoders -/

/-- An encoder input (R159, R160): the level its filter accepted; the last synchronized sample and the tick from which the
samples agree on it; whether the voltage is below the threshold and since when; LOS, and the tick of its last start. -/
structure EncIn where
  level : Bool
  raw : Bool
  since : Nat
  low : Bool
  crossed : Nat
  los : Bool
  losAt : Nat
  deriving DecidableEq, Repr

/-- An open encoder fault (R171): its start by the model's clock, the position then, and the events after the first. -/
structure EncFault where
  start : Nat
  pos : Word
  events : Nat
  deriving DecidableEq, Repr

/-- An encoder. Of its own the model keeps the ticks, by its clock, of what R157, R162, R174 to R178 compare within one tick: the
last acceptance of A or B and of Z, the last index with whether it loaded the position, the last count with its sense, EN
becoming active, the end of a LOS, the last illegal transition, and the tick in which the budget of each kind was exhausted. -/
structure Enc where
  cfg : Shadowed Word
  pos : Word
  wrap : Word
  load : Word
  zload : Word
  zpos : Word
  ztime : Tick
  last : Tick
  cntIllegal : Byte
  cntLos : Byte
  cntIndex : BitVec 16
  inA : EncIn
  inB : EncIn
  inZ : EncIn
  accAt : Option Nat
  accZ : Option Nat
  zIndex : Option (Nat × Bool)
  counted : Option (Nat × Bool)
  enAt : Option Nat
  losEnd : Option Nat
  illegalNow : Option Nat
  rev : Bool
  extreme : Word
  zarmed : Bool
  suspect : Bool
  failed : Bool
  illegal : Option EncFault
  losAB : Option EncFault
  losZf : Option EncFault
  exIllegal : Option Nat
  exLosAB : Option Nat
  exLosZ : Option Nat
  deriving DecidableEq, Repr

/-- A position that waits for its tick E to enter the predictor view (R348). -/
structure PredEntry where
  pos : Word
  stamp : Nat
  at_ : Nat
  deriving DecidableEq, Repr

structure Rem where
  localEnc : Fin 8
  pos : Word
  stamp : Tick
  valid : Bool
  rev : Bool
  suspect : Bool
  failed : Bool
  waiting : List PredEntry
  predPos : Word
  deriving DecidableEq, Repr

structure Tbe where
  flags : Flags 17
  flagEn : BitVec 17
  snapTime : Tick
  snapPos : Vector Word 12
  snapAt : Option Nat
  enc : Vector Enc 8
  rem : Vector Rem 4
  deriving DecidableEq, Repr

/-! ### Trigger sequencers -/

structure TsqGroup where
  prog : Word
  pitch : Word
  origin : Word
  lead : Word
  preLead : Word
  hold : Word
  stop : Word
  pulse : Word
  stb : Word
  deriving DecidableEq, Repr

inductive SlotState where
  | free | open_ | committed
  deriving DecidableEq, Repr

/-- The frame-store reservation of a slot or line: none asked, asked, granted by number, refused (R199). -/
inductive ResState where
  | none | waiting | granted (res : Nat) | refused
  deriving DecidableEq, Repr

structure Slot where
  st : SlotState
  id : Word
  target : BitVec 48
  tExp : Option Int
  res : ResState
  strobeAt : Int
  hold : Nat
  expWidth : Nat
  stbWidth : Nat
  preWidth : Nat
  strobeLead : Nat
  src : Nat
  rev : Bool
  herd : Option (Fin 4)
  no : Nat
  deriving DecidableEq, Repr

/-- An edge that is scheduled and has not risen (R192); `no` is the number of the commit that scheduled it. -/
structure Edge where
  strobe : Bool
  at_ : Int
  width : Nat
  no : Nat
  deriving DecidableEq, Repr

structure Pulse where
  active : Bool
  end_ : Nat
  pol : Bool
  deriving DecidableEq, Repr

/-- An EXPOSE pulse that rises in tick `from_` and ends in tick `end_` (R195, R183). -/
structure ExpPulse where
  from_ : Nat
  end_ : Nat
  deriving DecidableEq, Repr

/-- A trigger sequencer. Of its own the model keeps the number of its commits, the tick in which it opened a slot last (R189), the
encoders whose position stepped and whose step it has not handled yet (R166), and durations by its clock. -/
structure Tsq where
  group : Shadowed TsqGroup
  slots : Vector Slot 64
  nextId : Word
  nextTarget : BitVec 48
  lastCommit : Option (BitVec 48)
  lineBoundary : Option Nat
  hist : List Nat
  interval : Option Int
  tLast : Nat
  frontier : Word
  stopFrom : Nat
  stopped : Bool
  srcWait : Bool
  herdWait : Bool
  retired : Bool
  strobe : Pulse
  pretrig : Pulse
  expose : List ExpPulse
  exposePol : Bool
  edges : List Edge
  commits : Nat
  openedAt : Option Nat
  steps : List (Fin 8)
  fault : Word
  cntFired : Word
  cntGhost : Word
  cntSquash : Word
  cntShort : Word
  cntNores : Word
  cntGhostLost : Word
  flags : Flags 6
  flagEn : BitVec 6
  deriving DecidableEq, Repr

/-! ### Capture channels -/

structure CapGroup where
  cfg : Word
  pixels : Word
  matchMin : Word
  matchMax : Word
  cc : Word
  deriving DecidableEq, Repr

/-- What a sequencer hands its channel at a release (R197). -/
structure Release where
  id : Word
  target : Word
  strobeTick : Int
  exposeTick : Nat
  shortLead : Bool
  suspect : Bool
  herd : Option (Fin 4)
  res : ResState
  deriving DecidableEq, Repr

/-- The handle of a line (R228). -/
inductive HandleState where
  | unasked | waiting | granted (h : Fin 2048) (gen : BitVec 7) | refused
  deriving DecidableEq, Repr

/-- A line in assembly, or one that ended and waits for its handle; `tags` are the transfer tags of its writes under way (R288). -/
structure Line where
  rel : Release
  free : Bool
  start : Nat
  fval : Bool
  handle : HandleState
  drop : Option (Fin 13)
  ended : Option Nat
  words : List CamWord
  tags : Nat
  deriving DecidableEq, Repr

structure LinkFault where
  start : Nat
  attempts : Nat
  second : Option (Fin 16)
  deriving DecidableEq, Repr

structure Cap where
  group : Shadowed CapGroup
  serUart : BitVec 5
  serNone : Bool
  locked : Bool
  armed : Bool
  retired : Bool
  cfgBad : Bool
  attemptAt : Option Nat
  windowAt : Option Nat
  pclk : BitVec 17
  pclkOk : Bool
  fault : Option LinkFault
  relocked : Bool
  pending : List Release
  line : Option Line
  ending : List Line
  freeId : Word
  faultSeq : Word
  cntLines : Word
  cntRelock : Word
  drops : Vector Word 13
  flags : Flags 5
  flagEn : BitVec 5
  deriving DecidableEq, Repr

/-! ### Page Warden -/

inductive ObjState where
  | free | writing | sealed_
  deriving DecidableEq, Repr

structure MapEntry where
  st : ObjState
  cls : PwClass
  refs : Nat
  poison : Bool
  owner : Fin 16
  stride : BitVec 9
  gen : BitVec 7
  pages : List (BitVec 12)
  deriving DecidableEq, Repr

structure Reservation where
  num : Nat
  cls : PwClass
  owner : Fin 16
  pages : List (BitVec 12)
  deriving DecidableEq, Repr

/-- An operation that waits for the Page Warden (R259). -/
inductive PwReq where
  | reserve (dest : PwDest) (cls : PwClass) (owner : Fin 16) (n : Nat)
  | map (dest : PwDest) (res : Nat) (stride : BitVec 9)
  | alloc (dest : PwDest) (cls : PwClass) (owner : Fin 16) (n : Nat) (stride : BitVec 9)
  | seal (dest : PwDest) (h : Fin 2048) (gen : BitVec 7)
  | addref (dest : PwDest) (h : Fin 2048) (gen : BitVec 7)
  | release (dest : PwDest) (h : Fin 2048) (gen : BitVec 7)
  | abandon (dest : PwDest) (h : Fin 2048) (gen : BitVec 7)
  deriving DecidableEq, Repr

structure PwGroup where
  qmin : Vector Word 3
  qcap : Vector Word 3
  qch : Vector Word 16
  deriving DecidableEq, Repr

structure Pw where
  group : Shadowed PwGroup
  quotaBad : Bool
  map : Vector MapEntry 2048
  reservations : List Reservation
  nextRes : Nat
  rewriting : List (List (BitVec 12))
  waiting : List PwReq
  badWords : List Nat
  ueDone : List Nat
  cntRefuse : Vector Word 3
  cntCe : Word
  cntUe : Word
  cntStale : Word
  cntRefFull : Word
  cntRange : Word
  lastErr : Word
  lastErrKind : BitVec 2
  flags : Flags 5
  flagEn : BitVec 5
  deriving DecidableEq, Repr

/-! ### Queue Engine -/

structure RingGroup where
  base : Word
  ctrl : Word
  sched : Word
  deriving DecidableEq, Repr

structure Ring where
  group : Shadowed RingGroup
  pi : BitVec 16
  ci : BitVec 16
  di : BitVec 16
  cfgBad : Bool
  done : List (BitVec 16)
  posts : BitVec 16
  full : BitVec 16
  deficit : Nat
  inTurn : Bool
  deriving DecidableEq, Repr

/-- A dispatched entry (R288, R291): who holds it, since when its timeout runs, the reference it carries, whether it
stands offered to a streaming port (R374), the repeats of its frame-store read in progress (R252), the STATUS that its
check at dispatch found, 0 when none (R283), its place in descriptor memory, and its timeout in µs (R291). -/
structure Taken where
  ring : Fin 1024
  idx : BitVec 16
  cons : Consumer
  at_ : Nat
  entry : List Byte
  ref : Option (Fin 2048 × BitVec 7)
  offered : Bool
  repeats : Nat
  verdict : Byte
  addr : Nat
  limit : Nat
  deriving DecidableEq, Repr

/-- A management descriptor under way (R282). -/
structure MgmtOp where
  ring : Fin 1024
  idx : BitVec 16
  fabric : Bool
  order : Nat
  write : Bool
  inline : Bool
  nwords : Nat
  addr : Word
  handle : Fin 2048
  gen : BitVec 7
  objOffset : Nat
  inlineData : List Word
  next : Nat
  lastAt : Nat
  refused : Bool
  noresp : Bool
  poisoned : Bool
  stale : Bool
  deriving DecidableEq, Repr

/-- The turn order of the ready rings of one consumer and class (R290). -/
structure TurnList where
  cons : Consumer
  cls : Fin 4
  rings : List (Fin 1024)
  deriving DecidableEq, Repr

structure HostResult where
  busy : Bool
  done : Bool
  code : BitVec 2
  handle : BitVec 11
  gen : BitVec 7
  deriving DecidableEq, Repr

structure Qe where
  rings : Vector Ring 1024
  taken : List Taken
  ops : List MgmtOp
  turns : List TurnList
  seq : Word
  cntFaultLost : Word
  cntDoorbellBad : Word
  cntTimeout : Word
  cntLate : Word
  flags : Flags 7
  flagEn : BitVec 7
  argN : BitVec 4
  argStride : BitVec 9
  result : HostResult
  deriving DecidableEq, Repr

/-! ### Egress -/

structure EgrClass where
  dstMacLo : Word
  dstMacHi : Word
  dstIp : Word
  cfg : Word
  vlan : Word
  deriving DecidableEq, Repr

structure EgrGroup where
  cfg : Word
  srcMacLo : Word
  srcMacHi : Word
  srcIp : Word
  srcUdp : Word
  cls : Vector EgrClass 8
  gap : Vector Word 16
  deriving DecidableEq, Repr

/-- An entry a port holds whose payload is not all read (R314): the line and byte reached. -/
structure Held where
  ring : Fin 1024
  idx : BitVec 16
  cls : Fin 8
  handle : Fin 2048
  gen : BitVec 7
  firstLine : Nat
  nlines : Nat
  offset : Nat
  length : Nat
  trig : Word
  user : Word
  line : Nat
  frag : Nat
  fmax : Option Nat
  gapValid : Bool
  gap : BitVec 16
  deriving DecidableEq, Repr

/-- A frame in a buffer, its header fields fixed by the settings in force when it was begun (R323); `ready` once its payload is read
and it is built, `entryLast` for the last frame of its entry. -/
structure Frame where
  dstMac : List Byte
  srcMac : List Byte
  vlan : Option (BitVec 16)
  dscp : BitVec 6
  ttl : Byte
  srcIp : Word
  dstIp : Word
  srcUdp : BitVec 16
  dstPort : BitVec 16
  stream : Byte
  cls : Fin 8
  first : Bool
  last : Bool
  gapValid : Bool
  gap : BitVec 16
  trig : Word
  user : Word
  lineBytes : BitVec 16
  fragOffset : BitVec 16
  ring : BitVec 10
  data : List Byte
  ready : Bool
  entryLast : Bool
  deriving DecidableEq, Repr

structure EgrFault where
  start : Nat
  losses : Nat
  downTicks : Nat
  downSince : Option Nat
  deriving DecidableEq, Repr

structure Egr where
  group : Shadowed EgrGroup
  blockLock : Bool
  hiBer : Bool
  rxLocalFault : Bool
  rxRemoteFault : Bool
  armed : Bool
  retired : Bool
  fault : Option EgrFault
  faultSeq : Word
  flags : Flags 6
  flagEn : BitVec 6
  pseq : Vector Word 8
  gapLast : Vector (Option Word) 16
  held : List Held
  frames : List Frame
  wire : Option (Frame × List Byte)
  sent : Option (List Byte)
  txBytes : Tick
  txFrames : Word
  txLines : Word
  discFrames : Word
  discEntries : Word
  entryErr : Word
  cntPause : Word
  cntOrder : Word
  linkLoss : Word
  cntRxPtp : Word
  rxDrop : Vector Word 6
  rxRing : Vector (List Byte) 16
  rxPi : Byte
  rxCi : Byte
  deriving DecidableEq, Repr

/-! ### Herd link -/

structure HlGroup where
  cfg : Word
  herd : Vector Word 4
  deriving DecidableEq, Repr

inductive PortState where
  | down | train | up | long | failed | disabled
  deriving DecidableEq, Repr

structure HlErr where
  high : Nat
  bad : Nat
  deriving DecidableEq, Repr

/-- A message to be forwarded on a port: its bytes, its herd if it has one, and whether it is of class 0 (R341, R343). -/
structure HlForward where
  msg : List Byte
  herd : Option (Fin 4)
  class0 : Bool
  deriving DecidableEq, Repr

/-- A herd-link port. `kept` is FAILED or LONG while the port is disabled in that state (R356); `probesLeft`, `probeAt` and `trips` are
the PROBEs still to send, the transmit starts of those not answered, and the round trips measured with their TA (R340); `echoes` the
receive starts of PROBEs not answered yet; `fwd`, `timeDue` and `readyDue` what waits for a slot (R343), and `turn` the herd whose
POSITION the port sent last; `tx` and `line` are the message and the code groups of the slot under way, none while squelched, and
`disparity` the running disparity after it, true when positive (R337). -/
structure HlPort where
  st : PortState
  kept : PortState
  err : Nat
  good : Nat
  goodRun : Nat
  l : BitVec 7
  fault : Option HlErr
  probesLeft : Nat
  probeAt : List Nat
  trips : List (Nat × Nat)
  echoes : List Nat
  fwd : List HlForward
  timeDue : Bool
  readyDue : BitVec 4
  turn : Fin 4
  cntBad : Word
  faultSeq : Word
  tx : Option (List Byte)
  line : List (BitVec 10)
  disparity : Bool
  deriving DecidableEq, Repr

inductive HerdState where
  | off | idle | starting | started | retired
  deriving DecidableEq, Repr

inductive HerdEvent where
  | start | stop | retire | revive
  deriving DecidableEq, Repr

/-- A class-0 effect waiting for its tick T_EFF (R344, R351 to R354). -/
structure Sched where
  ev : HerdEvent
  tEff : Nat
  origin : Fin 8
  seq : Word
  localFault : Bool
  deriving DecidableEq, Repr

/-- A POSITION due: REM(h)'s state at the decision tick, the ports that still send it, and whether one has (R347). -/
structure PosDue where
  pos : Word
  stamp : Nat
  flags : BitVec 4
  ports : BitVec 2
  sent : Bool
  deriving DecidableEq, Repr

/-- A herd. `kept` is whether it was RETIRED when its EN became 0 (R16); `readyAt`, `sentAt` and `readySentAt` are ticks of the model's
clock. -/
structure Herd where
  st : HerdState
  kept : Bool
  readySeen : Byte
  readyAt : Vector Nat 8
  cause : BitVec 3
  originDev : BitVec 3
  originSeq : Word
  cross : BitVec 2
  tStart : Tick
  sched : List Sched
  due : Option PosDue
  sentPos : Word
  sentFlags : BitVec 4
  sentAt : Option Nat
  readySentAt : Option Nat
  leadPort : Option (Fin 2)
  deriving DecidableEq, Repr

/-- A class-0 message that this device originates (R344): since when it is due, its T_EFF once its first slot is known, and the
copies each port has still to send. -/
structure HlOut where
  ev : HerdEvent
  herd : Fin 4
  delta : Nat
  reason : Byte
  seq : Word
  serial : Byte
  since : Nat
  tEff : Option Nat
  left : Vector Nat 2
  deriving DecidableEq, Repr

/-- The herd link. `haltExt` is whether another device drives HERD_HALT_N low, and `haltSince` since when the wire is low (R358,
R359). -/
structure Hl where
  group : Shadowed HlGroup
  aligned : Bool
  goodTimes : Nat
  haltExt : Bool
  haltSince : Option Nat
  haltIn : Bool
  haltOut : Bool
  flags : Flags 8
  flagEn : Byte
  lastErr : Byte
  steps : Byte
  cntForeign : Word
  ports : Vector HlPort 2
  herds : Vector Herd 4
  serial : Byte
  seen : List (Fin 8 × Byte)
  timeSentAt : Option Nat
  out0 : List HlOut
  deriving DecidableEq, Repr

/-! ### Fabric streaming ports -/

inductive FspAnswer where
  | ok | refused | tags | refFull | poison | stale | noref | limit | notown | full | notring | late
  deriving DecidableEq, Repr

inductive BeatStatus where
  | ok | range | poison
  deriving DecidableEq, Repr

structure Fsp where
  used : Bool
  clkBad : Bool
  net : Fin 16
  refs : List (Fin 2048 × BitVec 7)
  allocTags : List (Fin 2048 × BitVec 7)
  cntRefuse : Word
  cntBeats : Word
  resp : Option (FspAnswer × Option (Fin 2048 × BitVec 7))
  rdata : List (BeatStatus × List Byte)
  deriving DecidableEq, Repr

/-! ### Fabric clocks (R371, R372) -/

/-- What drives a regional clock. -/
inductive RckSource where
  | none
  | net (n : Fin 16)
  | pin (p : Fin 96)
  deriving DecidableEq, Repr

/-- The clocks of the image in use: the GC on each global network, the networks of FRP and ICP, and RCK(r,k) at 8r + k. -/
structure Fab where
  nets : Vector (Option (Fin 32)) 16
  frpNet : Fin 16
  icpNet : Fin 16
  rck : Vector RckSource 128
  deriving DecidableEq, Repr

/-! ### Configuration controller and non-volatile array -/

/-- A configuration or BRAM content frame: 96 data words and the check word, by frame address (R387). -/
structure CfgFrame where
  addr : Word
  words : List Word
  deriving DecidableEq, Repr

inductive NvState where
  | empty | incomplete | valid
  deriving DecidableEq, Repr

/-- Header fields of an image (R397). -/
structure Header where
  seq : Word
  idcode : Word
  version : Byte
  compat : Byte
  ztab : Vector Word 8
  sig : Vector Word 8
  deriving DecidableEq, Repr

structure NvSlot where
  st : NvState
  hdr : Header
  hdrCrcOk : Bool
  frames : List CfgFrame
  writes : BitVec 16
  deriving DecidableEq, Repr

/-- The slot registers as they last read the header (chapter 14, "Register reference"). -/
structure SlotView where
  st : BitVec 2
  hdrBad : Bool
  hdr : Header
  deriving DecidableEq, Repr

inductive WPhase where
  | search | header | erasing | frames | finishing | done | failed
  deriving DecidableEq, Repr

inductive WReason where
  | none | format | idcode | version | compat | slot | active | protect | scrapped | length | zones | order | frameCrc
  | count | streamCrc | signature | program | aborted
  deriving DecidableEq, Repr

inductive CfgOp where
  | invalidate | erase | saveBoot | clear
  deriving DecidableEq, Repr

/-- Header packets already taken, in the order of the grammar (R398). -/
structure Parse where
  stage : Nat
  idcode : Word
  verWord : Word
  seq : Word
  target : BitVec 32
  len : Word
  ztab : Vector Word 8
  sig : Vector Word 8
  crcBytes : List Byte
  expected : Option Word
  framesLeft : Nat
  framesTaken : Nat
  fdataSeen : Bool
  current : Option CfgFrame
  attempt : Nat
  queued : List CfgFrame
  endCrc : Option Word
  endCrcWant : Word
  aborting : Bool
  deriving DecidableEq, Repr

inductive BootRes where
  | unused | ok | notCandidate | frameCrc
  deriving DecidableEq, Repr

structure Cfg where
  slots : Vector NvSlot 3
  views : Vector SlotView 3
  bootCopyA : Option (Bool × BitVec 2)
  bootCopyB : Option (Bool × BitVec 2)
  scrubCopyA : Option (Byte × Bool)
  scrubCopyB : Option (Byte × Bool)
  booted : BitVec 2
  bootDefault : Bool
  bootLog : List (Fin 3 × BootRes)
  nextSlot : BitVec 2
  nextEn : Bool
  mode : Bool
  prefer : BitVec 2
  cmd : Option (CfgOp × BitVec 2)
  cmdResult : BitVec 2
  pcpEn : Bool
  goldenWe : Bool
  phase : WPhase
  target : BitVec 3
  reason : WReason
  frames : Word
  cntDisc : Word
  flags : Flags 5
  flagEn : BitVec 5
  parse : Parse
  latches : List CfgFrame
  deriving DecidableEq, Repr

/-! ### Scrubber and swap zones -/

inductive ZoneState where
  | none | boot | loading | verifying | loaded | failed | damaged | restoring
  deriving DecidableEq, Repr

structure Zone where
  st : ZoneState
  reason : BitVec 3
  result : BitVec 2
  first : Byte
  last : Byte
  next : Option Word
  received : Nat
  words : List Word
  sigWords : List Word
  sig : Vector Word 8
  restoreFrom : Option Word
  restoreFails : Nat
  deriving DecidableEq, Repr

/-- A reload of the pass under way (R438): the frame and the attempts that failed. -/
structure Reload where
  frame : Word
  failures : Nat
  deriving DecidableEq, Repr

structure Scb where
  cfgA : Byte × Bool
  cfgB : Byte × Bool
  cfgC : Byte × Bool
  stageInterval : Byte
  stageReconf : Bool
  saving : Option (Byte × Bool)
  hdrDefault : Bool
  icpClkBad : Bool
  passBusy : Bool
  reloadPass : Bool
  passCount : Word
  passTime : BitVec 20
  flags : Flags 6
  flagEn : BitVec 6
  cntCorrected : Word
  cntReloaded : Word
  cntVote : Word
  cntSigFail : Word
  cntSkipped : Word
  lastFrame : Word
  zones : Vector Zone 8
  passNext : Option Word
  changed : List (Fin 8)
  sigFault : Option Word
  reload : Option Reload
  passFrom : Nat
  lastPassEnd : Option Nat
  loadBusy : List Nat
  imgBytes : List Byte
  zoneBytes : List (Fin 8 × List Byte)
  deriving DecidableEq, Repr

/-! ### Counters that a CNT_CLEAR of the same clock does not lose (R484, R512) -/

/-- n counters of 8 bits, and what each counted in the present tick. A UART's are FE, PE, OVR, BREAK, IR_FLOOD, DISCARD and TX_LOST; an SPC's
MODF, RX_OVR, TX_UNDER, PARTIAL, FRAME_REJ, CMD_REJ, TX_LOST, CMD_LOST, STALL and TX_CUT. -/
structure Tally (n : Nat) where
  count : Vector Byte n
  fresh : Vector Byte n
  deriving DecidableEq, Repr

def Tally.init {n : Nat} : Tally n := ⟨Vector.replicate n 0, Vector.replicate n 0⟩

/-! ### UARTs -/

structure UaGroup where
  cfg : Word
  div : Word
  deriving DecidableEq, Repr

structure RxChar where
  data : BitVec 9
  fe : Bool
  pe : Bool
  brk : Bool
  ovr : Bool
  deriving DecidableEq, Repr

/-- The UART receiver (R463 to R467): waiting for level 1, armed with the level of the last sample period, or in the given sample period of a
character with the samples taken so far. -/
inductive RxArm where
  | waitMark
  | armed (prev : Bool)
  | assembling (period : Nat) (bits : List Bool) (prev : Bool)
  deriving DecidableEq, Repr

/-- A character on the transmitter's line: its first tick, the ticks of a bit, the tick its last stop bit ends with, and the framed levels. -/
structure TxFrame where
  from_ : Nat
  unit : Nat
  end_ : Nat
  bits : List Bool
  deriving DecidableEq, Repr

structure Ua where
  group : Shadowed UaGroup
  pins : Bool
  loop : Bool
  brk : Bool
  brkFrom : Nat
  gapUntil : Nat
  rx : List RxChar
  rxHeld : Option RxChar
  tx : List (BitVec 9)
  cfgBad : Bool
  quiet : Bool
  quietFrom : Nat
  arm : RxArm
  pulses : List Nat
  frame : Option TxFrame
  before : Option TxFrame
  flags : Flags 9
  flagEn : BitVec 9
  tally : Tally 7
  deriving DecidableEq, Repr

/-! ### SPI controllers -/

structure SpcGroup where
  cfg : Word
  clk : Word
  fill : Word
  deriving DecidableEq, Repr

structure SpcRx where
  data : Byte
  frameEnd : Bool
  committed : Bool
  deriving DecidableEq, Repr

/-- The command at the head of the queue once it has started: what is left of it. -/
structure SpcRun where
  kind : BitVec 2
  left : Nat
  cont : Bool
  until_ : Nat
  deriving DecidableEq, Repr

structure Spc where
  group : Shadowed SpcGroup
  queue : List Word
  run : Option SpcRun
  rx : List SpcRx
  rxHeld : Option SpcRx
  tx : List (Byte × Nat)
  frameOpen : Bool
  sel : BitVec 4
  wordPos : Nat
  chain : Bool
  contWait : Bool
  stalled : Bool
  halted : Bool
  cfgBad : Bool
  slaveFrame : Bool
  slaveBytes : Nat
  slaveLost : Bool
  slaveNext : Option Byte
  slaveOut : Byte
  slaveFlushed : Bool
  lastMosi : Option Byte
  tally : Tally 10
  doneCmds : BitVec 16
  doneFrames : BitVec 16
  doneNow : BitVec 16
  framesNow : BitVec 16
  flags : Flags 11
  flagEn : BitVec 11
  deriving DecidableEq, Repr

/-! ### Pins and HKADC -/

structure Pil where
  cfg : Word
  raw : Bool
  agree : Nat
  level : Bool
  edges : BitVec 16
  missed : Byte
  stamp : Tick
  deriving DecidableEq, Repr

structure Pio where
  pin : Vector Word 96
  out : Vector (BitVec 16) 6
  oe : Vector (BitVec 16) 6
  kept : Vector Bool 96
  pil : Vector Pil 16
  flags : Flags 17
  flagEn : BitVec 17
  deriving DecidableEq, Repr

structure AdcGroup where
  cfg : Word
  mask : Word
  lim : Vector Word 20
  deriving DecidableEq, Repr

structure AdcRes where
  value : BitVec 12
  valid : Bool
  skipped : Bool
  scan : Byte
  deriving DecidableEq, Repr

structure Adc where
  group : Shadowed AdcGroup
  scanning : Bool
  channel : Fin 20
  skip : Bool
  channelFrom : Nat
  due : Bool
  lastStart : Nat
  scanCount : BitVec 16
  res : Vector AdcRes 20
  flags : Flags 21
  flagEn : BitVec 21
  deriving DecidableEq, Repr

/-! ### Backup domain -/

structure LogEntry where
  bc : BitVec 48
  alm : BitVec 2
  mainOff : Bool
  valid : Bool
  deriving DecidableEq, Repr

structure Bkp where
  bc : BitVec 48
  bcLoad : BitVec 48
  kcCfg : BitVec 7
  kc : Vector Word 2
  kcShown : Vector Word 2
  kcA : BitVec 2
  kcB : BitVec 2
  almCfg : Byte
  almLevel : BitVec 4
  sealTick : Tick
  log : Vector LogEntry 16
  logCount : Nat
  logLost : Byte
  alarms : Flags 2
  scratch : Vector Word 32
  loadPending : Bool
  kcClear : BitVec 2
  pairBc : BitVec 48
  pairTick : Tick
  pairKc : Vector Word 2
  pairValid : Bool
  pairDue : Bool
  oscRunning : Bool
  oscPhase : Nat
  edgeNow : Bool
  almSample : BitVec 4
  almSeen : BitVec 4
  mainRun : Bool
  deriving DecidableEq, Repr

/-- One register write that took effect in the present tick (R10, R94). -/
structure RegWrote where
  req : Req
  addr : Word
  data : Word
  deriving DecidableEq, Repr

/-- A start that met the same action still running (R9): a slot command (R406), a SAVE (R445), a START of HKADC (R526). -/
inductive Retry where
  | slotCommand (op : CfgOp) (slot : BitVec 2)
  | save
  | hkadc
  deriving DecidableEq, Repr

/-- What the present tick has seen so far: its register writes, its starts that met a busy unit, whether what falls due at its end
has been queued, the zone frame whose visit waits for its end (R448), the scrub header as it was before a SAVE that completed in it (R455), and
the zone whose OPEN or RESTORE it accepted, as it was (R457) (the
MODEL'S OWN fields; log entries 6, 90). -/
structure Moment where
  wrote : List RegWrote
  retry : List Retry
  late : Bool
  scrub : Option (List Nat)
  header : Option (Option (Byte × Bool) × Option (Byte × Bool))
  zoneWas : Option (Fin 8 × Zone)
  deriving DecidableEq, Repr

def Moment.init : Moment := ⟨[], [], false, none, none, none⟩

/-- The whole device. -/
structure State where
  pending : List Instr
  moment : Moment
  freeCtr : Nat
  undef : Option UndefCause
  time : Tick
  clock : Nat
  sys : Sys
  mp : Mp
  bus : Bus
  acc : Acc
  lcs : Lcs
  jtag : Jtag
  tbe : Tbe
  tsq : Vector Tsq 16
  cap : Vector Cap 16
  tagBase : BitVec 3
  pw : Pw
  qe : Qe
  egr : Vector Egr 4
  hl : Hl
  fsp : Vector Fsp 8
  fab : Fab
  cfg : Cfg
  scb : Scb
  ua : Vector Ua 18
  spc : Vector Spc 2
  pio : Pio
  adc : Adc
  bkp : Bkp
  dm : List Host.Cell
  fs : List Host.Cell
  deriving DecidableEq, Repr

/-! ### Reset values (the Reset columns; R36) -/

def Sys.init : Sys :=
  { resetN := true, phase := .waitLock, cause := 0b001, reconfCount := 0, fallbacks := 0, totalUs := 0, lockUs := 0,
    softReq := none, reconfReq := false, sysLock := false, ethLock := false, hlLock := false, fcgLock := 0,
    lol := .none, ethFirst := false, hlFirst := false, clkFlag := .none, clkFlagEn := false }

def Mp.init : Mp :=
  { lastOk := false, denied := false, noresp := false, deniedSeen := false, norespSeen := false, voidSeen := false,
    lastOpcode := 0, wellFormed := false, lastWords := 0, attnMask := 0x1C000, winAddr := 0, winData := 0,
    autoinc := true, scratch := 0, buffer := [], losses := [], overflow := false, cut := false, fresh := true, viewStatus := 0,
    viewAttn := 0, viewStream := 0x1000, miso := none }

def Bus.init : Bus :=
  { nextId := 0, epochOrder := 0, inflight := [], bkpBuf := [], bkpEdges := 0, owed := [], frpAnswer := none, icpAnswer := none,
    hiLatches := [] }

/-- The table of R106: entry 0 opens everything to MP and JTAG, every other entry is disabled and zero. -/
def accTable : Vector AccEntry 64 :=
  (Vector.replicate 64 ⟨0, 0, 0⟩).set 0 ⟨0, 0xFFFF_FFFC, 0x0000_0907⟩

def Acc.init : Acc :=
  { group := .init accTable, epoch := 0, fenceDone := .none, flagEn := false,
    rlog := Vector.replicate 16 ⟨0, 0, false, 0, false, 0, 0⟩, rlogNext := 0, rlogCount := 0, rlogOver := 0 }

/-- LCS after reset with the fuses as shipped (R553; log entry 2): BLANK, no key, STATE LOCKOUT (R141). -/
def Lcs.init : Lcs :=
  { lcw := 0, keyLock := 0, nfd := 0, keyHash := Vector.replicate 8 0, latched := 0, erased := false,
    flags := .none, enVerdict := false, enTrans := false, running := none, opWhy := 0, opHash := Vector.replicate 8 0,
    result := 0, why := 0, dbg := .lockout, lastVerdict := false, scope := none, nonce := [], replaced := [], genAt := 0,
    pubkey := Vector.replicate 16 0, ticket := Vector.replicate 17 0, stage := Vector.replicate 8 0,
    verifying := none, lockoutEnd := 400000000 }

def Jtag.init : Jtag :=
  { ir := 0x02, bscan := [], dr := [], lastWrite := false, lastAddr := 0, lastData := 0, ok := false, denied := false,
    pendingAnswer := false, bypassReg := false, rbFrame := 0, rbRequested := false, rbReady := false,
    rbInvalid := false, rbWords := [] }

def EncIn.init : EncIn :=
  { level := false, raw := false, since := 0, low := false, crossed := 0, los := false, losAt := 0 }

def Enc.init : Enc :=
  { cfg := .init 0, pos := 0, wrap := 0, load := 0, zload := 0, zpos := 0, ztime := 0, last := 0, cntIllegal := 0,
    cntLos := 0, cntIndex := 0, inA := EncIn.init, inB := EncIn.init, inZ := EncIn.init, accAt := none, accZ := none, zIndex := none,
    counted := none, enAt := none, losEnd := none, illegalNow := none, rev := false, extreme := 0, zarmed := false,
    suspect := false, failed := false, illegal := none, losAB := none, losZf := none, exIllegal := none, exLosAB := none,
    exLosZ := none }

def Rem.init : Rem :=
  { localEnc := 0, pos := 0, stamp := 0, valid := false, rev := false, suspect := false, failed := false,
    waiting := [], predPos := 0 }

def Tbe.init : Tbe :=
  { flags := .none, flagEn := 0, snapTime := 0, snapPos := Vector.replicate 12 0, snapAt := none, enc := Vector.replicate 8 Enc.init,
    rem := Vector.replicate 4 Rem.init }

def TsqGroup.init : TsqGroup :=
  { prog := 0, pitch := 0x0001_0000, origin := 0, lead := 0, preLead := 0, hold := 0, stop := 0, pulse := 0, stb := 0 }

def Slot.init : Slot :=
  { st := .free, id := 0, target := 0, tExp := none, res := .none, strobeAt := 0, hold := 0, expWidth := 0,
    stbWidth := 0, preWidth := 0, strobeLead := 0, src := 0, rev := false, herd := none, no := 0 }

def Pulse.init : Pulse := { active := false, end_ := 0, pol := false }

def Tsq.init : Tsq :=
  { group := .init TsqGroup.init, slots := Vector.replicate 64 Slot.init, nextId := 0, nextTarget := 0,
    lastCommit := none, lineBoundary := none, hist := [], interval := none, tLast := 0, frontier := 0, stopFrom := 0,
    stopped := false, srcWait := false, herdWait := false, retired := false, strobe := Pulse.init,
    pretrig := Pulse.init, expose := [], exposePol := false, edges := [], commits := 0, openedAt := none, steps := [], fault := 0, cntFired := 0, cntGhost := 0,
    cntSquash := 0, cntShort := 0, cntNores := 0, cntGhostLost := 0, flags := .none, flagEn := 0 }

def CapGroup.init : CapGroup := { cfg := 0, pixels := 0, matchMin := 0, matchMax := 0, cc := 0 }

/-- Channel n at reset: CAP_SER.UART is n (chapter 08). -/
def Cap.init (n : BitVec 5) : Cap :=
  { group := .init CapGroup.init, serUart := n, serNone := false, locked := false, armed := false, retired := false,
    cfgBad := false, attemptAt := none, windowAt := none, pclk := 0, pclkOk := false, fault := none, relocked := false,
    pending := [], line := none, ending := [], freeId := 0, faultSeq := 0, cntLines := 0, cntRelock := 0,
    drops := Vector.replicate 13 0, flags := .none, flagEn := 0 }

def MapEntry.init : MapEntry :=
  { st := .free, cls := .capture, refs := 0, poison := false, owner := 0, stride := 0, gen := 0, pages := [] }

def PwGroup.init : PwGroup :=
  { qmin := Vector.replicate 3 0, qcap := Vector.replicate 3 0x0800_1000, qch := Vector.replicate 16 0 }

def Pw.init : Pw :=
  { group := .init PwGroup.init, quotaBad := false, map := Vector.replicate 2048 MapEntry.init, reservations := [],
    nextRes := 0, rewriting := [], waiting := [], badWords := [], ueDone := [], cntRefuse := Vector.replicate 3 0, cntCe := 0,
    cntUe := 0, cntStale := 0, cntRefFull := 0, cntRange := 0, lastErr := 0, lastErrKind := 0, flags := .none, flagEn := 0 }

/-- A ring at reset: QE_RING_CTRL holds SIZE_LOG2 4; the PROD fields of rings 0 to 32 follow from the ring number
(R280) and are put in where the register is read. -/
def Ring.init : Ring :=
  { group := .init { base := 0, ctrl := 0x40, sched := 0 }, pi := 0, ci := 0, di := 0, cfgBad := false, done := [],
    posts := 0, full := 0, deficit := 0, inTurn := false }

def Qe.init : Qe :=
  { rings := Vector.replicate 1024 Ring.init, taken := [], ops := [], turns := [],
    seq := 1, cntFaultLost := 0, cntDoorbellBad := 0, cntTimeout := 0, cntLate := 0, flags := .none, flagEn := 0, argN := 0,
    argStride := 0, result := ⟨false, false, 0, 0, 0⟩ }

def EgrGroup.init : EgrGroup :=
  { cfg := 0, srcMacLo := 0, srcMacHi := 0, srcIp := 0, srcUdp := 0,
    cls := Vector.replicate 8 ⟨0, 0, 0, 0x4000_0000, 0x2580_0000⟩, gap := Vector.replicate 16 0 }

def Egr.init : Egr :=
  { group := .init EgrGroup.init, blockLock := false, hiBer := false, rxLocalFault := false,
    rxRemoteFault := false, armed := false, retired := false, fault := none, faultSeq := 0, flags := .none, flagEn := 0,
    pseq := Vector.replicate 8 0, gapLast := Vector.replicate 16 none, held := [], frames := [], wire := none,
    sent := none, txBytes := 0, txFrames := 0, txLines := 0, discFrames := 0, discEntries := 0,
    entryErr := 0, cntPause := 0, cntOrder := 0, linkLoss := 0, cntRxPtp := 0, rxDrop := Vector.replicate 6 0,
    rxRing := Vector.replicate 16 [], rxPi := 0, rxCi := 0 }

def HlPort.init : HlPort :=
  { st := .down, kept := .down, err := 0, good := 0, goodRun := 0, l := 0, fault := none, probesLeft := 0, probeAt := [], trips := [],
    echoes := [], fwd := [], timeDue := false, readyDue := 0, turn := 0, cntBad := 0, faultSeq := 0, tx := none, line := [],
    disparity := false }

def Herd.init : Herd :=
  { st := .off, kept := false, readySeen := 0, readyAt := Vector.replicate 8 0, cause := 0, originDev := 0, originSeq := 0, cross := 0,
    tStart := 0, sched := [], due := none, sentPos := 0, sentFlags := 0, sentAt := none, readySentAt := none, leadPort := none }

def Hl.init : Hl :=
  { group := .init ⟨0, Vector.replicate 4 0⟩, aligned := false, goodTimes := 0, haltExt := false, haltSince := none, haltIn := false,
    haltOut := false, flags := .none, flagEn := 0, lastErr := 0, steps := 0, cntForeign := 0, ports := Vector.replicate 2 HlPort.init,
    herds := Vector.replicate 4 Herd.init, serial := 0, seen := [], timeSentAt := none, out0 := [] }

def Fsp.init : Fsp :=
  { used := false, clkBad := false, net := 0, refs := [], allocTags := [], cntRefuse := 0, cntBeats := 0,
    resp := none, rdata := [] }

/-- No image: no network carries a clock. -/
def Fab.init : Fab := { nets := Vector.replicate 16 none, frpNet := 0, icpNet := 0, rck := Vector.replicate 128 .none }

def Header.init : Header :=
  { seq := 0, idcode := 0, version := 0, compat := 0, ztab := Vector.replicate 8 0, sig := Vector.replicate 8 0 }

/-- A slot as shipped (R553). -/
def NvSlot.init : NvSlot := { st := .empty, hdr := Header.init, hdrCrcOk := false, frames := [], writes := 0 }

def Parse.init : Parse :=
  { stage := 0, idcode := 0, verWord := 0, seq := 0, target := 0, len := 0, ztab := Vector.replicate 8 0,
    sig := Vector.replicate 8 0, crcBytes := [], expected := none, framesLeft := 0, framesTaken := 0,
    fdataSeen := false, current := none, attempt := 0, queued := [], endCrc := none, endCrcWant := 0, aborting := false }

def Cfg.init : Cfg :=
  { slots := Vector.replicate 3 NvSlot.init, views := Vector.replicate 3 ⟨0, false, Header.init⟩, bootCopyA := none,
    bootCopyB := none, scrubCopyA := none, scrubCopyB := none, booted := 3, bootDefault := false, bootLog := [],
    nextSlot := 0, nextEn := false, mode := false, prefer := 0, cmd := none, cmdResult := 0,
    pcpEn := false, goldenWe := false, phase := .search, target := 0, reason := .none, frames := 0, cntDisc := 0,
    flags := .none, flagEn := 0, parse := Parse.init, latches := [] }

def Zone.init : Zone :=
  { st := .none, reason := 0, result := 0, first := 0, last := 0, next := none, received := 0, words := [],
    sigWords := [], sig := Vector.replicate 8 0, restoreFrom := none, restoreFails := 0 }

def Scb.init : Scb :=
  { cfgA := (0, true), cfgB := (0, true), cfgC := (0, true), stageInterval := 0, stageReconf := false,
    saving := none, hdrDefault := false, icpClkBad := false, passBusy := false, reloadPass := false, passCount := 0,
    passTime := 0, flags := .none, flagEn := 0, cntCorrected := 0, cntReloaded := 0, cntVote := 0, cntSigFail := 0,
    cntSkipped := 0, lastFrame := 0, zones := Vector.replicate 8 Zone.init, passNext := none, changed := [],
    sigFault := none, reload := none, passFrom := 0, lastPassEnd := none, loadBusy := [], imgBytes := [],
    zoneBytes := [] }

def Ua.init : Ua :=
  { group := .init ⟨0x0000_000C, 0x0000_028B⟩, pins := false, loop := false, brk := false, brkFrom := 0, gapUntil := 0, rx := [],
    rxHeld := none, tx := [], cfgBad := false, quiet := false, quietFrom := 0, arm := .waitMark, pulses := [], frame := none,
    before := none, flags := .none, flagEn := 0, tally := .init }

def Spc.init : Spc :=
  { group := .init ⟨0x000F_0000, 0x0000_00F9, 0x0000_FFFF⟩, queue := [], run := none, rx := [], rxHeld := none, tx := [],
    frameOpen := false, sel := 0, wordPos := 0, chain := false, contWait := false, stalled := false, halted := false,
    cfgBad := false, slaveFrame := false, slaveBytes := 0, slaveLost := false, slaveNext := none, slaveOut := 0,
    slaveFlushed := false, lastMosi := none, tally := .init, doneCmds := 0, doneFrames := 0, doneNow := 0, framesNow := 0,
    flags := .none, flagEn := 0 }

def Pio.init : Pio :=
  { pin := Vector.replicate 96 0, out := Vector.replicate 6 0, oe := Vector.replicate 6 0, kept := Vector.replicate 96 false,
    pil := Vector.replicate 16 ⟨0, false, 0, false, 0, 0, 0⟩, flags := .none, flagEn := 0 }

def Adc.init : Adc :=
  { group := .init ⟨0, 0, Vector.replicate 20 0x0FFF_0000⟩, scanning := false, channel := 0, skip := false, channelFrom := 0,
    due := false, lastStart := 0, scanCount := 0, res := Vector.replicate 20 ⟨0, false, false, 0⟩, flags := .none, flagEn := 0 }

/-- The backup domain at the model's reset: the manual defines no value (R46, R47); zero is a DESIGN CHOICE
(log entry 1). The pair registers read 0 (R53). -/
def Bkp.init : Bkp :=
  { bc := 0, bcLoad := 0, kcCfg := 0, kc := Vector.replicate 2 0, kcShown := Vector.replicate 2 0, kcA := 0, kcB := 0, almCfg := 0, almLevel := 0,
    sealTick := 0, log := Vector.replicate 16 ⟨0, 0, false, false⟩, logCount := 0, logLost := 0, alarms := .none, scratch := Vector.replicate 32 0, loadPending := false, kcClear := 0, pairBc := 0,
    pairTick := 0, pairKc := Vector.replicate 2 0, pairValid := false, pairDue := false, oscRunning := true,
    oscPhase := 0, edgeNow := false, almSample := 0, almSeen := 0, mainRun := false }

/-- The sixteen channels at reset. -/
def capInit : Vector Cap 16 :=
  #v[Cap.init 0, Cap.init 1, Cap.init 2, Cap.init 3, Cap.init 4, Cap.init 5, Cap.init 6, Cap.init 7, Cap.init 8,
    Cap.init 9, Cap.init 10, Cap.init 11, Cap.init 12, Cap.init 13, Cap.init 14, Cap.init 15]

/-- The machine right after RESET_N has risen on a part as shipped (R4 to R6, R36, R40, R106, R141, R553): the time base
waits for PLL lock (R38), nothing is enabled, and no command waits. -/
def State.reset : State :=
  { pending := [], moment := .init, freeCtr := 0, undef := none, time := 0, clock := 0, sys := Sys.init, mp := Mp.init, bus := Bus.init,
    acc := Acc.init, lcs := Lcs.init, jtag := Jtag.init, tbe := Tbe.init, tsq := Vector.replicate 16 Tsq.init,
    cap := capInit, tagBase := 7, pw := Pw.init, qe := Qe.init, egr := Vector.replicate 4 Egr.init, hl := Hl.init,
    fsp := Vector.replicate 8 Fsp.init, fab := Fab.init, cfg := Cfg.init, scb := Scb.init, ua := Vector.replicate 18 Ua.init,
    spc := Vector.replicate 2 Spc.init, pio := Pio.init, adc := Adc.init, bkp := Bkp.init, dm := [], fs := [] }

end Sys2Proof.Machine
end

