-- ==== Sys2Proof/Machine/Ops.lean ====
section
/-! DEFINITION. The named operations every block shares: how a command answers, bit fields and byte orders (R3, R66),
counters, shadow groups (R7, R82, R84), the two memories (R249, R276), free values, and the update of one instance. -/

namespace Sys2Proof.Machine

/-- What a command answers. -/
abbrev Out := Host.Outcome State Fault Refusal

/-- RESET_N low: the device is held (R35). -/
def held (s : State) : Bool := s.sys.phase == .held

/-- The JTAG opcode of EXTEST, under which the boundary-scan register drives the pins (R132). -/
def opExtest : Byte := 0x00

/-- The effect of a command on a block that PLL_SYS clocks, while nothing has made the behaviour undefined (R33, R152, R556).
A block held in reset stays at its reset values (R36), and a block whose clock is not running yet does nothing (R38, R42;
DEDUCED, log entry 7). -/
def onSys (s : State) (f : State → State) : Out :=
  match s.undef with
  | some c => .fault (.undefinedBehaviour c)
  | none => .next (if s.sys.sysLock then f s else s)

/-- The effect of a command on logic that PLL_SYS does not clock: the management port, resets, JTAG, the backup domain.
A lost PLL_SYS lock leaves it defined (R152); a rail out of range or a broken start-up does not (R33, R556). -/
def onAny (s : State) (f : State → State) : Out :=
  match s.undef with
  | some .railOut => .fault (.undefinedBehaviour .railOut)
  | some .earlyReset => .fault (.undefinedBehaviour .earlyReset)
  | _ => .next (f s)

/-! ### Bits, fields and byte orders -/

/-- Bit i of a word. -/
def bit {n : Nat} (w : BitVec n) (i : Nat) : Bool := w.getLsbD i

/-- Field [hi:lo] of a word as a number. -/
def fld {n : Nat} (w : BitVec n) (hi lo : Nat) : Nat := (w.toNat >>> lo) % 2 ^ (hi + 1 - lo)

/-- The value v placed at bit lo of a 32-bit word. -/
def put (lo v : Nat) : Word := BitVec.ofNat 32 (v <<< lo)

/-- A bit placed at bit lo of a 32-bit word. -/
def putB (lo : Nat) (b : Bool) : Word := if b then put lo 1 else 0

/-- Bit i set. -/
def setBit {n : Nat} (w : BitVec n) (i : Nat) : BitVec n := w ||| BitVec.ofNat n (1 <<< i)

/-- Bit i set to b. -/
def assignBit {n : Nat} (w : BitVec n) (i : Nat) (b : Bool) : BitVec n :=
  (w &&& ~~~ BitVec.ofNat n (1 <<< i)) ||| (if b then BitVec.ofNat n (1 <<< i) else 0)

/-- The number as n bytes, least significant first (R3). -/
def leBytes : Nat → Nat → List Byte
  | 0, _ => []
  | n + 1, v => BitVec.ofNat 8 v :: leBytes n (v / 256)

/-- The number as n bytes, most significant first (R66). -/
def beBytes (n v : Nat) : List Byte := (leBytes n v).reverse

/-- The number that bytes spell, least significant first. -/
def ofLe : List Byte → Nat
  | [] => 0
  | b :: r => b.toNat + 256 * ofLe r

/-- The number that bytes spell, most significant first. -/
def ofBe (bs : List Byte) : Nat := ofLe bs.reverse

/-- Byte i of a list, 0 past its end. -/
def byteAt (bs : List Byte) (i : Nat) : Byte := bs.getD i 0

/-- The little-endian number in bytes i to i + n - 1 of a list. -/
def leAt (bs : List Byte) (i n : Nat) : Nat := ofLe ((bs.drop i).take n)

/-- A counter of n bits that stops at its highest value. -/
def satInc {n : Nat} (c : BitVec n) : BitVec n := if c = BitVec.allOnes n then c else c + 1

/-- A saturating count as a byte (R293, RETRIES). -/
def satByte (v : Nat) : Byte := BitVec.ofNat 8 (min v 255)

/-- Two's complement value of a 32-bit word. -/
def sInt (w : Word) : Int := w.toInt

/-- The 48-bit target or position 32.16 as an exact number of 1/65,536 counts, signed about zero. -/
def sInt48 (w : BitVec 48) : Int := w.toInt

/-! ### W1C registers (R4, R8) -/

/-- Hardware sets bit i in the present tick. -/
def Flags.set {n : Nat} (f : Flags n) (i : Nat) : Flags n := ⟨setBit f.bits i, setBit f.fresh i⟩

/-- Bit i set where a condition holds. -/
def Flags.setIf {n : Nat} (f : Flags n) (c : Bool) (i : Nat) : Flags n := if c then f.set i else f

/-- A W1C write (R4): every written 1 clears its bit, unless hardware set it in the same tick (R8). -/
def Flags.clear {n : Nat} (f : Flags n) (w : Word) : Flags n := { f with bits := f.bits &&& ~~~ (w.setWidth n &&& ~~~ f.fresh) }

/-- The register as a word. -/
def Flags.word {n : Nat} (f : Flags n) : Word := f.bits.setWidth 32

/-- Bit i of the register. -/
def Flags.on {n : Nat} (f : Flags n) (i : Nat) : Bool := f.bits.getLsbD i

/-- A flag is set and enabled. -/
def Flags.raised {n : Nat} (f : Flags n) (en : BitVec n) : Bool := f.bits &&& en != 0

/-- The tick is over: its sets can be cleared from now on. -/
def Flags.age {n : Nat} (f : Flags n) : Flags n := { f with fresh := 0 }

/-! ### Counters with CNT_CLEAR (R484, R512) -/

/-- Counter i counts one, stopping at 255. -/
def Tally.bump {n : Nat} (t : Tally n) (i : Fin n) : Tally n :=
  { count := t.count.set i.val (satInc t.count[i.val]) i.isLt, fresh := t.fresh.set i.val (satInc t.fresh[i.val]) i.isLt }

/-- Counter i counts one where a condition holds. -/
def Tally.bumpIf {n : Nat} (t : Tally n) (c : Bool) (i : Fin n) : Tally n := if c then t.bump i else t

/-- CNT_CLEAR: the clear comes first, so that what the same tick counted stays. -/
def Tally.clear {n : Nat} (t : Tally n) : Tally n := { t with count := t.fresh }

/-- The tick is over. -/
def Tally.age {n : Nat} (t : Tally n) : Tally n := { t with fresh := Vector.replicate n 0 }

/-- Counter i as a number. -/
def Tally.at_ {n : Nat} (t : Tally n) (i : Fin n) : Nat := t.count[i.val].toNat

/-! ### Vectors -/

/-- Instance i replaced. -/
def upd {α : Type} {n : Nat} (v : Vector α n) (i : Fin n) (f : α → α) : Vector α n := v.set i.val (f v[i.val]) i.isLt

theorem upd_same {α : Type} {n : Nat} (v : Vector α n) (i : Fin n) (f : α → α) : (upd v i f)[i.val] = f v[i.val] := by
  simp [upd]

theorem upd_other {α : Type} {n : Nat} (v : Vector α n) (i j : Fin n) (f : α → α) (h : i ≠ j) :
    (upd v i f)[j.val] = v[j.val] := by
  have : i.val ≠ j.val := fun e => h (Fin.ext e)
  simp [upd, Vector.getElem_set_ne, this]

/-- The instance numbers of a replicated block, ascending. -/
def allFin (n : Nat) : List (Fin n) := List.finRange n

/-- Run f for every number of the list, in order. -/
def forEach {α β : Type} (l : List β) (f : β → α → α) (a : α) : α := l.foldl (fun x i => f i x) a

/-! ### The two memories: lists of listed bytes in rising order, an unlisted byte reads 0 (R36, R268) -/

/-- The canonical form: addresses strictly rising and no listed byte 0. -/
def Memory.wf : List Host.Cell → Bool
  | [] => true
  | [c] => c.2 != 0
  | c :: d :: r => c.2 != 0 && decide (c.1 < d.1) && Memory.wf (d :: r)

/-- The byte at an address. -/
def memRead : List Host.Cell → Nat → Byte
  | [], _ => 0
  | c :: r, a => if c.1 = a then c.2 else if a < c.1 then 0 else memRead r a

/-- One byte written; a 0 leaves the list. -/
def memWrite : List Host.Cell → Nat → Byte → List Host.Cell
  | [], a, b => if b = 0 then [] else [(a, b)]
  | c :: r, a, b =>
    if a < c.1 then (if b = 0 then c :: r else (a, b) :: c :: r)
    else if c.1 = a then (if b = 0 then r else (a, b) :: r)
    else c :: memWrite r a b

/-- Bytes written from an address upward. -/
def memWriteBytes (m : List Host.Cell) (a : Nat) : List Byte → List Host.Cell
  | [] => m
  | b :: r => memWriteBytes (memWrite m a b) (a + 1) r

/-- n bytes from an address upward. -/
def memReadBytes (m : List Host.Cell) (a n : Nat) : List Byte := (List.range n).map fun i => memRead m (a + i)

/-- The 32-bit word at an address, little-endian (R3). -/
def memRead32 (m : List Host.Cell) (a : Nat) : Word := BitVec.ofNat 32 (ofLe (memReadBytes m a 4))

/-- The 32-bit word written at an address, little-endian (R3). -/
def memWrite32 (m : List Host.Cell) (a : Nat) (w : Word) : List Host.Cell := memWriteBytes m a (leBytes 4 w.toNat)

/-- Zero data in n bytes from lo upward. -/
def memZero (m : List Host.Cell) (lo n : Nat) : List Host.Cell :=
  m.filter fun c => decide (c.1 < lo) || decide (lo + n ≤ c.1)

/-! ### Shadow groups -/

/-- COMMIT.GO (R82): PENDING is 1 until the group is applied; a further GO is absorbed, and starts a second commit when the
pending one is applied in the very tick of the GO (R9). -/
def Shadowed.request {α : Type} (g : Shadowed α) : Shadowed α := 
  { g with pending := true, again := g.pending, wait := if g.pending then g.wait else 0 }

/-- The group applied at the safe point (R7, R82). -/
def Shadowed.apply {α : Type} (g : Shadowed α) : Shadowed α :=
  { g with active := g.shadow, pending := g.again, again := false, wait := 0, count := g.count + 1 }

/-- A pending commit that ends at its safe point without changing the active copy (R276). -/
def Shadowed.reject {α : Type} (g : Shadowed α) : Shadowed α := 
  { g with pending := g.again, again := false, wait := 0 }

/-- A retirement discards the pending commit (R29). -/
def Shadowed.drop {α : Type} (g : Shadowed α) : Shadowed α := { g with pending := false, again := false }

/-- The tick is over: a GO absorbed in it starts no second commit any more, and a pending one has waited a tick longer. -/
def Shadowed.age {α : Type} (g : Shadowed α) : Shadowed α :=
  { g with again := false, wait := if g.pending then g.wait + 1 else 0 }

/-- What a read of an SH field returns (R84). -/
def Shadowed.look {α : Type} (g : Shadowed α) : α := if g.view then g.active else g.shadow

/-- A write of SH fields changes only the shadow copy (R7). -/
def Shadowed.write {α : Type} (g : Shadowed α) (f : α → α) : Shadowed α := { g with shadow := f g.shadow }

/-- The COMMIT register as it reads (chapter 03). GO reads 0, whether a commit waits or not: the manual does not say what a W1S
bit reads while its action waits or runs, and the model lets every such bit read 0 (DESIGN CHOICE; log entry 91). -/
def Shadowed.word {α : Type} (g : Shadowed α) : Word :=
  putB 1 g.view ||| putB 8 g.pending ||| put 16 g.count.toNat

/-- A write of the COMMIT register: GO requests, VIEW is stored. -/
def Shadowed.commitWrite {α : Type} (g : Shadowed α) (w : Word) : Shadowed α :=
  let g := { g with view := bit w 1 }
  if bit w 0 then g.request else g

/-! ### Time, free values and instances -/

/-- The present tick (R155) as a number. -/
def now (s : State) : Nat := s.time.toNat

/-- After release, or after a failed configuration: the receivers are on and the line outputs leave high impedance (R44). -/
def pinsLive (s : State) : Bool := s.sys.phase == .released || s.sys.phase == .failed

/-- What EXTEST does to a pin, where it is selected (R132): the pins GA0 to GF15 are 0 to 95, STBn is 96 + n, CCx of channel n is
111 + 4n + x, and the place of a cell in the chain is not stated (log entry 4). -/
def extestDrive (s : State) (i : Nat) : Option (Option Bool) :=
  if s.jtag.ir = opExtest then some (Config.extestPin s.jtag.bscan i) else none

/-- A register at an address was written in the present tick: a hardware update of one of its RW fields in that tick does not
remain (R10). -/
def wroteNow (s : State) (addr : Word) : Bool := s.moment.wrote.any fun w => w.addr == addr

def State.modMoment (s : State) (f : Moment → Moment) : State := { s with moment := f s.moment }

/-- A start that meets the action still running: it is taken up if that action ends in the present tick (R9). -/
def noteRetry (r : Retry) (s : State) : State := s.modMoment fun m => { m with retry := m.retry ++ [r] }

/-- 10 ms: the manual writes it as 40,000,000 ticks in R171 and R234, where 1 µs is 400 ticks (R2); the model takes the time
(DEDUCED; log entry 27). -/
def tenMs : Nat := 4000000

/-- One millisecond in ticks (R2). -/
def oneMs : Nat := 400000

/-- The next free value (log entry 8). -/
def freeValue (s : State) : Nat := Config.freeNat s.freeCtr

/-- The state after one free value was read. -/
def State.freeStep (s : State) : State := { s with freeCtr := s.freeCtr + 1 }

/-- The same after n reads. -/
def State.freeSteps (s : State) (n : Nat) : State := { s with freeCtr := s.freeCtr + n }

def State.setUndef (s : State) (u : Option UndefCause) : State := { s with undef := u }
def State.setTime (s : State) (t : Tick) : State := { s with time := t }
def State.setClock (s : State) (t : Nat) : State := { s with clock := t }
def State.modFab (s : State) (f : Fab → Fab) : State := { s with fab := f s.fab }

def State.modSys (s : State) (f : Sys → Sys) : State := { s with sys := f s.sys }
def State.modMp (s : State) (f : Mp → Mp) : State := { s with mp := f s.mp }
def State.modBus (s : State) (f : Bus → Bus) : State := { s with bus := f s.bus }
def State.modAcc (s : State) (f : Acc → Acc) : State := { s with acc := f s.acc }
def State.modLcs (s : State) (f : Lcs → Lcs) : State := { s with lcs := f s.lcs }
def State.modJtag (s : State) (f : Jtag → Jtag) : State := { s with jtag := f s.jtag }
def State.modTbe (s : State) (f : Tbe → Tbe) : State := { s with tbe := f s.tbe }
def State.modEnc (s : State) (n : Fin 8) (f : Enc → Enc) : State :=
  s.modTbe fun t => { t with enc := upd t.enc n f }
def State.modRem (s : State) (h : Fin 4) (f : Rem → Rem) : State :=
  s.modTbe fun t => { t with rem := upd t.rem h f }
def State.modTsq (s : State) (n : Fin 16) (f : Tsq → Tsq) : State := { s with tsq := upd s.tsq n f }
def State.modCap (s : State) (n : Fin 16) (f : Cap → Cap) : State := { s with cap := upd s.cap n f }
def State.modPw (s : State) (f : Pw → Pw) : State := { s with pw := f s.pw }
def State.modQe (s : State) (f : Qe → Qe) : State := { s with qe := f s.qe }
def State.modRing (s : State) (r : Fin 1024) (f : Ring → Ring) : State :=
  s.modQe fun q => { q with rings := upd q.rings r f }
def State.modEgr (s : State) (n : Fin 4) (f : Egr → Egr) : State := { s with egr := upd s.egr n f }
def State.modHl (s : State) (f : Hl → Hl) : State := { s with hl := f s.hl }
def State.modPort (s : State) (p : Fin 2) (f : HlPort → HlPort) : State :=
  s.modHl fun h => { h with ports := upd h.ports p f }
def State.modHerd (s : State) (h : Fin 4) (f : Herd → Herd) : State :=
  s.modHl fun l => { l with herds := upd l.herds h f }
def State.modFsp (s : State) (p : Fin 8) (f : Fsp → Fsp) : State := { s with fsp := upd s.fsp p f }
def State.modCfg (s : State) (f : Cfg → Cfg) : State := { s with cfg := f s.cfg }
def State.modScb (s : State) (f : Scb → Scb) : State := { s with scb := f s.scb }
def State.modZone (s : State) (z : Fin 8) (f : Zone → Zone) : State :=
  s.modScb fun b => { b with zones := upd b.zones z f }
def State.modUa (s : State) (n : Fin 18) (f : Ua → Ua) : State := { s with ua := upd s.ua n f }
def State.modSpc (s : State) (m : Fin 2) (f : Spc → Spc) : State := { s with spc := upd s.spc m f }
def State.modPio (s : State) (f : Pio → Pio) : State := { s with pio := f s.pio }
def State.modPil (s : State) (k : Fin 16) (f : Pil → Pil) : State :=
  s.modPio fun p => { p with pil := upd p.pil k f }
def State.modAdc (s : State) (f : Adc → Adc) : State := { s with adc := f s.adc }
def State.modBkp (s : State) (f : Bkp → Bkp) : State := { s with bkp := f s.bkp }

/-- Release (R39) has happened and no reset has followed. -/
def released (s : State) : Bool := s.sys.phase == .released

end Sys2Proof.Machine
end

