-- ==== Sys2Proof/Machine/Operands.lean ====
section
/-! DEFINITION. How descriptors and register words are cut into their fields: object and management descriptors (R281,
R282), the ring table (R278, R280), and the numbering of blocks (R293). -/

namespace Sys2Proof.Machine

/-! ### Numbers of blocks as the MP_ATTN bits number them (chapter 03, R293) -/

def blkSys : Nat := 0
def blkAcc : Nat := 1
def blkLcs : Nat := 2
def blkTbe : Nat := 3
def blkTsq : Nat := 4
def blkCap : Nat := 5
def blkPw : Nat := 6
def blkQe : Nat := 7
def blkEgr : Nat := 8
def blkHl : Nat := 9
def blkCfg : Nat := 14
def blkScb : Nat := 15
/-- The number R293 gives a fabric streaming port as a lower unit. -/
def blkFsp : Nat := 31

/-- UNIT of a fault record: block in bits 15:11, instance in bits 10:0 (R293). -/
def unitCode (blk inst : Nat) : Nat := blk * 2048 + inst % 2048

/-! ### Ring table (chapter 10, "Register reference") -/

def ringEn (g : RingGroup) : Bool := bit g.ctrl 0
def ringK (g : RingGroup) : Nat := fld g.ctrl 7 4
def ringSize (g : RingGroup) : Nat := 2 ^ ringK g
def ringCls (g : RingGroup) : Fin 4 := Fin.ofNat 4 (fld g.ctrl 9 8)
def ringTx (g : RingGroup) : Fin 8 := Fin.ofNat 8 (fld g.ctrl 14 12)
def ringBase (g : RingGroup) : Nat := 32 * fld g.base 19 5
def ringQuantum (g : RingGroup) : Nat := fld g.sched 15 0
def ringTimeout (g : RingGroup) : Nat := fld g.sched 31 16
def ringConsKind (g : RingGroup) : Nat := fld g.ctrl 27 24
def ringConsInst (g : RingGroup) : Nat := fld g.ctrl 31 28

/-- PROD_KIND: the ring number sets it for rings 0 to 32 (R280). -/
def ringProdKind (r : Fin 1024) (g : RingGroup) : Nat :=
  if r.val < 16 then 1 else if r.val < 32 then 2 else if r.val = 32 then 3 else fld g.ctrl 19 16

/-- PROD_INST: the ring number sets it for rings 0 to 32 (R280). -/
def ringProdInst (r : Fin 1024) (g : RingGroup) : Nat :=
  if r.val < 16 then r.val else if r.val < 32 then r.val - 16 else if r.val = 32 then 0 else fld g.ctrl 23 20

/-- QE_RING_CTRL as it reads: the PROD fields of rings 0 to 32 follow from the ring number (R280). -/
def ringCtrlWord (r : Fin 1024) (g : RingGroup) : Word :=
  (g.ctrl &&& 0xFF00_73F1) ||| put 16 (ringProdKind r g) ||| put 20 (ringProdInst r g)

/-- The consumer that has a scheduler, none for a HOST-consumed ring (R290). -/
def ringConsumer (r : Fin 1024) (g : RingGroup) : Option Consumer :=
  match ringConsKind g with
  | 1 => some (.egress (Fin.ofNat 4 (ringConsInst g)))
  | 2 => some (.fabric (Fin.ofNat 8 (ringConsInst g)))
  | 3 => some (if ringProdKind r g = 4 then .mgmtFabric else .mgmtHost)
  | _ => none

/-- The fields that a commit may change only while no entry is held (R278). -/
def ringStruct (r : Fin 1024) (g : RingGroup) : List Nat :=
  [ringBase g, ringK g, ringProdKind r g, ringProdInst r g, ringConsKind g, ringConsInst g]

/-! ### Object descriptors (R281), from the 32 bytes of an entry -/

def odKind (e : List Byte) : Nat := (byteAt e 0).toNat
def odHandle (e : List Byte) : Fin 2048 := Fin.ofNat 2048 (leAt e 2 2)
def odGen (e : List Byte) : BitVec 7 := BitVec.ofNat 7 (byteAt e 4).toNat
def odRef (e : List Byte) : Bool := bit (byteAt e 5) 0
def odFirst (e : List Byte) : Nat := leAt e 6 2
/-- NLINES; 0 acts as 1. -/
def odLines (e : List Byte) : Nat := let n := leAt e 8 2; if n = 0 then 1 else n
def odOffset (e : List Byte) : Nat := leAt e 12 4
def odLength (e : List Byte) : Nat := leAt e 16 4
def odTrig (e : List Byte) : Word := BitVec.ofNat 32 (leAt e 20 4)
def odUser (e : List Byte) : Word := BitVec.ofNat 32 (leAt e 24 4)

/-- The 32 bytes of an object descriptor with KIND 1 and STATUS 0. -/
def objectDescriptor (h : Fin 2048) (gen : BitVec 7) (ref : Bool) (first lines offset length : Nat) (trig user : Word) :
    List Byte :=
  [1, 0] ++ leBytes 2 h.val ++ leBytes 1 gen.toNat ++ [if ref then 1 else 0] ++ leBytes 2 first ++ leBytes 2 lines ++
    leBytes 2 0 ++ leBytes 4 offset ++ leBytes 4 length ++ leBytes 4 trig.toNat ++ leBytes 4 user.toNat ++ leBytes 4 0

/-! ### Management descriptors (R282) -/

def mdKind (e : List Byte) : Nat := (byteAt e 0).toNat
def mdWrite (e : List Byte) : Bool := bit (byteAt e 2) 0
def mdInline (e : List Byte) : Bool := bit (byteAt e 2) 1
def mdWords (e : List Byte) : Nat := (byteAt e 3).toNat
def mdAddr (e : List Byte) : Word := BitVec.ofNat 32 (leAt e 4 4) &&& 0xFFFF_FFFC
def mdHandle (e : List Byte) : Fin 2048 := Fin.ofNat 2048 (leAt e 8 2)
def mdGen (e : List Byte) : BitVec 7 := BitVec.ofNat 7 (byteAt e 10).toNat
def mdRef (e : List Byte) : Bool := bit (byteAt e 11) 0
/-- OBJ_OFFSET, a multiple of 4: bits 1:0 are taken as 0 (DEDUCED; log entry 22). -/
def mdObjOffset (e : List Byte) : Nat := leAt e 12 4 / 4 * 4
def mdInlineData (e : List Byte) : List Word :=
  [0, 1, 2, 3].map fun k => BitVec.ofNat 32 (leAt e (16 + 4 * k) 4)

/-- NWORDS outside the range of R282, or a range whose last word lies above 0xFFFF_FFFC. -/
def mdBad (e : List Byte) : Bool :=
  mdWords e = 0 || (mdInline e && decide (4 < mdWords e)) ||
    decide (0xFFFF_FFFC < (mdAddr e).toNat + 4 * (mdWords e - 1))

/-- Handle and GEN as DETAIL word 1 holds them (R294). -/
def handleWord (h : Fin 2048) (gen : BitVec 7) : Word := put 0 h.val ||| put 16 gen.toNat ||| putB 31 true

end Sys2Proof.Machine
end

