-- ==== Sys2Proof/Machine/QeRings.lean ====
section
/-! DEFINITION. Rings and indexes, posting by hardened producers, the turn lists of the schedulers, the transfer tags,
and fault records (10_queue_engine.md R276 to R280, R288 to R290, R293, R295). -/

namespace Sys2Proof.Machine

/-! ### Rings and indexes (R276, R277) -/

def getRing (s : State) (r : Fin 1024) : Ring := s.qe.rings[r.val]

/-- A ring that is enabled and not CFG_BAD (R276, R280: a CFG_BAD ring acts as disabled). -/
def ringOn (g : Ring) : Bool := ringEn g.group.active && !g.cfgBad

/-- Entries held, PI - DI (R277). -/
def ringHeld (g : Ring) : Nat := (g.pi - g.di).toNat

def ringFull (g : Ring) : Bool := decide (ringSize g.group.active ≤ ringHeld g)

/-- Offset in descriptor memory of entry i (R276). -/
def entryAt (g : Ring) (i : BitVec 16) : Nat := ringBase g.group.active + 32 * (i.toNat % ringSize g.group.active)

/-- The 32 bytes of an entry. -/
def entryBytes (s : State) (r : Fin 1024) (i : BitVec 16) : List Byte := memReadBytes s.dm (entryAt (getRing s r) i) 32

/-- Bytes stored in descriptor memory. -/
def dmWrite (s : State) (a : Nat) (bs : List Byte) : State := { s with dm := memWriteBytes s.dm a bs }

/-- DI past every contiguous completed entry (R277); at most as many steps as entries are marked. -/
def advanceDi : Nat → Ring → Ring
  | 0, g => g
  | n + 1, g =>
    if g.di ≠ g.ci ∧ g.di ∈ g.done then advanceDi n { g with done := g.done.erase g.di, di := g.di + 1 } else g

/-- Entry i of a ring marked complete, and DI advanced (R277). -/
def completeIdx (g : Ring) (i : BitVec 16) : Ring :=
  let g := { g with done := i :: g.done }
  advanceDi g.done.length g

/-! ### Transfer tags (R288, R289) -/

/-- Size of a consumer's partition. -/
def tagCap : Consumer → Nat
  | .egress _ => 1536
  | .fabric _ => 384
  | .mgmtHost => 512
  | .mgmtFabric => 512

/-- Tags of a partition that are held: one per dispatched entry, and for a streaming port one per object it allocated
and has neither posted nor abandoned. -/
def tagsHeld (s : State) (c : Consumer) : Nat :=
  (s.qe.taken.filter fun t => t.cons = c).length +
    match c with
    | .fabric p => s.fsp[p.val].allocTags.length
    | _ => 0

def tagFree (s : State) (c : Consumer) : Bool := decide (tagsHeld s c < tagCap c)

/-! ### Turn lists of the schedulers (R290) -/

/-- Ready but for the tag: enabled, not CFG_BAD, CI ≠ PI. -/
def ringWaiting (g : Ring) : Bool := ringOn g && g.ci != g.pi

/-- The rings of one consumer and class in turn order. -/
def turnOf (s : State) (c : Consumer) (cls : Fin 4) : List (Fin 1024) :=
  ((s.qe.turns.find? fun t => t.cons = c ∧ t.cls = cls).map (·.rings)).getD []

/-- The turn order of one consumer and class replaced. -/
def setTurn (s : State) (c : Consumer) (cls : Fin 4) (rs : List (Fin 1024)) : State :=
  s.modQe fun q => { q with turns := (⟨c, cls, rs⟩ : TurnList) :: q.turns.filter fun t => !(t.cons = c ∧ t.cls = cls) }

/-- A ring that becomes ready joins the tail of its class list with deficit 0 (R290). -/
def joinTurn (s : State) (r : Fin 1024) : State :=
  let g := getRing s r
  match ringConsumer r g.group.active with
  | none => s
  | some c =>
    let cls := ringCls g.group.active
    if ringWaiting g && tagFree s c && !decide (r ∈ turnOf s c cls) then
      setTurn (s.modRing r fun g => { g with deficit := 0, inTurn := false }) c cls (turnOf s c cls ++ [r])
    else s

/-- A ring that is no longer ready leaves its list and forfeits its credit (R290). -/
def leaveTurn (s : State) (r : Fin 1024) : State :=
  let s := s.modRing r fun g => { g with deficit := 0, inTurn := false }
  s.modQe fun q => { q with turns := q.turns.map fun t => { t with rings := t.rings.erase r } }

/-- Every ring of a consumer leaves its lists: no ring is ready while no tag is free (R289, R290). -/
def clearTurns (s : State) (c : Consumer) : State :=
  let rs := (s.qe.turns.filter fun t => t.cons = c).flatMap (·.rings)
  forEach rs (fun r s => leaveTurn s r) s

/-- A tag of the consumer became free: every ring that waits becomes ready, in ascending order (DESIGN CHOICE where
several become ready in one clock; log entry 23). -/
def refillTurns (s : State) (c : Consumer) : State :=
  forEach ((allFin 1024).filter fun r => ringConsumer r (getRing s r).group.active = some c) (fun r s => joinTurn s r) s

/-- The state after tags of a consumer were freed: refill when the partition had none free before. -/
def afterTagFreed (before s : State) (c : Consumer) : State :=
  if tagFree before c then s else if tagFree s c then refillTurns s c else s

/-! ### Posting (R277, R279) -/

/-- A post of 32 bytes by a producer that advances PI itself; a disabled ring is handled as a full one (R279). The answer
says whether the entry was stored. -/
def ringPost (s : State) (r : Fin 1024) (bytes : List Byte) : Bool × State :=
  let g := getRing s r
  if ringOn g && !ringFull g then
    let s := dmWrite s (entryAt g g.pi) bytes
    (true, joinTurn (s.modRing r fun g => { g with pi := g.pi + 1, posts := g.posts + 1 }) r)
  else (false, s.modRing r fun g => { g with full := g.full + 1 })

/-! ### Fault records (R293 to R295) -/

/-- What a block hands over for one fault record. -/
structure FaultRec where
  perm : Bool
  blk : Nat
  kind : Nat
  inst : Nat
  lower : Option (Nat × Nat) := none
  retries : Nat := 0
  retired : Bool := false
  d0 : Word := 0
  d1 : Word := 0
  coincident : Option (Nat × Nat) := none
  deriving DecidableEq, Repr

/-- A unit, or 0xFFFF when there is none. -/
def unitOrNone : Option (Nat × Nat) → Nat
  | none => 0xFFFF
  | some (b, i) => unitCode b i

/-- The 32 bytes of a fault record (R293). -/
def faultBytes (seq : Word) (tick : Tick) (f : FaultRec) : List Byte :=
  leBytes 4 seq.toNat ++ leBytes 8 tick.toNat ++ [if f.perm then 2 else 1] ++ leBytes 1 f.kind ++
    leBytes 2 (unitCode f.blk f.inst) ++ leBytes 2 (unitOrNone f.lower) ++ [satByte f.retries] ++
    [(if f.retired then 1 else 0) ||| (if f.coincident.isSome then 2 else 0)] ++ leBytes 4 f.d0.toNat ++
    leBytes 4 f.d1.toNat ++ leBytes 2 (unitOrNone f.coincident) ++ leBytes 2 0

/-- The sequence number after this one: it wraps past 0xFFFF_FFFF to 1 (R293). -/
def nextSeq (q : Word) : Word := if q = 0xFFFF_FFFF then 1 else q + 1

def ringFault : Fin 1024 := 32

/-- One fault record: the next sequence number, written to ring 32; a ring full or disabled loses it (R293, R295). -/
def recordFault (s : State) (f : FaultRec) : State :=
  let seq := s.qe.seq
  let (stored, s) := ringPost s ringFault (faultBytes seq s.time f)
  s.modQe fun q =>
    if stored then { q with seq := nextSeq seq, flags := q.flags.set 0 }
    else { q with seq := nextSeq seq, cntFaultLost := q.cntFaultLost + 1, flags := q.flags.set 1 }

end Sys2Proof.Machine
end

