-- ==== Sys2Proof/Machine/Pw.lean ====
section
/-! DEFINITION. The Page Warden (09_frame_store.md R249 to R275, R563): pages and the page map, grants and quotas, the
operations of R258, ECC outcomes, and poisoned pages. -/

namespace Sys2Proof.Machine

/-! ### Charges and the grant rule (R263, R264) -/

/-- Pages of class c, reserved or mapped: P(c). -/
def usedPages (s : State) (c : PwClass) : Nat :=
  ((s.pw.map.toList.filter fun e => e.st != .free && e.cls == c).map (·.pages.length)).sum +
    ((s.pw.reservations.filter fun r => r.cls == c).map (·.pages.length)).sum

/-- Allocated handles of class c: H(c). -/
def usedHandles (s : State) (c : PwClass) : Nat :=
  (s.pw.map.toList.filter fun e => e.st != .free && e.cls == c).length

/-- CAPTURE pages charged to channel n. -/
def usedChannel (s : State) (n : Fin 16) : Nat :=
  ((s.pw.map.toList.filter fun e => e.st != .free && e.cls == .capture && e.owner == n).map (·.pages.length)).sum +
    ((s.pw.reservations.filter fun r => r.cls == .capture && r.owner == n).map (·.pages.length)).sum

/-- Every page that is mapped, reserved, or being rewritten (R253). -/
def takenPages (s : State) : List (BitVec 12) :=
  s.pw.map.toList.foldr (fun e l => e.pages ++ l) [] ++ s.pw.reservations.flatMap (·.pages) ++ s.pw.rewriting.flatten

/-- The pages of the free pool. -/
def freePages (s : State) : List (BitVec 12) :=
  let used := takenPages s
  ((List.range 4096).map (BitVec.ofNat 12)).filter fun p => !decide (p ∈ used)

/-- Number of free pages: a poisoned page returns to the pool when its rewrite completes (R253; log entry 24). -/
def freePageCount (s : State) : Nat := 4096 - (takenPages s).length

/-- Handles in state FREE. -/
def freeHandles (s : State) : List (Fin 2048) := (allFin 2048).filter fun h => s.pw.map[h.val].st == .free

/-- Number of free handles. -/
def freeHandleCount (s : State) : Nat := (s.pw.map.toList.filter fun e => e.st == .free).length

def clsNo : PwClass → Fin 3
  | .capture => 0
  | .fabric => 1
  | .host => 2

def allClasses : List PwClass := [.capture, .fabric, .host]

def minPages (s : State) (c : PwClass) : Nat :=
  if s.pw.quotaBad then 0 else fld s.pw.group.active.qmin[(clsNo c).val] 12 0
def minHandles (s : State) (c : PwClass) : Nat :=
  if s.pw.quotaBad then 0 else fld s.pw.group.active.qmin[(clsNo c).val] 27 16
def quotaPages (s : State) (c : PwClass) : Nat := fld s.pw.group.active.qcap[(clsNo c).val] 12 0
def quotaHandles (s : State) (c : PwClass) : Nat := fld s.pw.group.active.qcap[(clsNo c).val] 27 16

/-- Cap of one channel's pages; 0 acts as the class cap (R264). -/
def quotaChannel (s : State) (n : Fin 16) : Nat :=
  let v := fld s.pw.group.active.qch[n.val] 12 0
  if v = 0 then quotaPages s .capture else v

/-- Pages owed to the other classes (R264). -/
def owedPages (s : State) (c : PwClass) : Nat :=
  ((allClasses.filter (· != c)).map fun d => minPages s d - usedPages s d).sum

/-- Handles owed to the other classes (R264). -/
def owedHandles (s : State) (c : PwClass) : Nat :=
  ((allClasses.filter (· != c)).map fun d => minHandles s d - usedHandles s d).sum

/-- The grant rule for n pages of class c and owner (R264); 0 and more than 8 are refused at once (R258). -/
def grantPages (s : State) (c : PwClass) (owner : Fin 16) (n : Nat) : Bool :=
  decide (1 ≤ n ∧ n ≤ 8) && decide (usedPages s c + n ≤ quotaPages s c) &&
    (c != .capture || decide (usedChannel s owner + n ≤ quotaChannel s owner)) &&
    decide (n + owedPages s c ≤ freePageCount s)

/-- The grant rule for one handle of class c (R264). -/
def grantHandle (s : State) (c : PwClass) : Bool :=
  decide (usedHandles s c + 1 ≤ quotaHandles s c) && decide (1 + owedHandles s c ≤ freeHandleCount s)

/-! ### Counters and answers -/

/-- Answers of the Page Warden to an operation on an object. -/
inductive PwCode where
  | ok | refused | stale | refFull | poison
  deriving DecidableEq, Repr

/-- A refused request (R260). -/
def pwRefuse (s : State) (c : PwClass) : State :=
  s.modPw fun p => { p with cntRefuse := upd p.cntRefuse (clsNo c) (· + 1), flags := p.flags.set 2 }

/-- An operation answered STALE (R257). -/
def pwStale (s : State) : State := s.modPw fun p => { p with cntStale := p.cntStale + 1, flags := p.flags.set 3 }

def getObj (s : State) (h : Fin 2048) : MapEntry := s.pw.map[h.val]

def modObj (s : State) (h : Fin 2048) (f : MapEntry → MapEntry) : State :=
  s.modPw fun p => { p with map := upd p.map h f }

/-- The object a handle and GEN name: an operation on a FREE handle or another GEN is STALE (R257, R269). -/
def objOf (s : State) (h : Fin 2048) (gen : BitVec 7) : Option MapEntry :=
  let e := getObj s h
  if e.st = .free ∨ e.gen ≠ gen then none else some e

/-! ### The operations of R258 -/

/-- Pages picked from the free pool: which ones is a free choice (R563). -/
def pickPages : Nat → Nat → List (BitVec 12) → List (BitVec 12)
  | 0, _, _ => []
  | n + 1, k, pool =>
    let p := pool.getD (Config.freeNat k % pool.length) 0
    p :: pickPages n (k + 1) (pool.erase p)

/-- RESERVE: takes n free pages and charges them; the answer is a reservation number. -/
def pwReserve (s : State) (c : PwClass) (owner : Fin 16) (n : Nat) : Option Nat × State :=
  if grantPages s c owner n then
    let pages := pickPages n s.freeCtr (freePages s)
    let s := s.freeSteps n
    (some s.pw.nextRes,
      s.modPw fun p => { p with reservations := p.reservations ++ [⟨p.nextRes, c, owner, pages⟩], nextRes := p.nextRes + 1 })
  else (none, pwRefuse s c)

/-- RETURN: frees the reservation's pages; a reservation not held has no effect (R563). -/
def pwReturn (s : State) (res : Nat) : State :=
  s.modPw fun p => { p with reservations := p.reservations.filter fun r => r.num != res }

/-- A handle taken for pages: which free handle is a free choice (R563); GEN increments (R257). -/
def pwTakeHandle (s : State) (c : PwClass) (owner : Fin 16) (stride : BitVec 9) (pages : List (BitVec 12)) :
    (Fin 2048 × BitVec 7) × State :=
  let hs := freeHandles s
  let h := hs.getD (freeValue s % hs.length) 0
  let gen := (getObj s h).gen + 1
  ((h, gen), modObj s.freeStep h fun _ =>
    { st := .writing, cls := c, refs := 0, poison := false, owner := owner, stride := stride, gen := gen, pages := pages })

/-- MAP: allocates a handle in state WRITING on the reserved pages and charges it; a reservation not held is refused. -/
def pwMap (s : State) (res : Nat) (stride : BitVec 9) : Option (Fin 2048 × BitVec 7) × State :=
  match s.pw.reservations.find? fun r => r.num == res with
  | none => (none, pwRefuse s .capture)
  | some r =>
    if grantHandle s r.cls then
      let (hg, s) := pwTakeHandle s r.cls r.owner stride r.pages
      (some hg, pwReturn s res)
    else (none, pwRefuse s r.cls)

/-- ALLOC: RESERVE and MAP together. -/
def pwAlloc (s : State) (c : PwClass) (owner : Fin 16) (n : Nat) (stride : BitVec 9) :
    Option (Fin 2048 × BitVec 7) × State :=
  if grantPages s c owner n && grantHandle s c then
    let pages := pickPages n s.freeCtr (freePages s)
    let s := s.freeSteps n
    let (hg, s) := pwTakeHandle s c owner stride pages
    (some hg, s)
  else (none, pwRefuse s c)

/-- Pages of a POISON object are rewritten before they return to the pool (R253, R563). -/
def freeObjPages (s : State) (e : MapEntry) (pages : List (BitVec 12)) : State :=
  if e.poison && !pages.isEmpty then s.modPw fun p => { p with rewriting := p.rewriting ++ [pages] } else s

/-- Reclaim (R261): pages and handle are freed and uncharged; the GEN of the last allocation stays visible (R257). -/
def pwReclaim (s : State) (h : Fin 2048) : State :=
  let e := getObj s h
  freeObjPages (modObj s h fun e => { MapEntry.init with gen := e.gen }) e e.pages

/-- TRIM: unmaps and frees the pages beyond the first n. -/
def pwTrim (s : State) (h : Fin 2048) (gen : BitVec 7) (n : Nat) : State :=
  match objOf s h gen with
  | none => pwStale s
  | some e => freeObjPages (modObj s h fun e => { e with pages := e.pages.take n }) e (e.pages.drop n)

/-- SEAL: WRITING to SEALED with one reference. -/
def pwSeal (s : State) (h : Fin 2048) (gen : BitVec 7) : PwCode × State :=
  match objOf s h gen with
  | none => (.stale, pwStale s)
  | some e =>
    if e.st = .writing then (.ok, modObj s h fun e => { e with st := .sealed_, refs := 1 })
    else (.refused, pwRefuse s e.cls)

/-- ADDREF: refused at three references, on POISON, or STALE; only requests for pages or handles count as REFUSE
(DEDUCED from R260 and R264; log entry 25). -/
def pwAddref (s : State) (h : Fin 2048) (gen : BitVec 7) : PwCode × State :=
  match objOf s h gen with
  | none => (.stale, pwStale s)
  | some e =>
    if e.poison then (.poison, s)
    else if 3 ≤ e.refs then (.refFull, s.modPw fun p => { p with cntRefFull := p.cntRefFull + 1 })
    else (.ok, modObj s h fun e => { e with refs := e.refs + 1 })

/-- RELEASE: one reference less, reclaim at 0. -/
def pwRelease (s : State) (h : Fin 2048) (gen : BitVec 7) : PwCode × State :=
  match objOf s h gen with
  | none => (.stale, pwStale s)
  | some e =>
    if e.refs = 0 then (.refused, pwRefuse s e.cls)
    else
      let s := modObj s h fun e => { e with refs := e.refs - 1 }
      (.ok, if e.refs = 1 ∧ e.st = .sealed_ then pwReclaim s h else s)

/-- ABANDON: a WRITING object is reclaimed at once. -/
def pwAbandon (s : State) (h : Fin 2048) (gen : BitVec 7) : PwCode × State :=
  match objOf s h gen with
  | none => (.stale, pwStale s)
  | some e => if e.st = .writing then (.ok, pwReclaim s h) else (.refused, pwRefuse s e.cls)

/-- A RELEASE whose answer nobody reads. -/
def pwReleaseRef (s : State) (ref : Option (Fin 2048 × BitVec 7)) : State :=
  match ref with
  | none => s
  | some (h, g) => (pwRelease s h g).2

/-! ### Waiting operations (R259) -/

/-- Group of R259 an operation belongs to: 1 before 2 before 3. -/
def pwPrio : PwReq → Nat
  | .release _ _ _ | .abandon _ _ _ => 1
  | .seal _ _ _ | .addref _ _ _ => 2
  | .reserve _ _ _ _ | .map _ _ _ | .alloc _ _ _ _ _ => 3

/-- The requester of an operation. -/
def pwDest : PwReq → PwDest
  | .reserve d _ _ _ | .map d _ _ | .alloc d _ _ _ _ | .seal d _ _ | .addref d _ _ | .release d _ _ | .abandon d _ _ => d

/-- Position of a requester in the order of R259: CAP0 to CAP15, TSQ0 to TSQ15, fabric ports 0 to 7, Queue Engine. -/
def destOrder : PwDest → Nat
  | .capLine n => n.val
  | .tsqSlot n _ => 16 + n.val
  | .gone n => 16 + n.val
  | .fabric p => 32 + p.val
  | .host => 40
  | .none => 41

/-- Whether operation a is served before b when both wait (R259). -/
def pwBefore (a b : PwReq) : Bool :=
  decide (pwPrio a < pwPrio b) || (decide (pwPrio a = pwPrio b) && pwPrio a == 3 && decide (destOrder (pwDest a) < destOrder (pwDest b)))

/-- Whether a waiting operation is the next that R259 serves: none before it in the order, and of one requester the
oldest first. -/
def pwIsNext (s : State) (q : PwReq) : Bool :=
  (s.pw.waiting.find? fun w => destOrder (pwDest w) == destOrder (pwDest q)) == some q &&
    s.pw.waiting.all fun w => !pwBefore w q

/-- An operation handed to the Page Warden; it is answered by its own command (R259). -/
def pwAsk (s : State) (q : PwReq) : State := s.modPw fun p => { p with waiting := p.waiting ++ [q] }

/-- A waiting operation that is served or withdrawn. -/
def pwServed (s : State) (q : PwReq) : State := s.modPw fun p => { p with waiting := p.waiting.erase q }

/-! ### Objects as lines (R255) -/

/-- Line stride in bytes; 0 means 512 units of 64 bytes. -/
def strideBytes (e : MapEntry) : Nat := 64 * (if e.stride = 0 then 512 else e.stride.toNat)

/-- Object offset of byte b of line k. -/
def objOffset (e : MapEntry) (k b : Nat) : Nat := k * strideBytes e + b

def objSize (e : MapEntry) : Nat := 4096 * e.pages.length

/-- Frame-store address of an object offset, none beyond the object. -/
def objAddr (e : MapEntry) (o : Nat) : Option Nat :=
  if o < objSize e then some (4096 * (e.pages.getD (o / 4096) 0).toNat + o % 4096) else none

/-- n bytes of an object from an offset upward; beyond the object they read 0. -/
def objRead (s : State) (e : MapEntry) (o n : Nat) : List Byte :=
  (List.range n).map fun i => match objAddr e (o + i) with
    | some a => memRead s.fs a
    | none => 0

/-- A writer of whole code words replaces errors stored earlier in them (R254). -/
def clearBad (s : State) (a n : Nat) : State :=
  s.modPw fun p => { p with badWords := p.badWords.filter fun w => decide (w + 8 ≤ a) || decide (a + n ≤ w) }

/-- Bytes written into an object from an offset upward, with fresh check bits; beyond the object nothing is written. -/
def objWrite (s : State) (e : MapEntry) : Nat → List Byte → State
  | _, [] => s
  | o, b :: r =>
    let s := match objAddr e o with
      | some a => clearBad { s with fs := memWrite s.fs a b } a 1
      | none => s
    objWrite s e (o + 1) r

/-- One access beyond an object is counted (R255). -/
def pwRange (s : State) : State := s.modPw fun p => { p with cntRange := p.cntRange + 1 }

/-! ### ECC (R251 to R254) -/

/-- The object mapped on the page of a frame-store address. -/
def mappedAt (s : State) (a : Nat) : Option (Fin 2048) :=
  (allFin 2048).find? fun h => decide (BitVec.ofNat 12 (a / 4096) ∈ (getObj s h).pages)

/-- Handle and GEN of the object mapped at an address as a DETAIL word, 0 for none (R294). -/
def mappedWord (s : State) (a : Nat) : Word :=
  match mappedAt s a with
  | none => 0
  | some h => handleWord h (getObj s h).gen

/-- The object mapped on a page is marked POISON (R252). -/
def markPoison (s : State) (a : Nat) : State :=
  match mappedAt s a with
  | none => s
  | some h => modObj s h fun e => { e with poison := true }

/-- Address of the code word that holds a byte. -/
def codeWord (a : Nat) : Nat := a / 8 * 8

/-- Correction of a single-bit error: counted, with the last error noted (R251). -/
def noteCorrected (s : State) (a : Nat) : State :=
  s.modPw fun p => { p with cntCe := p.cntCe + 1, lastErr := BitVec.ofNat 32 (codeWord a), lastErrKind := 1,
                            flags := p.flags.set 0 }

/-- A read that finds a single-bit error: corrected, and one transient record (R251). -/
def eccCorrected (s : State) (a : Nat) : State :=
  recordFault (noteCorrected s a)
    { perm := false, blk := blkPw, kind := 1, inst := 0, d0 := BitVec.ofNat 32 (codeWord a), d1 := mappedWord s a }

/-- The Queue Engine entry that a read is made for owns the fault when its ring's TIMEOUT is not 0 (R252). -/
def entryOwns (s : State) : Option (Fin 1024 × BitVec 16) → Bool
  | none => false
  | some (r, i) => s.qe.taken.any fun t => t.ring == r && t.idx == i && t.limit != 0

/-- A read that ended uncorrectable: counted, POISON, and its one permanent record of the owner (R252). -/
def ueEffects (s : State) (a : Nat) (entry : Option (Fin 1024 × BitVec 16)) : State :=
  let d1 := mappedWord s a
  let s := markPoison s a
  let s := s.modPw fun p => { p with cntUe := p.cntUe + 1, lastErr := BitVec.ofNat 32 (codeWord a), lastErrKind := 2,
                                     flags := p.flags.set 1 }
  match entry, entryOwns s entry with
  | some (r, i), true =>
    recordFault s { perm := true, blk := blkQe, kind := 2, inst := r.val, lower := some (blkPw, 0), retries := 2,
                    d0 := BitVec.ofNat 32 i.toNat, d1 := d1 }
  | _, _ =>
    recordFault s { perm := true, blk := blkPw, kind := 2, inst := 0, retries := 2, d0 := BitVec.ofNat 32 (codeWord a), d1 := d1 }

/-- A read at a that ends uncorrectable. Where READ_REPEAT commands already ended that read, its effects have come about and are
not repeated. -/
def eccUncorrectable (s : State) (a : Nat) (entry : Option (Fin 1024 × BitVec 16)) : State :=
  if codeWord a ∈ s.pw.ueDone then s.modPw fun p => { p with ueDone := p.ueDone.erase (codeWord a) } else ueEffects s a entry

/-- The code word at a as it is stored. -/
def storedWord (s : State) (a : Nat) : BitVec 64 := BitVec.ofNat 64 (ofLe (memReadBytes s.fs (codeWord a) 8))

/-- What a read of the code word at a finds: one stored with bad check bits is uncorrectable (R254). -/
def eccFound (s : State) (a : Nat) (e : Ecc) : Ecc :=
  if codeWord a ∈ s.pw.badWords then .uncorrectable (storedWord s a) else e

/-- The eight bytes that a read of the code word at a delivers (R251, R252). -/
def codeBytes (s : State) (a : Nat) (e : Ecc) : List Byte :=
  match eccFound s a e with
  | .uncorrectable raw => leBytes 8 raw.toNat
  | .clean => memReadBytes s.fs (codeWord a) 8
  | .corrected => memReadBytes s.fs (codeWord a) 8

/-- The effects of one read of the code word at a. -/
def eccRead (s : State) (a : Nat) (entry : Option (Fin 1024 × BitVec 16)) (e : Ecc) : State :=
  match eccFound s a e with
  | .clean => s
  | .corrected => eccCorrected s a
  | .uncorrectable _ => eccUncorrectable s a entry

/-- A read of a code word ends uncorrectable. -/
def isBad (s : State) (x : Nat × Ecc) : Bool :=
  match eccFound s x.1 x.2 with
  | .uncorrectable _ => true
  | _ => false

/-- The code words of n bytes of an object from an offset upward, each with what its read finds; those beyond the object are
left out. -/
def objWords (e : MapEntry) (o n : Nat) (eccs : List Ecc) : List (Nat × Ecc) :=
  (List.range ((o + n + 7) / 8 - o / 8)).filterMap fun i =>
    (objAddr e (8 * (o / 8 + i))).map fun a => (a, eccs.getD i .clean)

/-- The effects of reading code words one after another for one transfer. -/
def eccReads (entry : Option (Fin 1024 × BitVec 16)) (ws : List (Nat × Ecc)) (s : State) : State :=
  forEach ws (fun x s => eccRead s x.1 entry x.2) s

/-- Code words read one after another for a transfer that ends at the first uncorrectable one (R19, R252). -/
def eccReadsUntil (entry : Option (Fin 1024 × BitVec 16)) (ws : List (Nat × Ecc)) (s : State) : State :=
  let good := ws.takeWhile fun x => !isBad s x
  eccReads entry (good ++ ((ws.drop good.length).take 1)) s

/-- A 32-bit write into the frame store: half a code word, by reading, merging and writing back. When that read is
uncorrectable the other half is stored as read, and every later read of the word finds it uncorrectable (R254). -/
def fsWrite32 (s : State) (a : Nat) (w : Word) (e : Ecc) : State :=
  let t := eccRead s a none e
  match eccFound s a e with
  | .uncorrectable raw =>
    { t with fs := memWrite32 (memWriteBytes t.fs (codeWord a) (leBytes 8 raw.toNat)) a w }.modPw fun p =>
      { p with badWords := codeWord a :: p.badWords.erase (codeWord a) }
  | .clean => { t with fs := memWrite32 t.fs a w }
  | .corrected => { t with fs := memWrite32 t.fs a w }

/-- The timeout of the entry a repeat is made for restarts, and its repeats are counted (R20, R291). -/
def restartTimeout (s : State) (entry : Option (Fin 1024 × BitVec 16)) : State :=
  match entry with
  | none => s
  | some (r, i) =>
    s.modQe fun q => { q with taken := q.taken.map fun t =>
      if t.ring = r ∧ t.idx = i then { t with at_ := s.clock, repeats := t.repeats + 1 } else t }

/-- The read made for an entry is over: none of its repeats is in progress any more. -/
def endRepeats (s : State) (entry : Option (Fin 1024 × BitVec 16)) : State :=
  match entry with
  | none => s
  | some (r, i) =>
    s.modQe fun q => { q with taken := q.taken.map fun t => if t.ring = r ∧ t.idx = i then { t with repeats := 0 } else t }

/-- READ_REPEAT (R252): one repeat of a read that found an uncorrectable error. -/
def readRepeatEffect (addr : BitVec 24) (entry : Option (Fin 1024 × BitVec 16)) (repeats : Nat) (found : Ecc) (s : State) :
    State :=
  if 2 ≤ repeats then s
  else
    let a := addr.toNat
    let s := restartTimeout s entry
    match eccFound s a found with
    | .uncorrectable _ =>
      if repeats = 1 then (ueEffects s a entry).modPw fun p => { p with ueDone := p.ueDone ++ [codeWord a] } else s
    | e =>
      let s := endRepeats s entry
      let s := if e = .corrected then noteCorrected s a
        else s.modPw fun p => { p with lastErr := BitVec.ofNat 32 (codeWord a), lastErrKind := 2 }
      recordFault s { perm := false, blk := blkPw, kind := 2, inst := 0, retries := repeats + 1,
                      d0 := BitVec.ofNat 32 (codeWord a), d1 := mappedWord s a }

/-- POISON_REWRITE_DONE (R253): the oldest rewrite stores zero data with valid check bits in its pages, which return to
the pool. -/
def poisonRewriteEffect (s : State) : State :=
  match s.pw.rewriting with
  | [] => s
  | ps :: r =>
    let s := s.modPw fun p => { p with rewriting := r }
    forEach ps (fun p s => clearBad { s with fs := memZero s.fs (4096 * p.toNat) 4096 } (4096 * p.toNat) 4096) s

/-! ### Registers of the Page Warden -/

/-- A group is invalid when its MIN sums exceed what exists (R265). -/
def quotaInvalid (g : PwGroup) : Bool :=
  decide (4096 < (g.qmin.toList.map fun w => fld w 12 0).sum) || decide (2048 < (g.qmin.toList.map fun w => fld w 27 16).sum)

/-- PW_COMMIT_APPLY (R265). -/
def pwCommitEffect (s : State) : State :=
  if s.pw.group.pending then
    s.modPw fun p =>
      let g := p.group.apply
      let bad := quotaInvalid g.active
      { p with group := g, quotaBad := bad, flags := if bad then p.flags.set 4 else p.flags }
  else s

/-- PW_CTRL.CNT_CLEAR (R260). -/
def pwCntClearEffect (s : State) : State :=
  s.modPw fun p => { p with cntRefuse := Vector.replicate 3 0, cntCe := 0, cntUe := 0, cntStale := 0, cntRefFull := 0,
                            cntRange := 0 }

/-- The page map entry as four words (R256). -/
def mapWord (e : MapEntry) (i : Nat) : Word :=
  let st := match e.st with | .free => 0 | .writing => 1 | .sealed_ => 2
  let pages := (List.range e.pages.length).foldl (fun acc k => acc + (e.pages.getD k 0).toNat <<< (12 * k)) 0
  match i with
  | 0 =>
    if e.st = .free then put 25 e.gen.toNat
    else put 0 st ||| put 2 (clsNo e.cls).val ||| put 4 e.refs ||| put 6 e.pages.length ||| putB 10 e.poison |||
      put 12 e.owner.val ||| put 16 e.stride.toNat ||| put 25 e.gen.toNat
  | 1 => BitVec.ofNat 32 pages
  | 2 => BitVec.ofNat 32 (pages >>> 32)
  | _ => BitVec.ofNat 32 (pages >>> 64)

/-- Reads of the PW block by offset. -/
def pwRead (s : State) (off : Nat) : Word :=
  let p := s.pw
  let g := p.group.look
  if off = 0x004 then put 0 (freePageCount s) ||| put 16 (freeHandleCount s) ||| putB 31 p.quotaBad
  else if off = 0x008 then p.group.word
  else if off = 0x00C then p.flags.word
  else if off = 0x010 then p.flagEn.setWidth 32
  else if 0x020 ≤ off ∧ off < 0x02C then g.qmin[(Fin.ofNat 3 ((off - 0x020) / 4)).val]
  else if 0x030 ≤ off ∧ off < 0x03C then g.qcap[(Fin.ofNat 3 ((off - 0x030) / 4)).val]
  else if 0x040 ≤ off ∧ off < 0x080 then g.qch[(Fin.ofNat 16 ((off - 0x040) / 4)).val]
  else if off = 0x080 then put 0 (usedPages s .capture) ||| put 16 (usedHandles s .capture)
  else if off = 0x084 then put 0 (usedPages s .fabric) ||| put 16 (usedHandles s .fabric)
  else if off = 0x088 then put 0 (usedPages s .host) ||| put 16 (usedHandles s .host)
  else if 0x0C0 ≤ off ∧ off < 0x100 then put 0 (usedChannel s (Fin.ofNat 16 ((off - 0x0C0) / 4)))
  else if 0x100 ≤ off ∧ off < 0x10C then p.cntRefuse[(Fin.ofNat 3 ((off - 0x100) / 4)).val]
  else if off = 0x110 then p.cntCe
  else if off = 0x114 then p.cntUe
  else if off = 0x118 then p.cntStale
  else if off = 0x11C then p.cntRefFull
  else if off = 0x120 then p.cntRange
  else if off = 0x140 then p.lastErr
  else if off = 0x144 then p.lastErrKind.setWidth 32
  else if 0x8000 ≤ off then mapWord (getObj s (Fin.ofNat 2048 ((off - 0x8000) / 16))) ((off - 0x8000) / 4 % 4)
  else 0

/-- Writes of the PW block by offset. -/
def pwWrite (off : Nat) (w : Word) (s : State) : State :=
  if off = 0x000 then (if bit w 0 then pwCntClearEffect s else s)
  else if off = 0x008 then s.modPw fun p => { p with group := p.group.commitWrite w }
  else if off = 0x00C then s.modPw fun p => { p with flags := p.flags.clear w }
  else if off = 0x010 then s.modPw fun p => { p with flagEn := w.setWidth 5 }
  else if 0x020 ≤ off ∧ off < 0x02C then s.modPw fun p => { p with group := p.group.write fun g =>
    { g with qmin := upd g.qmin (Fin.ofNat 3 ((off - 0x020) / 4)) fun _ => w &&& 0x0FFF_1FFF } }
  else if 0x030 ≤ off ∧ off < 0x03C then s.modPw fun p => { p with group := p.group.write fun g =>
    { g with qcap := upd g.qcap (Fin.ofNat 3 ((off - 0x030) / 4)) fun _ => w &&& 0x0FFF_1FFF } }
  else if 0x040 ≤ off ∧ off < 0x080 then s.modPw fun p => { p with group := p.group.write fun g =>
    { g with qch := upd g.qch (Fin.ofNat 16 ((off - 0x040) / 4)) fun _ => w &&& 0x0000_1FFF } }
  else s

/-- Attention flags of PW that are set and enabled (R81). -/
def pwAttn (s : State) : Bool := s.pw.flags.raised s.pw.flagEn

end Sys2Proof.Machine
end

