-- ==== Sys2Proof/Machine/CapBase.lean ====
section
/-! DEFINITION. What other blocks need of the capture channels (08_capture_channels.md): settings in force (R217, R227,
R240), drops (R233), and the pending list (R221 to R224). -/

namespace Sys2Proof.Machine

def getCap (s : State) (n : Fin 16) : Cap := s.cap[n.val]

/-! ### Settings of a capture group -/

def capEn (g : CapGroup) : Bool := bit g.cfg 0
def capGangBit (g : CapGroup) : Bool := bit g.cfg 1
def capFree (g : CapGroup) : Bool := bit g.cfg 2
def capDepthCode (g : CapGroup) : Nat := fld g.cfg 5 4
/-- DEPTH in bits per pixel. -/
def capDepth (g : CapGroup) : Nat :=
  match capDepthCode g with | 0 => 8 | 1 => 10 | 2 => 12 | _ => 16
def capPack (g : CapGroup) : Bool := bit g.cfg 6
def capTaps (g : CapGroup) : Nat := fld g.cfg 10 8
def capSegmented (g : CapGroup) : Bool := bit g.cfg 12
def capDval (g : CapGroup) : Bool := bit g.cfg 13
def capPix (g : CapGroup) : Nat := fld g.pixels 14 0
def capMin (g : CapGroup) : Nat := fld g.matchMin 23 0
def capMax (g : CapGroup) : Nat := fld g.matchMax 23 0

/-- Bytes that p pixels occupy (R227); PACK is ignored at 8 and 16 bits. -/
def pixBytes (g : CapGroup) (p : Nat) : Nat :=
  match capDepthCode g with
  | 0 => p
  | 3 => 2 * p
  | _ => if capPack g then (p * capDepth g + 7) / 8 else 2 * p

/-- Bytes of one line, B (R227). -/
def capBytes (g : CapGroup) : Nat := pixBytes g (capPix g)

/-- PAGES = ceil(B / 4,096) (R227). -/
def capPages (g : CapGroup) : Nat := (capBytes g + 4095) / 4096

/-- Depths and taps a channel or a gang accepts (R217). -/
def tapsValid (g : CapGroup) : Bool :=
  let t := capTaps g
  if capGangBit g then
    match capDepthCode g with | 0 => t == 4 | 1 => t == 3 | 2 => t == 3 | _ => false
  else
    match capDepthCode g with
    | 0 => decide (1 ≤ t ∧ t ≤ 3)
    | 1 => decide (1 ≤ t ∧ t ≤ 2)
    | 2 => decide (1 ≤ t ∧ t ≤ 2)
    | _ => t == 1

/-- An invalid group (R217, R240); herd is whether the channel's sequencer has HERD_EN = 1. -/
def capInvalid (g : CapGroup) (herd : Bool) : Bool :=
  !tapsValid g || (capSegmented g && capPix g % (max (capTaps g) 1) != 0) || capPix g == 0 || decide (16384 < capPix g) ||
    (capPack g && (capDepthCode g == 0 || capDepthCode g == 3)) || (capFree g && herd)

/-- CH2k of the pair that channel n belongs to. -/
def gangHead (n : Fin 16) : Fin 16 := Fin.ofNat 16 (n.val / 2 * 2)

/-- CH2k+1 of the pair that channel n belongs to. -/
def gangTail (n : Fin 16) : Fin 16 := Fin.ofNat 16 (n.val / 2 * 2 + 1)

/-- The pair of channel n is a Medium gang (R218). -/
def isGang (s : State) (n : Fin 16) : Bool := capGangBit (getCap s (gangHead n)).group.active

/-- Channel n is CH2k+1 of a gang: its settings are ignored (R206, R218). -/
def gangOdd (s : State) (n : Fin 16) : Bool := isGang s n && n.val % 2 == 1

/-- The channels of the unit that channel n belongs to (R17). -/
def capUnit (s : State) (n : Fin 16) : List (Fin 16) := if isGang s n then [gangHead n, gangTail n] else [n]

/-- The channel that answers for channel n: CH2k of its gang, or itself. -/
def capHead (s : State) (n : Fin 16) : Fin 16 := if isGang s n then gangHead n else n

/-- The gang is locked while both receivers are, a single channel while its own is (R218). -/
def unitLocked (s : State) (n : Fin 16) : Bool := (capUnit s n).all fun m => (getCap s m).locked

/-! ### Drops (R233) -/

def dropNores : Fin 13 := 0x1
def dropUnmatched : Fin 13 := 0x2
def dropMissing : Fin 13 := 0x3
def dropLength : Fin 13 := 0x4
def dropSkew : Fin 13 := 0x5
def dropLink : Fin 13 := 0x6
def dropOverrun : Fin 13 := 0x7
def dropRingFull : Fin 13 := 0x8
def dropHandle : Fin 13 := 0x9
def dropRetired : Fin 13 := 0xA
def dropConfig : Fin 13 := 0xB
def dropPendingFull : Fin 13 := 0xC

/-- One drop counted (R233). -/
def countDrop (s : State) (n : Fin 16) (r : Fin 13) : State :=
  s.modCap n fun c => { c with drops := upd c.drops r (· + 1), flags := c.flags.set 0 }

/-- The first entry of a list that satisfies a test replaced. -/
def replaceFirst {α : Type} (p : α → Bool) (x : α) : List α → List α
  | [] => []
  | a :: r => if p a then x :: r else a :: replaceFirst p x r

/-- A reservation still asked is returned when it is granted (R199): its request now belongs to nobody. -/
def disown (s : State) (n : Fin 16) (d : PwDest) : State :=
  match s.pw.waiting.find? fun q => match q with | .reserve d' _ _ _ => d' == d | _ => false with
  | some (.reserve _ c o k) =>
    let q := PwReq.reserve d c o k
    s.modPw fun p => { p with waiting := replaceFirst (· == q) (.reserve (.gone n) c o k) p.waiting }
  | _ => s

/-- A reservation goes back, of a slot of sequencer n or, with no slot, of channel n's line. -/
def giveBack (s : State) (n : Fin 16) (slot : Option (Fin 64)) (r : ResState) : State :=
  match r with
  | .granted k => pwReturn s k
  | .waiting => disown s n (match slot with | some i => .tsqSlot n i | none => .capLine n)
  | _ => s

/-- A release dropped whole: its reservation goes back (R233). -/
def dropRelease (s : State) (n : Fin 16) (r : Fin 13) (rel : Release) : State :=
  giveBack (countDrop s n r) n none rel.res

/-- Every pending entry of channel n dropped with one reason. -/
def dropPending (s : State) (n : Fin 16) (r : Fin 13) : State :=
  let rels := (getCap s n).pending
  forEach rels (fun rel s => dropRelease s n r rel) (s.modCap n fun c => { c with pending := [] })

/-- The reservation and any handle of a line go back (R228, R233). -/
def lineGiveBack (s : State) (n : Fin 16) (l : Line) : State :=
  match l.handle, l.rel.res with
  | .granted h g, _ => (pwAbandon s h g).2
  | .waiting, .granted k =>
    giveBack (s.modPw fun p => { p with waiting := p.waiting.filter fun q =>
      match q with | .map _ k' _ => k' != k | _ => true }) n none l.rel.res
  | _, _ => giveBack s n none l.rel.res

/-- The line in assembly dropped with a reason; it stays in assembly until LVAL falls. -/
def dropLine (s : State) (n : Fin 16) (r : Fin 13) : State :=
  match (getCap s n).line with
  | none => s
  | some l =>
    if l.drop.isSome then s
    else
      (lineGiveBack (countDrop s n r) n l).modCap n fun c =>
        { c with line := some { l with drop := some r, handle := .refused, tags := 0, rel := { l.rel with res := .none } } }

/-- The line in assembly dropped with a reason and no longer followed. -/
def endLine (s : State) (n : Fin 16) (r : Fin 13) : State :=
  (dropLine s n r).modCap n fun c => { c with line := none }

/-- Lines that ended and wait for their handle dropped with a reason. -/
def dropEnding (s : State) (n : Fin 16) (r : Fin 13) : State :=
  let ls := (getCap s n).ending
  forEach ls (fun l s => lineGiveBack (countDrop s n r) n l) (s.modCap n fun c => { c with ending := [] })

/-! ### The pending list -/

/-- Why channel n drops a release at once, if it does (R221, R223, R224, R233, R236). -/
def releaseDrop (s : State) (n : Fin 16) : Option (Fin 13) :=
  let c := getCap s n
  let g := c.group.active
  if c.retired then some dropRetired
  else if c.cfgBad || !capEn g || capFree g then some dropConfig
  else if !unitLocked s n then some dropLink
  else if 64 ≤ c.pending.length then some dropPendingFull
  else none

/-- A release handed to channel n (R197, R222). -/
def takeRelease (s : State) (n : Fin 16) (rel : Release) : State :=
  match releaseDrop s n with
  | some r => dropRelease s n r rel
  | none => s.modCap n fun c => { c with pending := c.pending ++ [rel] }

end Sys2Proof.Machine
end

