-- ==== Sys2Proof/Machine/Crypto.lean ====
section
/-! DEFINITION. The published checks that the manual names and does not restate: CRC-16 of herd-link messages (R338),
CRC-32 of IEEE 802.3 (R307), CRC-32C (R397, R387), the IPv4 header checksum, SHA-256 and ECDSA on P-256 (R137, R431).
PRESUMED: their definitions are taken from the published standards the manual points to (log entry 26). -/

namespace Sys2Proof.Machine

/-! ### Cyclic redundancy checks -/

/-- One bit of a most-significant-bit-first CRC of 16 bits with polynomial 0x1021 (R338). -/
def crc16Step (c : BitVec 16) : BitVec 16 := if bit c 15 then (c <<< 1) ^^^ 0x1021 else c <<< 1

/-- n bit steps. -/
def iter {α : Type} (f : α → α) : Nat → α → α
  | 0, a => a
  | n + 1, a => iter f n (f a)

/-- CRC-16 over bytes: polynomial 0x1021, initial value 0xFFFF, no final inversion (R338). -/
def crc16 (bs : List Byte) : BitVec 16 :=
  bs.foldl (fun (c : BitVec 16) b => iter crc16Step 8 (c ^^^ ((b.setWidth 16 : BitVec 16) <<< 8))) 0xFFFF

/-- One bit of a reflected CRC of 32 bits. -/
def crc32Step (poly : Word) (c : Word) : Word := if bit c 0 then (c >>> 1) ^^^ poly else c >>> 1

/-- A reflected CRC of 32 bits with initial value and final inversion of ones. -/
def crc32With (poly : Word) (bs : List Byte) : Word :=
  ~~~ bs.foldl (fun c b => iter (crc32Step poly) 8 (c ^^^ b.setWidth 32)) 0xFFFF_FFFF

/-- The frame check sequence of Ethernet. -/
def crc32Eth (bs : List Byte) : Word := crc32With 0xEDB8_8320 bs

/-- CRC-32C (Castagnoli). -/
def crc32c (bs : List Byte) : Word := crc32With 0x82F6_3B78 bs

/-- The one's complement checksum of an IPv4 header given as bytes. -/
def ipChecksum (bs : List Byte) : BitVec 16 :=
  let rec sum : List Byte → Nat
    | [] => 0
    | [a] => a.toNat * 256
    | a :: b :: r => a.toNat * 256 + b.toNat + sum r
  let s := sum bs
  let s := s % 65536 + s / 65536
  let s := s % 65536 + s / 65536
  ~~~ BitVec.ofNat 16 s

/-! ### SHA-256 -/

/-- The largest number below 2 ^ n above x whose k-th power does not exceed m. -/
def rootFrom (k m : Nat) : Nat → Nat → Nat
  | 0, x => x
  | n + 1, x => rootFrom k m n (if (x + 2 ^ n) ^ k ≤ m then x + 2 ^ n else x)

/-- The first 32 bits of the fractional part of the k-th root of p. -/
def rootWord (k p : Nat) : Word := BitVec.ofNat 32 (rootFrom k (p * 2 ^ (32 * k)) 40 0)

/-- The primes below a bound, rising. -/
def primesBelow (n : Nat) : List Nat :=
  (List.range n).filter fun p => decide (2 ≤ p) && (List.range p).all fun d => decide (d < 2) || p % d != 0

/-- The round constants: cube roots of the first 64 primes. -/
def shaK : List Word := (primesBelow 312).map (rootWord 3)

/-- The eight working words. -/
structure Sha where
  a : Word
  b : Word
  c : Word
  d : Word
  e : Word
  f : Word
  g : Word
  h : Word
  deriving DecidableEq, Repr

/-- The first working words: square roots of the first 8 primes. -/
def shaInit : Sha :=
  let r := rootWord 2
  { a := r 2, b := r 3, c := r 5, d := r 7, e := r 11, f := r 13, g := r 17, h := r 19 }

/-- One round with constant k and schedule word w. -/
def shaRound (s : Sha) (k w : Word) : Sha :=
  let s1 := s.e.rotateRight 6 ^^^ s.e.rotateRight 11 ^^^ s.e.rotateRight 25
  let ch := (s.e &&& s.f) ^^^ (~~~ s.e &&& s.g)
  let t1 := s.h + s1 + ch + k + w
  let s0 := s.a.rotateRight 2 ^^^ s.a.rotateRight 13 ^^^ s.a.rotateRight 22
  let mj := (s.a &&& s.b) ^^^ (s.a &&& s.c) ^^^ (s.b &&& s.c)
  ⟨t1 + (s0 + mj), s.a, s.b, s.c, s.d + t1, s.e, s.f, s.g⟩

/-- The next word of a schedule held newest first. -/
def shaNext (ws : List Word) : Word :=
  let w2 := ws.getD 1 0
  let w15 := ws.getD 14 0
  let s0 := w15.rotateRight 7 ^^^ w15.rotateRight 18 ^^^ (w15 >>> 3)
  let s1 := w2.rotateRight 17 ^^^ w2.rotateRight 19 ^^^ (w2 >>> 10)
  ws.getD 15 0 + s0 + ws.getD 6 0 + s1

/-- The 64 schedule words of one block of 16. -/
def shaSchedule (block : List Word) : List Word := (iter (fun ws => shaNext ws :: ws) 48 block.reverse).reverse

/-- One block folded into the working words. -/
def shaBlock (s : Sha) (block : List Word) : Sha :=
  let t := (List.zip shaK (shaSchedule block)).foldl (fun t kw => shaRound t kw.1 kw.2) s
  ⟨s.a + t.a, s.b + t.b, s.c + t.c, s.d + t.d, s.e + t.e, s.f + t.f, s.g + t.g, s.h + t.h⟩

/-- Bytes as big-endian words. -/
def beWords : List Byte → List Word
  | a :: b :: c :: d :: r => BitVec.ofNat 32 (ofBe [a, b, c, d]) :: beWords r
  | _ => []

/-- Blocks of 16 words; the count bounds the recursion. -/
def shaBlocks : Nat → List Word → List (List Word)
  | 0, _ => []
  | n + 1, ws => ws.take 16 :: shaBlocks n (ws.drop 16)

/-- SHA-256 of a byte string: 32 bytes. -/
def sha256 (bs : List Byte) : List Byte :=
  let zeros := (119 - bs.length % 64) % 64
  let padded := bs ++ [0x80] ++ List.replicate zeros 0 ++ beBytes 8 (8 * bs.length)
  let s := (shaBlocks (padded.length / 64) (beWords padded)).foldl shaBlock shaInit
  [s.a, s.b, s.c, s.d, s.e, s.f, s.g, s.h].flatMap fun w => beBytes 4 w.toNat

/-! ### ECDSA on the curve P-256 -/

def p256P : Nat := 0xFFFFFFFF00000001000000000000000000000000FFFFFFFFFFFFFFFFFFFFFFFF
def p256N : Nat := 0xFFFFFFFF00000000FFFFFFFFFFFFFFFFBCE6FAADA7179E84F3B9CAC2FC632551
def p256B : Nat := 0x5AC635D8AA3A93E7B3EBBD55769886BC651D06B0CC53B0F63BCE3C3E27D2604B
def p256Gx : Nat := 0x6B17D1F2E12C4247F8BCE6E563A440F277037D812DEB33A0F4A13945D898C296
def p256Gy : Nat := 0x4FE342E2FE1A7F9B8EE7EB4A7C0F9E162BCE33576B315ECECBB6406837BF51F5

/-- b to the power e modulo m, e of at most 256 bits. -/
def powMod (b e m : Nat) : Nat :=
  (List.range 256).foldr (fun i acc => let sq := acc * acc % m; if e.testBit i then sq * b % m else sq) 1
    |> fun x => x % m

/-- Inverse modulo a prime. -/
def invMod (a m : Nat) : Nat := powMod (a % m) (m - 2) m

/-- A point: none is the point at infinity. -/
abbrev EcPoint := Option (Nat × Nat)

/-- Sum of two points. -/
def ecAdd (p q : EcPoint) : EcPoint :=
  match p, q with
  | none, q => q
  | p, none => p
  | some (x1, y1), some (x2, y2) =>
    if x1 = x2 ∧ (y1 + y2) % p256P = 0 then none
    else
      let l :=
        if x1 = x2 then (3 * x1 * x1 + (p256P - 3)) * invMod (2 * y1) p256P % p256P
        else (y2 + p256P - y1) * invMod (x2 + p256P - x1) p256P % p256P
      let x3 := (l * l + 2 * p256P - x1 - x2) % p256P
      some (x3, (l * (x1 + p256P - x3) + p256P - y1) % p256P)

/-- k times a point, k of at most 256 bits. -/
def ecMul (k : Nat) (p : EcPoint) : EcPoint :=
  (List.range 256).foldr (fun i acc => let d := ecAdd acc acc; if k.testBit i then ecAdd d p else d) none

/-- A point of the curve with both coordinates in the field. -/
def onCurve (x y : Nat) : Bool :=
  decide (x < p256P) && decide (y < p256P) &&
    y * y % p256P == (x * x * x + (p256P - 3) * x + p256B) % p256P

/-- ECDSA verification of a 32-byte digest against a public key (x, y) and a signature (r, s). -/
def ecdsaVerify (digest : List Byte) (x y r s : Nat) : Bool :=
  if decide (1 ≤ r ∧ r < p256N ∧ 1 ≤ s ∧ s < p256N) && onCurve x y then
    let w := invMod s p256N
    let u1 := ofBe digest * w % p256N
    let u2 := r * w % p256N
    match ecAdd (ecMul u1 (some (p256Gx, p256Gy))) (ecMul u2 (some (x, y))) with
    | none => false
    | some (px, _) => px % p256N == r
  else false

end Sys2Proof.Machine
end

