-- ==== Sys2Proof/Machine/Line.lean ====
section
/-! DEFINITION. The 8b/10b line code of the herd link (12_herd_link.md R337): the code groups and running-disparity rules of IEEE 802.3
clause 36, which R337 names and the manual does not print (PRESUMED; log entry 98). A code group is written with its first bit on
the line as bit 9; a running disparity is `true` when positive. -/

namespace Sys2Proof.Machine

/-- The six-bit sub-blocks abcdei of D.0 to D.31 at negative disparity. -/
def sixBlocks : List Nat :=
  [0b100111, 0b011101, 0b101101, 0b110001, 0b110101, 0b101001, 0b011001, 0b111000] ++
  [0b111001, 0b100101, 0b010101, 0b110100, 0b001101, 0b101100, 0b011100, 0b010111] ++
  [0b011011, 0b100011, 0b010011, 0b110010, 0b001011, 0b101010, 0b011010, 0b111010] ++
  [0b110011, 0b100110, 0b010110, 0b110110, 0b001110, 0b101110, 0b011110, 0b101011]

/-- The four-bit sub-blocks fghj of y = 0 to 6 and of the primary y = 7 at negative disparity. -/
def fourBlocks : List Nat := [0b1011, 0b1001, 0b0101, 0b1100, 0b1101, 0b1010, 0b0110, 0b1110]

/-- How many of n bits are 1. -/
def ones : Nat → Nat → Nat
  | 0, _ => 0
  | n + 1, v => v % 2 + ones n (v / 2)

/-- A sub-block of n bits has as many ones as zeros. -/
def balanced (n v : Nat) : Bool := 2 * ones n v == n

/-- The alternate y = 7, which keeps runs short: D.17, D.18 and D.20 at negative and D.11, D.13 and D.14 at positive disparity. -/
def alternate7 (rd : Bool) (x : Nat) : Bool :=
  if rd then x == 11 || x == 13 || x == 14 else x == 17 || x == 18 || x == 20

/-- A sub-block sent at disparity rd: at positive disparity the complement of one that is not balanced, and of the balanced one
named by `odd`, which has two forms. -/
def subBlock (n v : Nat) (odd rd : Bool) : Nat := if rd && (!balanced n v || odd) then 2 ^ n - 1 - v else v

/-- The code group of data byte b at disparity rd, and the disparity after it. -/
def dataGroup (rd : Bool) (b : Byte) : BitVec 10 × Bool :=
  let x := b.toNat % 32
  let y := b.toNat / 32
  let six := sixBlocks.getD x 0
  let rd' := rd != !balanced 6 six
  let four := if y = 7 ∧ alternate7 rd' x then 0b0111 else fourBlocks.getD y 0
  (BitVec.ofNat 10 (subBlock 6 six (x == 7) rd * 16 + subBlock 4 four (y == 3) rd'), rd' != !balanced 4 four)

/-- /K28.5/, which starts a slot. -/
def k285 (rd : Bool) : BitVec 10 × Bool := (if rd then 0b1100000101 else 0b0011111010, !rd)

/-- /K29.7/, three of which end a slot. -/
def k297 (rd : Bool) : BitVec 10 × Bool := (if rd then 0b0100010111 else 0b1011101000, rd)

/-- Characters sent one after the other. -/
def sendChars (l : List (Bool → BitVec 10 × Bool)) (rd : Bool) : List (BitVec 10) × Bool :=
  l.foldl (fun a c => let g := c a.2; (a.1 ++ [g.1], g.2)) ([], rd)

/-- The 20 code groups of a slot with its 16 message bytes (R337). -/
def slotGroups (msg : List Byte) (rd : Bool) : List (BitVec 10) × Bool :=
  sendChars (k285 :: msg.map (fun b rd => dataGroup rd b) ++ [k297, k297, k297]) rd

/-- A character received. -/
inductive Char10 where
  | data (b : Byte)
  | comma | fill
  deriving DecidableEq, Repr

/-- The character that a code group is at disparity rd, none for a group outside that column. -/
def readGroup (rd : Bool) (g : BitVec 10) : Option (Char10 × Bool) :=
  if (k285 rd).1 = g then some (.comma, (k285 rd).2)
  else if (k297 rd).1 = g then some (.fill, (k297 rd).2)
  else ((List.range 256).find? fun v => (dataGroup rd (BitVec.ofNat 8 v)).1 == g).map fun v =>
    (.data (BitVec.ofNat 8 v), (dataGroup rd (BitVec.ofNat 8 v)).2)

/-- Code groups read from disparity rd on, none at a code-group or disparity error. -/
def readChars (rd : Bool) : List (BitVec 10) → Option (List Char10)
  | [] => some []
  | g :: r =>
    match readGroup rd g with
    | none => none
    | some (c, rd') => (readChars rd' r).map (c :: ·)

/-- The bytes of data characters, none where another character stands. -/
def charBytes : List Char10 → Option (List Byte)
  | [] => some []
  | .data b :: r => (charBytes r).map (b :: ·)
  | _ :: _ => none

/-- The message of a received slot (R339): none at a code-group or disparity error, or without /K28.5/ at its start. The model does
not follow the disparity between received slots, and lets a slot start at either (log entry 98). -/
def slotMessage (g : List (BitVec 10)) : Option (List Byte) :=
  match (readChars false g).orElse fun _ => readChars true g with
  | some (.comma :: r) => if r.length = 19 then charBytes (r.take 16) else none
  | _ => none

end Sys2Proof.Machine
end

