-- ==== Sys2Proof/Machine/HlBase.lean ====
section
/-! DEFINITION. What other blocks need of the herd link (12_herd_link.md): membership and leads (R334, R335), messages (R338), and the
origination of class-0 messages (R344). -/

namespace Sys2Proof.Machine

/-! ### Settings in force -/

def hlCfg (s : State) : Word := s.hl.group.active.cfg
def hlDev (s : State) : Fin 8 := Fin.ofNat 8 (fld (hlCfg s) 2 0)
def hlTimeDev (s : State) : Fin 8 := Fin.ofNat 8 (fld (hlCfg s) 6 4)
def hlHaltEn (s : State) : Bool := bit (hlCfg s) 10
def herdCfg (s : State) (h : Fin 4) : Word := s.hl.group.active.herd[h.val]
def herdLeadDev (s : State) (h : Fin 4) : Fin 8 := Fin.ofNat 8 (fld (herdCfg s h) 6 4)
def herdMembers (s : State) (h : Fin 4) : Nat := fld (herdCfg s h) 15 8

/-- The device is a member of herd h (R335). -/
def isMember (s : State) (h : Fin 4) : Bool := bit (herdCfg s h) 0

/-- The device is the herd lead of h (R169, R335). -/
def isLead (s : State) (h : Fin 4) : Bool := isMember s h && hlDev s == herdLeadDev s h

/-- The device is the time lead (R334). -/
def isTimeLead (s : State) : Bool := hlDev s == hlTimeDev s

def getHerd (s : State) (h : Fin 4) : Herd := s.hl.herds[h.val]
def getPort (s : State) (p : Fin 2) : HlPort := s.hl.ports[p.val]
def portUp (s : State) (p : Fin 2) : Bool := (getPort s p).st == .up
def portFailed (s : State) (p : Fin 2) : Bool := (getPort s p).st == .failed

/-- The herd-link lanes run: PLL_HL is locked, and the pins are out of their start-up state (R44, R152). -/
def hlOn (s : State) : Bool := s.sys.hlLock && pinsLive s

/-- A herd that is STARTING or STARTED. -/
def herdLive (s : State) (h : Fin 4) : Bool := (getHerd s h).st == .starting || (getHerd s h).st == .started

/-- Some herd of the device is STARTING or STARTED (R345, R361). -/
def anyHerdLive (s : State) : Bool := (allFin 4).any fun h => isMember s h && herdLive s h

/-! ### Messages -/

/-- The 16 bytes of a message (R338). -/
def hlBytes (type : Nat) (h : Fin 4) (origin hops : Fin 8) (payload : List Byte) : List Byte :=
  let body := leBytes 1 (type * 16 + h.val * 4) ++ leBytes 1 (origin.val * 32 + hops.val * 4) ++
    (payload ++ List.replicate 12 0).take 12
  body ++ beBytes 2 (crc16 body).toNat

/-- TYPE of a class-0 message (R338). -/
def eventType : HerdEvent → Nat
  | .start => 8
  | .stop => 9
  | .retire => 10
  | .revive => 11

/-- A message of herd h crosses port p (R357). -/
def crossPort (s : State) (h : Fin 4) (p : Fin 2) : State :=
  s.modHerd h fun d => { d with cross := setBit d.cross p.val }

/-- A class-0 message originated for herd h with T_EFF = X + delta (R344, R351 to R354). It waits for its slots; X, and with it T_EFF,
is known when the first slot starts. -/
def originate (s : State) (ev : HerdEvent) (h : Fin 4) (delta reason : Nat) (seq : Word) : State :=
  s.modHl fun l =>
    { l with serial := l.serial + 1,
             out0 := l.out0 ++ [{ ev := ev, herd := h, delta := delta, reason := BitVec.ofNat 8 reason, seq := seq, serial := l.serial,
                                  since := s.clock, tEff := none, left := Vector.replicate 2 3 }] }

end Sys2Proof.Machine
end

