-- ==== Sys2Proof/Machine/Tsq.lean ====
section
/-! DEFINITION. The trigger sequencers (07_trigger_sequencer.md R182 to R215): sources and views, targets and identities,
the estimator, slots, squash, commit, fire gate, ghost records, settings, and retirement of one sequencer. -/

namespace Sys2Proof.Machine

def getTsq (s : State) (n : Fin 16) : Tsq := s.tsq[n.val]
def getEnc (s : State) (n : Fin 8) : Enc := s.tbe.enc[n.val]
def getRem (s : State) (h : Fin 4) : Rem := s.tbe.rem[h.val]

/-! ### Settings of a sequencer's group (chapter 07, "Register reference") -/

def tsqEn (g : TsqGroup) : Bool := bit g.prog 0
def tsqHerdEn (g : TsqGroup) : Bool := bit g.prog 1
def tsqHerdId (g : TsqGroup) : Fin 4 := Fin.ofNat 4 (fld g.prog 3 2)
/-- POLICY REVERSE; 2 and 3 act as FORWARD. -/
def tsqRev (g : TsqGroup) : Bool := fld g.prog 5 4 == 1
/-- The source number: REM(HERD_ID) for a herd member, whatever SRC says (R204). -/
def tsqSrc (g : TsqGroup) : Nat := if tsqHerdEn g then 8 + (tsqHerdId g).val else fld g.prog 11 8
/-- VWIN; 7 acts as 6. -/
def tsqVwin (g : TsqGroup) : Nat := min (fld g.prog 14 12) 6
def tsqAnchorBit (g : TsqGroup) : Bool := bit g.prog 15
def tsqPreEn (g : TsqGroup) : Bool := bit g.prog 16
/-- DEPTH; 0 acts as 1 and more than 64 as 64 (R189). -/
def tsqDepth (g : TsqGroup) : Nat := min (max (fld g.prog 30 24) 1) 64
/-- PITCH in 16.16 counts; below 1.0 acts as 1.0 (R185). -/
def tsqPitch (g : TsqGroup) : Nat := max g.pitch.toNat 0x10000
def tsqStrobeLead (g : TsqGroup) : Nat := min (fld g.lead 17 0) 200000
def tsqPreLead (g : TsqGroup) : Nat := min (fld g.preLead 17 0) 200000
def tsqHold (g : TsqGroup) : Nat := fld g.hold 15 0
def tsqStop (g : TsqGroup) : Nat := fld g.stop 23 0
/-- A WIDTH of 0 acts as 1 (R183). -/
def tsqExpWidth (g : TsqGroup) : Nat := max (fld g.pulse 15 0) 1
def tsqPreWidth (g : TsqGroup) : Nat := max (fld g.pulse 31 16) 1
def tsqStbWidth (g : TsqGroup) : Nat := max (fld g.stb 19 0) 1
def tsqStbPol (g : TsqGroup) : Bool := bit g.stb 28
def tsqExpPol (g : TsqGroup) : Bool := bit g.stb 29
def tsqPrePol (g : TsqGroup) : Bool := bit g.stb 30
/-- L of R187. -/
def tsqLead (g : TsqGroup) : Nat := max (tsqStrobeLead g) (if tsqPreEn g then tsqPreLead g else 0)

def tsqAct (s : State) (n : Fin 16) : TsqGroup := (getTsq s n).group.active

/-- The herd of sequencer n on this device (R335): HERD_EN with HERD_ID = h. -/
def tsqHerd (g : TsqGroup) : Option (Fin 4) := if tsqHerdEn g then some (tsqHerdId g) else none

/-! ### Sources (R168, R169, R204) -/

def encEn (e : Enc) : Bool := bit e.cfg.active 0

/-- The local encoder a source shows, if any: ENCn itself, or on the herd lead the encoder that feeds REM(h). -/
def srcEnc (s : State) (src : Nat) : Option (Fin 8) :=
  if src < 8 then some (Fin.ofNat 8 src)
  else if src < 12 then
    let h : Fin 4 := Fin.ofNat 4 (src - 8)
    if isLead s h then some (getRem s h).localEnc else none
  else none

/-- Whether a source is a remote one that this device takes from messages: a follower's REM(h). -/
def srcRem (s : State) (src : Nat) : Option (Fin 4) :=
  if 8 ≤ src ∧ src < 12 then
    let h : Fin 4 := Fin.ofNat 4 (src - 8)
    if isMember s h && !isLead s h then some h else none
  else none

/-- VALID of a source. -/
def srcValid (s : State) (src : Nat) : Bool :=
  match srcEnc s src, srcRem s src with
  | some e, _ => encEn (getEnc s e)
  | none, some h => (getRem s h).valid
  | none, none => false

/-- FAILED of a source. -/
def srcFailed (s : State) (src : Nat) : Bool :=
  match srcEnc s src, srcRem s src with
  | some e, _ => (getEnc s e).failed
  | none, some h => (getRem s h).failed
  | none, none => false

/-- SUSPECT of a source. -/
def srcSuspect (s : State) (src : Nat) : Bool :=
  match srcEnc s src, srcRem s src with
  | some e, _ => (getEnc s e).suspect
  | none, some h => (getRem s h).suspect
  | none, none => false

/-- Direction state of a source: true for REV. -/
def srcDir (s : State) (src : Nat) : Bool :=
  match srcEnc s src, srcRem s src with
  | some e, _ => (getEnc s e).rev
  | none, some h => (getRem s h).rev
  | none, none => false

/-- Stamp of a source's last accepted count. -/
def srcStamp (s : State) (src : Nat) : Tick :=
  match srcEnc s src, srcRem s src with
  | some e, _ => (getEnc s e).last
  | none, some h => (getRem s h).stamp
  | none, none => 0

/-- The gate view: the position of the source as delivered. -/
def gatePos (s : State) (src : Nat) : Word :=
  match srcEnc s src, srcRem s src with
  | some e, _ => (getEnc s e).pos
  | none, some h => (getRem s h).pos
  | none, none => 0

/-- The predictor view: the encoder itself, or in a herd REM(h) delayed to tick E (R187, R204). -/
def predPos (s : State) (src : Nat) : Word :=
  if 8 ≤ src ∧ src < 12 then (getRem s (Fin.ofNat 4 (src - 8))).predPos else gatePos s src

/-- A usable source: VALID and not FAILED. -/
def srcUsable (s : State) (src : Nat) : Bool := srcValid s src && !srcFailed s src

/-- Motion is with policy (R184). -/
def withPolicy (s : State) (n : Fin 16) : Bool := srcDir s (tsqSrc (tsqAct s n)) == tsqRev (tsqAct s n)

/-- R189: the sequencer is running. -/
def running (s : State) (n : Fin 16) : Bool :=
  let t := getTsq s n
  let g := t.group.active
  tsqEn g && !t.retired && srcUsable s (tsqSrc g) && !t.srcWait && !t.herdWait &&
    (match tsqHerd g with | some h => (getHerd s h).st == .started | none => true) &&
    !t.stopped && withPolicy s n && !gangOdd s n

/-! ### Targets and positions (R163, R184, R185) -/

/-- A position as a 32.16 value. -/
def fix (p : Word) : BitVec 48 := p.setWidth 48 <<< 16

/-- Integer part of a target. -/
def intPart (t : BitVec 48) : Word := (t >>> 16).setWidth 32

/-- +1 under FORWARD, -1 under REVERSE. -/
def dirOf (rev : Bool) : Int := if rev then -1 else 1

/-- The target one PITCH further in the firing direction. -/
def nextAfter (g : TsqGroup) (t : BitVec 48) : BitVec 48 :=
  if tsqRev g then t - BitVec.ofNat 48 (tsqPitch g) else t + BitVec.ofNat 48 (tsqPitch g)

/-- A target is reached (R184). -/
def reached (rev : Bool) (pos : Word) (target : BitVec 48) : Bool :=
  let d := (pos - intPart target).toInt
  if rev then decide (d ≤ 0) else decide (0 ≤ d)

/-! ### The estimator (R187, R188) -/

/-- The history kept for a window of VWIN: the last 2^VWIN + 1 stamps, newest first. -/
def keepHist (vwin : Nat) (hist : List Nat) : List Nat := hist.take (2 ^ vwin + 1)

/-- I: ticks per count in 32.16, none with fewer than two stamps. -/
def interval (hist : List Nat) : Option Int :=
  match hist with
  | newest :: _ :: _ =>
    some (Int.fdiv (((newest : Int) - (hist.getLastD 0 : Int)) * 65536) ((hist.length : Int) - 1))
  | _ => none

/-- The history emptied: the frontier becomes the predictor-view position and the stop count restarts (R188, R191). -/
def emptyHist (s : State) (n : Fin 16) : State :=
  let f := predPos s (tsqSrc (tsqAct s n))
  s.modTsq n fun t => { t with hist := [], interval := none, frontier := f, stopFrom := s.clock }

/-- A count of the predictor view at position p with its stamp: new ground enters the history (R187, R188). -/
def predCount (s : State) (n : Fin 16) (p : Word) (stamp : Nat) : State :=
  let t := getTsq s n
  let g := t.group.active
  if tsqEn g && !t.retired && decide (0 < dirOf (tsqRev g) * (p - t.frontier).toInt) then
    s.modTsq n fun t =>
      let hist := keepHist (tsqVwin g) (stamp :: t.hist)
      { t with hist := hist, interval := interval hist, tLast := stamp, frontier := p, stopFrom := s.clock, stopped := false }
  else s

/-- I_eff at the present tick. -/
def effInterval (s : State) (t : Tsq) : Option Int :=
  t.interval.map fun i => max i (((now s : Int) - (t.tLast : Int)) * 65536)

/-- T_exp of a target at the present tick, none for NEVER (R187). -/
def predict (s : State) (n : Fin 16) (target : BitVec 48) : Option Int :=
  let t := getTsq s n
  let g := t.group.active
  (effInterval s t).map fun i =>
    let d := dirOf (tsqRev g) * sInt48 (target - fix (predPos s (tsqSrc g)))
    (t.tLast : Int) + Int.fdiv (d * i) (2 ^ 32)

/-! ### Slots -/

def getSlot (s : State) (n : Fin 16) (i : Fin 64) : Slot := (getTsq s n).slots[i.val]

def modSlot (s : State) (n : Fin 16) (i : Fin 64) (f : Slot → Slot) : State :=
  s.modTsq n fun t => { t with slots := upd t.slots i f }

/-- How far a slot's identity lies below the next one: identities wrap (R186). -/
def slotAge (t : Tsq) (i : Fin 64) : Nat := (t.nextId - t.slots[i.val].id).toNat

/-- A slot put into a list that is in order of identities. -/
def insertAge (t : Tsq) (i : Fin 64) : List (Fin 64) → List (Fin 64)
  | [] => [i]
  | j :: r => if slotAge t j < slotAge t i then i :: j :: r else j :: insertAge t i r

/-- Slots in order of identities, the lowest first. -/
def byAge (t : Tsq) (l : List (Fin 64)) : List (Fin 64) := l.foldr (insertAge t) []

/-- The slots in a state, the lowest identity first. -/
def slotsIn (s : State) (n : Fin 16) (st : SlotState) : List (Fin 64) :=
  let t := getTsq s n
  byAge t ((allFin 64).filter fun i => t.slots[i.val].st == st)

/-- OPEN and COMMITTED slots, the lowest identity first. -/
def slotsUsed (s : State) (n : Fin 16) : List (Fin 64) :=
  let t := getTsq s n
  byAge t ((allFin 64).filter fun i => t.slots[i.val].st != .free)

/-- A slot becomes FREE. -/
def freeSlotAt (s : State) (n : Fin 16) (i : Fin 64) : State := modSlot s n i fun _ => Slot.init

/-! ### Squash (R191) -/

/-- One OPEN slot squashed: its reservation returns and nothing else remains. -/
def squashSlot (s : State) (n : Fin 16) (i : Fin 64) : State :=
  let sl := getSlot s n i
  let s := giveBack s n (some i) sl.res
  (freeSlotAt s n i).modTsq n fun t => { t with cntSquash := t.cntSquash + 1 }

/-- A list of OPEN slots squashed, the lowest identity first; targets and identities are opened again later. -/
def squashList (s : State) (n : Fin 16) (l : List (Fin 64)) : State :=
  match l with
  | [] => s
  | i :: _ =>
    let first := getSlot s n i
    (forEach l (fun i s => squashSlot s n i) s).modTsq n fun t =>
      { t with nextId := first.id, nextTarget := first.target }

/-- Every OPEN slot squashed and the history emptied (R188, R191). -/
def squashAll (s : State) (n : Fin 16) : State := emptyHist (squashList s n (slotsIn s n .open_)) n

/-! ### Pulses (R183) -/

/-- A rise of a retriggering output: active until WIDTH ticks after this rise. -/
def Pulse.rise (p : Pulse) (t width : Nat) : Pulse := { p with active := true, end_ := t + width }

/-- One scheduled edge rises in the present tick: STROBE or PRETRIG, and the slot it belongs to learns its tick (R192). -/
def riseEdge (s : State) (n : Fin 16) (e : Edge) : State :=
  s.modTsq n fun t =>
    if e.strobe then
      { t with strobe := t.strobe.rise s.clock e.width,
               slots := t.slots.map fun sl => if sl.st = .committed ∧ sl.no = e.no then { sl with strobeAt := (now s : Int) } else sl }
    else { t with pretrig := t.pretrig.rise s.clock e.width }

/-- The scheduled edges that satisfy a test rise now and leave the schedule. -/
def riseEdges (s : State) (n : Fin 16) (p : Edge → Bool) : State :=
  let due := (getTsq s n).edges.filter p
  let s := s.modTsq n fun t => { t with edges := t.edges.filter fun e => !p e }
  forEach due (fun e s => riseEdge s n e) s

/-- Edges scheduled no later than the present tick rise in it (R192). -/
def riseDue (s : State) (n : Fin 16) (strobe : Bool) : State :=
  riseEdges s n fun e => e.strobe == strobe && decide (e.at_ ≤ (now s : Int))

/-! ### Commit (R192, R193) -/

/-- An OPEN slot commits with T_exp: its edges are scheduled, and those already due rise. -/
def commitSlot (s : State) (n : Fin 16) (i : Fin 64) (tExp : Int) : State :=
  let g := tsqAct s n
  let sl := getSlot s n i
  let no := (getTsq s n).commits
  let stb : Edge := { strobe := true, at_ := tExp - tsqStrobeLead g, width := tsqStbWidth g, no := no }
  let pre : Edge := { strobe := false, at_ := tExp - tsqPreLead g, width := tsqPreWidth g, no := no }
  let s := modSlot s n i fun sl =>
    { sl with st := .committed, tExp := some tExp, strobeAt := stb.at_, hold := tsqHold g, expWidth := tsqExpWidth g,
              stbWidth := tsqStbWidth g, preWidth := tsqPreWidth g, strobeLead := tsqStrobeLead g, src := tsqSrc g,
              rev := tsqRev g, herd := tsqHerd g, no := no }
  let s := s.modTsq n fun t =>
    { t with commits := t.commits + 1, lastCommit := some sl.target, edges := t.edges ++ (if tsqPreEn g then [stb, pre] else [stb]) }
  riseDue (riseDue s n true) n false

/-! ### Ghost records and cancellation (R198) -/

def reasonHold : Nat := 1
def reasonStep : Nat := 2
def reasonBusy : Nat := 3
def reasonRetire : Nat := 4
def reasonGang : Nat := 5

/-- CHAN of a ghost record or a line tag. -/
def chanByte (n : Fin 16) (herd : Option (Fin 4)) : Byte :=
  match herd with
  | none => BitVec.ofNat 8 n.val
  | some h => BitVec.ofNat 8 (n.val + 16 * h.val + 128)

/-- NORES: the reservation is absent. -/
def resAbsent : ResState → Bool
  | .granted _ => false
  | _ => true

/-- The 32 bytes of a ghost record. -/
def ghostBytes (s : State) (n : Fin 16) (sl : Slot) (reason : Nat) : List Byte :=
  leBytes 8 (sl.strobeAt % 2 ^ 64).toNat ++ leBytes 8 (now s) ++ leBytes 4 sl.id.toNat ++
    leBytes 4 (intPart sl.target).toNat ++ leBytes 4 (gatePos s sl.src).toNat ++ [chanByte n sl.herd] ++
    leBytes 1 reason ++
    leBytes 2 ((if srcSuspect s sl.src then 1 else 0) + (if resAbsent sl.res then 2 else 0))

/-- Ring of sequencer n's ghost records. -/
def ghostRing (n : Fin 16) : Fin 1024 := Fin.ofNat 1024 (16 + n.val)

/-- A COMMITTED slot cancelled with a reason: ghost record, counts, reservation returned (R198). -/
def cancelSlot (s : State) (n : Fin 16) (reason : Nat) (i : Fin 64) : State :=
  let sl := getSlot s n i
  let (stored, s) := ringPost s (ghostRing n) (ghostBytes s n sl reason)
  let s := giveBack s n (some i) sl.res
  (freeSlotAt s n i).modTsq n fun t =>
    { t with cntGhost := t.cntGhost + 1, lineBoundary := some s.clock,
             cntGhostLost := if stored then t.cntGhostLost else t.cntGhostLost + 1,
             flags := if stored then t.flags.set 0 else (t.flags.set 0).set 5 }

/-- Every COMMITTED slot that satisfies a test cancelled, in the order of identities (R215). -/
def cancelWhere (s : State) (n : Fin 16) (reason : Nat) (p : Slot → Bool) : State :=
  forEach ((slotsIn s n .committed).filter fun i => p (getSlot s n i)) (fun i s => cancelSlot s n reason i) s

/-! ### The fire gate (R193 to R197) -/

/-- EXPOSE would still be active in the tick a release made now would change it (R196). -/
def exposeBusy (t : Tsq) (rise : Nat) : Bool := t.expose.any fun p => decide (p.from_ ≤ rise ∧ rise < p.end_)

/-- A COMMITTED slot's exposure released in the present tick (R193 to R197): speculative edges rise, EXPOSE is scheduled
three ticks later, and the line passes to the capture channel. -/
def releaseSlot (s : State) (n : Fin 16) (i : Fin 64) : State :=
  let rise := now s + 3
  let at_ := s.clock + 3
  if exposeBusy (getTsq s n) at_ then cancelSlot s n reasonBusy i
  else
    let no := (getSlot s n i).no
    let s := riseEdges s n fun e => e.no == no
    let sl := getSlot s n i
    let short := decide (0 < sl.strobeLead) && decide ((rise : Int) - sl.strobeAt < sl.strobeLead)
    let nores := resAbsent sl.res
    let rel : Release :=
      { id := sl.id, target := intPart sl.target, strobeTick := sl.strobeAt, exposeTick := rise, shortLead := short,
        suspect := srcSuspect s sl.src, herd := sl.herd, res := if nores then .refused else sl.res }
    let s := if sl.res = .waiting then giveBack s n (some i) .waiting else s
    let s := (freeSlotAt s n i).modTsq n fun t =>
      { t with expose := t.expose ++ [⟨at_, at_ + sl.expWidth⟩], lineBoundary := some s.clock, cntFired := t.cntFired + 1,
               cntShort := if short then t.cntShort + 1 else t.cntShort,
               cntNores := if nores then t.cntNores + 1 else t.cntNores,
               flags := (t.flags.setIf short 1).setIf nores 2 }
    takeRelease s n rel

/-- The fire gate for one slot: an OPEN slot whose target is reached commits and is released; a COMMITTED one is released
within its hold window (R193, R195). -/
def gateSlot (s : State) (n : Fin 16) (i : Fin 64) : State :=
  let sl := getSlot s n i
  let g := tsqAct s n
  match sl.st with
  | .free => s
  | .open_ =>
    if reached (tsqRev g) (gatePos s (tsqSrc g)) sl.target then releaseSlot (commitSlot s n i (now s)) n i else s
  | .committed =>
    if reached sl.rev (gatePos s sl.src) sl.target && decide ((now s : Int) ≤ sl.tExp.getD 0 + sl.hold) then
      releaseSlot s n i
    else s

/-- The fire gate in target order. -/
def gateCheck (s : State) (n : Fin 16) : State := forEach (slotsUsed s n) (fun i s => gateSlot s n i) s

/-! ### Anchoring (R185, R186) -/

/-- Anchored now: the first target is set and the history emptied; the identity goes on from the lowest unused one. -/
def anchorNow (s : State) (n : Fin 16) : State :=
  let g := tsqAct s n
  let first := if tsqAnchorBit g then fix g.origin else nextAfter g (fix (gatePos s (tsqSrc g)))
  emptyHist (s.modTsq n fun t => { t with nextTarget := first, lastCommit := none, srcWait := false }) n

/-- Anchoring at EN becoming active, after a step or at REVIVE: put off while the source is not usable (R186, R203); a herd
member is anchored only by its herd's start (R204), and TSQ(2k+1) of a gang only when the gang is dissolved (R206). -/
def anchor (s : State) (n : Fin 16) : State :=
  let g := tsqAct s n
  if gangOdd s n then s
  else if !srcUsable s (tsqSrc g) then (emptyHist s n).modTsq n fun t => { t with lastCommit := none, srcWait := true }
  else if tsqHerdEn g then (emptyHist s n).modTsq n fun t => { t with lastCommit := none, srcWait := false }
  else anchorNow s n

/-- EN becoming active (R186, R202, R204, R351): identity 0; a herd member waits for the next start. -/
def enableTsq (s : State) (n : Fin 16) : State :=
  anchor (s.modTsq n fun t => { t with nextId := 0, stopped := false, herdWait := tsqHerdEn t.group.active }) n

/-- The source became usable: a waiting sequencer is anchored and runs (R203). -/
def leaveSrcWait (s : State) (n : Fin 16) : State :=
  let t := getTsq s n
  if t.srcWait && tsqEn t.group.active && srcUsable s (tsqSrc t.group.active) then anchor s n else s

/-- The sequencers whose source shows encoder e (R173); TSQ(2k+1) of a gang uses none, its settings are ignored (R206). -/
def tsqsOfEnc (s : State) (e : Fin 8) : List (Fin 16) :=
  (allFin 16).filter fun n => srcEnc s (tsqSrc (tsqAct s n)) == some e && !gangOdd s n

/-- The sequencers whose source is REM(h). -/
def tsqsOfRem (s : State) (h : Fin 4) : List (Fin 16) :=
  (allFin 16).filter fun n => tsqSrc (tsqAct s n) == 8 + h.val && !gangOdd s n

/-! ### What a change of the source does -/

/-- The direction state of sequencer n's source turned against policy: a squash of all OPEN slots (R191). -/
def turnedAgainst (s : State) (n : Fin 16) : State :=
  let t := getTsq s n
  if tsqEn t.group.active && !t.retired && !withPolicy s n then squashAll s n else s

/-- The position of encoder e stepped (R166, R191). A sequencer that uses it squashes its OPEN slots, cancels the COMMITTED ones
and is re-anchored; one that only holds COMMITTED slots of it cancels these. -/
def stepTsq (s : State) (n : Fin 16) (e : Fin 8) : State :=
  let t := getTsq s n
  if srcEnc s (tsqSrc t.group.active) == some e then
    if tsqEn t.group.active && !t.retired then anchor (cancelWhere (squashAll s n) n reasonStep fun _ => true) n
    else cancelWhere s n reasonStep fun _ => true
  else cancelWhere s n reasonStep fun sl => srcEnc s sl.src == some e

/-- The position steps of the present tick act: after retirement and before everything that follows in chapter 07's order, with
the positions as every transition of the tick left them (R174, R175, R212). -/
def settleSteps (s : State) (n : Fin 16) : State :=
  let l := (getTsq s n).steps
  forEach l (fun e s => stepTsq s n e) (s.modTsq n fun t => { t with steps := [] })

/-! ### Retirement of one sequencer (R18, R29) -/

/-- TSQn retired: OPEN slots squashed, COMMITTED exposures cancelled with RETIRE, the pending commit discarded; its fault
pointer names the record (R22). -/
def retireTsq (s : State) (n : Fin 16) (seq : Word) : State :=
  if (getTsq s n).retired then s
  else
    let s := cancelWhere (squashAll s n) n reasonRetire fun _ => true
    s.modTsq n fun t => { t with retired := true, fault := seq, flags := t.flags.set 4, group := t.group.drop }

/-- TSQn revived (R23, R186): no slots, and the targets are anchored again. -/
def reviveTsq (s : State) (n : Fin 16) : State :=
  if (getTsq s n).retired then
    let s := s.modTsq n fun t => { t with retired := false, stopped := false }
    if tsqEn (tsqAct s n) then anchor s n else s
  else s

/-! ### The safe point (R202) -/

/-- The safe point has come: a release or cancellation in this tick, or no slot COMMITTED; tick Q itself does not count. -/
def tsqSafe (s : State) (n : Fin 16) : Bool :=
  let t := getTsq s n
  t.group.pending && decide (1 ≤ t.group.wait) &&
    (t.lineBoundary == some s.clock || (slotsIn s n .committed).isEmpty)

/-- OPEN slots with the highest identities squashed until OPEN + COMMITTED is at most DEPTH. -/
def trimDepth (s : State) (n : Fin 16) (depth : Nat) : State :=
  let opn := slotsIn s n .open_
  let used := (slotsUsed s n).length
  squashList s n (opn.drop (opn.length - (used - depth)))

/-- Polarities reach an output when it is inactive (R183). -/
def applyPols (s : State) (n : Fin 16) : State :=
  let g := tsqAct s n
  let t0 := s.clock
  s.modTsq n fun t =>
    { t with strobe := if t.strobe.active then t.strobe else { t.strobe with pol := tsqStbPol g },
             pretrig := if t.pretrig.active then t.pretrig else { t.pretrig with pol := tsqPrePol g },
             exposePol := if t.expose.any fun p => decide (p.from_ ≤ t0 ∧ t0 < p.end_) then t.exposePol else tsqExpPol g }

/-- The changes of the table of R202 while EN stays 1. -/
def applyChanges (s : State) (n : Fin 16) (old g : TsqGroup) : State :=
  let retarget := tsqSrc old != tsqSrc g || tsqHerdEn old != tsqHerdEn g || tsqRev old != tsqRev g ||
    fld old.prog 11 8 != fld g.prog 11 8 || tsqHerdId old != tsqHerdId g || tsqPitch old != tsqPitch g
  let s :=
    if retarget then
      let s := squashAll s n
      let s := s.modTsq n fun t =>
        if tsqHerd old != tsqHerd g then { t with herdWait := tsqHerdEn g } else t
      match (getTsq s n).lastCommit with
      | some t0 => s.modTsq n fun t => { t with nextTarget := nextAfter g t0 }
      | none => anchor s n
    else s
  let s := s.modTsq n fun t =>
    let hist := keepHist (tsqVwin g) t.hist
    { t with hist := hist, interval := interval hist }
  trimDepth s n (tsqDepth g)

/-- TSQ_COMMIT_APPLY (R202). -/
def tsqCommitEffect (n : Fin 16) (s : State) : State :=
  let s := settleSteps s n
  if tsqSafe s n then
    let old := tsqAct s n
    let squashed := if tsqEn old && !tsqEn (getTsq s n).group.shadow then squashAll s n else s
    let s := squashed.modTsq n fun t => { t with group := t.group.apply }
    let g := tsqAct s n
    let s := applyPols s n
    if tsqEn old && tsqEn g then applyChanges s n old g
    else if !tsqEn old && tsqEn g then (if gangOdd s n then s else enableTsq s n)
    else if tsqEn old then s.modTsq n fun t => { t with stopped := false, srcWait := false, herdWait := false }
    else s
  else s

/-! ### The commands that act on one sequencer alone -/

/-- SLOT_OPEN (R189, R199): one slot a tick for the next target, and its reservation asked. -/
def slotOpenEffect (n : Fin 16) (s : State) : State :=
  let s := settleSteps s n
  let t := getTsq s n
  let g := t.group.active
  if running s n && t.openedAt != some s.clock && decide ((slotsUsed s n).length < tsqDepth g) then
    match (allFin 64).find? fun i => t.slots[i.val].st == .free with
    | none => s
    | some i =>
      let s := modSlot s n i fun _ =>
        { Slot.init with st := .open_, id := t.nextId, target := t.nextTarget, res := .waiting, src := tsqSrc g,
                         rev := tsqRev g, herd := tsqHerd g }
      let s := s.modTsq n fun t => 
        { t with nextId := t.nextId + 1, nextTarget := nextAfter g t.nextTarget, openedAt := some s.clock }
      pwAsk s (.reserve (.tsqSlot n i) .capture n (capPages (getCap s n).group.active))
  else s

/-- The commit test of one OPEN slot: now ≥ T_commit (R187, R192). -/
def commitDue (s : State) (n : Fin 16) (i : Fin 64) : Option Int :=
  match predict s n (getSlot s n i).target with
  | none => none
  | some tExp => if tExp - tsqLead (tsqAct s n) ≤ (now s : Int) then some tExp else none

/-- SLOT_COMMIT (R192, R193): targets reached while OPEN first, then every OPEN slot whose T_commit has come. -/
def slotCommitEffect (n : Fin 16) (s : State) : State :=
  let s := gateCheck (settleSteps s n) n
  forEach (slotsIn s n .open_) (fun i s =>
    match commitDue s n i with
    | some tExp => commitSlot s n i tExp
    | none => s) s

/-- STROBE_RISE (R192). -/
def strobeRiseEffect (n : Fin 16) (s : State) : State := riseDue s n true

/-- PRETRIG_RISE (R192). -/
def pretrigRiseEffect (n : Fin 16) (s : State) : State := riseDue s n false

/-- PULSE_END (R183): an output whose pulse has ended becomes inactive and takes the polarity in force. -/
def pulseEndEffect (n : Fin 16) (out : TsqOut) (s : State) : State :=
  let g := tsqAct s n
  let t0 := s.clock
  s.modTsq n fun t =>
    match out with
    | .strobe => if t.strobe.active ∧ t.strobe.end_ ≤ t0 then { t with strobe := { t.strobe with active := false, pol := tsqStbPol g } } else t
    | .pretrig => if t.pretrig.active ∧ t.pretrig.end_ ≤ t0 then { t with pretrig := { t.pretrig with active := false, pol := tsqPrePol g } } else t
    | .expose =>
      if t.expose.any fun p => decide (p.end_ ≤ t0) then
        let rest := t.expose.filter fun p => decide (t0 < p.end_)
        { t with expose := rest, exposePol := if rest.any fun p => decide (p.from_ ≤ t0) then t.exposePol else tsqExpPol g }
      else t

/-- The fire gate for the COMMITTED slots, in target order (R195). -/
def gateCommitted (s : State) (n : Fin 16) : State := forEach (slotsIn s n .committed) (fun i s => gateSlot s n i) s

/-- HOLD_EXPIRY (R195): targets reached up to T_exp + HOLD are released; after it the exposure is cancelled. -/
def holdExpiryEffect (n : Fin 16) (s : State) : State :=
  cancelWhere (gateCommitted (settleSteps s n) n) n reasonHold fun sl => decide (sl.tExp.getD 0 + sl.hold < (now s : Int))

/-- The stop count has run out (R191). -/
def stopDue (s : State) (n : Fin 16) : Bool :=
  let t := getTsq s n
  let g := t.group.active
  tsqEn g && tsqStop g != 0 && !gangOdd s n && !t.retired && !t.stopped && !t.srcWait && !t.herdWait &&
    decide (t.stopFrom + tsqStop g ≤ s.clock)

/-- STOP_TICKS_EXPIRY (R191). -/
def stopExpiryEffect (n : Fin 16) (s : State) : State :=
  let s := settleSteps s n
  if stopDue s n then (squashAll s n).modTsq n fun t => { t with stopped := true, flags := t.flags.set 3 } else s

/-- TSQ_CNT_CLEAR (R198). -/
def tsqCntClearEffect (n : Fin 16) (s : State) : State :=
  s.modTsq n fun t => { t with cntFired := 0, cntGhost := 0, cntSquash := 0, cntShort := 0, cntNores := 0, cntGhostLost := 0 }

/-- PREDICTOR_ENTRY (R348): positions of REM(h) whose tick E has come enter the predictor view, in order. -/
def predictorEntryEffect (h : Fin 4) (s : State) : State :=
  let due := (getRem s h).waiting.filter fun e => decide (e.at_ ≤ now s)
  let s := s.modRem h fun r => { r with waiting := r.waiting.filter fun e => decide (now s < e.at_) }
  forEach due (fun e s =>
    let s := s.modRem h fun r => { r with predPos := e.pos }
    forEach (tsqsOfRem s h) (fun n s => predCount s n e.pos e.stamp) s) s

end Sys2Proof.Machine
end

