-- ==== Sys2Proof/Machine/Retire.lean ====
section
/-! DEFINITION. Faults that close, and what a permanent one retires (01_line_model.md R14 to R30, R562; R234, R236, R237,
R353): capture channels with their sequencers, Medium gangs and herds. -/

namespace Sys2Proof.Machine

/-! ### The LINK fault of a capture channel (R234, R26) -/

/-- The record of channel n's LINK fault. -/
def linkRecord (n : Fin 16) (f : LinkFault) (perm retired : Bool) : FaultRec :=
  { perm := perm, blk := blkCap, kind := 1, inst := n.val, retries := f.attempts, retired := retired,
    d0 := BitVec.ofNat 32 f.attempts, coincident := f.second.map fun m => (blkCap, m.val) }

/-- A LINK fault closed with its class: the record is written and the fault is no longer open. -/
def closeLink (s : State) (n : Fin 16) (f : LinkFault) (perm retired : Bool) : State :=
  (recordFault s (linkRecord n f perm retired)).modCap n fun c =>
    { c with fault := none, flags := c.flags.set 2 }

/-- An open LINK fault classed in the tick of a retirement by another cause (R562): nothing more is retired for it. -/
def classAtRetire (s : State) (n : Fin 16) : State :=
  match (getCap s n).fault with
  | none => s
  | some f => closeLink s n f (!(unitLocked s n && decide (f.attempts ≤ 3))) false

/-! ### Retirement of one channel with its sequencer (R18, R29, R236) -/

/-- CAPn retired: the line in assembly, lines not yet posted and the pending entries are dropped with RETIRED, the pending commit is discarded, and
its fault pointer names the record (R22). -/
def retireCap (s : State) (n : Fin 16) (seq : Word) : State :=
  if (getCap s n).retired then s
  else
    let s := classAtRetire s n
    let s := s.modCap n fun c =>
      { c with retired := true, armed := false, faultSeq := seq, flags := c.flags.set 3, group := c.group.drop }
    dropPending (dropEnding (dropLine s n dropRetired) n dropRetired) n dropRetired

/-- CAPn and TSQn retired together (R17). -/
def retirePair (s : State) (n : Fin 16) (seq : Word) : State := retireCap (retireTsq s n seq) n seq

/-- A list of channels retired together. -/
def retireList (s : State) (l : List (Fin 16)) (seq : Word) : State := forEach l (fun n s => retirePair s n seq) s

/-! ### The scope of a permanent fault (R17) -/

/-- The herd of channel n's unit on this device, if it is a member of one (R17, R206, R335). -/
def herdOf (s : State) (n : Fin 16) : Option (Fin 4) :=
  match tsqHerd (tsqAct s (capHead s n)) with
  | some h => if isMember s h then some h else none
  | none => none

/-- The channels of herd h on this device, whole gangs included. -/
def herdChannels (s : State) (h : Fin 4) : List (Fin 16) := (allFin 16).filter fun n => herdOf s n == some h

/-- A herd is still to be retired by a RETIRE message: it is not RETIRED yet (R353). -/
def herdToRetire (s : State) (h : Fin 4) : Bool := (getHerd s h).st != .retired

/-- A channel or its sequencer is not retired. -/
def pairLive (s : State) (n : Fin 16) : Bool := !(getCap s n).retired || !(getTsq s n).retired

/-- What a permanent fault of channel n retires, its record numbered seq: its herd through a RETIRE message (R353); its gang, or
CAPn with TSQn, where it belongs to no herd or its herd is RETIRED already and the channel joined it later (R16, R17). -/
def retireScope (s : State) (n : Fin 16) (blk : Nat) (seq : Word) : State :=
  match herdOf s n with
  | some h => if herdToRetire s h then originate s .retire h 448 blk seq else retireList s (capUnit s n) seq
  | none => retireList s (capUnit s n) seq

/-- Some unit of channel n's scope is not retired yet, so that a retirement follows from its fault. -/
def scopeLive (s : State) (n : Fin 16) : Bool :=
  (match herdOf s n with | some h => herdToRetire s h | none => false) || (capUnit s n).any (pairLive s)

/-- A LINK fault that ends permanent while its channel detects faults (R234, R236). -/
def linkPermanent (s : State) (n : Fin 16) (f : LinkFault) : State :=
  let seq := s.qe.seq
  let live := scopeLive s n
  let s := closeLink s n f true live
  if live then retireScope s n blkCap seq else s

/-- An open LINK fault classed in the tick in which the channel stops detecting faults (R562). -/
def classAtStop (s : State) (n : Fin 16) : State :=
  match (getCap s n).fault with
  | none => s
  | some f => if unitLocked s n && decide (f.attempts ≤ 3) then closeLink s n f false false else linkPermanent s n f

/-- Sequencers and herds retired by one permanent fault of block blk with record seq: herds once each, then the units that
belong to no herd or to one that is RETIRED already (R16, R22, R173, R353). -/
def retireSequencers (s : State) (l : List (Fin 16)) (led : List (Fin 4)) (blk : Nat) (seq : Word) : State :=
  let herds := (allFin 4).filter fun h => herdToRetire s h && (decide (h ∈ led) || l.any fun n => herdOf s n == some h)
  let singles := l.filter fun n => match herdOf s n with | some h => !herdToRetire s h | none => true
  let s := forEach herds (fun h s => originate s .retire h 448 blk seq) s
  forEach singles (fun n s => retireList s (capUnit s n) seq) s

/-! ### REVIVE of a channel or gang (R23, R27, R237) -/

/-- A channel returns to service: unarmed, its lock state kept, armed at once when it is locked. In a gang the settings of CH2k
decide (R218). -/
def reviveCap (s : State) (n : Fin 16) : State :=
  let ready := unitLocked s n && capEn (getCap s (capHead s n)).group.active
  s.modCap n fun c => if c.retired then { c with retired := false, armed := ready } else c

/-- CAPn with TSQn, or a whole gang, revived. -/
def reviveUnit (s : State) (l : List (Fin 16)) : State := forEach l (fun n s => reviveTsq (reviveCap s n) n) s

/-- CAP_REVIVE written in CAPn (R27, R28, R237): no effect in CAP(2k+1) of a gang, in a channel of a herd (R354),
or for a channel that is not retired. -/
def capReviveEffect (n : Fin 16) (s : State) : State :=
  if gangOdd s n then s
  else
    match herdOf s n with
    | some _ => s
    | none => if (getCap s n).retired then reviveUnit s (capUnit s n) else s

end Sys2Proof.Machine
end

