-- ==== Sys2Proof/Machine/Encoders.lean ====
section
/-! DEFINITION. The encoders and the snapshot (06_time_position.md R159 to R181): decode, index, direction, faults, and what a
change of an encoder does to the sequencers that use it. -/

namespace Sys2Proof.Machine

/-! ### Settings of an encoder's group -/

def encDir (e : Enc) : Bool := bit e.cfg.active 1
def encZmode (e : Enc) : Nat := fld e.cfg.active 15 14
def encZpol (e : Enc) : Bool := bit e.cfg.active 16
/-- F of the input filter (R160). -/
def encFilter (e : Enc) : Nat := fld e.cfg.active 12 8
def encBacklash (e : Enc) : Nat := fld e.cfg.active 27 20
/-- LOS_LIMIT in ticks; 0 acts as 1 ms (R171). -/
def encLosTicks (e : Enc) : Nat := oneMs * max (fld e.cfg.active 31 28) 1
/-- ZMODE 1 or 2: the index input is in use (R165). -/
def encZused (e : Enc) : Bool := encZmode e == 1 || encZmode e == 2

/-- A fault of any kind is open. -/
def encFaultOpen (e : Enc) : Bool := e.illegal.isSome || e.losAB.isSome || e.losZf.isSome

/-! ### Position, wrap and direction (R162, R163, R167) -/

/-- One count up or down, with the signed wrap extension (R163). -/
def countEnc (e : Enc) (up : Bool) : Enc :=
  if up then { e with pos := e.pos + 1, wrap := if e.pos = 0xFFFF_FFFF then e.wrap + 1 else e.wrap }
  else { e with pos := e.pos - 1, wrap := if e.pos = 0 then e.wrap - 1 else e.wrap }

/-- The direction state after a count (R167). -/
def declareDir (e : Enc) : Enc :=
  let d := (e.pos - e.extreme).toInt
  let b : Int := encBacklash e + 1
  if e.rev then
    (if d < 0 then { e with extreme := e.pos } else if b ≤ d then { e with rev := false, extreme := e.pos } else e)
  else
    (if 0 < d then { e with extreme := e.pos } else if d ≤ -b then { e with rev := true, extreme := e.pos } else e)

/-- The place of an AB state in the forward order 00, 10, 11, 01 (R162). -/
def quad (a b : Bool) : Nat :=
  match a, b with | false, false => 0 | true, false => 1 | true, true => 2 | false, true => 3

/-- A single change of AB runs forward. -/
def quadForward (a b a' b' : Bool) : Bool := (quad a' b' + 4 - quad a b) % 4 == 1

/-- The position replaced by LOAD or an index load: extension 0, direction FWD, the extreme at the new position, and
SUSPECT cleared while no fault is open (R164, R165, R167, R172). -/
def placeEnc (e : Enc) (p : Word) : Enc :=
  { e with pos := p, wrap := 0, rev := false, extreme := p, suspect := e.suspect && encFaultOpen e }

/-! ### Inputs: synchronized samples, the filter and loss of signal (R159, R160) -/

def getIn (e : Enc) : EncPin → EncIn
  | .a => e.inA
  | .b => e.inB
  | .z => e.inZ

def setIn (e : Enc) (p : EncPin) (i : EncIn) : Enc :=
  match p with
  | .a => { e with inA := i }
  | .b => { e with inB := i }
  | .z => { e with inZ := i }

/-- A synchronized sample in tick t: a new level starts the count of agreeing samples again. -/
def EncIn.sample (i : EncIn) (t : Nat) (v : Bool) : EncIn := if i.raw == v then i else { i with raw := v, since := t }

/-- In tick t, F + 1 consecutive samples agree on a level that is not the accepted one, and no LOS that began in an earlier tick
holds it (R159, R160). -/
def EncIn.ripe (i : EncIn) (f t : Nat) : Bool :=
  i.raw != i.level && decide (i.since + f ≤ t) && !(i.los && decide (i.losAt < t))

/-- The level that the samples agree on is accepted. -/
def EncIn.accept (i : EncIn) : EncIn := { i with level := i.raw }

/-- A or B has a level to accept in the present tick, and none of them was accepted in it yet. -/
def abRipe (s : State) (n : Fin 8) : Bool :=
  let e := getEnc s n
  e.accAt != some s.clock && (e.inA.ripe (encFilter e) s.clock || e.inB.ripe (encFilter e) s.clock)

/-- Z has a level to accept in the present tick. -/
def zRipe (s : State) (n : Fin 8) : Bool :=
  let e := getEnc s n
  e.accZ != some s.clock && e.inZ.ripe (encFilter e) s.clock

/-- The voltage of an input has been on one side of the threshold for 400 consecutive ticks, and LOS does not show it yet (R159). -/
def EncIn.losRipe (i : EncIn) (t : Nat) : Bool := i.low != i.los && decide (i.crossed + 400 ≤ t)

/-! ### What the sequencers see -/

/-- The sequencers that use encoder n now or hold a COMMITTED slot of it. -/
def tsqsGated (s : State) (n : Fin 8) : List (Fin 16) :=
  (allFin 16).filter fun m => srcEnc s (tsqSrc (tsqAct s m)) == some n ||
    (getTsq s m).slots.toList.any fun sl => sl.st == .committed && srcEnc s sl.src == some n

/-- A count of encoder n reaches the sequencers: the predictor view and the direction (R187, R191). The fire gate looks at the
position as it stands at the end of the tick, so that a step of the same tick is handled first (R174, R212; log entry 90). -/
def encMoved (s : State) (n : Fin 8) (turned : Bool) : State :=
  let e := getEnc s n
  let users := tsqsOfEnc s n
  let s := forEach (users.filter fun m => decide (tsqSrc (tsqAct s m) < 8)) (fun m s => predCount s m e.pos (now s)) s
  if turned then forEach users (fun m s => turnedAgainst s m) s else s

/-- A position step of encoder n is noted for every sequencer it concerns, which handles it in this tick (R166, R191). -/
def encStepped (s : State) (n : Fin 8) : State :=
  forEach (tsqsGated s n) (fun m s => s.modTsq m fun t =>
    { t with steps := if n ∈ t.steps then t.steps else t.steps ++ [n] }) s

/-! ### Faults (R171 to R173, R562) -/

/-- The kinds of encoder fault, in the order of their numbers (R294). -/
inductive EncKind where
  | illegal | losAB | losZ
  deriving DecidableEq, Repr

def encKindNo : EncKind → Nat
  | .illegal => 1
  | .losAB => 2
  | .losZ => 3

def getFault (e : Enc) : EncKind → Option EncFault
  | .illegal => e.illegal
  | .losAB => e.losAB
  | .losZ => e.losZf

def setFault (e : Enc) (k : EncKind) (f : Option EncFault) : Enc :=
  match k with
  | .illegal => { e with illegal := f }
  | .losAB => { e with losAB := f }
  | .losZ => { e with losZf := f }

/-- The tick in which the budget of a kind was exhausted. -/
def exhaustedAt (e : Enc) : EncKind → Option Nat
  | .illegal => e.exIllegal
  | .losAB => e.exLosAB
  | .losZ => e.exLosZ

def setExhausted (e : Enc) (k : EncKind) (t : Nat) : Enc :=
  match k with
  | .illegal => { e with exIllegal := some t }
  | .losAB => { e with exLosAB := some t }
  | .losZ => { e with exLosZ := some t }

/-- A fault starts, or a further event belongs to the open one; an exhausted kind detects nothing (R25, R171 to R173). -/
def encDetect (s : State) (n : Fin 8) (k : EncKind) : State :=
  s.modEnc n fun e =>
    match getFault e k with
    | some f => setFault e k (some { f with events := f.events + 1 })
    | none =>
      if (exhaustedAt e k).isSome then e
      else { setFault e k (some { start := s.clock, pos := e.pos, events := 0 }) with suspect := true }

/-- The sequencers of this device that a permanent fault of encoder n retires (R173). -/
def encVictims (s : State) (n : Fin 8) : List (Fin 16) :=
  (tsqsOfEnc s n).filter fun m => tsqEn (tsqAct s m) && !(getTsq s m).retired

/-- The herds that encoder n feeds on their lead and that are not RETIRED: the fault is one of every member's sequencers (R173,
R353). -/
def encHerds (s : State) (n : Fin 8) : List (Fin 4) :=
  (allFin 4).filter fun h => isLead s h && (getRem s h).localEnc == n && (getHerd s h).st != .retired

/-- A fault of encoder n closed with its class and its single record; a permanent one sets FAILED, exhausts its kind and
retires the sequencers that use the encoder (R21, R171, R173). -/
def encClose (s : State) (n : Fin 8) (k : EncKind) (perm : Bool) : State :=
  match getFault (getEnc s n) k with
  | none => s
  | some f =>
    let seq := s.qe.seq
    let victims := if perm then encVictims s n else []
    let herds := if perm then encHerds s n else []
    let s := recordFault s { perm := perm, blk := blkTbe, kind := encKindNo k, inst := n.val, retries := f.events,
                             retired := !victims.isEmpty || !herds.isEmpty, d0 := f.pos }
    let s := s.modTbe fun t => { t with flags := t.flags.set n.val }
    let s := s.modEnc n fun e => setFault e k none
    if perm then
      retireSequencers (s.modEnc n fun e => { setExhausted e k s.clock with failed := true, suspect := true }) victims herds blkTbe seq
    else s

/-- Illegal transitions during a LOS of A or B, or within 400 ticks after it, belong to the LOS fault (R171, R178). -/
def underLos (s : State) (e : Enc) : Bool :=
  e.inA.los || e.inB.los || (match e.losEnd with | some t => decide (s.clock ≤ t + 400) | none => false)

/-- The window of an ILLEGAL fault that has passed closes it as transient (R171). -/
def closeIllegal (s : State) (n : Fin 8) : State :=
  match (getEnc s n).illegal with
  | some f => if f.start + tenMs ≤ s.clock then encClose s n .illegal false else s
  | none => s

/-- The illegal transition of the present tick as a fault event: the 4th within the window makes the fault permanent (R171). Whether
it belongs to a LOS is judged when every LOS of the tick is known (R178). -/
def encIllegal (s : State) (n : Fin 8) : State :=
  if (getEnc s n).illegalNow != some s.clock then s
  else
    let s := s.modEnc n fun e => { e with illegalNow := none }
    if underLos s (getEnc s n) then s
    else
      let s := encDetect (closeIllegal s n) n .illegal
      match (getEnc s n).illegal with
      | some f => if 3 ≤ f.events then encClose s n .illegal true else s
      | none => s

/-- Every open fault classed in the tick in which the encoder stops detecting faults (R562). -/
def encClassAtStop (s : State) (n : Fin 8) : State :=
  let s := encIllegal s n
  let e := getEnc s n
  let s := encClose s n .illegal false
  let s := encClose s n .losAB (e.inA.los || e.inB.los)
  encClose s n .losZ e.inZ.los

/-! ### The commands -/

/-- One count as the tick has it: before an index load of the same tick, and part of what ZPOS latched then (R174). -/
def countTick (e : Enc) (t : Nat) (up : Bool) : Enc :=
  match e.zIndex with
  | some (t', loaded) =>
    if t' ≠ t then declareDir (countEnc e up)
    else if loaded then { e with zpos := if up then e.zpos + 1 else e.zpos - 1 }
    else
      let e := declareDir (countEnc e up)
      { e with zpos := e.pos }
  | none => declareDir (countEnc e up)

/-- What the filter of A and B accepts in the present tick is decoded: a count, an illegal transition, or, in the tick in which EN
became active, only a reference state (R162). -/
def acceptAB (s : State) (n : Fin 8) : State :=
  let e := getEnc s n
  let a := e.inA.ripe (encFilter e) s.clock
  let b := e.inB.ripe (encFilter e) s.clock
  if !abRipe s n then s
  else
    let s := s.modEnc n fun e =>
      { e with accAt := some s.clock, inA := if a then e.inA.accept else e.inA, inB := if b then e.inB.accept else e.inB }
    if !encEn e || e.enAt == some s.clock then s
    else if a && b then
      s.modEnc n fun e => { e with last := s.time, cntIllegal := satInc e.cntIllegal, illegalNow := some s.clock }
    else
      let now := getEnc s n
      let up := quadForward e.inA.level e.inB.level now.inA.level now.inB.level != encDir e
      let s := s.modEnc n fun e => countTick { e with last := s.time, counted := some (s.clock, up) } s.clock up
      encMoved s n ((getEnc s n).rev != e.rev)

/-- ENCODER_TRANSITION (R160, R162): the levels of A and B after the synchronizers; a level whose F + 1 samples agree is accepted
and decoded. The tick in which a held level is F ticks old gives the command again (log entry 97). -/
def encoderTransitionEffect (n : Fin 8) (a b : Bool) (s : State) : State :=
  if pinsLive s then
    acceptAB (s.modEnc n fun e => { e with inA := e.inA.sample s.clock a, inB := e.inB.sample s.clock b }) n
  else s

/-- What the filter of Z accepts in the present tick (R165): an index on the change to the active level, whatever EN is. -/
def acceptZ (s : State) (n : Fin 8) : State :=
  if !zRipe s n then s
  else
    let s := s.modEnc n fun e => { e with accZ := some s.clock, inZ := e.inZ.accept }
    let e := getEnc s n
    if encZused e && e.inZ.level == encZpol e then
      let loads := encZmode e == 2 && e.zarmed
      let s := s.modEnc n fun e =>
        { e with zpos := e.pos, ztime := s.time, cntIndex := e.cntIndex + 1, zIndex := some (s.clock, loads) }
      let s := s.modTbe fun t => { t with flags := t.flags.set (8 + n.val) }
      if loads then encStepped (s.modEnc n fun e => { placeEnc e e.zload with zarmed := false }) n else s
    else s

/-- INDEX (R165, R174): the level of Z after the synchronizer. -/
def indexEffect (n : Fin 8) (level : Bool) (s : State) : State :=
  if pinsLive s then acceptZ (s.modEnc n fun e => { e with inZ := e.inZ.sample s.clock level }) n else s

/-- The voltage of an input crosses the detection threshold in the present tick. -/
def crossLos (s : State) (n : Fin 8) (p : EncPin) (low : Bool) : State :=
  s.modEnc n fun e =>
    let i := getIn e p
    if i.low == low then e else setIn e p { i with low := low, crossed := s.clock }

/-- LOS_ENTRY (R159, R171): the voltage is below the threshold, and after 400 ticks of it the input enters LOS. -/
def losEntryEffect (n : Fin 8) (p : EncPin) (s : State) : State :=
  if !pinsLive s then s
  else
    let s := crossLos s n p true
    let i := getIn (getEnc s n) p
    if i.los || !i.losRipe s.clock then s
    else
      let s := s.modEnc n fun e => { setIn e p { i with los := true, losAt := s.clock } with cntLos := satInc e.cntLos }
      if !encEn (getEnc s n) then s
      else
        match p with
        | .z => if encZused (getEnc s n) then encDetect s n .losZ else s
        | _ => encDetect s n .losAB

/-- A LOS fault ends: transient up to LOS_LIMIT ms after its start, the last tick included (R24, R171). -/
def losOver (s : State) (n : Fin 8) (k : EncKind) : State :=
  match getFault (getEnc s n) k with
  | none => s
  | some f => encClose s n k (decide (f.start + encLosTicks (getEnc s n) < s.clock))

/-- LOS_EXIT (R159, R171): the voltage is above the threshold, and after 400 ticks of it the input leaves LOS. -/
def losExitEffect (n : Fin 8) (p : EncPin) (s : State) : State :=
  if !pinsLive s then s
  else
    let s := crossLos s n p false
    let i := getIn (getEnc s n) p
    if !i.los || !i.losRipe s.clock then s
    else
      let s := s.modEnc n fun e => setIn e p { i with los := false }
      match p with
      | .z => losOver s n .losZ
      | _ =>
        if (getEnc s n).inA.los || (getEnc s n).inB.los then s
        else losOver (s.modEnc n fun e => { e with losEnd := some s.clock }) n .losAB

/-- ILLEGAL_WINDOW_END (R171): the end of a tick takes its illegal transition into account, and the end of the window closes the
fault. -/
def illegalWindowEffect (n : Fin 8) (s : State) : State := closeIllegal (encIllegal s n) n

/-- LOS_LIMIT_EXPIRY (R171): the input is still in LOS LOS_LIMIT ms after the fault's start. -/
def losLimitEffect (n : Fin 8) (z : Bool) (s : State) : State :=
  let k := if z then EncKind.losZ else EncKind.losAB
  match getFault (getEnc s n) k with
  | some f => if f.start + encLosTicks (getEnc s n) ≤ s.clock then encClose s n k true else s
  | none => s

/-- LOAD (R164, R166): the position written, and on it the count of a transition accepted in the same tick (R175). -/
def loadEffect (n : Fin 8) (s : State) : State :=
  encStepped (s.modEnc n fun e =>
    let e' := placeEnc e e.load
    match e.counted with
    | some (t, up) => if t = s.clock then declareDir (countEnc e' up) else e'
    | none => e') n

/-- ZARM (R165). -/
def zarmEffect (n : Fin 8) (s : State) : State := s.modEnc n fun e => { e with zarmed := true }

/-- The exhaustion that RESTORE leaves: that of a fault which became permanent in its own tick (R177). -/
def restoreKept (s : State) (x : Option Nat) : Option Nat := if x = some s.clock then x else none

/-- RESTORE (R172, R173): FAILED cleared, SUSPECT while no fault is open, and every kind detects again, but for a fault that became
permanent in this very tick (R177). -/
def restoreEffect (n : Fin 8) (s : State) : State :=
  let s := s.modEnc n fun e =>
    let e := { e with exIllegal := restoreKept s e.exIllegal, exLosAB := restoreKept s e.exLosAB, exLosZ := restoreKept s e.exLosZ }
    let perm := e.exIllegal.isSome || e.exLosAB.isSome || e.exLosZ.isSome
    { e with failed := e.failed && perm, suspect := e.suspect && (encFaultOpen e || perm) }
  forEach (tsqsOfEnc s n) (fun m s => leaveSrcWait s m) s

/-- ERR_CLEAR: zeroes ERRCNT. -/
def errClearEffect (n : Fin 8) (s : State) : State :=
  s.modEnc n fun e => { e with cntIllegal := 0, cntLos := 0, cntIndex := 0 }

/-- SNAP (R170). The end of the tick takes the snapshot once more, so that it shows every change made in the tick (R157, R176). -/
def snapEffect (s : State) : State :=
  s.modTbe fun t => { t with snapTime := s.time, snapPos := Vector.ofFn fun i => gatePos s i.val, snapAt := some s.clock, flags := t.flags.set 16 }

/-- The count of agreeing samples starts again under a new F (R179). -/
def refilter (e : Enc) (t : Nat) : Enc :=
  { e with inA := { e.inA with since := t }, inB := { e.inB with since := t }, inZ := { e.inZ with since := t } }

/-- ENC_COMMIT_APPLY (R162, R179, R203, R562). -/
def encCommitEffect (n : Fin 8) (s : State) : State :=
  let e := getEnc s n
  if e.cfg.pending then
    let s := if encEn e && !bit e.cfg.shadow 0 then encIllegal s n else s
    let s := s.modEnc n fun e' =>
      let e' := { e' with cfg := e'.cfg.apply }
      if encFilter e' = encFilter e then e' else refilter e' s.clock
    if encEn e && !encEn (getEnc s n) then encClassAtStop s n
    else if !encEn e && encEn (getEnc s n) then
      forEach (tsqsOfEnc s n) (fun m s => leaveSrcWait s m) (s.modEnc n fun e => { e with enAt := some s.clock })
    else s
  else s

/-! ### The commands of the encoders -/

def execEncoderTransition (n : Fin 8) (a b : Bool) (s : State) : Out := onSys s (encoderTransitionEffect n a b)
def execIndex (n : Fin 8) (level : Bool) (s : State) : Out := onSys s (indexEffect n level)
def execLosEntry (n : Fin 8) (pin : EncPin) (s : State) : Out := onSys s (losEntryEffect n pin)
def execLosExit (n : Fin 8) (pin : EncPin) (s : State) : Out := onSys s (losExitEffect n pin)
def execIllegalWindowEnd (n : Fin 8) (s : State) : Out := onSys s (illegalWindowEffect n)
def execLosLimitExpiry (n : Fin 8) (z : Bool) (s : State) : Out := onSys s (losLimitEffect n z)
def execLoad (n : Fin 8) (s : State) : Out := onSys s (loadEffect n)
def execZarm (n : Fin 8) (s : State) : Out := onSys s (zarmEffect n)
def execRestore (n : Fin 8) (s : State) : Out := onSys s (restoreEffect n)
def execErrClear (n : Fin 8) (s : State) : Out := onSys s (errClearEffect n)
def execSnap (s : State) : Out := onSys s snapEffect
def execEncCommitApply (n : Fin 8) (s : State) : Out := onSys s (encCommitEffect n)

end Sys2Proof.Machine
end

