-- ==== Sys2Proof/Machine/Access.lean ====
section
/-! DEFINITION. Requesters and access rules (04_access_rules.md R100 to R122, R89): the map of Internal Space, the check of
one access and of one Queue Engine range, the refusal log, unretired accesses and FENCE. -/

namespace Sys2Proof.Machine

/-- The requester's number (R100). -/
def reqNo : Req → Nat
  | .mp => 0
  | .frp => 1
  | .icp => 2
  | .jtag => 3
  | .qe => 4

/-- A byte address with bits 1:0 taken as 0 (R70). -/
def wordAddr (a : Word) : Word := a &&& 0xFFFF_FFFC

/-! ### The Internal Space map (R89) -/

/-- The block an address lies in, none outside every row of R89. -/
def blockOf (addr : Word) : Option Block :=
  let a := addr.toNat
  if a ≤ 0x3FF then some .mirror
  else if 0x1_0000 ≤ a ∧ a ≤ 0x1_FFFF then some .sys
  else if 0x2_0000 ≤ a ∧ a ≤ 0x2_FFFF then some .acc
  else if 0x3_0000 ≤ a ∧ a ≤ 0x3_FFFF then some .lcs
  else if 0x4_0000 ≤ a ∧ a ≤ 0x4_FFFF then some .tbe
  else if 0x5_0000 ≤ a ∧ a ≤ 0x5_FFFF then some .tsq
  else if 0x6_0000 ≤ a ∧ a ≤ 0x6_FFFF then some .cap
  else if 0x7_0000 ≤ a ∧ a ≤ 0x7_FFFF then some .pw
  else if 0x8_0000 ≤ a ∧ a ≤ 0xF_FFFF then some .qe
  else if 0x10_0000 ≤ a ∧ a ≤ 0x1F_FFFF then some .desc
  else if 0x20_0000 ≤ a ∧ a ≤ 0x20_3FFF then some .egr
  else if 0x21_0000 ≤ a ∧ a ≤ 0x21_FFFF then some .hl
  else if 0x22_0000 ≤ a ∧ a ≤ 0x22_11FF then some .ua
  else if 0x23_0000 ≤ a ∧ a ≤ 0x23_01FF then some .spc
  else if 0x24_0000 ≤ a ∧ a ≤ 0x24_FFFF then some .pio
  else if 0x25_0000 ≤ a ∧ a ≤ 0x25_FFFF then some .hkadc
  else if 0x26_0000 ≤ a ∧ a ≤ 0x26_FFFF then some .cfg
  else if 0x27_0000 ≤ a ∧ a ≤ 0x27_FFFF then some .scb
  else if 0x28_0000 ≤ a ∧ a ≤ 0x28_FFFF then some .bkp
  else if 0x100_0000 ≤ a ∧ a ≤ 0x1FF_FFFF then some .fs
  else none

/-- The address lies in a block whose clock runs (R73, R75, R90). -/
def responds (s : State) (addr : Word) : Bool :=
  match blockOf addr with
  | none => false
  | some .bkp => s.sys.sysLock && s.bkp.oscRunning
  | some _ => s.sys.sysLock

/-! ### The check (R102 to R104, R116) -/

/-- Why an access is refused; `none` of it means permitted (R116). -/
def whyFixed : BitVec 4 := 1
def whySpan : BitVec 4 := 2
def whyNoCover : BitVec 4 := 3
def whyNoRequester : BitVec 4 := 4
def whyNoDirection : BitVec 4 := 5

/-- A debug session is open whose scope includes bit i of R138. -/
def scopeHas (s : State) (i : Nat) : Bool :=
  match s.lcs.scope with
  | some w => bit w i
  | none => false

/-- Life-cycle states, as FUSED encodes them (R125). -/
def lcBlank : BitVec 3 := 0
def lcFactory : BitVec 3 := 1
def lcProvisioned : BitVec 3 := 2
def lcField : BitVec 3 := 3
def lcReturn : BitVec 3 := 4
def lcScrapped : BitVec 3 := 5

/-- The latched state itself opens the private instructions (R123). -/
def stateOpens (s : State) : Bool := s.lcs.latched == lcBlank || s.lcs.latched == lcFactory || s.lcs.latched == lcReturn

/-- The fixed rule of an address (R102): none where no fixed rule governs it, else whether it permits. -/
def fixedRule (s : State) (r : Req) (write : Bool) (addr : Word) : Option Bool :=
  let a := addr.toNat
  if 0x2_0800 ≤ a ∧ a ≤ 0x2_0BFF then some (!write && (scopeHas s 2 || (r == .jtag && stateOpens s)))
  else if 0x2_0000 ≤ a ∧ a ≤ 0x2_FFFF then some (r == .mp || r == .jtag)
  else none

def accEn (e : AccEntry) : Bool := bit e.attr 0
def accDir (e : AccEntry) (write : Bool) : Bool := bit e.attr (if write then 2 else 1)
def accReq (e : AccEntry) (r : Req) : Bool := bit e.attr (8 + reqNo r)

/-- The entry is enabled and covers the address: BASE ≤ address[31:2] ≤ LIMIT (R103). -/
def accCovers (e : AccEntry) (addr : Word) : Bool :=
  accEn e && decide (fld e.base 31 2 ≤ fld addr 31 2 ∧ fld addr 31 2 ≤ fld e.limit 31 2)

/-- The entry permits the access (R103). -/
def accPermits (e : AccEntry) (r : Req) (write : Bool) (addr : Word) : Bool :=
  accCovers e addr && accReq e r && accDir e write

def accActive (s : State) : List AccEntry := s.acc.group.active.toList

/-- The access table's answer, none when it permits (R103, R116). -/
def tableWhy (s : State) (r : Req) (write : Bool) (addr : Word) : Option (BitVec 4) :=
  if (accActive s).any fun e => accPermits e r write addr then none
  else
    let cover := (accActive s).filter fun e => accCovers e addr
    if cover.isEmpty then some whyNoCover
    else if cover.any fun e => accReq e r then some whyNoDirection
    else some whyNoRequester

/-- The check of one access at issue: none when it is permitted, else its reason (R102, R107, R116). -/
def checkAccess (s : State) (r : Req) (write : Bool) (addr : Word) : Option (BitVec 4) :=
  match fixedRule s r write addr with
  | some true => none
  | some false => some whyFixed
  | none => tableWhy s r write addr

/-- The word addresses of a Queue Engine range. -/
def rangeAddrs (addr : Word) (n : Nat) : List Word := (List.range n).map fun k => addr + BitVec.ofNat 32 (4 * k)

/-- The check of a Queue Engine range (R104, R116): words that a fixed rule permits need no entry (DEDUCED; log entry 29). -/
def checkRange (s : State) (write : Bool) (addr : Word) (n : Nat) : Option (BitVec 4) :=
  let ws := rangeAddrs addr n
  if ws.any fun w => fixedRule s .qe write w == some false then some whyFixed
  else
    let tab := ws.filter fun w => (fixedRule s .qe write w).isNone
    if tab.isEmpty || (accActive s).any fun e => tab.all fun w => accPermits e .qe write w then none
    else
      match tab.filterMap fun w => tableWhy s .qe write w with
      | [] => some whySpan
      | y :: _ => some y

/-! ### The refusal log (R115) -/

/-- One refusal written to the log at NEXT. -/
def logRefusal (s : State) (r : Req) (write : Bool) (addr : Word) (why : BitVec 4) : State :=
  s.modAcc fun a =>
    { a with
      rlog := upd a.rlog a.rlogNext fun _ =>
        { addr := addr, req := BitVec.ofNat 3 (reqNo r), dir := write, reason := why, valid := true, epoch := a.epoch,
          tick := s.time.setWidth 32 },
      rlogNext := a.rlogNext + 1,
      rlogCount := min (a.rlogCount + 1) 16,
      rlogOver := if a.rlogCount < 16 then a.rlogOver else satInc a.rlogOver }

/-! ### Unretired accesses and FENCE (R110) -/

/-- Orders of issue of every access that is not retired. -/
def unretired (s : State) : List Nat :=
  s.bus.inflight.map (·.order) ++ s.bus.bkpBuf.map (·.order) ++ (s.bus.owed.filter (·.holds)).map (·.order) ++
    s.qe.ops.map (·.order)

/-- ACC_STATUS.FENCE: no access issued under an older epoch is unretired (R110). -/
def fence (s : State) : Bool := (unretired s).all fun o => decide (s.bus.epochOrder ≤ o)

/-- FENCE_DONE is set in the clock in which FENCE changes from 0 to 1 (R110). -/
def noteFence (before s : State) : State :=
  if !fence before && fence s then s.modAcc fun a => { a with fenceDone := a.fenceDone.set 0 } else s

/-- ACC_COMMIT_APPLY (R105, R109, R117): the table is written as a whole and the epoch increments; accesses issued before
keep the older order. -/
def accCommitEffect (s : State) : State :=
  if s.acc.group.pending then
    (s.modAcc fun a => { a with group := a.group.apply, epoch := a.epoch + 1 }).modBus fun b =>
      { b with epochOrder := b.epochOrder + 1 }
  else s

/-! ### Posted writes (R77) -/

/-- A permitted write to a responding address is posted: it takes effect by its own command (R77). -/
def postWrite (s : State) (r : Req) (addr data : Word) : State :=
  s.modBus fun b =>
    { b with nextId := b.nextId + 1, inflight := b.inflight ++ [⟨b.nextId, r, addr, data, b.epochOrder, s.clock⟩] }

/-- A permitted BKP write is taken into the BKP posted-write buffer of 8 words (R77). -/
def postBkp (s : State) (r : Req) (addr data : Word) : State :=
  s.modBus fun b =>
    { b with nextId := b.nextId + 1, bkpBuf := b.bkpBuf ++ [⟨b.nextId, r, addr, data, b.epochOrder, s.clock⟩],
             bkpEdges := if b.bkpBuf.isEmpty then 0 else b.bkpEdges }

/-- What a write meets at issue. -/
inductive Issue where
  | ok | denied | noresp
  deriving DecidableEq, Repr

/-- One write issued by a requester: checked first (R74), then posted, or ended with NORESP (R73, R77). -/
def issueWrite (s : State) (r : Req) (addr data : Word) : Issue × State :=
  match checkAccess s r true addr with
  | some why => (.denied, logRefusal s r true addr why)
  | none =>
    if !responds s addr then (.noresp, s)
    else if blockOf addr = some .bkp then
      if 8 ≤ s.bus.bkpBuf.length then (.noresp, s) else (.ok, postBkp s r addr data)
    else (.ok, postWrite s r addr data)

/-! ### Registers of ACC -/

/-- The fixed parts of an attribute word. -/
def attrMask : Word := 0x0000_1F07

def rlogWord (e : RlogEntry) (i : Nat) : Word :=
  match i with
  | 0 => e.addr
  | 1 => put 0 e.req.toNat ||| putB 3 e.dir ||| put 4 e.reason.toNat ||| putB 31 e.valid
  | 2 => e.epoch
  | _ => e.tick

/-- Reads of the ACC block by offset. -/
def accRead (s : State) (off : Nat) : Word :=
  let a := s.acc
  let e := a.group.look[(Fin.ofNat 64 ((off - 0x100) / 16)).val]
  if off = 0x000 then putB 0 (fence s)
  else if off = 0x004 then a.epoch
  else if off = 0x008 then a.group.word
  else if off = 0x00C then a.fenceDone.word
  else if off = 0x010 then putB 0 a.flagEn
  else if 0x100 ≤ off ∧ off < 0x500 then
    match (off / 4) % 4 with
    | 0 => e.base
    | 1 => e.limit
    | 2 => e.attr
    | _ => 0
  else if off = 0x800 then put 0 a.rlogCount ||| put 8 a.rlogNext.val ||| put 16 a.rlogOver.toNat
  else if 0x840 ≤ off ∧ off < 0x940 then rlogWord a.rlog[(Fin.ofNat 16 ((off - 0x840) / 16)).val] ((off / 4) % 4)
  else 0

/-- Writes of the ACC block by offset. -/
def accWrite (off : Nat) (w : Word) (s : State) : State :=
  let i := Fin.ofNat 64 ((off - 0x100) / 16)
  if off = 0x008 then s.modAcc fun a => { a with group := a.group.commitWrite w }
  else if off = 0x00C then s.modAcc fun a => { a with fenceDone := a.fenceDone.clear w }
  else if off = 0x010 then s.modAcc fun a => { a with flagEn := bit w 0 }
  else if 0x100 ≤ off ∧ off < 0x500 then
    s.modAcc fun a => { a with group := a.group.write fun t => upd t i fun e =>
      match (off / 4) % 4 with
      | 0 => { e with base := wordAddr w }
      | 1 => { e with limit := wordAddr w }
      | 2 => { e with attr := w &&& attrMask }
      | _ => e }
  else s

/-- Attention flags of ACC that are set and enabled (R81). -/
def accAttn (s : State) : Bool := s.acc.fenceDone.on 0 && s.acc.flagEn

end Sys2Proof.Machine
end

