-- ==== Sys2Proof/Machine/Backup.lean ====
section
/-! DEFINITION. The backup domain (02_power_reset_backup.md R46 to R60; 03_management_port.md R90): counters, alarms and their
log, pairs, and what an oscillator edge does. -/

namespace Sys2Proof.Machine

/-- The copy of KC0 and KC1 that reads show, refreshed at every oscillator edge (R90). -/
def kcRefresh (b : Bkp) : Bkp := { b with kcShown := b.kc }

/-! ### The oscillator edge (R48, R56) -/

/-- One edge of the 32.768 kHz oscillator: the counter's increment or load, and the clears that wait for it. The alarm inputs
are sampled at it (R50), and the first edge after the release clock ends the MAIN_OFF period (R54). -/
def oscEdge (s : State) : State :=
  s.modBkp fun b =>
    kcRefresh { b with
      edgeNow := true, almSeen := 0, mainRun := b.mainRun || released s,
      bc := if b.loadPending then b.bcLoad else b.bc + 1,
      loadPending := false,
      kc := Vector.ofFn fun i : Fin 2 => if bit b.kcClear i.val then 0 else b.kc[i.val],
      kcClear := 0 }

/-! ### Keep-count counters (R49) -/

/-- Mode of a counter; 3 is treated as OFF. -/
def kcMode (b : Bkp) (ch : Fin 2) : Nat := let m := fld b.kcCfg (4 * ch.val + 1) (4 * ch.val); if m = 3 then 0 else m
def kcDir (b : Bkp) (ch : Fin 2) : Bool := bit b.kcCfg (4 * ch.val + 2)

/-- The place of an AB state in the forward order. -/
def kcQuad (a b : Bool) : Nat :=
  match a, b with | false, false => 0 | true, false => 1 | true, true => 2 | false, true => 3

/-- What an edge counts: none, up or down, before DIR (R49). -/
def kcStep (mode : Nat) (a b a' b' : Bool) : Option Bool :=
  if mode = 1 then (if !a && a' then some (!b') else none)
  else if mode = 2 then
    (match (kcQuad a' b' + 4 - kcQuad a b) % 4 with
     | 1 => some true
     | 3 => some false
     | _ => none)
  else none

/-- KC_EDGE (R49): an edge outside the limits may be lost, which a free value decides. -/
def kcEdgeEffect (ch : Fin 2) (pin : KcPin) (level inLimits : Bool) (s : State) : State :=
  let k := s.bkp
  let a := bit k.kcA ch.val
  let b := bit k.kcB ch.val
  let (a', b') := match pin with | .a => (level, b) | .b => (a, level)
  let lost := !inLimits && freeValue s % 2 == 0
  let s := if inLimits then s else s.freeStep
  s.modBkp fun k =>
    let k := { k with kcA := assignBit k.kcA ch.val a', kcB := assignBit k.kcB ch.val b' }
    match kcStep (kcMode k ch) a b a' b' with
    | none => k
    | some up =>
      if lost then k
      else { k with kc := upd k.kc ch fun v => if up != kcDir k ch then v + 1 else v - 1 }

/-! ### Alarms (R50 to R52, R54, R60) -/

/-- An entry accepted now carries MAIN_OFF: RESET_N is low, or no oscillator edge has come since the release clock (R52, R54).
The start-up that a soft reset runs is taken as one before release too (DEDUCED; log entry 92). -/
def mainOff (s : State) : Bool := !s.bkp.mainRun

/-- One log entry, or one lost in a full log (R51, R52, R60). -/
def logAlarm (s : State) (n : Fin 4) : State :=
  let off := mainOff s
  s.modBkp fun b =>
    let b := { b with alarms := b.alarms.set (if off then 0 else 1) }
    if 16 ≤ b.logCount then { b with logLost := satInc b.logLost }
    else
      { b with log := upd b.log (Fin.ofNat 16 b.logCount) fun _ =>
                 { bc := b.bc, alm := BitVec.ofNat 2 n.val, mainOff := off, valid := true },
               logCount := b.logCount + 1 }

/-- The input of alarm n can be sampled: an oscillator edge falls in this tick and has not sampled it yet (R50). -/
def almSampled (s : State) (n : Fin 4) : Bool := s.bkp.oscRunning && s.bkp.edgeNow && !bit s.bkp.almSeen n.val

/-- ALARM_ACCEPT (R50): the oscillator edge of this tick samples alarm n at a level; the level is accepted when the edge before
sampled it too. -/
def alarmEffect (n : Fin 4) (level : Bool) (s : State) : State :=
  let b := s.bkp
  if !almSampled s n then s
  else
    let s := s.modBkp fun b => { b with almSeen := setBit b.almSeen n.val, almSample := assignBit b.almSample n.val level }
    if bit b.almSample n.val != level || bit b.almLevel n.val == level then s
    else
      let s := s.modBkp fun b => { b with almLevel := assignBit b.almLevel n.val level }
      if bit b.almCfg n.val && level == bit b.almCfg (4 + n.val) then logAlarm s n else s

/-! ### Actions (R48, R51, R53, R56, R57) -/

def logClearEffect (s : State) : State :=
  s.modBkp fun b => { b with logCount := 0, logLost := 0, log := b.log.map fun e => { e with valid := false } }

def bcLoadEffect (s : State) : State := s.modBkp fun b => { b with loadPending := true }
def kcClearEffect (ch : Fin 2) (s : State) : State := s.modBkp fun b => { b with kcClear := setBit b.kcClear ch.val }

/-- CAPTURE (R53, R57): PAIR_VALID clears until the pair is taken. -/
def bkpCaptureEffect (s : State) : State := s.modBkp fun b => { b with pairValid := false, pairDue := true }

/-- BKP_PAIR_TAKE (R53): four values latched at an oscillator edge; the tick lies 0 to 3 ticks after it, as a free value says. -/
def pairTakeEffect (s : State) : State :=
  if s.bkp.pairDue && s.bkp.oscRunning && s.bkp.edgeNow && s.sys.sysLock then
    let t := s.time + BitVec.ofNat 64 (freeValue s % 4)
    s.freeStep.modBkp fun b =>
      kcRefresh { b with pairBc := b.bc, pairTick := t, pairKc := b.kc, pairValid := true, pairDue := false }
  else s

/-- The pair registers cleared by a pin or soft reset (R53), which begins a MAIN_OFF period (R52). -/
def pairClear (s : State) : State :=
  s.modBkp fun b => { b with mainRun := false, pairBc := 0, pairTick := 0, pairKc := Vector.replicate 2 0, pairValid := false, pairDue := false }

/-- The oscillator stops or produces edges again (R90). -/
def oscEffect (on : Bool) (s : State) : State :=
  s.modBkp fun b => if on then kcRefresh { b with oscRunning := true } else { b with oscRunning := false }

/-! ### Registers of BKP -/

/-- The words of log entry n. -/
def logWord (e : LogEntry) (i : Nat) : Word :=
  if i = 0 then e.bc.setWidth 32
  else put 0 (e.bc >>> 32).toNat ||| put 16 e.alm.toNat ||| putB 20 e.mainOff ||| putB 31 e.valid

/-- Reads of the BKP block by offset. -/
def bkpRead (s : State) (off : Nat) : Word :=
  let b := s.bkp
  if off = 0x00 then
    b.alarms.word ||| put 4 b.logCount ||| put 16 b.logLost.toNat ||| putB 31 b.pairValid
  else if off = 0x08 then b.bc.setWidth 32
  else if off = 0x0C then (b.bc >>> 32).setWidth 32
  else if off = 0x10 then b.bcLoad.setWidth 32
  else if off = 0x14 then (b.bcLoad >>> 32).setWidth 32
  else if off = 0x18 then b.kcCfg.setWidth 32
  else if off = 0x1C then b.kcShown[0]
  else if off = 0x20 then b.kcShown[1]
  else if off = 0x24 then b.almCfg.setWidth 32
  else if off = 0x28 then b.almLevel.setWidth 32
  else if off = 0x30 then b.sealTick.setWidth 32
  else if off = 0x34 then (b.sealTick >>> 32).setWidth 32
  else if off = 0x40 then b.pairBc.setWidth 32
  else if off = 0x44 then (b.pairBc >>> 32).setWidth 32
  else if off = 0x48 then b.pairTick.setWidth 32
  else if off = 0x4C then (b.pairTick >>> 32).setWidth 32
  else if off = 0x50 then b.pairKc[0]
  else if off = 0x54 then b.pairKc[1]
  else if 0x80 ≤ off ∧ off < 0x100 then logWord b.log[(Fin.ofNat 16 ((off - 0x80) / 8)).val] ((off / 4) % 2)
  else if 0x100 ≤ off ∧ off < 0x180 then b.scratch[(Fin.ofNat 32 ((off - 0x100) / 4)).val]
  else 0

/-- A 64-bit or 48-bit register with one of its words replaced. -/
def setLo {n : Nat} (v : BitVec n) (w : Word) : BitVec n := ((v >>> 32) <<< 32) ||| w.setWidth n
def setHi {n : Nat} (v : BitVec n) (w : Word) : BitVec n := BitVec.ofNat n (v.toNat % 2 ^ 32) ||| (w.setWidth n <<< 32)

/-- Writes of the BKP block by offset, when they take effect at an oscillator edge. -/
def bkpWrite (off : Nat) (w : Word) (s : State) : State :=
  let s := s.modBkp kcRefresh
  if off = 0x00 then s.modBkp fun b => { b with alarms := b.alarms.clear w }
  else if off = 0x04 then
    let s := if bit w 0 then bkpCaptureEffect s else s
    let s := if bit w 1 then logClearEffect s else s
    let s := if bit w 2 then bcLoadEffect s else s
    let s := if bit w 3 then kcClearEffect 0 s else s
    if bit w 4 then kcClearEffect 1 s else s
  else if off = 0x10 then s.modBkp fun b => { b with bcLoad := setLo b.bcLoad w }
  else if off = 0x14 then s.modBkp fun b => { b with bcLoad := setHi b.bcLoad (w &&& 0xFFFF) }
  else if off = 0x18 then s.modBkp fun b => { b with kcCfg := (w &&& 0x77).setWidth 7 }
  else if off = 0x24 then s.modBkp fun b => { b with almCfg := w.setWidth 8 }
  else if off = 0x30 then s.modBkp fun b => { b with sealTick := setLo b.sealTick w }
  else if off = 0x34 then s.modBkp fun b => { b with sealTick := setHi b.sealTick w }
  else if 0x100 ≤ off ∧ off < 0x180 then
    s.modBkp fun b => { b with scratch := upd b.scratch (Fin.ofNat 32 ((off - 0x100) / 4)) fun _ => w }
  else s

/-- VBAT_ALARM or RUN_ALARM raises attention (R52). -/
def bkpAttn (s : State) : Bool := s.bkp.alarms.bits != 0

/-! ### The commands of the backup domain -/

def execKcEdge (ch : Fin 2) (pin : KcPin) (level inLimits : Bool) (s : State) : Out := onAny s (kcEdgeEffect ch pin level inLimits)
def execAlarmAccept (n : Fin 4) (level : Bool) (s : State) : Out := onAny s (alarmEffect n level)
def execBkpCapture (s : State) : Out := onAny s bkpCaptureEffect
def execBkpPairTake (s : State) : Out := onAny s pairTakeEffect
def execLogClear (s : State) : Out := onAny s logClearEffect
def execBcLoad (s : State) : Out := onAny s bcLoadEffect
def execKc0Clear (s : State) : Out := onAny s (kcClearEffect 0)
def execKc1Clear (s : State) : Out := onAny s (kcClearEffect 1)
def execBkpOscillatorStop (s : State) : Out := onAny s (oscEffect false)
def execBkpOscillatorStart (s : State) : Out := onAny s (oscEffect true)

end Sys2Proof.Machine
end

