-- ==== Sys2Proof/Machine/Geometry.lean ====
section
/-! DEFINITION. The geometry of the configuration memory (13_fabric.md R369, R370; 14_configuration_images.md R387 to R390;
15_swap_zones_scrubbing.md R421, R423, R424): columns, frame addresses in order, and swap zones. -/

namespace Sys2Proof.Machine

/-- The types of R387's table. -/
inductive ColType where
  | logic | bram | dsp | io | hard
  deriving DecidableEq, Repr

/-- The column at place o of the 24-column half of the pattern P (R369). -/
def patternCol (o : Nat) : ColType :=
  if o % 24 = 5 ∨ o % 24 = 11 ∨ o % 24 = 23 then .bram else if o % 24 = 17 then .dsp else .logic

/-- The type of a configuration column (R369). -/
def colType (c : Nat) : ColType :=
  if c < 2 ∨ c = 50 ∨ c = 149 ∨ c = 198 ∨ c = 199 then .io
  else if c = 99 ∨ c = 100 then .hard
  else if c < 50 then patternCol (c - 2)
  else if c < 99 then patternCol (c - 51)
  else if c < 149 then patternCol (c - 101)
  else patternCol (c - 150)

/-- Configuration frames of a column (R387). -/
def colFrames (c : Nat) : Nat :=
  match colType c with
  | .logic => 40
  | .bram => 32
  | .dsp => 24
  | .io => 36
  | .hard => 16

/-- BRAM content frames of a column (R387). -/
def colContent (c : Nat) : Nat := if colType c = .bram then 128 else 0

def faBlock (f : Word) : Nat := fld f 31 30
def faColumn (f : Word) : Nat := fld f 23 16
def faMinor (f : Word) : Nat := fld f 7 0

/-- A frame address word (R387). -/
def frameAddr (block col minor : Nat) : Word := put 30 block ||| put 16 col ||| put 0 minor

/-- A configuration frame address (R387). -/
def isConfigFrame (f : Word) : Bool :=
  faBlock f == 0 && decide (faColumn f < 200) && decide (faMinor f < colFrames (faColumn f)) &&
    f == frameAddr 0 (faColumn f) (faMinor f)

/-- The first column from c upward, below a bound, that satisfies a test. -/
def nextCol (p : Nat → Bool) (c bound : Nat) : Option Nat := (List.range bound).find? fun k => decide (c ≤ k) && p k

/-- The frame after f in the columns first to last: configuration frames, then BRAM content frames, in address order (R388,
R421). -/
def nextFrameIn (first last : Nat) (f : Word) : Option Word :=
  let c := faColumn f
  let m := faMinor f + 1
  let content := fun (k : Nat) => (nextCol (fun c => colType c == .bram) k (last + 1)).map fun c => frameAddr 1 c 0
  if faBlock f = 0 then
    if m < colFrames c then some (frameAddr 0 c m)
    else if c < last then some (frameAddr 0 (c + 1) 0)
    else content first
  else if m < colContent c then some (frameAddr 1 c m)
  else content (c + 1)

/-- The next valid address in address order of a whole image (R388, R398). -/
def nextFrame (f : Word) : Option Word := nextFrameIn 0 199 f

/-- The next configuration frame in address order, none after 0x00C7_0023 (R434). -/
def nextConfigFrame (f : Word) : Option Word :=
  match nextFrame f with
  | some g => if faBlock g = 0 then some g else none
  | none => none

/-- Frames of an image (R400). -/
def imageFrames : Nat := 10680

/-- Frames of a zone over the columns first to last (R421). -/
def zoneFrames (first last : Nat) : Nat :=
  (((List.range (last + 1)).filter fun c => decide (first ≤ c)).map fun c => colFrames c + colContent c).sum

/-! ### Swap zones -/

/-- An isolated zone (R423). -/
def isolatedState : ZoneState → Bool
  | .loading | .verifying | .failed | .damaged | .restoring => true
  | _ => false

/-- Zone z holds column c (R421). -/
def zoneHasCol (z : Zone) (c : Nat) : Bool := z.st != .none && decide (z.first.toNat ≤ c ∧ c ≤ z.last.toNat)

/-- The zone of a configuration column, none for a static one (R390, R434). -/
def zoneOf (s : State) (c : Nat) : Option (Fin 8) := (allFin 8).find? fun z => zoneHasCol s.scb.zones[z.val] c

/-- A static frame: a configuration frame whose column lies in no declared zone (R390). -/
def isStatic (s : State) (f : Word) : Bool := isConfigFrame f && (zoneOf s (faColumn f)).isNone

/-- The slot booted last, none when configuration failed. -/
def bootedSlot (s : State) : Option (Fin 3) :=
  if s.cfg.booted.toNat < 3 then some (Fin.ofNat 3 s.cfg.booted.toNat) else none

/-- The signature words of the image in the latches: those of the booted slot. -/
def imageSig (s : State) : List Word :=
  match bootedSlot s with
  | some b => s.cfg.slots[b.val].hdr.sig.toList
  | none => []

/-- Some column of an isolated zone satisfies a test. -/
def anyIsolated (s : State) (p : Nat → Bool) : Bool :=
  s.scb.zones.toList.any fun z => isolatedState z.st && (List.range 200).any fun c => zoneHasCol z c && p c

/-- Streaming port p is driven from an isolated zone (R424). -/
def fspIsolated (s : State) (p : Fin 8) : Bool := anyIsolated s fun c => Config.fspColumn (imageSig s) p.val c

/-- The fabric register port is driven from an isolated zone (R424). -/
def frpIsolated (s : State) : Bool := anyIsolated s fun c => Config.frpColumn (imageSig s) c

/-- The internal configuration port is driven from an isolated zone (R424). -/
def icpIsolated (s : State) : Bool := anyIsolated s fun c => Config.icpColumn (imageSig s) c

/-! ### Fabric clocks (R152, R371, R372) -/

/-- GC g runs while its generator is locked: FCGn produces GC(8n) to GC(8n + 7). -/
def gcRuns (s : State) (g : Fin 32) : Bool := bit s.sys.fcgLock (g.val / 8)

/-- The clock on a global network runs. -/
def netRuns (s : State) (n : Fin 16) : Bool :=
  match s.fab.nets[n.val] with
  | some g => gcRuns s g
  | none => false

/-- Streaming port p has no clock, or one outside 100 to 350 MHz. -/
def fspClkBad (s : State) (p : Fin 8) : Bool := s.fsp[p.val].clkBad || !netRuns s s.fsp[p.val].net

/-- The ICP has no clock, or one outside 25 to 200 MHz (R427). -/
def icpClkBad (s : State) : Bool := s.scb.icpClkBad || !netRuns s s.fab.icpNet

/-- The fabric register port issues accesses (R380). -/
def frpReady (s : State) : Bool := released s && netRuns s s.fab.frpNet && !frpIsolated s

/-- The internal configuration port issues accesses (R380, R427). -/
def icpReady (s : State) : Bool := released s && !icpClkBad s && !icpIsolated s

/-- The bands of the six banks GA to GF (R369). -/
def bankBand (b : Nat) : Nat :=
  match b with | 0 => 0 | 1 => 0 | 2 => 1 | 3 => 2 | _ => 3

/-- The clock-capable pins of region r = 4 × row + band: pin 4 × row of each bank of the band. -/
def clockPins (r : Fin 16) : List (Fin 96) :=
  ((List.range 6).filter fun b => bankBand b == r.val % 4).map fun b => Fin.ofNat 96 (16 * b + 4 * (r.val / 4))

/-- What the image chooses for RCK(r,k): a global network, or a clock-capable pin of the region. -/
def rckOf (sig : List Word) (r : Fin 16) (k : Fin 8) : RckSource :=
  let v := Config.rck sig r.val k.val
  if v < 16 then .net (Fin.ofNat 16 v)
  else match (clockPins r)[v - 16]? with
    | some p => .pin p
    | none => .none

/-- The clocks of the image in the latches. -/
def fabLoadImage (s : State) : State :=
  let sig := imageSig s
  s.modFab fun _ =>
    { nets := Vector.ofFn fun n : Fin 16 => Config.netGc sig n.val, frpNet := Config.frpNet sig, icpNet := Config.icpNet sig,
      rck := Vector.ofFn fun i : Fin 128 => rckOf sig (Fin.ofNat 16 (i.val / 8)) (Fin.ofNat 8 i.val) }

end Sys2Proof.Machine
end

