-- ==== Sys2Proof/Machine/Capture.lean ====
section
/-! DEFINITION. The capture channels (08_capture_channels.md R216 to R248): lock, lines, line tags, the line boundary. -/

namespace Sys2Proof.Machine

/-- EN of the settings that govern channel n: those of CAP(2k) in a gang (R218). -/
def capLive (s : State) (n : Fin 16) : Bool := capEn (getCap s (capHead s n)).group.active

/-! ### Pixels (R225 to R227) -/

/-- The bits of ports A, B and C in a word of the channel link, A0 first: TX0 to TX27 as the Camera Link specification assigns them
(R216; PRESUMED; log entry 99). Ports D, E and F come on CH2k+1 in the same places. -/
def portPlaces : List Nat :=
  [0, 1, 2, 3, 4, 6, 27, 5] ++ [7, 8, 9, 12, 13, 14, 10, 11] ++ [15, 18, 19, 20, 21, 22, 16, 17]

/-- DVAL of a word (R216; log entry 99). -/
def wordDval (w : CamWord) : Bool := bit w.head 26

/-- Bit b of port p, ports A to F numbered 0 to 5. -/
def portBit (w : CamWord) (p b : Nat) : Bool :=
  if p < 3 then bit w.head (portPlaces.getD (8 * p + b) 0) else bit w.tail (portPlaces.getD (8 * (p - 3) + b) 0)

/-- n bits of port p from bit b upward. -/
def portBits (w : CamWord) (p b : Nat) : Nat → Nat
  | 0 => 0
  | n + 1 => (if portBit w p b then 1 else 0) + 2 * portBits w p (b + 1) n

/-- The port of the low 8 bits of tap k, and the port and first bit of the others: the tap configurations of the Camera Link
specification (R216; log entry 99). -/
def tapPlace (g : CapGroup) (k : Nat) : Nat × Nat × Nat :=
  if capDepthCode g = 0 then (k, 0, 0)
  else
    match k with
    | 0 => (0, 1, 0)
    | 1 => (2, 1, 4)
    | _ => (4, 5, 0)

/-- The pixel bits that a word carries for tap k at the channel's own DEPTH. -/
def tapBits (g : CapGroup) (w : CamWord) (k : Nat) : Nat :=
  let (lo, hi, b) := tapPlace g k
  portBits w lo 0 8 + 256 * portBits w hi b (capDepth g - 8)

/-- Words that carry pixels (R225). -/
def pixelWords (g : CapGroup) (ws : List CamWord) : List CamWord := if capDval g then ws.filter wordDval else ws

/-- W = ceil(P / T) (R225). -/
def lineWords (g : CapGroup) : Nat := (capPix g + capTaps g - 1) / max (capTaps g) 1

/-- Pixel i of a line from its pixel words (R226). -/
def pixelAt (g : CapGroup) (ws : List CamWord) (i : Nat) : Nat :=
  let t := max (capTaps g) 1
  let (c, k) := if capSegmented g then let seg := max (capPix g / t) 1; (i % seg, i / seg) else (i / t, i % t)
  tapBits g (ws.getD c ⟨0, 0⟩) k

/-- The bytes a line occupies, in pixel order (R227). -/
def lineBytes (g : CapGroup) (ws : List CamWord) : List Byte :=
  let pix := (List.range (capPix g)).map (pixelAt g ws)
  match capDepthCode g with
  | 0 => pix.map (BitVec.ofNat 8)
  | 3 => pix.flatMap (leBytes 2)
  | _ =>
    if capPack g then leBytes (capBytes g) (pix.foldr (fun p acc => p + acc * 2 ^ capDepth g) 0)
    else pix.flatMap (leBytes 2)

/-- Whole code words: the bytes beyond B in the last one are 0 (R228). -/
def padWord (bs : List Byte) : List Byte := bs ++ List.replicate ((8 - bs.length % 8) % 8) 0

/-! ### The line tag (R230) -/

/-- FORMAT. -/
def tagFormat (g : CapGroup) : Nat :=
  capDepthCode g + (if capPack g then 4 else 0) + (if capGangBit g then 8 else 0)

/-- FLAGS of the tag. -/
def tagFlags (l : Line) (relocked : Bool) : Nat :=
  (if l.rel.suspect then 1 else 0) + (if l.rel.shortLead then 2 else 0) + (if l.fval then 4 else 0) +
    (if relocked then 8 else 0) + (if l.free then 16 else 0)

/-- The 64 bytes of a line tag. -/
def tagBytes (n : Fin 16) (g : CapGroup) (l : Line) (endTick : Nat) (relocked : Bool) : List Byte :=
  leBytes 4 l.rel.id.toNat ++ leBytes 4 l.rel.target.toNat ++ leBytes 8 (l.rel.strobeTick % 2 ^ 64).toNat ++
    leBytes 8 l.rel.exposeTick ++ leBytes 8 l.start ++ leBytes 8 endTick ++ leBytes 2 (capPix g) ++
    leBytes 1 (tagFormat g) ++ [chanByte n l.rel.herd] ++ leBytes 2 (tagFlags l relocked) ++ leBytes 2 (capPages g) ++
    List.replicate 16 0

/-- Offset in descriptor memory of a handle's tag. -/
def tagAt (s : State) (h : Fin 2048) : Nat := 0x20000 * s.tagBase.toNat + 64 * h.val

/-- Ring of channel n's completion descriptors. -/
def captureRing (n : Fin 16) : Fin 1024 := Fin.ofNat 1024 n.val

/-! ### Completion (R228, R229) -/

/-- A line complete with its handle: the pixels are stored, pages beyond PAGES go back, and a posted descriptor makes it
visible; a full ring drops it. The descriptor's USER is a free value, since R281 states none for a capture producer
(log entry 28). -/
def completeLine (s : State) (n : Fin 16) (l : Line) (h : Fin 2048) (gen : BitVec 7) (endTick : Nat) : State :=
  let g := (getCap s n).group.active
  let s := objWrite s (getObj s h) 0 (padWord (lineBytes g (pixelWords g l.words)))
  let s := pwTrim s h gen (capPages g)
  let ring := getRing s (captureRing n)
  if ringOn ring && !ringFull ring then
    let relocked := (getCap s n).relocked && unitLocked s n
    let s := (pwSeal s h gen).2
    let s := dmWrite s (tagAt s h) (tagBytes n g l endTick relocked)
    let user := BitVec.ofNat 32 (freeValue s)
    let s := (ringPost s.freeStep (captureRing n) (objectDescriptor h gen true 0 1 0 (capBytes g) l.rel.id user)).2
    s.modCap n fun c => { c with relocked := c.relocked && !relocked, cntLines := c.cntLines + 1 }
  else lineGiveBack (countDrop (ringPost s (captureRing n) []).2 n dropRingFull) n { l with handle := .granted h gen }

/-- A line whose LVAL has fallen: it completes when its handle is there, and waits until then (R228). -/
def finishLine (s : State) (n : Fin 16) (l : Line) (endTick : Nat) : State :=
  let s := s.modCap n fun c => { c with line := none }
  match l.drop, l.handle with
  | some _, _ => s
  | none, .granted h g => completeLine s n l h g endTick
  | none, _ => s.modCap n fun c => { c with ending := c.ending ++ [{ l with ended := some endTick, tags := 0 }] }

/-- Stride of a captured object in units of 64 bytes: one line, rounded up (DEDUCED; log entry 28). -/
def captureStride (g : CapGroup) : BitVec 9 := BitVec.ofNat 9 ((capBytes g + 63) / 64)

/-- Pages a granted reservation holds. -/
def resPages (s : State) (r : ResState) : Nat :=
  match r with
  | .granted k => ((s.pw.reservations.find? fun x => x.num == k).map (·.pages.length)).getD 0
  | _ => 0

/-- The handle asked when a line's first word is written (R228): the request, and the line that waits for it. -/
def askHandle (s : State) (n : Fin 16) (l : Line) : State × Line :=
  match l.rel.res with
  | .granted k =>
    (pwAsk s (.map (.capLine n) k (captureStride (getCap s n).group.active)), { l with handle := .waiting })
  | _ => (s, l)

/-! ### LINE_START (R222, R224, R219) -/

/-- The start of a line of channel n that is dropped at once. -/
def startDropped (s : State) (n : Fin 16) (r : Fin 13) (l : Line) : State :=
  dropLine (s.modCap n fun c => { c with line := some l }) n r

/-- A release that stands for a line no release made: free lines and lines dropped before matching. -/
def noRelease (id : Word) : Release :=
  { id := id, target := 0, strobeTick := 0, exposeTick := 0, shortLead := false, suspect := false, herd := none, res := .none }

/-- The pending entries whose window has passed are dropped with MISSING, in order (R222). -/
def expirePending (s : State) (n : Fin 16) : State :=
  let c := getCap s n
  let m := capMax c.group.active
  let old := c.pending.filter fun r => decide (r.exposeTick + m < now s)
  let s := s.modCap n fun c => { c with pending := c.pending.filter fun r => decide (now s ≤ r.exposeTick + m) }
  forEach old (fun r s => dropRelease s n dropMissing r) s

/-- A line of a channel in mode TRIGGERED (R222, R228). -/
def startTriggered (s : State) (n : Fin 16) (fval : Bool) (skew : Bool) : State :=
  let s := expirePending s n
  let c := getCap s n
  let g := c.group.active
  let blank : Line := { rel := noRelease 0, free := false, start := now s, fval := fval, handle := .unasked, drop := none,
                        ended := none, words := [], tags := 0 }
  match c.pending with
  | [] => startDropped s n dropUnmatched blank
  | r :: rest =>
    if now s < r.exposeTick + capMin g then startDropped s n dropUnmatched blank
    else
      let s := s.modCap n fun c => { c with pending := rest }
      let l := { blank with rel := r }
      if resAbsent r.res || decide (resPages s r.res < capPages g) then startDropped s n dropNores l
      else if skew then startDropped s n dropSkew l
      else
        let (s, l) := askHandle s n l
        s.modCap n fun c => { c with line := some l }

/-- A line of a channel in mode FREE (R224): it takes the next free identity and asks for its pages. -/
def startFree (s : State) (n : Fin 16) (fval : Bool) (skew : Bool) : State :=
  let c := getCap s n
  let l : Line := { rel := { noRelease c.freeId with res := .waiting }, free := true, start := now s, fval := fval,
                    handle := .unasked, drop := none, ended := none, words := [], tags := 0 }
  if skew then startDropped s n dropSkew { l with rel := noRelease c.freeId }
  else
    pwAsk (s.modCap n fun c => { c with line := some l })
      (.reserve (.capLine n) .capture n (capPages c.group.active))

/-- The free identity advances on every rise of LVAL in mode FREE, drops included (R224). -/
def advanceFree (s : State) (n : Fin 16) : State :=
  s.modCap n fun c => if capFree c.group.active then { c with freeId := c.freeId + 1 } else c

/-- LINE_START (R222): a rise of LVAL that a locked channel sees. skew is the distance of CH2k+1's rise in a gang. -/
def lineStartEffect (n : Fin 16) (fval : Bool) (skew : Nat) (s : State) : State :=
  if !capLive s n || !unitLocked s n then s
  else if gangOdd s n then
    (let m := gangHead n
     countDrop s m (if (getCap s m).retired then dropRetired else if (getCap s m).cfgBad then dropConfig else dropSkew))
  else
    let c := getCap s n
    if c.line.isSome then s
    else
      let bad := isGang s n && decide (4 < skew)
      let blank : Line := { rel := noRelease 0, free := false, start := now s, fval := fval, handle := .unasked,
                            drop := none, ended := none, words := [], tags := 0 }
      advanceFree
        (if c.retired then startDropped s n dropRetired blank
         else if c.cfgBad then startDropped s n dropConfig blank
         else if capFree c.group.active then startFree s n fval bad
         else startTriggered s n fval bad) n

/-- Bytes of pixel data that a line has brought so far. -/
def lineBytesIn (g : CapGroup) (ws : List CamWord) : Nat := pixBytes g (min ((pixelWords g ws).length * max (capTaps g) 1) (capPix g))

/-- Writes of 256 bytes issued so far, of which `stored` are stored: none before the line has its pages, and never more than 384
under way (R224, R288, R289). -/
def lineIssued (l : Line) (bytes stored : Nat) : Nat :=
  match l.rel.res with
  | .granted _ => min (bytes / 256) (stored + 384)
  | _ => 0

/-- Words of the line in assembly (R225, R228): one word too many drops it with LENGTH, and what the pixel FIFO of 2,048 bytes cannot
hold with OVERRUN. A dropped line stays until LVAL falls. -/
def lineTake (s : State) (n : Fin 16) (l : Line) (stored : Nat) : State :=
  let g := (getCap s n).group.active
  let bytes := lineBytesIn g l.words
  let issued := lineIssued l bytes stored
  let s := s.modCap n fun c => { c with line := some { l with tags := issued - stored } }
  if l.drop.isSome then s
  else if lineWords g < (pixelWords g l.words).length then dropLine s n dropLength
  else if 2048 < bytes - 256 * issued then dropLine s n dropOverrun
  else s

/-- LINE_END (R225, R228, R229): what the line brought, and the fall of LVAL where it falls. The words of a line may come in several
commands, the last of which has the fall (log entry 21). -/
def lineEndEffect (n : Fin 16) (ws : List CamWord) (stored : Nat) (falls : Bool) (s : State) : State :=
  match (getCap s n).line with
  | none => s
  | some l =>
    let s := lineTake s n { l with words := l.words ++ ws } stored
    match (getCap s n).line with
    | none => s
    | some l =>
      let g := (getCap s n).group.active
      if !falls then s
      else if l.drop.isNone && (pixelWords g l.words).length != lineWords g then endLine s n dropLength
      else finishLine s n l (now s)

/-- MATCH_EXPIRY (R222). -/
def matchExpiryEffect (n : Fin 16) (s : State) : State := expirePending s n

/-! ### Lock (R220, R221, R234, R235) -/

/-- A lock attempt of receiver n starts now. -/
def startAttempt (s : State) (n : Fin 16) : State := s.modCap n fun c => { c with locked := false, attemptAt := some s.clock }

/-- A further attempt of an open LINK fault: a 4th one makes it permanent (R234). -/
def faultAttempt (s : State) (h : Fin 16) : State :=
  match (getCap s h).fault with
  | none => s
  | some f =>
    if 3 ≤ f.attempts then linkPermanent s h f
    else s.modCap h fun c => { c with fault := some { f with attempts := f.attempts + 1 }, cntRelock := c.cntRelock + 1 }

/-- LOSS_OF_LOCK (R235): receiver n was locked. In a gang a loss while the other receiver is in an attempt shares that
attempt (R247). -/
def lossOfLockEffect (n : Fin 16) (s : State) : State :=
  if !(getCap s n).locked then s
  else
    let h := capHead s n
    let armed := (getCap s h).armed && !(getCap s h).retired
    let shared := (capUnit s n).any fun m => m != n && (getCap s m).attemptAt.isSome
    let had := unitLocked s n
    let s := (startAttempt s n).modCap h fun c => { c with flags := c.flags.set 1, relocked := c.relocked || had }
    let s := dropPending (endLine s h dropLink) h dropLink
    if !armed then s
    else
      match (getCap s h).fault with
      | none =>
        s.modCap h fun c =>
          { c with fault := some { start := s.clock, attempts := 1, second := none }, cntRelock := c.cntRelock + 1 }
      | some f =>
        if shared then
          (if f.start = s.clock then
            s.modCap h fun c => { c with fault := some { f with second := some (gangTail n) } }
          else s)
        else faultAttempt s h

/-- PCLK_MEASURE (R220): the end of a window of 4,000 ticks with its count of rising edges. -/
def pclkEffect (n : Fin 16) (count : Nat) (s : State) : State :=
  match (getCap s n).windowAt with
  | none => s
  | some w =>
    if s.clock < w + 4000 then s
    else
      let ok := decide (190 ≤ count ∧ count ≤ 870)
      let s := s.modCap n fun c =>
        { c with pclk := BitVec.ofNat 17 (min (count * 100) 0x1FFFF), pclkOk := ok, windowAt := some (w + 4000) }
      if ok then s else lossOfLockEffect n s

/-- LOCK_SUCCESS (R220): within 1 ms of the attempt's start and with the clock in range. -/
def lockSuccessEffect (n : Fin 16) (s : State) : State :=
  let c := getCap s n
  match c.attemptAt with
  | none => s
  | some a =>
    if c.locked || !c.pclkOk || decide (a + oneMs < s.clock) then s
    else
      let s := s.modCap n fun c => { c with locked := true, attemptAt := none }
      let h := capHead s n
      if unitLocked s n then
        s.modCap h fun c => { c with armed := !c.retired }
      else s

/-- LOCK_ATTEMPT_FAIL (R220): not locked 1 ms after the attempt's start; the next attempt starts at once. In a gang it is one attempt
of both receivers that are not locked (R247). -/
def lockFailEffect (n : Fin 16) (s : State) : State :=
  let c := getCap s n
  match c.attemptAt with
  | none => s
  | some a =>
    if c.locked || decide (s.clock < a + oneMs) then s
    else
      let s := forEach ((capUnit s n).filter fun m => (getCap s m).attemptAt.isSome) (fun m s => startAttempt s m) s
      faultAttempt s (capHead s n)

/-- CAP_LINK_WINDOW_END (R234). -/
def capWindowEndEffect (n : Fin 16) (s : State) : State :=
  let h := capHead s n
  match (getCap s h).fault with
  | none => s
  | some f =>
    if s.clock < f.start + tenMs then s
    else if unitLocked s h && decide (f.attempts ≤ 3) then closeLink s h f false false
    else linkPermanent s h f

/-! ### Actions and settings -/

/-- CAP_CNT_CLEAR (R233). -/
def capCntClearEffect (n : Fin 16) (s : State) : State :=
  s.modCap n fun c => { c with cntLines := 0, cntRelock := 0, drops := Vector.replicate 13 0 }

/-- A ring that is enabled, or whose commit is pending, occupies a byte of the block (R231). -/
def ringInBlock (g : Ring) (lo : Nat) : Bool :=
  let hits := fun (x : RingGroup) =>
    decide (ringBase x < lo + 0x20000) && decide (lo < ringBase x + 32 * 2 ^ min (max (ringK x) 4) 12)
  (ringOn g && hits g.group.active) || (g.group.pending && hits g.group.shadow)

/-- CAP_TAG_BASE_WRITE (R231). -/
def tagBaseEffect (v : BitVec 3) (s : State) : State :=
  if ((allFin 16).all fun n => !capEn (getCap s n).group.active) &&
      s.qe.rings.toList.all (fun g => !ringInBlock g (0x20000 * v.toNat)) then { s with tagBase := v }
  else s

/-- The receiver of channel n starts afresh: unlocked, unarmed, an attempt and a measurement window begin while it is
enabled, and everything rests while it is not (R218, R220, R221). -/
def restartReceiver (s : State) (n : Fin 16) : State :=
  let live := capLive s n
  s.modCap n fun c =>
    { c with locked := false, armed := false, attemptAt := if live then some s.clock else none,
             windowAt := if live then some s.clock else none, pclk := 0, pclkOk := false,
             relocked := false, freeId := 0 }

/-- A change of GANG at the safe point of CAP(2k) (R206, R218, R562). Called before the new group is applied. -/
def gangChangeBefore (s : State) (n : Fin 16) : State :=
  forEach [gangHead n, gangTail n] (fun m s =>
    dropPending (dropEnding (endLine (classAtStop s m) m dropConfig) m dropConfig) m dropConfig) s

/-- What forming or dissolving does once the new group is active (R206, R218). CAP(2k+1)'s own settings are ignored in a gang and
judged again when it is dissolved. R218 does not say what becomes of a channel that was retired alone: the model leaves RETIRED of
either channel as it stands, so that REVIVE at a CH2k that is not retired has no effect (R28) and CH2k+1 stays retired in the gang
(DESIGN CHOICE; log entry 100). -/
def gangChangeAfter (s : State) (n : Fin 16) : State :=
  let m := gangTail n
  let s := s.modCap m fun c => { c with cfgBad := !isGang s n && capInvalid c.group.active (tsqHerdEn (tsqAct s m)) }
  let s := restartReceiver (restartReceiver s (gangHead n)) m
  if isGang s n then (cancelWhere (squashAll s m) m reasonGang fun _ => true).modTsq m fun t => { t with stopped := false }
  else if tsqEn (tsqAct s m) then enableTsq s m
  else s

/-- The safe point of CAPn (R240): no line in assembly, or the channel disabled or not locked. -/
def capSafe (s : State) (n : Fin 16) : Bool :=
  let c := getCap s n
  c.group.pending && ((c.line.isNone && c.ending.isEmpty) || !capEn c.group.active || !unitLocked s n)

/-- CAP_COMMIT_APPLY (R240). In CAP(2k+1) of a gang the settings change and nothing follows from them (R218). A commit written while
the channel is retired is applied at its safe point like any other, so that REVIVE restarts with it: R29 speaks only of a commit
pending at the retirement (DESIGN CHOICE; log entry 100). -/
def capCommitEffect (n : Fin 16) (s : State) : State :=
  if !capSafe s n then s
  else if gangOdd s n then s.modCap n fun c => { c with group := c.group.apply }
  else
    let old := (getCap s n).group.active
    let new := (getCap s n).group.shadow
    let gangs := capGangBit old != capGangBit new
    let enOff := capEn old && !capEn new
    let enOn := !capEn old && capEn new
    let bad := capInvalid new (tsqHerdEn (tsqAct s n))
    let s := if gangs then gangChangeBefore s n else s
    let s := if enOff && !gangs then dropEnding (endLine (classAtStop s n) n dropConfig) n dropConfig else s
    let s := if enOff || enOn || bad || capFree old != capFree new then dropPending s n dropConfig else s
    let s := s.modCap n fun c =>
      { c with group := c.group.apply, cfgBad := bad, flags := if bad then c.flags.set 4 else c.flags }
    if gangs then gangChangeAfter s n
    else if enOn || enOff then forEach (capUnit s n) (fun m s => restartReceiver s m) s
    else s

/-! ### The levels of STBn and CC1 to CC4 (R44, R45, R183, R238) -/

/-- The level of STROBE in sequencer n: its polarity while active, the other level while inactive. -/
def strobeLevel (s : State) (n : Fin 16) : Bool :=
  let t := getTsq s n
  if t.strobe.active then t.strobe.pol else !t.strobe.pol

/-- An output pin of the line, which EXTEST drives where it is selected (R132): high impedance until release or a failed configuration, and a driven level after it (R44). After a
failed reconfiguration the units go on (R12, R40), so that "Inactive" is the level of one that is not enabled (DEDUCED; log
entry 101). -/
def linePin (s : State) (i : Nat) (level : Bool) : Option Bool :=
  match extestDrive s i with
  | some d => d
  | none => if pinsLive s then some level else none

/-- The pin STBn: none while it is high-impedance. -/
def stbLevel (s : State) (n : Fin 16) : Option Bool := linePin s (96 + n.val) (strobeLevel s n)

/-- EXPOSE is active in the present tick. -/
def exposeActive (s : State) (n : Fin 16) : Bool :=
  (getTsq s n).expose.any fun p => decide (p.from_ ≤ s.clock ∧ s.clock < p.end_)

/-- The pin CCx of channel n, x from 1 to 4 (R238): CH2k+1 of a gang copies CH2k. -/
def ccLevel (s : State) (n : Fin 16) (x : Nat) : Option Bool :=
  let m := capHead s n
  let c := getCap s m
  let t := getTsq s m
  let cc := c.group.active.cc
  let off := !capEn c.group.active || c.retired
  linePin s (111 + 4 * n.val + x) <|
    match fld cc (4 * x - 2) (4 * x - 4) with
    | 1 => if off then !t.strobe.pol else strobeLevel s m
    | 2 => if exposeActive s m && !off then t.exposePol else !t.exposePol
    | 3 => if t.pretrig.active && !off then t.pretrig.pol else !t.pretrig.pol
    | _ => bit cc (15 + x)

end Sys2Proof.Machine
end

