-- ==== Sys2Proof/Machine/PageWarden.lean ====
section
/-! DEFINITION. How the Page Warden's answers reach who asked (R199, R224, R228, R287), and the meanings of its commands
(09_frame_store.md R258 to R260). -/

namespace Sys2Proof.Machine

/-! ### Lines that wait for an answer -/

/-- The first line of channel n that satisfies a test, those that have ended first. -/
def waitingLine (s : State) (n : Fin 16) (p : Line → Bool) : Option Line :=
  match (getCap s n).ending.find? p with
  | some l => some l
  | none => (getCap s n).line.bind fun l => if p l then some l else none

/-- That line replaced. -/
def setWaitingLine (s : State) (n : Fin 16) (p : Line → Bool) (l' : Line) : State :=
  s.modCap n fun c =>
    if c.ending.any p then { c with ending := replaceFirst p l' c.ending } else { c with line := some l' }

/-- That line dropped with a reason: one that has ended is no longer followed, one in assembly stays until LVAL falls. -/
def dropWaiting (s : State) (n : Fin 16) (p : Line → Bool) (r : Fin 13) (l : Line) : State :=
  if (getCap s n).ending.any p then
    (lineGiveBack (countDrop s n r) n l).modCap n fun c => { c with ending := c.ending.erase (c.ending.find? p |>.getD l) }
  else dropLine (s.modCap n fun c => { c with line := some l }) n r

/-- The line asked for its pages (R224). -/
def asksPages (l : Line) : Bool := l.drop.isNone && l.free && l.rel.res == .waiting

/-- The line asked for its handle on reservation k (R228). -/
def asksHandle (k : Nat) (l : Line) : Bool := l.drop.isNone && l.handle == .waiting && l.rel.res == .granted k

/-- The answer to a FREE line's request for pages (R224): granted, the handle is asked; refused, the line is dropped. -/
def linePages (s : State) (n : Fin 16) (ans : Option Nat) : State :=
  match waitingLine s n asksPages, ans with
  | some l, some k =>
    let (s, l') := askHandle s n { l with rel := { l.rel with res := .granted k } }
    setWaitingLine s n asksPages l'
  | some l, none => dropWaiting s n asksPages dropNores { l with rel := { l.rel with res := .none } }
  | none, some k => pwReturn s k
  | none, none => s

/-- The answer to a line's request for a handle (R228). -/
def lineHandle (s : State) (n : Fin 16) (k : Nat) (ans : Option (Fin 2048 × BitVec 7)) : State :=
  match waitingLine s n (asksHandle k), ans with
  | some l, some (h, g) =>
    let l' := { l with handle := .granted h g, rel := { l.rel with res := .none } }
    match l.ended with
    | some t => completeLine (s.modCap n fun c => { c with ending := c.ending.erase l }) n l' h g t
    | none => setWaitingLine s n (asksHandle k) l'
  | some l, none => dropWaiting s n (asksHandle k) dropHandle { l with handle := .unasked }
  | none, some (h, g) => (pwAbandon s h g).2
  | none, none => s

/-! ### The host's result register (R287) -/

/-- CODE of QE_HOST_RESULT. -/
def hostCode : PwCode → BitVec 2
  | .ok => 0
  | .refused => 1
  | .stale => 2
  | .refFull => 3
  | .poison => 3

/-- The answer to a host command: DONE with its CODE, and the handle a granted ALLOC gives (R287). -/
def hostAnswer (s : State) (c : BitVec 2) (hg : Option (Fin 2048 × BitVec 7)) : State :=
  s.modQe fun q =>
    let r := { q.result with busy := false, done := true, code := c }
    { q with flags := q.flags.set 6,
             result := match hg with
               | some (h, g) => { r with handle := BitVec.ofNat 11 h.val, gen := g }
               | none => r }

/-! ### Answers by requester -/

/-- The answer to a RESERVE (R199, R224). -/
def reserveAnswer (s : State) (dest : PwDest) (ans : Option Nat) : State :=
  match dest with
  | .tsqSlot n i =>
    if (getSlot s n i).res = .waiting then
      modSlot s n i fun sl => { sl with res := match ans with | some k => .granted k | none => .refused }
    else s
  | .capLine n => linePages s n ans
  | .gone _ => match ans with | some k => pwReturn s k | none => s
  | _ => s

/-- The answer to an operation on an object: only the host asks one through the queue of waiting operations. -/
def objectAnswer (s : State) (dest : PwDest) (c : PwCode) : State :=
  match dest with
  | .host => hostAnswer s (hostCode c) none
  | _ => s

/-- An operation of a requester inside the model is served once it waits and R259 serves it next; one of a requester outside
it acts at once. -/
def pwServe (s : State) (dest : PwDest) (q : PwReq) (f : State → State) : State :=
  if dest = .none then f s else if pwIsNext s q then f (pwServed s q) else s

/-! ### The commands -/

/-- RESERVE. -/
def reserveEffect (dest : PwDest) (c : PwClass) (o : Fin 16) (n : Nat) (s : State) : State :=
  pwServe s dest (.reserve dest c o n) fun s =>
    let (ans, s) := pwReserve s c o n
    reserveAnswer s dest ans

/-- MAP. -/
def mapEffect (dest : PwDest) (res : Nat) (stride : BitVec 9) (s : State) : State :=
  pwServe s dest (.map dest res stride) fun s =>
    let (ans, s) := pwMap s res stride
    match dest with
    | .capLine n => lineHandle s n res ans
    | _ => s

/-- ALLOC. -/
def allocEffect (dest : PwDest) (c : PwClass) (o : Fin 16) (n : Nat) (stride : BitVec 9) (s : State) : State :=
  pwServe s dest (.alloc dest c o n stride) fun s =>
    let (ans, s) := pwAlloc s c o n stride
    match dest with
    | .host => hostAnswer s (if ans.isSome then 0 else 1) ans
    | _ => s

/-- SEAL, ADDREF, RELEASE and ABANDON, each with its own operation. -/
def objectEffect (dest : PwDest) (q : PwReq) (op : State → PwCode × State) (s : State) : State :=
  pwServe s dest q fun s =>
    let (c, s) := op s
    objectAnswer s dest c

/-- One waiting operation served by its own command's effect. -/
def pwRun (s : State) (q : PwReq) : State :=
  match q with
  | .reserve d c o n => reserveEffect d c o n s
  | .map d res stride => mapEffect d res stride s
  | .alloc d c o n stride => allocEffect d c o n stride s
  | .seal d h gen => objectEffect d q (fun s => pwSeal s h gen) s
  | .addref d h gen => objectEffect d q (fun s => pwAddref s h gen) s
  | .release d h gen => objectEffect d q (fun s => pwRelease s h gen) s
  | .abandon d h gen => objectEffect d q (fun s => pwAbandon s h gen) s

/-- The waiting operations that R259 serves before operation q, one after the other; the count bounds their number. -/
def pwRunBefore (s : State) (q : PwReq) : Nat → State
  | 0 => s
  | n + 1 =>
    match s.pw.waiting.find? fun w => pwBefore w q && pwIsNext s w with
    | none => s
    | some w => pwRunBefore (pwRun s w) q n

/-- The state in which the Page Warden serves operation q of a fabric streaming port in the clock of its arrival: what waits and comes
first in the order of R259 has been served (R269, R270). -/
def pwTurn (s : State) (q : PwReq) : State := pwRunBefore s q s.pw.waiting.length

def execReserve (dest : PwDest) (c : PwClass) (o : Fin 16) (n : Nat) (s : State) : Out := onSys s (reserveEffect dest c o n)
/-- RETURN: served at once, before every other waiting operation (R259). -/
def execReturnRes (res : Nat) (s : State) : Out := onSys s fun s => pwReturn s res
def execMap (dest : PwDest) (res : Nat) (stride : BitVec 9) (s : State) : Out := onSys s (mapEffect dest res stride)
def execAlloc (dest : PwDest) (c : PwClass) (o : Fin 16) (n : Nat) (stride : BitVec 9) (s : State) : Out :=
  onSys s (allocEffect dest c o n stride)
/-- TRIM: of the group that R259 serves first. -/
def execTrim (h : Fin 2048) (gen : BitVec 7) (n : Nat) (s : State) : Out := onSys s fun s => pwTrim s h gen n
def execSeal (dest : PwDest) (h : Fin 2048) (gen : BitVec 7) (s : State) : Out :=
  onSys s (objectEffect dest (.seal dest h gen) fun s => pwSeal s h gen)
def execAddref (dest : PwDest) (h : Fin 2048) (gen : BitVec 7) (s : State) : Out :=
  onSys s (objectEffect dest (.addref dest h gen) fun s => pwAddref s h gen)
def execRelease (dest : PwDest) (h : Fin 2048) (gen : BitVec 7) (s : State) : Out :=
  onSys s (objectEffect dest (.release dest h gen) fun s => pwRelease s h gen)
def execAbandon (dest : PwDest) (h : Fin 2048) (gen : BitVec 7) (s : State) : Out :=
  onSys s (objectEffect dest (.abandon dest h gen) fun s => pwAbandon s h gen)
def execReadRepeat (addr : BitVec 24) (entry : Option (Fin 1024 × BitVec 16)) (repeats : Nat) (found : Ecc) (s : State) : Out :=
  onSys s (readRepeatEffect addr entry repeats found)
def execPoisonRewriteDone (s : State) : Out := onSys s poisonRewriteEffect
def execPwCommitApply (s : State) : Out := onSys s pwCommitEffect
def execPwCntClear (s : State) : Out := onSys s pwCntClearEffect

/-! ### The commands of the capture channels (chapter 08) -/

def execPclkMeasure (n : Fin 16) (count : Nat) (s : State) : Out := onSys s (pclkEffect n count)
def execLockSuccess (n : Fin 16) (s : State) : Out := onSys s (lockSuccessEffect n)
def execLockAttemptFail (n : Fin 16) (s : State) : Out := onSys s (lockFailEffect n)
def execLossOfLock (n : Fin 16) (s : State) : Out := onSys s (lossOfLockEffect n)
def execLineStart (n : Fin 16) (fval : Bool) (skew : Nat) (s : State) : Out := onSys s (lineStartEffect n fval skew)
def execLineEnd (n : Fin 16) (words : List CamWord) (stored : Nat) (falls : Bool) (s : State) : Out :=
  onSys s (lineEndEffect n words stored falls)
def execMatchExpiry (n : Fin 16) (s : State) : Out := onSys s (matchExpiryEffect n)
def execCapLinkWindowEnd (n : Fin 16) (s : State) : Out := onSys s (capWindowEndEffect n)
def execCapRevive (n : Fin 16) (s : State) : Out := onSys s (capReviveEffect n)
def execCapCntClear (n : Fin 16) (s : State) : Out := onSys s (capCntClearEffect n)
def execCapTagBaseWrite (value : BitVec 3) (s : State) : Out := onSys s (tagBaseEffect value)
def execCapCommitApply (n : Fin 16) (s : State) : Out := onSys s (capCommitEffect n)

/-! ### The commands of the trigger sequencers (chapter 07) -/

def execSlotOpen (n : Fin 16) (s : State) : Out := onSys s (slotOpenEffect n)
def execSlotCommit (n : Fin 16) (s : State) : Out := onSys s (slotCommitEffect n)
def execStrobeRise (n : Fin 16) (s : State) : Out := onSys s (strobeRiseEffect n)
def execPretrigRise (n : Fin 16) (s : State) : Out := onSys s (pretrigRiseEffect n)
def execPulseEnd (n : Fin 16) (out : TsqOut) (s : State) : Out := onSys s (pulseEndEffect n out)
def execHoldExpiry (n : Fin 16) (s : State) : Out := onSys s (holdExpiryEffect n)
def execStopTicksExpiry (n : Fin 16) (s : State) : Out := onSys s (stopExpiryEffect n)
def execPredictorEntry (h : Fin 4) (s : State) : Out := onSys s (predictorEntryEffect h)
def execTsqCommitApply (n : Fin 16) (s : State) : Out := onSys s (tsqCommitEffect n)
def execTsqCntClear (n : Fin 16) (s : State) : Out := onSys s (tsqCntClearEffect n)

end Sys2Proof.Machine
end

