-- ==== Sys2Proof/Machine/Qe.lean ====
section
/-! DEFINITION. The Queue Engine (10_queue_engine.md R276 to R304): checks at dispatch, the schedulers, completions,
timeouts, doorbells, host commands and ring commits. The words of a management descriptor are in MgmtEngine.lean. Ticks of its own are those of the model's clock. -/

namespace Sys2Proof.Machine

/-! ### STATUS codes (R283) -/

def stOk : Byte := 1
def stDenied : Byte := 2
def stTimeout : Byte := 3
def stStale : Byte := 4
def stPoison : Byte := 5
def stDiscarded : Byte := 6
def stBad : Byte := 7
def stNoresp : Byte := 8

/-- Where several codes apply, the lowest one other than 1 (R283); 0 for none. -/
def lowestCode (l : List Byte) : Byte := l.foldr (fun c acc => if acc = 0 ∨ c.toNat < acc.toNat then c else acc) 0

/-! ### What an entry names -/

/-- The entry is a management descriptor: its ring's consumer is MGMT (R280). -/
def isMgmtRing (g : RingGroup) : Bool := ringConsKind g == 3

/-- The entries of rings 0 to 15 and 33 to 1023 have a STATUS byte (R281, R282); ghost and fault records have none. -/
def hasStatus (r : Fin 1024) : Bool := decide (r.val < 16) || decide (32 < r.val)

/-- The reference an entry carries (R281, R282): a management descriptor with INLINE ignores its handle. -/
def entryRef (r : Fin 1024) (mgmt : Bool) (e : List Byte) : Option (Fin 2048 × BitVec 7) :=
  if !hasStatus r then none
  else if mgmt then (if mdRef e && !mdInline e then some (mdHandle e, mdGen e) else none)
  else if odRef e then some (odHandle e, odGen e) else none

/-- Handle and GEN of the object an entry belongs to, as DETAIL word 1 (R294). -/
def entryWord (s : State) (mgmt : Bool) (e : List Byte) : Word :=
  let (h, g) := if mgmt then (mdHandle e, mdGen e) else (odHandle e, odGen e)
  if (mgmt && mdInline e) || (objOf s h g).isNone then 0 else handleWord h g

/-- Cost of an entry (R290): at least 64. -/
def entryCost (mgmt : Bool) (e : List Byte) : Nat := max 64 (if mgmt then 4 * mdWords e else odLines e * odLength e)

/-! ### Checks at dispatch (R283, R315) -/

/-- STALE, POISON or BAD of an object descriptor; egress is stricter on LENGTH (R315). -/
def objectCheck (s : State) (egress : Bool) (e : List Byte) : Byte :=
  if odKind e != 1 then stBad
  else
    let badLen := egress && (odLength e == 0 || decide (32768 < odLength e))
    match objOf s (odHandle e) (odGen e) with
    | none => stStale
    | some o =>
      let last := objOffset o (odFirst e + odLines e - 1) (odOffset e + odLength e)
      lowestCode ((if o.poison then [stPoison] else []) ++ (if badLen || decide (objSize o < last) then [stBad] else []))

/-- STALE, POISON or BAD of a management descriptor. -/
def mgmtCheck (s : State) (e : List Byte) : Byte :=
  if mdKind e != 2 then stBad
  else if mdInline e then (if mdBad e then stBad else 0)
  else
    match objOf s (mdHandle e) (mdGen e) with
    | none => stStale
    | some o =>
      lowestCode ((if o.poison then [stPoison] else []) ++
        (if mdBad e || decide (objSize o < mdObjOffset e + 4 * mdWords e) then [stBad] else []))

/-- A management descriptor that is BAD is not checked against the access table (R283). -/
def mgmtIsBad (s : State) (e : List Byte) : Bool :=
  mdKind e != 2 || mdBad e ||
    (!mdInline e && match objOf s (mdHandle e) (mdGen e) with
      | none => false
      | some o => decide (objSize o < mdObjOffset e + 4 * mdWords e))

/-! ### Completion (R277, R283, R286) -/

/-- A timeout, a late refusal or an error of an egress entry is counted by its port (chapter 11). -/
def noteEgress (s : State) (c : Consumer) (code : Byte) : State :=
  match c with
  | .egress n =>
    s.modEgr n fun p =>
      if code = stDiscarded then { p with discEntries := p.discEntries + 1 }
      else if code = stOk then p
      else { p with entryErr := p.entryErr + 1 }
  | _ => s

/-- An entry completed with its STATUS: the tag is free, DI advances, and the reference that the Queue Engine releases with it, if
any, is released (R283, R286, R289). -/
def completeEntry (s0 : State) (t : Taken) (code : Byte) (ref : Option (Fin 2048 × BitVec 7)) : State :=
  let s := dmWrite s0 (t.addr + 1) [code]
  let s := s.modRing t.ring fun g => completeIdx g t.idx
  let s := s.modQe fun q => { q with taken := q.taken.filter fun u => !(u.ring == t.ring && u.idx == t.idx) }
  let s := noteEgress s t.cons code
  afterTagFreed s0 (pwReleaseRef s ref) t.cons

def findTaken (s : State) (r : Fin 1024) (i : BitVec 16) : Option Taken :=
  s.qe.taken.find? fun t => t.ring == r && t.idx == i

/-- The reference that the Queue Engine releases with an entry it ends itself (R286, R292): the one the entry carried; of an entry that
a streaming port took, one that the port's table still holds (R375, R384; DEDUCED: the table does not tell references to one object
apart, log entry 102). -/
def heldRef (s : State) (t : Taken) : Option (Fin 2048 × BitVec 7) :=
  match t.cons with
  | .fabric p => if t.offered then t.ref else t.ref.filter fun hg => decide (hg ∈ s.fsp[p.val].refs)
  | _ => t.ref

/-- A consumer acted on a retired tag (R292). -/
def countLate (s : State) : State := s.modQe fun q => { q with cntLate := q.cntLate + 1, flags := q.flags.set 4 }

/-! ### The schedulers (R290) -/

/-- Cost of the entry a ring would dispatch next. -/
def nextCost (s : State) (r : Fin 1024) : Nat :=
  let g := getRing s r
  entryCost (isMgmtRing g.group.active) (entryBytes s r g.ci)

/-- What one turn grants. -/
def turnGrant (s : State) (r : Fin 1024) : Nat := 64 * max (ringQuantum (getRing s r).group.active) 1

/-- Turns a ring needs, starting with a new one, before its next entry is affordable. -/
def turnsNeeded (s : State) (r : Fin 1024) : Nat :=
  let q := turnGrant s r
  max 1 ((nextCost s r - (getRing s r).deficit + (q - 1)) / q)

/-- The list split before the first ring that satisfies a test. -/
def splitAtFirst {α : Type} (p : α → Bool) : List α → List α × List α
  | [] => ([], [])
  | a :: r => if p a then ([], a :: r) else let (x, y) := splitAtFirst p r; (a :: x, y)

/-- The rounds of R290 when no ring is in its turn: the ring that needs the fewest turns is reached first, in turn order;
the rings before it have had as many turns, those after it one less. -/
def pickRound (s : State) (c : Consumer) (cls : Fin 4) (rings : List (Fin 1024)) : Option (Fin 1024 × State) :=
  match (rings.map (turnsNeeded s)).min? with
  | none => none
  | some j =>
    match splitAtFirst (fun r => turnsNeeded s r == j) rings with
    | (_, []) => none
    | (pre, r :: post) =>
      let credit := fun (k : Nat) (x : Fin 1024) (s : State) =>
        let g := turnGrant s x
        s.modRing x fun d => { d with deficit := d.deficit + k * g }
      let s' := forEach pre (credit j) (forEach post (credit (j - 1)) (credit j r s))
      let cost := nextCost s r
      let s' := s'.modRing r fun d => { d with deficit := d.deficit - cost, inTurn := true }
      some (r, setTurn s' c cls (r :: post ++ pre))

/-- The pick of one class (R290): the ring in its turn goes on while its credit lasts. -/
def pickClass (s : State) (c : Consumer) (cls : Fin 4) : Option (Fin 1024 × State) :=
  match turnOf s c cls with
  | [] => none
  | h :: rest =>
    let g := getRing s h
    if g.inTurn then
      if nextCost s h ≤ g.deficit then
        let cost := nextCost s h
        some (h, s.modRing h fun d => { d with deficit := d.deficit - cost })
      else pickRound (s.modRing h fun d => { d with inTurn := false }) c cls (rest ++ [h])
    else pickRound s c cls (h :: rest)

/-- The pick of R290: strict priority over the four classes. -/
def pickRing (s : State) (c : Consumer) : Option (Fin 1024 × State) :=
  match pickClass s c 0 with
  | some x => some x
  | none =>
    match pickClass s c 1 with
    | some x => some x
    | none =>
      match pickClass s c 2 with
      | some x => some x
      | none => pickClass s c 3

/-- A streaming port operates: out of reset, connected, with a clock in range, and not driven from an isolated zone (R372, R380,
R424). -/
def fspReady (s : State) (p : Fin 8) : Bool := released s && s.fsp[p.val].used && !fspClkBad s p && !fspIsolated s p

/-- The consumer can accept an entry: an egress port holds fewer than two whose payload is unread (R314), and a streaming port
operates. -/
def accepts (s : State) (c : Consumer) : Bool :=
  match c with
  | .egress n => decide (s.egr[n.val].held.length < 2)
  | .fabric p => fspReady s p
  | _ => true

/-- The entry a port starts to work on (R314). -/
def heldOf (r : Fin 1024) (i : BitVec 16) (tx : Fin 8) (e : List Byte) : Held :=
  { ring := r, idx := i, cls := tx, handle := odHandle e, gen := odGen e, firstLine := odFirst e, nlines := odLines e,
    offset := odOffset e, length := odLength e, trig := odTrig e, user := odUser e, line := 0, frag := 0, fmax := none,
    gapValid := false, gap := 0 }

/-- The management operation a descriptor starts (R282). -/
def opOf (s : State) (r : Fin 1024) (i : BitVec 16) (fabric refused : Bool) (e : List Byte) : MgmtOp :=
  { ring := r, idx := i, fabric := fabric, order := s.bus.epochOrder, write := mdWrite e, inline := mdInline e,
    nwords := mdWords e, addr := mdAddr e, handle := mdHandle e, gen := mdGen e, objOffset := mdObjOffset e,
    inlineData := mdInlineData e, next := 0, lastAt := s.clock, refused := refused, noresp := false, poisoned := false,
    stale := false }

/-- What the entry's check at dispatch starts: work of the consumer, or a completion that follows one system clock later.
The access check of a management descriptor comes here, with its refusal (R104, R107, R283); one that its check at dispatch ends
issues no word, and is unretired until its completion, refused or not (R110, R114). -/
def deliver (s : State) (t : Taken) (tx : Fin 8) : State :=
  match t.cons with
  | .egress n =>
    if t.verdict = 0 then s.modEgr n fun p => { p with held := p.held ++ [heldOf t.ring t.idx tx t.entry] } else s
  | .fabric _ => s
  | .mgmtHost | .mgmtFabric =>
    let fabric := t.cons == .mgmtFabric
    let e := t.entry
    if mgmtIsBad s e then s
    else
      let why := checkRange s (mdWrite e) (mdAddr e) (mdWords e)
      let s := match why with
        | some w => logRefusal s .qe (mdWrite e) (mdAddr e) w
        | none => s
      let o := opOf s t.ring t.idx fabric why.isSome e
      s.modQe fun q =>
        if t.verdict = 0 then { q with ops := q.ops ++ [o] }
        else
          { q with
            ops := q.ops ++ [{ o with next := o.nwords }],
            taken := q.taken.map fun u =>
              if why.isSome && u.ring == t.ring && u.idx == t.idx then { u with verdict := stDenied } else u }

/-- The check found at dispatch. -/
def dispatchVerdict (s : State) (c : Consumer) (e : List Byte) : Byte :=
  match c with
  | .egress _ => objectCheck s true e
  | .fabric _ => objectCheck s false e
  | _ => mgmtCheck s e

/-- The ring after its entry was taken: it forfeits its credit when it is no longer ready (R290). -/
def afterTake (s : State) (r : Fin 1024) (c : Consumer) : State :=
  let s := if ringWaiting (getRing s r) then s else leaveTurn s r
  if tagFree s c then s else clearTurns s c

/-- DISPATCH (R290): one entry taken, its tag held, CI advanced. -/
def dispatchEffect (c : Consumer) (s : State) : State :=
  if accepts s c && tagFree s c then
    match pickRing s c with
    | none => s
    | some (r, s) =>
      let g := getRing s r
      let a := g.group.active
      let i := g.ci
      let e := entryBytes s r i
      let t : Taken :=
        { ring := r, idx := i, cons := c, at_ := s.clock, entry := e, ref := entryRef r (isMgmtRing a) e,
          offered := true, repeats := 0, verdict := dispatchVerdict s c e, addr := entryAt g i, limit := ringTimeout a }
      let s := s.modRing r fun g => { g with ci := g.ci + 1 }
      let s := s.modQe fun q => { q with taken := q.taken ++ [t] }
      deliver (afterTake s r c) t (ringTx a)
  else s

/-! ### Management operations that end (R110, R113, R282, R283) -/

/-- The pace of R113: 60 system clocks, 120 ns, in ticks. -/
def wordTicks : Nat := 48

/-- An operation that issues no further word, because its object ended it (R252, R257). -/
def opEnded (o : MgmtOp) : Bool := o.poisoned || o.stale

/-- A word of the operation is posted and has not taken effect. -/
def opPosted (s : State) (o : MgmtOp) : Bool :=
  (s.bus.inflight ++ s.bus.bkpBuf).any fun a =>
    a.req == .qe && decide (o.addr.toNat ≤ a.addr.toNat ∧ a.addr.toNat < o.addr.toNat + 4 * o.nwords)

/-- The last word of an operation has retired, after the time its words take (R110, R113). -/
def opRetired (s : State) (o : MgmtOp) : Bool :=
  opEnded o || (decide (o.nwords ≤ o.next) && decide (o.lastAt + wordTicks ≤ s.clock) && !opPosted s o)

/-- STATUS of an operation (R283): the lowest code that applies. -/
def opStatus (o : MgmtOp) : Byte :=
  let c := lowestCode ((if o.refused then [stDenied] else []) ++ (if o.stale then [stStale] else []) ++
    (if o.poisoned then [stPoison] else []) ++ (if o.noresp then [stNoresp] else []))
  if c = 0 then stOk else c

/-- A read with INLINE writes its words into the entry at completion (R282), those of a refused one zero (R112). -/
def inlineWords (t : Taken) (o : MgmtOp) (s : State) : State :=
  if o.inline && !o.write then dmWrite s (t.addr + 16) ((o.inlineData.take o.nwords).flatMap fun w => leBytes 4 w.toNat) else s

/-- The operation of an entry taken off the engine. -/
def dropOp (s : State) (t : Taken) : State :=
  s.modQe fun q => { q with ops := q.ops.filter fun o => !(o.ring == t.ring && o.idx == t.idx) }

/-- The operation of an entry. -/
def findOp (s : State) (t : Taken) : Option MgmtOp := s.qe.ops.find? fun o => o.ring == t.ring && o.idx == t.idx

/-- The STATUS with which the Queue Engine completes an entry in this clock: that of its check at dispatch, or of a management
operation whose last word has retired; none while there is none. -/
def endStatus (s : State) (t : Taken) : Option Byte :=
  if t.verdict ≠ 0 then some t.verdict else (findOp s t).bind fun o => if opRetired s o then some (opStatus o) else none

/-- An entry completed by the Queue Engine itself (R283, R286). -/
def endTaken (s : State) (t : Taken) (code : Byte) : State :=
  let s := match findOp s t with
    | some o => if t.verdict = 0 then inlineWords t o s else s
    | none => s
  completeEntry (dropOp s t) t code t.ref

/-- ENTRY_COMPLETE (R283, R286, R288). The commands of egress and streaming ports complete their own entries. On an entry no longer
taken it is a late action (R292). -/
def entryCompleteEffect (r : Fin 1024) (i : BitVec 16) (s : State) : State :=
  match findTaken s r i with
  | none => countLate s
  | some t =>
    match endStatus s t with
    | some code => noteFence s (endTaken s t code)
    | none => s

/-! ### Timeouts (R291, R292) -/

/-- What a consumer still holds of an entry is abandoned; frames already built stay (R316). -/
def abandonWork (s : State) (t : Taken) : State :=
  match t.cons with
  | .egress n =>
    s.modEgr n fun p =>
      let mine := fun (h : Held) => h.ring == t.ring && h.idx == t.idx
      { p with held := p.held.filter fun h => !mine h,
               frames := if (p.held.head?.map mine).getD false then p.frames.filter (·.ready) else p.frames }
  | .fabric p =>
    match t.offered, t.ref with
    | false, some hg => s.modFsp p fun f => { f with refs := f.refs.erase hg }
    | _, _ => s
  | _ => dropOp s t

/-- The lower unit that the record of a timeout names (R21, R293): the Page Warden while it repeats a read for the entry, else the
streaming port that held the entry. -/
def timeoutLower (t : Taken) : Option (Nat × Nat) :=
  if t.repeats ≠ 0 then some (blkPw, 0)
  else
    match t.cons with
    | .fabric p => some (blkFsp, p.val)
    | _ => none

/-- The timeout of an entry has expired (R291). -/
def timedOut (s : State) (t : Taken) : Bool := t.limit != 0 && decide (t.at_ + t.limit * 400 ≤ s.clock)

/-- RING_TIMEOUT (R292): the entry completes with TIMEOUT, its retry is abandoned, and one permanent record is written. An entry that
completes in the clock of the expiry completes with its own STATUS, without a record (R298). -/
def ringTimeoutEffect (r : Fin 1024) (i : BitVec 16) (s0 : State) : State :=
  match findTaken s0 r i with
  | none => s0
  | some t =>
    if !timedOut s0 t then s0
    else
      match endStatus s0 t with
      | some code => noteFence s0 (endTaken s0 t code)
      | none =>
        let word := entryWord s0 (t.cons == .mgmtHost || t.cons == .mgmtFabric) t.entry
        let s := completeEntry (abandonWork s0 t) t stTimeout (heldRef s0 t)
        let s := s.modQe fun q => { q with cntTimeout := q.cntTimeout + 1, flags := q.flags.set 3 }
        let s := recordFault s
          { perm := true, blk := blkQe, kind := 1, inst := r.val, lower := timeoutLower t, retries := t.repeats,
            d0 := BitVec.ofNat 32 i.toNat, d1 := word }
        noteFence s0 s

/-! ### Doorbells (R285) -/

/-- An ignored doorbell (R285). -/
def doorbellBad (s : State) : State :=
  s.modQe fun q => { q with cntDoorbellBad := q.cntDoorbellBad + 1, flags := q.flags.set 2 }

/-- DOORBELL_PI (R285): the host sets PI of a ring it produces. -/
def doorbellPiEffect (r : Fin 1024) (i : BitVec 16) (s : State) : State :=
  let g := getRing s r
  let a := g.group.active
  let d := (i - g.di).toNat
  if ringOn g && ringProdKind r a == 0 && decide ((g.ci - g.di).toNat ≤ d ∧ d ≤ ringSize a) then
    let s := s.modRing r fun g => { g with pi := i, posts := g.posts + BitVec.ofNat 16 (d - ringHeld g) }
    if ringWaiting (getRing s r) then joinTurn s r else leaveTurn s r
  else doorbellBad s

/-- DOORBELL_CI (R285): the host takes and completes entries of a ring it consumes. -/
def doorbellCiEffect (r : Fin 1024) (i : BitVec 16) (s : State) : State :=
  let g := getRing s r
  if ringOn g && ringConsKind g.group.active == 0 && decide ((i - g.di).toNat ≤ ringHeld g) then
    s.modRing r fun g => { g with ci := i, di := i, done := [] }
  else doorbellBad s

/-! ### Host commands (R287) -/

/-- A host command: without effect while one awaits its answer. -/
def hostCommand (s : State) (q : PwReq) : State :=
  if s.qe.result.busy then s
  else pwAsk (s.modQe fun e => { e with result := { e.result with busy := true, done := false } }) q

/-- ALLOC takes NPAGES and STRIDE from QE_HOST_ARG. -/
def hostAllocEffect (s : State) : State := hostCommand s (.alloc .host .host 0 s.qe.argN.toNat s.qe.argStride)

/-! ### Ring commits (R276, R278 to R280) -/

/-- A combination of producer and consumer that the table of R280 names; an instance that names no port is no such
combination (DEDUCED; log entry 30). -/
def rolesOk (r : Fin 1024) (g : RingGroup) : Bool :=
  let ck := ringConsKind g
  let pk := ringProdKind r g
  let consInst := (ck != 1 || decide (ringConsInst g < 4)) && (ck != 2 || decide (ringConsInst g < 8))
  let prodInst := pk != 4 || decide (ringProdInst r g < 8)
  consInst && prodInst &&
    (if r.val < 16 then decide (ck ≤ 2)
     else if r.val ≤ 32 then ck == 0
     else decide (ck ≤ 3) && (pk == 0 || pk == 4))

/-- A group that is not applied (R276, R280): SIZE_LOG2 outside 4 to 12, a misaligned BASE, an overlap with the tag table,
or roles that R280 does not name. -/
def ringInvalid (s : State) (r : Fin 1024) (g : RingGroup) : Bool :=
  let n := 32 * ringSize g
  let lo := 0x20000 * s.tagBase.toNat
  decide (ringK g < 4) || decide (12 < ringK g) || ringBase g % n != 0 ||
    (decide (ringBase g < lo + 0x20000) && decide (lo < ringBase g + n)) || !rolesOk r g

/-- The entries between CI and PI completed with DISCARDED, their references released (R279). -/
def discardFrom (s : State) (r : Fin 1024) : Nat → State
  | 0 => s
  | n + 1 =>
    let g := getRing s r
    if g.ci = g.pi then s
    else
      let i := g.ci
      let e := entryBytes s r i
      let s := if hasStatus r then dmWrite s (entryAt g i + 1) [stDiscarded] else s
      let s := s.modRing r fun g => completeIdx { g with ci := g.ci + 1 } i
      discardFrom (pwReleaseRef s (entryRef r (isMgmtRing g.group.active) e)) r n

/-- The commit must wait until PI = DI: it changes the ring's place or roles and the ring is to be enabled (R278, R279). -/
def ringMustWait (s : State) (r : Fin 1024) : Bool :=
  let g := getRing s r
  ringEn g.group.shadow && ringStruct r g.group.active != ringStruct r g.group.shadow && g.pi != g.di

/-- QE_RING_COMMIT_APPLY (R278): the group applies, or is found invalid and leaves the ring acting as disabled. -/
def ringCommitEffect (r : Fin 1024) (s : State) : State :=
  let g := getRing s r
  if !g.group.pending || ringMustWait s r then s
  else
    let bad := ringInvalid s r g.group.shadow
    let oldOn := ringOn g
    let newOn := !bad && ringEn g.group.shadow
    let s := if oldOn && !newOn then discardFrom s r (ringHeld g) else s
    let s := if bad then s.modQe fun q => { q with flags := q.flags.set 5 } else s
    let s := s.modRing r fun g =>
      { g with cfgBad := bad, group := if bad then g.group.reject else g.group.apply }
    let s := if newOn && !oldOn then
        s.modRing r fun g =>
          if g.pi = g.di then { g with pi := 0, ci := 0, di := 0, done := [], deficit := 0 } else { g with deficit := 0 }
      else s
    let moved := ringCls g.group.active != ringCls (getRing s r).group.active ||
      ringConsumer r g.group.active != ringConsumer r (getRing s r).group.active
    let s := if !newOn || !oldOn || moved then leaveTurn s r else s
    if newOn then joinTurn s r else s

/-- QE_CTRL.CNT_CLEAR: the counters, those of the rings included (chapter 10). -/
def qeCntClearEffect (s : State) : State :=
  s.modQe fun q =>
    { q with cntFaultLost := 0, cntDoorbellBad := 0, cntTimeout := 0, cntLate := 0,
             rings := q.rings.map fun g => { g with posts := 0, full := 0 } }

/-! ### Registers -/

/-- CAPTURE tags a channel holds: those of its line's writes that no bank has stored (R288). -/
def captureTags (c : Cap) : Nat := (c.line.map (·.tags)).getD 0

/-- Free tags of the four pools (R288). -/
def tagsFree (s : State) (k : Nat) : Nat :=
  let free := fun (cs : List Consumer) => (cs.map fun c => tagCap c - tagsHeld s c).sum
  match k with
  | 0 => 6144 - (s.cap.toList.map captureTags).sum
  | 1 => free ((allFin 4).map Consumer.egress)
  | 2 => free ((allFin 8).map Consumer.fabric)
  | _ => free [.mgmtHost, .mgmtFabric]

def hostResultWord (r : HostResult) : Word :=
  putB 0 r.busy ||| putB 1 r.done ||| put 2 r.code.toNat ||| put 4 r.handle.toNat ||| put 16 r.gen.toNat

/-- Reads of a ring's registers. -/
def ringRead (r : Fin 1024) (g : Ring) (i : Nat) : Word :=
  let a := g.group.look
  match i with
  | 0 => a.base
  | 1 => ringCtrlWord r a
  | 2 => a.sched
  | 3 => g.group.word
  | 4 => put 0 g.pi.toNat ||| put 16 g.ci.toNat
  | 5 => put 0 g.di.toNat ||| putB 16 g.cfgBad ||| putB 17 (g.pi != g.di)
  | 6 => put 0 g.posts.toNat ||| put 16 g.full.toNat
  | _ => 0

/-- Writes of a ring's registers. -/
def ringWrite (i : Nat) (w : Word) (g : Ring) : Ring :=
  match i with
  | 0 => { g with group := g.group.write fun x => { x with base := w &&& 0x000F_FFE0 } }
  | 1 => { g with group := g.group.write fun x => { x with ctrl := w &&& 0xFFFF_73F1 } }
  | 2 => { g with group := g.group.write fun x => { x with sched := w } }
  | 3 => { g with group := g.group.commitWrite w }
  | _ => g

/-- Reads of the QE block by offset. -/
def qeRead (s : State) (off : Nat) : Word :=
  let q := s.qe
  if off = 0x008 then q.flags.word
  else if off = 0x00C then q.flagEn.setWidth 32
  else if off = 0x014 then q.seq
  else if off = 0x018 then q.cntFaultLost
  else if off = 0x01C then q.cntDoorbellBad
  else if off = 0x020 then q.cntTimeout
  else if off = 0x024 then q.cntLate
  else if 0x040 ≤ off ∧ off < 0x050 then put 0 (tagsFree s ((off - 0x040) / 4))
  else if off = 0x104 then put 0 q.argN.toNat ||| put 16 q.argStride.toNat
  else if off = 0x108 then hostResultWord q.result
  else if 0x8000 ≤ off ∧ off < 0x10000 then
    let r := Fin.ofNat 1024 ((off - 0x8000) / 32)
    ringRead r (getRing s r) (off / 4 % 8)
  else 0

/-- A write of QE_HOST_CMD (R287). -/
def hostCmdWrite (w : Word) (s : State) : State :=
  let h := Fin.ofNat 2048 (fld w 14 4)
  let g := BitVec.ofNat 7 (fld w 22 16)
  match fld w 2 0 with
  | 1 => hostAllocEffect s
  | 2 => hostCommand s (.addref .host h g)
  | 3 => hostCommand s (.release .host h g)
  | 4 => hostCommand s (.seal .host h g)
  | 5 => hostCommand s (.abandon .host h g)
  | _ => s

/-- A write of QE_DOORBELL (R285). -/
def doorbellWrite (w : Word) (s : State) : State :=
  let r := Fin.ofNat 1024 (fld w 9 0)
  let i := BitVec.ofNat 16 (fld w 31 16)
  if bit w 12 then doorbellCiEffect r i s else doorbellPiEffect r i s

/-- Writes of the QE block by offset. -/
def qeWrite (off : Nat) (w : Word) (s : State) : State :=
  if off = 0x000 then (if bit w 0 then qeCntClearEffect s else s)
  else if off = 0x008 then s.modQe fun q => { q with flags := q.flags.clear w }
  else if off = 0x00C then s.modQe fun q => { q with flagEn := w.setWidth 7 }
  else if off = 0x010 then doorbellWrite w s
  else if off = 0x100 then hostCmdWrite w s
  else if off = 0x104 then s.modQe fun q => { q with argN := BitVec.ofNat 4 (fld w 3 0), argStride := BitVec.ofNat 9 (fld w 24 16) }
  else if 0x8000 ≤ off ∧ off < 0x10000 then s.modRing (Fin.ofNat 1024 ((off - 0x8000) / 32)) (ringWrite (off / 4 % 8) w)
  else s

/-- Attention flags of QE that are set and enabled (R81). -/
def qeAttn (s : State) : Bool := s.qe.flags.raised s.qe.flagEn

/-! ### The commands -/

def execDispatch (c : Consumer) (s : State) : Out := onSys s (dispatchEffect c)
def execHostAlloc (s : State) : Out := onSys s hostAllocEffect
def execHostAddref (h : Fin 2048) (gen : BitVec 7) (s : State) : Out := onSys s fun s => hostCommand s (.addref .host h gen)
def execHostRelease (h : Fin 2048) (gen : BitVec 7) (s : State) : Out := onSys s fun s => hostCommand s (.release .host h gen)
def execHostSeal (h : Fin 2048) (gen : BitVec 7) (s : State) : Out := onSys s fun s => hostCommand s (.seal .host h gen)
def execHostAbandon (h : Fin 2048) (gen : BitVec 7) (s : State) : Out := onSys s fun s => hostCommand s (.abandon .host h gen)
def execEntryComplete (ring : Fin 1024) (idx : BitVec 16) (s : State) : Out := onSys s (entryCompleteEffect ring idx)
def execRingTimeout (r : Fin 1024) (i : BitVec 16) (s : State) : Out := onSys s (ringTimeoutEffect r i)
def execQeRingCommitApply (r : Fin 1024) (s : State) : Out := onSys s (ringCommitEffect r)
def execQeCntClear (s : State) : Out := onSys s qeCntClearEffect

end Sys2Proof.Machine
end

