-- ==== Sys2Proof/Machine/Egress.lean ====
section
/-! DEFINITION. The egress ports (11_egress_ports.md R305 to R333): links, frames, gap trackers, discarding, the receive
path, and the LINK fault. -/

namespace Sys2Proof.Machine

def getEgr (s : State) (n : Fin 4) : Egr := s.egr[n.val]

/-! ### Settings -/

def egrEn (g : EgrGroup) : Bool := bit g.cfg 0
def egrDev (g : EgrGroup) : Nat := fld g.cfg 10 8
/-- LINK_LIMIT in units of 10 ms; 0 acts as 1 (R324). -/
def egrLimit (g : EgrGroup) : Nat := max (fld g.cfg 23 16) 1
def clsVlanEn (c : EgrClass) : Bool := bit c.vlan 15
/-- The effective MTU: 1,024 to 9,600 (R323). -/
def clsMtu (c : EgrClass) : Nat := min (max (fld c.vlan 29 16) 1024) 9600
/-- F_MAX (R310). -/
def clsFmax (c : EgrClass) : Nat := (clsMtu c - 78 - (if clsVlanEn c then 4 else 0)) / 64 * 64
/-- The six octets of an address register pair. -/
def macOf (hi lo : Word) : List Byte := beBytes 2 (fld hi 15 0) ++ beBytes 4 lo.toNat

/-! ### Link, transmitter and discarding (R306, R318, R324) -/

/-- The port's own receiver keeps the link down: it lacks block lock, reports high bit-error rate or receives Local Fault. -/
def egrDeaf (p : Egr) : Bool := !p.blockLock || p.hiBer || p.rxLocalFault

/-- The link is up; while PLL_ETH has lost lock the port behaves as one without link (R152, R306). -/
def egrUp (s : State) (n : Fin 4) : Bool :=
  let p := getEgr s n
  !egrDeaf p && !p.rxRemoteFault && s.sys.ethLock

/-- The port discards (R318), also throughout a LINK fault (R324). -/
def egrDiscards (s : State) (n : Fin 4) : Bool :=
  let p := getEgr s n
  p.retired || !egrEn p.group.active || !egrUp s n || p.fault.isSome

/-- What a port's transmitter sends: nothing while squelched, Remote Fault sequences, Idle, or a frame. -/
inductive TxLine where
  | squelched | remoteFault | idle | frame
  deriving DecidableEq, Repr

/-- The SFI transmitter (R44, R152, R306, R318): squelched before release and without PLL_ETH; Remote Fault while the port's own
receiver keeps the link down; Idle whenever there is no frame on the wire, and after a failed configuration. -/
def egrTx (s : State) (n : Fin 4) : TxLine :=
  let p := getEgr s n
  if !pinsLive s || !s.sys.ethLock then .squelched
  else if p.wire.isSome then .frame
  else if egrDeaf p && released s then .remoteFault
  else .idle

/-! ### The LINK fault (R324 to R326), its ticks those of the model's clock -/

/-- Ticks the link was down within the window so far. -/
def egrDownTicks (s : State) (f : EgrFault) : Nat :=
  f.downTicks + match f.downSince with
    | some t => s.clock - t
    | none => 0

/-- The fault closed with its class (R324, R326). -/
def egrClose (s : State) (n : Fin 4) (f : EgrFault) (perm retired : Bool) : State :=
  let s := recordFault s
    { perm := perm, blk := blkEgr, kind := 1, inst := n.val, retries := f.losses - 1, retired := retired,
      d0 := BitVec.ofNat 32 f.losses, d1 := BitVec.ofNat 32 (egrDownTicks s f) }
  s.modEgr n fun p => { p with fault := none, flags := p.flags.set 1 }

/-- A permanent LINK fault retires the port alone, unless it is retired already (R17, R325, R562). -/
def egrPermanent (s : State) (n : Fin 4) (f : EgrFault) : State :=
  let seq := s.qe.seq
  let live := !(getEgr s n).retired
  let s := egrClose s n f true live
  if live then
    s.modEgr n fun p =>
      { p with retired := true, armed := false, faultSeq := seq, flags := p.flags.set 2, group := p.group.drop }
  else s

/-- An open fault classed because the port stops detecting faults (R562). -/
def egrClassAtStop (s : State) (n : Fin 4) : State :=
  match (getEgr s n).fault with
  | none => s
  | some f => if egrUp s n && decide (f.losses ≤ 3) then egrClose s n f false false else egrPermanent s n f

/-- The link of a port has just gone down: the frame on the wire is cut and counts as discarded, and a loss is counted and
belongs to a fault when the port is armed and not retired (R319, R324, R327). -/
def egrLoss (s : State) (n : Fin 4) : State :=
  let s := s.modEgr n fun p =>
    { p with linkLoss := p.linkLoss + 1, flags := p.flags.set 0, wire := none,
             discFrames := if p.wire.isSome then p.discFrames + 1 else p.discFrames }
  let p := getEgr s n
  if !p.armed || p.retired then s
  else
    match p.fault with
    | none =>
      s.modEgr n fun p => { p with fault := some { start := s.clock, losses := 1, downTicks := 0, downSince := some s.clock } }
    | some f =>
      let f := { f with losses := f.losses + 1, downSince := some s.clock }
      let s := s.modEgr n fun p => { p with fault := some f }
      if 4 ≤ f.losses then egrPermanent s n f else s

/-- The link of a port has just come up: the port arms while it is enabled and not retired (R324). -/
def egrRisen (s : State) (n : Fin 4) : State :=
  s.modEgr n fun p =>
    { p with armed := p.armed || (egrEn p.group.active && !p.retired),
             fault := p.fault.map fun f => { f with downTicks := egrDownTicks s f, downSince := none } }

/-- What the receiver of a port reports from now on, with the loss or the return of the link (R306, R319). -/
def egrReceiver (n : Fin 4) (rx : LinkRx) (s : State) : State :=
  let was := egrUp s n
  let s := s.modEgr n fun p =>
    { p with blockLock := rx.blockLock, hiBer := rx.hiBer, rxLocalFault := rx.localFault, rxRemoteFault := rx.remoteFault }
  if was && !egrUp s n then egrLoss s n else if !was && egrUp s n then egrRisen s n else s

/-- What a receiver reports that keeps the link up. -/
def LinkRx.good : LinkRx := ⟨true, false, false, false⟩

/-- LINK_UP (R306): receivers are off before release (R44). -/
def linkUpEffect (n : Fin 4) (s : State) : State := if pinsLive s then egrReceiver n LinkRx.good s else s

/-- LINK_DOWN (R306, R319); the cause may change while the link stays down. -/
def linkDownEffect (n : Fin 4) (rx : LinkRx) (s : State) : State :=
  if rx = LinkRx.good || !pinsLive s then s else egrReceiver n rx s

/-- EGR_LINK_WINDOW_END (R324). -/
def egrWindowEndEffect (n : Fin 4) (s : State) : State :=
  match (getEgr s n).fault with
  | none => s
  | some f =>
    if s.clock < f.start + egrLimit (getEgr s n).group.active * tenMs then s
    else if egrUp s n && decide (f.losses ≤ 3) then egrClose s n f false false
    else egrPermanent s n f

/-- EGR_REVIVE (R28, R325, R331): the port is unarmed. -/
def egrReviveEffect (n : Fin 4) (s : State) : State :=
  if !(getEgr s n).retired then s
  else
    s.modEgr n fun p =>
      { p with retired := false, armed := false, pseq := Vector.replicate 8 0, gapLast := Vector.replicate 16 none }

/-- A port whose link is up, enabled and not retired, is armed from the end of the tick on (R324): so is one revived with its link up
(DEDUCED; log entry 32). -/
def egrArm (n : Fin 4) (s : State) : State :=
  let up := egrUp s n
  s.modEgr n fun p => { p with armed := p.armed || (up && egrEn p.group.active && !p.retired) }

/-! ### Gap trackers (R313) -/

/-- The lowest-numbered enabled tracker that names a ring. -/
def trackerOf (g : EgrGroup) (r : Fin 1024) : Option (Fin 16) :=
  (allFin 16).find? fun i => bit g.gap[i.val] 31 && fld g.gap[i.val] 9 0 == r.val

/-- What a line's first fragment carries of the gap, and the port after its tracker has recorded the line. -/
def trackLine (p : Egr) (r : Fin 1024) (trig : Word) : (Bool × BitVec 16) × Egr :=
  match trackerOf p.group.active r with
  | none => ((false, 0), p)
  | some i =>
    let p' := { p with gapLast := upd p.gapLast i fun _ => some trig }
    match p.gapLast[i.val] with
    | none => ((false, 0), p')
    | some last =>
      let d := sInt (trig - last)
      if 1 ≤ d then ((true, BitVec.ofNat 16 (min (d - 1).toNat 0xFFFF)), p')
      else ((false, 0), { p' with cntOrder := p'.cntOrder + 1 })

/-- GAP_RESET (R313). -/
def gapResetEffect (n : Fin 4) (mask : BitVec 16) (s : State) : State :=
  s.modEgr n fun p => { p with gapLast := (Vector.ofFn fun i : Fin 16 => if bit mask i.val then none else p.gapLast[i.val]) }

/-! ### Building and sending frames (R307 to R317) -/

/-- The bytes of a frame before its FCS (R307, R308). -/
def frameBody (f : Frame) (pseq : Word) (tick : Tick) : List Byte :=
  let d := f.data.length
  let tag := match f.vlan with
    | some tci => beBytes 2 0x8100 ++ beBytes 2 tci.toNat
    | none => []
  let ip0 := [0x45, BitVec.ofNat 8 (f.dscp.toNat * 4)] ++ beBytes 2 (60 + d) ++ beBytes 2 (pseq.toNat % 65536) ++
    [0x40, 0x00, f.ttl, 17]
  let ip1 := beBytes 4 f.srcIp.toNat ++ beBytes 4 f.dstIp.toNat
  let ip := ip0 ++ beBytes 2 (ipChecksum (ip0 ++ [0, 0] ++ ip1)).toNat ++ ip1
  let udp := beBytes 2 f.srcUdp.toNat ++ beBytes 2 f.dstPort.toNat ++ beBytes 2 (40 + d) ++ [0, 0]
  let flags : Byte := (if f.first then 1 else 0) ||| (if f.last then 2 else 0) ||| (if f.gapValid then 4 else 0)
  let lp := [0xDA, 0x01, f.stream, flags] ++ beBytes 4 pseq.toNat ++ beBytes 4 f.trig.toNat ++ beBytes 4 f.user.toNat ++
    beBytes 2 f.lineBytes.toNat ++ beBytes 2 f.fragOffset.toNat ++ beBytes 2 f.gap.toNat ++ beBytes 2 f.ring.toNat ++
    beBytes 8 tick.toNat
  f.dstMac ++ f.srcMac ++ tag ++ beBytes 2 0x0800 ++ ip ++ udp ++ lp ++ f.data

/-- A frame from destination address to FCS; the FCS leaves least significant byte first (IEEE 802.3; log entry 26). -/
def frameBytes (f : Frame) (pseq : Word) (tick : Tick) : List Byte :=
  let b := frameBody f pseq tick
  b ++ leBytes 4 (crc32Eth b).toNat

/-- Bytes of the line's fragment that starts at byte h.frag. -/
def fragLen (h : Held) : Nat := min (h.fmax.getD 0) (h.length - h.frag)

/-- The fragment under way ends its line. -/
def fragLast (h : Held) : Bool := decide (h.length ≤ h.frag + fragLen h)

/-- The fragment under way ends its entry. -/
def fragEntryLast (h : Held) : Bool := fragLast h && decide (h.nlines ≤ h.line + 1)

/-- The entry with the fragment after the one under way. -/
def Held.advance (h : Held) : Held :=
  if fragLast h then { h with line := h.line + 1, frag := 0, fmax := none } else { h with frag := h.frag + fragLen h }

/-- TRIGGER_ID of the line under way (R308). -/
def lineTrig (h : Held) : Word := h.trig + BitVec.ofNat 32 h.line

/-- A line begun: F_MAX is fixed and the gap tracker records it (R310, R313). -/
def beginLine (p : Egr) (h : Held) : Held × Egr :=
  if h.fmax.isSome then (h, p)
  else
    let ((v, g), p) := trackLine p h.ring (lineTrig h)
    ({ h with fmax := some (clsFmax p.group.active.cls[h.cls.val]), gapValid := v, gap := g }, p)

/-- The frame of the fragment under way, its payload not yet read (R307, R308). -/
def buildFrame (s : State) (n : Fin 4) (h : Held) : Frame :=
  let g := (getEgr s n).group.active
  let c := g.cls[h.cls.val]
  { dstMac := macOf c.dstMacHi c.dstMacLo, srcMac := macOf g.srcMacHi g.srcMacLo,
    vlan := if clsVlanEn c then some (BitVec.ofNat 16 (fld c.vlan 14 12 * 8192 + fld c.vlan 11 0)) else none,
    dscp := BitVec.ofNat 6 (fld c.cfg 21 16), ttl := BitVec.ofNat 8 (fld c.cfg 31 24), srcIp := g.srcIp, dstIp := c.dstIp,
    srcUdp := BitVec.ofNat 16 (fld g.srcUdp 15 0), dstPort := BitVec.ofNat 16 (fld c.cfg 15 0),
    stream := BitVec.ofNat 8 (h.cls.val + 8 * n.val + 32 * egrDev g), cls := h.cls, first := h.frag == 0,
    last := fragLast h, gapValid := h.gapValid, gap := h.gap, trig := lineTrig h, user := h.user,
    lineBytes := BitVec.ofNat 16 h.length, fragOffset := BitVec.ofNat 16 h.frag, ring := BitVec.ofNat 10 h.ring.val,
    data := [], ready := false, entryLast := fragEntryLast h }

/-- The object of the entry under way. -/
def heldObj (s : State) (h : Held) : MapEntry := getObj s h.handle

/-- Object offset of the fragment under way (R311). -/
def fragOffset (s : State) (h : Held) : Nat := objOffset (heldObj s h) (h.firstLine + h.line) (h.offset + h.frag)

/-- The code words of the fragment under way, each with what its read finds. -/
def fragWords (s : State) (h : Held) (ecc : List Ecc) : List (Nat × Ecc) :=
  objWords (heldObj s h) (fragOffset s h) (fragLen h) ecc

/-- The reads of the fragment's payload, their errors corrected and recorded (R251). Bytes beyond the object, which a dispatched entry
can name only once its object is trimmed or reclaimed, read 0 and count as one access beyond it (R255; log entry 96). -/
def readFragment (s : State) (h : Held) (ecc : List Ecc) : State :=
  let t := eccReads (some (h.ring, h.idx)) (fragWords s h ecc) s
  if objSize (heldObj s h) < fragOffset s h + fragLen h then pwRange t else t

/-- The port's first entry taken off it and completed. -/
def endEntry (s : State) (n : Fin 4) (h : Held) (code : Byte) : State :=
  let s := s.modEgr n fun p => { p with held := p.held.filter fun x => !(x.ring == h.ring && x.idx == h.idx) }
  match findTaken s h.ring h.idx with
  | none => s
  | some t => completeEntry s t code t.ref

/-- A frame is under construction. -/
def egrBuilding (p : Egr) : Bool := p.frames.any fun f => !f.ready

/-- A payload read that ended uncorrectable: the frame under construction is abandoned and the entry completes with POISON
(R316). -/
def poisonEntry (s : State) (n : Fin 4) (h : Held) (ecc : List Ecc) : State :=
  let s := eccReadsUntil (some (h.ring, h.idx)) (fragWords s h ecc) s
  endEntry (s.modEgr n fun p => { p with frames := p.frames.filter (·.ready) }) n h stPoison

/-- Frame buffers in use (R314). -/
def buffersUsed (p : Egr) : Nat := p.frames.length + (if p.wire.isSome then 1 else 0)

/-- The port can start the construction of a frame: none is under construction and a buffer is free, or it discards. -/
def egrCanStart (s : State) (n : Fin 4) : Bool :=
  !egrBuilding (getEgr s n) && (egrDiscards s n || decide (buffersUsed (getEgr s n) < 2))

/-- The pending group applies (R323). Trackers whose ring or enable changes forget their identity. -/
def egrApply (n : Fin 4) (s : State) : State :=
  let p := getEgr s n
  if !p.group.pending then s
  else
    let old := p.group.active
    let new := p.group.shadow
    let s := if egrEn old && !egrEn new then egrClassAtStop s n else s
    let up := egrUp s n
    s.modEgr n fun p =>
      let key := fun (w : Word) => (bit w 31, fld w 9 0)
      { p with
        group := p.group.apply,
        armed := egrEn new && (if egrEn old then p.armed else up && !p.retired),
        gapLast := Vector.ofFn fun i : Fin 16 =>
          if key old.gap[i.val] = key new.gap[i.val] then p.gapLast[i.val] else none }

/-- FRAME_BUILD (R314): the construction of the next fragment of the oldest unread entry starts in a free frame buffer, at the safe
point of a pending commit (R323). -/
def frameBuildEffect (n : Fin 4) (s : State) : State :=
  if egrDiscards s n || !egrCanStart s n || (getEgr s n).held.isEmpty then s
  else
    let s := egrApply n s
    match (getEgr s n).held with
    | [] => s
    | h :: r =>
      if egrDiscards s n then s
      else
        let (h, p) := beginLine (getEgr s n) h
        let f := buildFrame s n h
        s.modEgr n fun _ => { p with held := h :: r, frames := p.frames ++ [f] }

/-- The frame under construction is built: its payload is in the buffer. -/
def builtFrame (s : State) (h : Held) (f : Frame) : Frame :=
  if f.ready then f else { f with data := objRead s (heldObj s h) (fragOffset s h) (fragLen h), ready := true }

/-- PAYLOAD_READ_DONE (R315, R316): the payload of the frame under construction has been read, and the entry completes OK with its last
one; or a read ended uncorrectable. -/
def payloadReadEffect (n : Fin 4) (ecc : List Ecc) (s : State) : State :=
  let p := getEgr s n
  match p.held with
  | [] => s
  | h :: r =>
    if !egrBuilding p then s
    else if (fragWords s h ecc).any (isBad s) then poisonEntry s n h ecc
    else
      let t := (readFragment s h ecc).modEgr n fun p => { p with frames := p.frames.map (builtFrame s h) }
      if fragEntryLast h then endEntry t n h stOk else t.modEgr n fun p => { p with held := h.advance :: r }

/-- PSEQ of a class taken (R312). -/
def takePseq (p : Egr) (c : Fin 8) : Word × Egr := (p.pseq[c.val], { p with pseq := upd p.pseq c (· + 1) })

/-- FRAME_SEND (R309, R312, R317): the oldest built frame starts on the wire. -/
def frameSendEffect (n : Fin 4) (s : State) : State :=
  let p := getEgr s n
  if egrDiscards s n || p.wire.isSome then s
  else
    match p.frames with
    | [] => s
    | f :: r =>
      if !f.ready then s
      else
        let (q, p) := takePseq p f.cls
        s.modEgr n fun _ => { p with frames := r, wire := some (f, frameBytes f q s.time) }

/-- FRAME_SENT (R317): the frame on the wire has left. -/
def frameSentEffect (n : Fin 4) (s : State) : State :=
  match (getEgr s n).wire with
  | none => s
  | some (f, bytes) =>
    s.modEgr n fun p =>
      { p with wire := none, sent := some bytes, txBytes := p.txBytes + BitVec.ofNat 64 bytes.length,
               txFrames := p.txFrames + 1, txLines := if f.last then p.txLines + 1 else p.txLines }

/-- One frame counted as discarded, with its PSEQ (R312, R318). -/
def discardFrame (p : Egr) (c : Fin 8) : Egr := { (takePseq p c).2 with discFrames := p.discFrames + 1 }

/-- The next fragment of the oldest unread entry discarded (R318). -/
def discardFragment (n : Fin 4) (s : State) : State :=
  match (getEgr s n).held with
  | [] => s
  | h :: r =>
    let (h, p) := beginLine (getEgr s n) h
    let s := s.modEgr n fun _ => { discardFrame p h.cls with held := h.advance :: r }
    if fragEntryLast h then endEntry s n h stDiscarded else s

/-- FRAME_DISCARD (R318, R319): first the built frames in the buffers, then the fragments of the entries held, the one whose
construction was under way among them; an entry whose last frame is discarded completes with DISCARDED. A pending commit applies
before a fragment that is begun here (R323). -/
def frameDiscardEffect (n : Fin 4) (s : State) : State :=
  let p := getEgr s n
  if !egrDiscards s n || p.wire.isSome then s
  else
    match p.frames with
    | f :: r =>
      if f.ready then s.modEgr n fun p => { discardFrame p f.cls with frames := r }
      else discardFragment n (s.modEgr n fun p => { p with frames := r })
    | [] =>
      if p.held.isEmpty then s
      else
        let t := egrApply n s
        if egrDiscards t n then discardFragment n t else t

/-! ### The receive path (R320 to R322) -/

/-- The fields of a received frame after at most one 802.1Q tag. -/
structure RxFrame where
  tci : Option Nat
  etype : Nat
  rest : List Byte
  deriving DecidableEq, Repr

def parseFrame (b : List Byte) : RxFrame :=
  if ofBe ((b.drop 12).take 2) = 0x8100 then
    { tci := some (ofBe ((b.drop 14).take 2)), etype := ofBe ((b.drop 16).take 2), rest := b.drop 18 }
  else { tci := none, etype := ofBe ((b.drop 12).take 2), rest := b.drop 14 }

/-- The FCS agrees. -/
def fcsOk (b : List Byte) : Bool :=
  decide (4 ≤ b.length) && leAt b (b.length - 4) 4 == (crc32Eth (b.take (b.length - 4))).toNat

/-- The IEEE 1588 multicast addresses of R321. -/
def ptpMacs : List (List Byte) :=
  [[0x01, 0x1B, 0x19, 0, 0, 0], [0x01, 0x80, 0xC2, 0, 0, 0x0E], [0x01, 0x00, 0x5E, 0, 0x01, 0x81], [0x01, 0x00, 0x5E, 0, 0, 0x6B]]

/-- The PTP message of a frame, with its transport and source IP address (R321). -/
def ptpMessage (r : RxFrame) : Option (Nat × Nat × List Byte) :=
  if r.etype = 0x88F7 then some (1, 0, r.rest)
  else if r.etype = 0x0800 then
    let ip := r.rest.take 20
    let udp := r.rest.drop 20
    if byteAt ip 0 = 0x45 ∧ ipChecksum ip = 0 ∧ ofBe ((ip.drop 6).take 2) % 0x4000 = 0 ∧ byteAt ip 9 = 17 ∧
        ofBe ((udp.drop 2).take 2) = 319 ∧ 28 ≤ r.rest.length then
      some (2, ofLe ((ip.drop 12).take 4), udp.drop 8)
    else none
  else none

/-- The first 96 bytes of a PTP message, zero beyond the end that its messageLength states (DEDUCED; log entry 33). -/
def ptpBytes (m : List Byte) : List Byte :=
  ((m.take (ofBe ((m.drop 2).take 2))).take 96 ++ List.replicate 96 0).take 96

/-- One entry of the receive ring (R322). -/
def rxEntry (tick : Tick) (b : List Byte) (r : RxFrame) (tr ip : Nat) (m : List Byte) : List Byte :=
  leBytes 8 tick.toNat ++ leBytes 2 b.length ++ leBytes 1 (tr + if r.tci.isSome then 0x80 else 0) ++
    leBytes 1 ((byteAt m 0).toNat % 16) ++ leBytes 2 (r.tci.getD 0) ++ [0, 0] ++ ((b.drop 6).take 6) ++ [0, 0] ++
    leBytes 4 ip ++ [0, 0, 0, 0] ++ ptpBytes m

/-- A frame dropped with a reason (R321, R322). -/
def rxDropped (p : Egr) (r : Fin 6) : Egr := { p with rxDrop := upd p.rxDrop r (· + 1) }

/-- RECEIVE_FRAME (R320 to R322). -/
def receiveEffect (n : Fin 4) (b : List Byte) (s : State) : State :=
  if !egrUp s n then s
  else
    s.modEgr n fun p =>
      let r := parseFrame (b.take (b.length - 4))
      let g := p.group.active
      if ofBe ((b.drop 12).take 2) = 0x8808 then { p with cntPause := p.cntPause + 1, flags := p.flags.set 3 }
      else if !fcsOk b then rxDropped p 1
      else if b.length < 64 ∨ 9600 < b.length then rxDropped p 2
      else if !decide (b.take 6 = macOf g.srcMacHi g.srcMacLo ∨ b.take 6 ∈ ptpMacs) then rxDropped p 4
      else
        match ptpMessage r with
        | none => rxDropped p 4
        | some (tr, ip, m) =>
          if m.isEmpty || decide (3 < (byteAt m 0).toNat % 16) then rxDropped p 4
          else if p.rxPi - p.rxCi = 16 then { rxDropped p 5 with flags := p.flags.set 5 }
          else
            { p with rxRing := upd p.rxRing (Fin.ofNat 16 p.rxPi.toNat) fun _ => rxEntry s.time b r tr ip m,
                     rxPi := p.rxPi + 1, cntRxPtp := p.cntRxPtp + 1, flags := p.flags.set 4 }

/-- RX_CI_WRITE (R322): without effect beyond RX_PI. -/
def rxCiEffect (n : Fin 4) (ci : Byte) (s : State) : State :=
  s.modEgr n fun p => if (ci - p.rxCi).toNat ≤ (p.rxPi - p.rxCi).toNat then { p with rxCi := ci } else p

/-! ### Settings (R323) -/

/-- EGR_COMMIT_APPLY (R323): between packets, when the port holds no entry or starts the construction of a frame. -/
def egrCommitEffect (n : Fin 4) (s : State) : State :=
  if egrCanStart s n || (getEgr s n).held.isEmpty then egrApply n s else s

/-- EGR_CTRL.CNT_CLEAR. -/
def egrCntClearEffect (n : Fin 4) (s : State) : State :=
  s.modEgr n fun p =>
    { p with txBytes := 0, txFrames := 0, txLines := 0, discFrames := 0, discEntries := 0, entryErr := 0, cntPause := 0,
             cntOrder := 0, linkLoss := 0, cntRxPtp := 0, rxDrop := Vector.replicate 6 0 }

/-! ### Registers -/

/-- EGR_STAT; DISCARDING from release onward (R318). -/
def egrStat (s : State) (n : Fin 4) : Word :=
  let p := getEgr s n
  putB 0 (egrUp s n) ||| putB 1 p.armed ||| putB 2 p.retired ||| putB 3 p.fault.isSome |||
    put 4 (min ((p.fault.map (·.losses)).getD 0) 7) ||| putB 8 (pinsLive s && egrDiscards s n) ||| putB 9 p.blockLock |||
    putB 10 p.hiBer ||| putB 11 p.rxLocalFault ||| putB 12 p.rxRemoteFault

/-- Flags of a port that are set and enabled. -/
def egrPortAttn (p : Egr) : Bool := p.flags.raised p.flagEn

/-- EGR_ATTN_SUM. -/
def egrSum (s : State) : Word :=
  (allFin 4).foldl (fun w n => w ||| putB n.val (egrPortAttn (getEgr s n))) 0

/-- Reads of a port by offset. -/
def egrRead (s : State) (n : Fin 4) (off : Nat) : Word :=
  let p := getEgr s n
  let g := p.group.look
  if off = 0x000 then g.cfg
  else if off = 0x004 then g.srcMacLo
  else if off = 0x008 then g.srcMacHi
  else if off = 0x00C then g.srcIp
  else if off = 0x010 then g.srcUdp
  else if off = 0x030 then p.group.word
  else if off = 0x040 then egrStat s n
  else if off = 0x044 then p.faultSeq
  else if off = 0x080 then p.flags.word
  else if off = 0x084 then p.flagEn.setWidth 32
  else if 0x100 ≤ off ∧ off < 0x200 then
    let k := Fin.ofNat 8 ((off - 0x100) / 32)
    let c := g.cls[k.val]
    match off / 4 % 8 with
    | 0 => c.dstMacLo
    | 1 => c.dstMacHi
    | 2 => c.dstIp
    | 3 => c.cfg
    | 4 => c.vlan
    | 5 => p.pseq[k.val]
    | _ => 0
  else if 0x200 ≤ off ∧ off < 0x240 then g.gap[(Fin.ofNat 16 ((off - 0x200) / 4)).val]
  else if 0x240 ≤ off ∧ off < 0x280 then (p.gapLast[(Fin.ofNat 16 ((off - 0x240) / 4)).val]).getD 0
  else if off = 0x300 then p.txBytes.setWidth 32
  else if off = 0x304 then (p.txBytes >>> 32).setWidth 32
  else if off = 0x308 then p.txFrames
  else if off = 0x30C then p.txLines
  else if off = 0x310 then p.discFrames
  else if off = 0x314 then p.discEntries
  else if off = 0x318 then p.entryErr
  else if off = 0x31C then p.cntPause
  else if off = 0x320 then p.cntOrder
  else if off = 0x324 then p.linkLoss
  else if off = 0x328 then p.cntRxPtp
  else if off = 0x344 then p.rxDrop[1]
  else if off = 0x348 then p.rxDrop[2]
  else if off = 0x350 then p.rxDrop[4]
  else if off = 0x354 then p.rxDrop[5]
  else if 0x400 ≤ off ∧ off < 0xC00 then
    BitVec.ofNat 32 (leAt p.rxRing[(Fin.ofNat 16 ((off - 0x400) / 128)).val] (off % 128) 4)
  else if off = 0xC00 then put 0 p.rxPi.toNat ||| put 8 p.rxCi.toNat
  else if off = 0xFF0 then egrSum s
  else 0

/-- Writes of EGR_CTRL. -/
def egrCtrlWrite (n : Fin 4) (w : Word) (s : State) : State :=
  let s := if bit w 0 then egrReviveEffect n s else s
  let s := if bit w 1 then egrCntClearEffect n s else s
  gapResetEffect n (BitVec.ofNat 16 (fld w 31 16)) s

/-- A write of SH fields of a port. -/
def egrShadow (s : State) (n : Fin 4) (f : EgrGroup → EgrGroup) : State :=
  s.modEgr n fun p => { p with group := p.group.write f }

/-- Writes of a port by offset. -/
def egrWrite (n : Fin 4) (off : Nat) (w : Word) (s : State) : State :=
  if off = 0x000 then egrShadow s n fun g => { g with cfg := w &&& 0x00FF_0701 }
  else if off = 0x004 then egrShadow s n fun g => { g with srcMacLo := w }
  else if off = 0x008 then egrShadow s n fun g => { g with srcMacHi := w &&& 0xFFFF }
  else if off = 0x00C then egrShadow s n fun g => { g with srcIp := w }
  else if off = 0x010 then egrShadow s n fun g => { g with srcUdp := w &&& 0xFFFF }
  else if off = 0x030 then s.modEgr n fun p => { p with group := p.group.commitWrite w }
  else if off = 0x034 then egrCtrlWrite n w s
  else if off = 0x080 then s.modEgr n fun p => { p with flags := p.flags.clear w }
  else if off = 0x084 then s.modEgr n fun p => { p with flagEn := w.setWidth 6 }
  else if 0x100 ≤ off ∧ off < 0x200 then
    egrShadow s n fun g => { g with cls := upd g.cls (Fin.ofNat 8 ((off - 0x100) / 32)) fun c =>
      match off / 4 % 8 with
      | 0 => { c with dstMacLo := w }
      | 1 => { c with dstMacHi := w &&& 0xFFFF }
      | 2 => { c with dstIp := w }
      | 3 => { c with cfg := w &&& 0xFF3F_FFFF }
      | 4 => { c with vlan := w &&& 0x3FFF_FFFF }
      | _ => c }
  else if 0x200 ≤ off ∧ off < 0x240 then
    egrShadow s n fun g => { g with gap := upd g.gap (Fin.ofNat 16 ((off - 0x200) / 4)) fun _ => w &&& 0x8000_03FF }
  else if off = 0xC00 then rxCiEffect n (BitVec.ofNat 8 (fld w 15 8)) s
  else s

/-- Attention of EGR (R81). -/
def egrAttn (s : State) : Bool := (allFin 4).any fun n => egrPortAttn (getEgr s n)

/-! ### The commands -/

def execLinkUp (n : Fin 4) (s : State) : Out := onSys s (linkUpEffect n)
def execLinkDown (n : Fin 4) (rx : LinkRx) (s : State) : Out := onSys s (linkDownEffect n rx)
def execFrameBuild (n : Fin 4) (s : State) : Out := onSys s (frameBuildEffect n)
def execPayloadReadDone (n : Fin 4) (ecc : List Ecc) (s : State) : Out := onSys s (payloadReadEffect n ecc)
def execFrameSend (n : Fin 4) (s : State) : Out := onSys s (frameSendEffect n)
def execFrameSent (n : Fin 4) (s : State) : Out := onSys s (frameSentEffect n)
def execFrameDiscard (n : Fin 4) (s : State) : Out := onSys s (frameDiscardEffect n)
def execReceiveFrame (n : Fin 4) (bytes : List Byte) (s : State) : Out := onSys s (receiveEffect n bytes)
def execRxCiWrite (n : Fin 4) (ci : Byte) (s : State) : Out := onSys s (rxCiEffect n ci)
def execEgrLinkWindowEnd (n : Fin 4) (s : State) : Out := onSys s (egrWindowEndEffect n)
def execEgrRevive (n : Fin 4) (s : State) : Out := onSys s (egrReviveEffect n)
def execEgrCntClear (n : Fin 4) (s : State) : Out := onSys s (egrCntClearEffect n)
def execGapReset (n : Fin 4) (mask : BitVec 16) (s : State) : Out := onSys s (gapResetEffect n mask)
def execEgrCommitApply (n : Fin 4) (s : State) : Out := onSys s (egrCommitEffect n)

end Sys2Proof.Machine
end

