-- ==== Sys2Proof/Machine/Fsp.lean ====
section
/-! DEFINITION. The fabric streaming ports (13_fabric.md R372, R374 to R384). -/

namespace Sys2Proof.Machine

def getFsp (s : State) (p : Fin 8) : Fsp := s.fsp[p.val]

/-- One answer on RESP: answers other than OK are counted (chapter 13). -/
def fspAnswer (s : State) (p : Fin 8) (a : FspAnswer) (hg : Option (Fin 2048 × BitVec 7)) : State :=
  s.modFsp p fun f => { f with resp := some (a, hg), cntRefuse := if a = .ok then f.cntRefuse else f.cntRefuse + 1 }

/-- The Page Warden's answer as the port gives it. -/
def fspCode : PwCode → FspAnswer
  | .ok => .ok
  | .refused => .refused
  | .stale => .stale
  | .refFull => .refFull
  | .poison => .poison

/-- The port's table holds a reference to the object (R375). -/
def holdsRef (s : State) (p : Fin 8) (h : Fin 2048) (g : BitVec 7) : Bool := decide ((h, g) ∈ (getFsp s p).refs)

/-- The object was allocated by the port: class FABRIC with the port as owner (R256, R376). -/
def ownedBy (e : MapEntry) (p : Fin 8) : Bool := e.cls == .fabric && e.owner.val == p.val

/-- A command of a port that operates; the others are not taken. -/
def fspCmd (s : State) (p : Fin 8) (f : State → State) : State := if fspReady s p then f s else s

/-- The port's table can take no further reference (R375). -/
def tableFull (s : State) (p : Fin 8) : Bool := decide (512 ≤ (getFsp s p).refs.length)

/-- FSP_TAKE (R374, R375): an offered entry is taken, and its reference enters the table. One that finds the table full stays offered,
which the manual does not state (DESIGN CHOICE; log entry 102). -/
def fspTakeEffect (p : Fin 8) (r : Fin 1024) (i : BitVec 16) (s : State) : State :=
  fspCmd s p fun s =>
    match findTaken s r i with
    | none => s
    | some t =>
      if t.cons == .fabric p && t.offered && t.verdict == 0 && (t.ref.isNone || !tableFull s p) then
        let s := s.modQe fun q => { q with taken := q.taken.map fun u =>
          if u.ring == r && u.idx == i then { u with offered := false } else u }
        match t.ref with
        | some hg => s.modFsp p fun f => { f with refs := f.refs ++ [hg] }
        | none => s
      else s

/-- FSP_ALLOC (R376): TAGS when the port's partition has none free, before the Page Warden is asked. -/
def fspAllocEffect (p : Fin 8) (n : Nat) (stride : BitVec 9) (s : State) : State :=
  fspCmd s p fun s =>
    if !tagFree s (.fabric p) then fspAnswer s p .tags none
    else
      let owner := Fin.ofNat 16 p.val
      match pwAlloc (pwTurn s (.alloc (.fabric p) .fabric owner n stride)) .fabric owner n stride with
      | (none, s) => fspAnswer s p .refused none
      | (some hg, s) =>
        let s := s.modFsp p fun f => { f with allocTags := f.allocTags ++ [hg] }
        let s := if tagFree s (.fabric p) then s else clearTurns s (.fabric p)
        fspAnswer s p .ok (some hg)

/-- FSP_ADDREF (R375, R376). -/
def fspAddrefEffect (p : Fin 8) (h : Fin 2048) (g : BitVec 7) (s : State) : State :=
  fspCmd s p fun s =>
    if !holdsRef s p h g then fspAnswer s p .noref none
    else if tableFull s p then fspAnswer s p .limit none
    else
      let (c, s) := pwAddref (pwTurn s (.addref (.fabric p) h g)) h g
      let s := if c = .ok then s.modFsp p fun f => { f with refs := f.refs ++ [(h, g)] } else s
      fspAnswer s p (fspCode c) none

/-- FSP_RELEASE (R375, R376). -/
def fspReleaseEffect (p : Fin 8) (h : Fin 2048) (g : BitVec 7) (s : State) : State :=
  fspCmd s p fun s =>
    if !holdsRef s p h g then fspAnswer s p .noref none
    else
      let (c, s) := pwRelease s h g
      let s := if c = .ok then s.modFsp p fun f => { f with refs := f.refs.erase (h, g) } else s
      fspAnswer s p (fspCode c) none

/-- An operation on an object the port allocated: STALE, then NOTOWN, then the Page Warden's answer (R376). -/
def fspOwn (s : State) (p : Fin 8) (h : Fin 2048) (g : BitVec 7) (f : State → State) : State :=
  match objOf s h g with
  | none => fspAnswer (pwStale s) p .stale none
  | some e => if ownedBy e p then f s else fspAnswer s p .notown none

/-- FSP_SEAL (R376). A table that is full can take no reference, and the answer is REFUSED, which the manual does not state (DESIGN
CHOICE; log entry 102). -/
def fspSealEffect (p : Fin 8) (h : Fin 2048) (g : BitVec 7) (s : State) : State :=
  fspCmd s p fun s => fspOwn (pwTurn s (.seal (.fabric p) h g)) p h g fun s =>
    if tableFull s p then fspAnswer s p .refused none
    else
      let (c, s) := pwSeal s h g
      let s := if c = .ok then s.modFsp p fun f => { f with refs := f.refs ++ [(h, g)] } else s
      fspAnswer s p (fspCode c) none

/-- The tag of an object the port allocated is free again (R288). -/
def freeAllocTag (s0 : State) (p : Fin 8) (hg : Fin 2048 × BitVec 7) : State :=
  afterTagFreed s0 (s0.modFsp p fun f => { f with allocTags := f.allocTags.erase hg }) (.fabric p)

/-- FSP_ABANDON (R376). -/
def fspAbandonEffect (p : Fin 8) (h : Fin 2048) (g : BitVec 7) (s : State) : State :=
  fspCmd s p fun s => fspOwn s p h g fun s =>
    let (c, s) := pwAbandon s h g
    let s := if c = .ok then freeAllocTag s p (h, g) else s
    fspAnswer s p (fspCode c) none

/-- A burst the port can ask: 1 to 256 beats from a multiple of 32 (R376). -/
def burstOk (o beats : Nat) : Bool := decide (1 ≤ beats ∧ beats ≤ 256) && o % 32 == 0

/-- One beat of a READ (R377), its four code words read one after the other; a POISON beat carries the data as the last read of each
word delivers it (R252). -/
def readBeat (s : State) (e : MapEntry) (o : Nat) (eccs : List Ecc) : (BeatStatus × List Byte) × State :=
  if (objAddr e o).isNone then ((.range, List.replicate 32 0), pwRange s)
  else
    let ws := objWords e o 32 eccs
    ((if ws.any (isBad s) then .poison else .ok, ws.flatMap fun x => codeBytes s x.1 x.2), eccReads none ws s)

/-- The beats of a READ in order. -/
def readBeats (e : MapEntry) : Nat → Nat → List Ecc → State → List (BeatStatus × List Byte) × State
  | 0, _, _, s => ([], s)
  | n + 1, o, eccs, s =>
    let (b, s) := readBeat s e o eccs
    let (bs, s) := readBeats e n (o + 32) (eccs.drop 4) s
    (b :: bs, s)

/-- FSP_READ (R376, R377). -/
def fspReadEffect (p : Fin 8) (h : Fin 2048) (g : BitVec 7) (o beats : Nat) (ecc : List Ecc) (s : State) : State :=
  fspCmd s p fun s =>
    if !burstOk o beats then s
    else if !holdsRef s p h g then fspAnswer s p .noref none
    else
      match objOf s h g with
      | none => fspAnswer (pwStale s) p .stale none
      | some e =>
        let (bs, s) := readBeats e beats o ecc s
        fspAnswer (s.modFsp p fun f => { f with rdata := bs, cntBeats := f.cntBeats + BitVec.ofNat 32 beats }) p .ok none

/-- The beats of a WRITE in order: one beyond the object has no effect and is counted (R255). -/
def writeBeats (e : MapEntry) : Nat → Nat → List Byte → State → State
  | 0, _, _, s => s
  | n + 1, o, data, s =>
    let beat := (data.take 32 ++ List.replicate 32 0).take 32
    let s := if (objAddr e o).isSome then objWrite s e o beat else pwRange s
    writeBeats e n (o + 32) (data.drop 32) s

/-- FSP_WRITE (R376): into an object the port allocated, still WRITING. -/
def fspWriteEffect (p : Fin 8) (h : Fin 2048) (g : BitVec 7) (o beats : Nat) (data : List Byte) (s : State) : State :=
  fspCmd s p fun s =>
    if !burstOk o beats then s
    else fspOwn s p h g fun s =>
      if (getObj s h).st = .writing then
        let s := writeBeats (getObj s h) beats o data s
        fspAnswer (s.modFsp p fun f => { f with cntBeats := f.cntBeats + BitVec.ofNat 32 beats }) p .ok none
      else fspAnswer s p .notown none

/-- FSP_POST (R376): NOTRING, then NOREF, then FULL. -/
def fspPostEffect (p : Fin 8) (r : Fin 1024) (entry : List Byte) (s : State) : State :=
  fspCmd s p fun s =>
    let a := (getRing s r).group.active
    let e := (entry ++ List.replicate 32 0).take 32
    let mgmt := isMgmtRing a
    if ringProdKind r a != 4 || ringProdInst r a != p.val then fspAnswer s p .notring none
    else
      let ref := entryRef r mgmt e
      if (ref.map fun hg => !holdsRef s p hg.1 hg.2).getD false then fspAnswer s p .noref none
      else
        match ringPost s r e with
        | (false, s) => fspAnswer s p .full none
        | (true, s) =>
          let s := match ref with
            | some hg => s.modFsp p fun f => { f with refs := f.refs.erase hg }
            | none => s
          let obj := if mgmt then (mdHandle e, mdGen e) else (odHandle e, odGen e)
          let s := if (mgmt && mdInline e) || !decide (obj ∈ (getFsp s p).allocTags) then s else freeAllocTag s p obj
          fspAnswer s p .ok none

/-- FSP_COMPLETE (R376, R381): LATE for an entry that is no longer held. -/
def fspCompleteEffect (p : Fin 8) (r : Fin 1024) (i : BitVec 16) (status : Byte) (s : State) : State :=
  fspCmd s p fun s =>
    match findTaken s r i with
    | some t =>
      if t.cons == .fabric p && !t.offered then fspAnswer (completeEntry s t status none) p .ok none
      else fspAnswer (countLate s) p .late none
    | none => fspAnswer (countLate s) p .late none

/-- A reconfiguration (R268, R301, R380): entries held complete with DISCARDED, objects still WRITING are abandoned, and
every reference is released. -/
def fspReconfigure (s : State) (p : Fin 8) : State :=
  let mine := s.qe.taken.filter fun t => t.cons == .fabric p
  let s := forEach mine (fun t s => completeEntry s t stDiscarded (if t.offered then t.ref else none)) s
  let writing := (allFin 2048).filter fun h => (getObj s h).st == .writing && ownedBy (getObj s h) p
  let s := forEach writing (fun h s => (pwAbandon s h (getObj s h).gen).2) s
  let s := forEach (getFsp s p).refs (fun hg s => (pwRelease s hg.1 hg.2).2) s
  let s0 := s
  afterTagFreed s0 (s.modFsp p fun f => { f with refs := [], allocTags := [] }) (.fabric p)

/-- The interface parameters of the image in the latches (R371, R372). -/
def fspLoadImage (s : State) (p : Fin 8) : State :=
  let sig := imageSig s
  s.modFsp p fun f =>
    { f with used := Config.fspUsed sig p.val, clkBad := Config.fspClkBad sig p.val, net := Config.fspNet sig p.val }

/-! ### What fabric logic observes (R379) -/

/-- STROBE, EXPOSE and PRETRIG of a sequencer, as levels that reach the fabric. -/
def fabricTsq (s : State) (n : Fin 16) : Bool × Bool × Bool :=
  let t := getTsq s n
  (t.strobe.active, exposeActive s n, t.pretrig.active)

/-- LOCKED and RETIRED of a channel. -/
def fabricCap (s : State) (n : Fin 16) : Bool × Bool := (unitLocked s n, (getCap s n).retired)

/-- Reads of a port's registers in the PW block. -/
def fspRegRead (s : State) (p : Fin 8) (i : Nat) : Word :=
  let f := getFsp s p
  match i with
  | 0 => putB 0 f.used ||| putB 1 (f.used && fspClkBad s p) ||| put 2 f.net.val ||| putB 8 (fspIsolated s p)
  | 1 => put 0 f.refs.length
  | 2 => f.cntRefuse
  | 3 => f.cntBeats
  | _ => 0

/-! ### The commands -/

def execFspTake (p : Fin 8) (r : Fin 1024) (i : BitVec 16) (s : State) : Out := onSys s (fspTakeEffect p r i)
def execFspAlloc (p : Fin 8) (n : Nat) (stride : BitVec 9) (s : State) : Out := onSys s (fspAllocEffect p n stride)
def execFspAddref (p : Fin 8) (h : Fin 2048) (gen : BitVec 7) (s : State) : Out := onSys s (fspAddrefEffect p h gen)
def execFspRelease (p : Fin 8) (h : Fin 2048) (gen : BitVec 7) (s : State) : Out := onSys s (fspReleaseEffect p h gen)
def execFspSeal (p : Fin 8) (h : Fin 2048) (gen : BitVec 7) (s : State) : Out := onSys s (fspSealEffect p h gen)
def execFspAbandon (p : Fin 8) (h : Fin 2048) (gen : BitVec 7) (s : State) : Out := onSys s (fspAbandonEffect p h gen)
def execFspRead (p : Fin 8) (h : Fin 2048) (gen : BitVec 7) (o beats : Nat) (ecc : List Ecc) (s : State) : Out :=
  onSys s (fspReadEffect p h gen o beats ecc)
def execFspWrite (p : Fin 8) (h : Fin 2048) (gen : BitVec 7) (o beats : Nat) (data : List Byte) (s : State) : Out :=
  onSys s (fspWriteEffect p h gen o beats data)
def execFspPost (p : Fin 8) (r : Fin 1024) (entry : List Byte) (s : State) : Out := onSys s (fspPostEffect p r entry)
def execFspComplete (p : Fin 8) (r : Fin 1024) (i : BitVec 16) (status : Byte) (s : State) : Out :=
  onSys s (fspCompleteEffect p r i status)

end Sys2Proof.Machine
end

