-- ==== Sys2Proof/Machine/CfgStream.lean ====
section
/-! DEFINITION. The configuration controller (14_configuration_images.md R386 to R420): the Azpor stream packet by packet, the
writing of a slot, and the slot commands. -/

namespace Sys2Proof.Machine

/-! ### Slots and headers -/

/-- IDCODE of the device (MP_ID). -/
def idcodeWord : Word := 0x0161_0B47

def getNv (s : State) (b : Fin 3) : NvSlot := s.cfg.slots[b.val]

def modSlotNv (s : State) (b : Fin 3) (f : NvSlot → NvSlot) : State :=
  s.modCfg fun c => { c with slots := upd c.slots b f }

/-- Checks 2 to 4 of R400 on a header's fields. -/
def headerFits (h : Header) : Bool := h.idcode &&& 0x0FFF_FFFF == idcodeWord &&& 0x0FFF_FFFF && h.version == 1 && h.compat == 1

def nvStateNo : NvState → BitVec 2
  | .empty => 0
  | .incomplete => 1
  | .valid => 2

/-- What the slot registers show of a header read now (chapter 14, "Register reference"). -/
def slotView (n : NvSlot) : SlotView :=
  { st := nvStateNo n.st, hdrBad := n.st != .empty && !(n.hdrCrcOk && headerFits n.hdr),
    hdr := if n.st = .empty then Header.init else n.hdr }

/-- The slot registers of slot b updated (R391). -/
def refreshView (s : State) (b : Fin 3) : State := s.modCfg fun c => { c with views := upd c.views b fun _ => slotView (getNv s b) }

/-- The header that the packets of a stream have given (R397). -/
def parsedHeader (p : Parse) : Header :=
  { seq := p.seq, idcode := p.idcode, version := BitVec.ofNat 8 (fld p.verWord 31 24), compat := BitVec.ofNat 8 (fld p.verWord 7 0),
    ztab := p.ztab, sig := p.sig }

/-- The latched life-cycle state is SCRAPPED (R124). -/
def scrapped (s : State) : Bool := s.lcs.latched == lcScrapped

/-! ### Where the controller stands -/

/-- The controller takes bytes from release, or from the failure of configuration, onward (R85). -/
def cfgRuns (s : State) : Bool := s.sys.phase == .released || s.sys.phase == .failed

/-- A stream is open: its sync word was found and it has not ended. -/
def streamOpen (s : State) : Bool :=
  s.cfg.phase == .header || s.cfg.phase == .erasing || s.cfg.phase == .frames || s.cfg.phase == .finishing

/-- A write is running: past BEGIN and not ended (R401). -/
def writeRuns (s : State) : Bool := s.cfg.phase == .erasing || s.cfg.phase == .frames || s.cfg.phase == .finishing

/-- The controller is halted after a failed stream (R404). -/
def cfgHalted (s : State) : Bool := s.cfg.phase == .failed

/-- The controller looks for the sync word (R396, R404). -/
def searching (s : State) : Bool := s.cfg.phase == .search || s.cfg.phase == .done

/-- Frame registers that hold no whole frame (R395). -/
def freeRegisters (p : Parse) : Nat := if !p.queued.isEmpty then 0 else if p.current.isSome then 1 else 2

/-- Bytes at the front of the buffer that have moved into the frame registers, which fill while a frame is programmed (R395). -/
def inRegisters (s : State) : Nat :=
  let p := s.cfg.parse
  if s.cfg.phase = .frames then min s.mp.buffer.length (388 * min (freeRegisters p) p.framesLeft) else 0

/-- STREAM_STAT.FREE. -/
def streamFree (s : State) : Nat := 4096 - (s.mp.buffer.length - inRegisters s)

/-- The output PC_BUSY (R393, R394). -/
def pcBusy (s : State) : Bool := !s.cfg.pcpEn || held s || decide (streamFree s < 32)

/-- STREAM_STAT.BUSY (chapter 03, R404). -/
def streamBusy (s : State) : Bool := streamOpen s || cfgHalted s || !s.mp.buffer.isEmpty

/-- The target slot of the stream, none for SLOT 3 (R400). -/
def targetSlot (s : State) : Option (Fin 3) :=
  if s.cfg.target.toNat < 3 then some (Fin.ofNat 3 s.cfg.target.toNat) else none

/-- Slot b is BUSY: a write or a command runs on it (R391). -/
def slotBusy (s : State) (b : Fin 3) : Bool :=
  (writeRuns s && targetSlot s == some b) ||
    match s.cfg.cmd with
    | some (.invalidate, n) => n.toNat == b.val
    | some (.erase, n) => n.toNat == b.val
    | _ => false

/-! ### The buffer -/

def syncBytes : List Byte := [0xD3, 0xA7, 0x0C, 0x5E]

/-- Bytes before the sync word discarded: what is left begins with it, or with a part of it that may still be completed. -/
def trimSearch : List Byte → List Byte
  | [] => []
  | b :: r => if ((b :: r).take 4).isPrefixOf syncBytes then b :: r else trimSearch r

/-- n bytes taken from the front of the buffer. -/
def dropFront (n : Nat) (m : Mp) : Mp :=
  { m with buffer := m.buffer.drop n, losses := m.losses.filterMap fun p => if p < n then none else some (p - n) }

/-- The buffer emptied. -/
def emptyBuffer (m : Mp) : Mp := { m with buffer := [], losses := [] }

/-- What the controller discards of the buffer by itself: all of it while halted, counted (R404), and while searching the bytes that
cannot begin the sync word (R396); a loss before them concerns no stream. -/
def discardIdle (s : State) : State :=
  if cfgHalted s then (s.modCfg fun c => { c with cntDisc := c.cntDisc + BitVec.ofNat 32 s.mp.buffer.length }).modMp emptyBuffer
  else if searching s then
    s.modMp fun m =>
      let m := dropFront (m.buffer.length - (trimSearch m.buffer).length) m
      { m with losses := m.losses.filter (· != 0) }
  else s

/-- The stream fails: the slot past BEGIN stays INCOMPLETE and the controller is halted (R400, R402, R404). -/
def cfgFail (s : State) (r : WReason) : State :=
  let s := match targetSlot s with
    | some b => if writeRuns s then refreshView s b else s
    | none => s
  let s := s.modCfg fun c => { c with phase := .failed, reason := r, flags := c.flags.set 1 }
  if cfgRuns s then discardIdle s else s

/-- The open stream ends early: ABORTED, at the end of the erase when one is in progress (R402, R411). -/
def endEarly (s : State) : State :=
  if s.cfg.phase = .erasing then s.modCfg fun c => { c with parse := { c.parse with aborting := true } }
  else if streamOpen s then cfgFail s .aborted
  else s

/-! ### Packets (R396 to R399) -/

inductive Pkt where
  | nop | idc | seq | len | ztab | sig | ctl | faddr | fdata | end_
  deriving DecidableEq, Repr

/-- REG and the COUNT it accepts (R397); none for a header that is no packet. -/
def pktOf (w : Word) : Option Pkt :=
  let n := fld w 23 0
  match fld w 31 29, fld w 28 24 with
  | 0, 0 => if n = 0 then some .nop else none
  | 1, 1 => if n = 1 then some .faddr else none
  | 1, 2 => if n % 97 = 0 ∧ 97 ≤ n then some .fdata else none
  | 1, 3 => if n = 1 then some .ctl else none
  | 1, 4 => if n = 2 then some .idc else none
  | 1, 5 => if n = 2 then some .seq else none
  | 1, 6 => if n = 8 then some .sig else none
  | 1, 7 => if n = 8 then some .ztab else none
  | 1, 8 => if n = 1 then some .len else none
  | 1, 9 => if n = 1 then some .end_ else none
  | _, _ => none

/-- Data words taken with the packet header; the frames of FDATA follow one by one. -/
def pktWords (k : Pkt) (w : Word) : Nat :=
  match k with
  | .fdata => 0
  | .nop => 0
  | _ => fld w 23 0

/-- The packet header at the front of the buffer, when the controller is taking packets. -/
def frontHeader (s : State) : Option Word :=
  if cfgRuns s && (s.cfg.phase == .header || s.cfg.phase == .frames) && s.cfg.parse.framesLeft == 0 &&
      decide (4 ≤ s.mp.buffer.length) then some (BitVec.ofNat 32 (ofBe (s.mp.buffer.take 4)))
  else none

/-- n bytes taken from the buffer into the stream's running check, unless they belong to END. -/
def consume (s : State) (n : Nat) (check : Bool) : State :=
  let bs := s.mp.buffer.take n
  let s := s.modMp (dropFront n)
  if check then s.modCfg fun c => { c with parse := { c.parse with crcBytes := c.parse.crcBytes ++ bs } } else s

/-- The open stream has reached a byte that was discarded: what stands before it makes no whole packet or frame, or the controller takes
none now. -/
def lossReached (s : State) : Bool :=
  match s.mp.losses with
  | [] => false
  | p :: _ =>
    match s.cfg.phase with
    | .erasing | .finishing => true
    | .header | .frames =>
      if s.cfg.parse.framesLeft ≠ 0 then decide (p < 388) && s.cfg.parse.queued.isEmpty
      else
        let w := BitVec.ofNat 32 (ofBe (s.mp.buffer.take 4))
        decide (p < 4) || match pktOf w with
          | some k => decide (p < 4 + 4 * pktWords k w)
          | none => false
    | _ => false

/-- A stream that has reached a discarded byte ends early (R86, R88). -/
def lossCheck (s : State) : State :=
  if lossReached s then endEarly (s.modMp fun m => { m with losses := m.losses.tail }) else s

/-- The controller as it stands by itself: what it discards, and the end of a stream that has reached a discarded byte. -/
def settle (s : State) : State := if cfgRuns s then lossCheck (discardIdle s) else s

/-- The packet at the front taken when it is of kind k and whole; a header that is no packet is a FORMAT error (R397). -/
def takePacket (k : Pkt) (act : State → List Word → State) (s : State) : State :=
  match frontHeader s with
  | none => s
  | some w =>
    match pktOf w with
    | none => cfgFail (consume s 4 false) .format
    | some k' =>
      let n := 4 + 4 * pktWords k w
      if k' ≠ k ∨ s.mp.buffer.length < n then s
      else lossCheck (act (consume s n (k != .end_)) (beWords ((s.mp.buffer.take n).drop 4)))

/-- A packet that the grammar of R398 allows only at one stage of the header. -/
def headerPacket (stage : Nat) (f : Parse → List Word → Parse) (s : State) (ws : List Word) : State :=
  if s.cfg.phase = .header ∧ s.cfg.parse.stage = stage then
    s.modCfg fun c => { c with parse := { f c.parse ws with stage := stage + 1 } }
  else cfgFail s .format

/-- Eight words of a packet. -/
def eight (ws : List Word) : Vector Word 8 := Vector.ofFn fun i => ws.getD i.val 0

/-- SYNC_WORD (R396). -/
def syncWordEffect (s : State) : State :=
  let s := settle s
  if cfgRuns s && searching s && s.mp.buffer.take 4 == syncBytes then
    lossCheck ((s.modMp (dropFront 4)).modCfg fun c =>
      { c with phase := .header, reason := .none, parse := { Parse.init with stage := 1, crcBytes := syncBytes } })
  else s

def nopEffect (s : State) : State := takePacket .nop (fun s _ => s) s

def idcEffect (s : State) : State :=
  takePacket .idc (headerPacket 1 fun p ws => { p with idcode := ws.getD 0 0, verWord := ws.getD 1 0 }) s

/-- SEQ (R397): the sequence number and the target slot. -/
def seqEffect (s : State) : State :=
  takePacket .seq (fun s ws =>
    let s := headerPacket 2 (fun p ws => { p with seq := ws.getD 0 0, target := ws.getD 1 0 }) s ws
    if s.cfg.phase = .header then s.modCfg fun c => { c with target := BitVec.ofNat 3 (fld (ws.getD 1 0) 1 0) } else s) s

def lenEffect (s : State) : State := takePacket .len (headerPacket 3 fun p ws => { p with len := ws.getD 0 0 }) s
def ztabEffect (s : State) : State := takePacket .ztab (headerPacket 4 fun p ws => { p with ztab := eight ws }) s
def sigEffect (s : State) : State := takePacket .sig (headerPacket 5 fun p ws => { p with sig := eight ws }) s

/-! ### BEGIN and the checks of R400 -/

def zEn (w : Word) : Bool := bit w 31
def zFirst (w : Word) : Nat := fld w 23 16
def zLast (w : Word) : Nat := fld w 7 0

/-- Check 9 of R400. -/
def zonesFit (zt : Vector Word 8) : Bool :=
  let on := (allFin 8).filter fun z => zEn zt[z.val]
  on.all fun z =>
    let w := zt[z.val]
    decide (zFirst w ≤ zLast w ∧ zLast w ≤ 199) && !decide (zFirst w ≤ 100 ∧ 99 ≤ zLast w) &&
      on.all fun y => y == z || decide (zLast zt[y.val] < zFirst w) || decide (zLast w < zFirst zt[y.val])

/-- A command runs on the target of the stream. -/
def commandOn (s : State) : Bool := match targetSlot s with | some b => slotBusy s b | none => false

/-- The first check of R400 that fails, if one does. -/
def beginFails (s : State) : Option WReason :=
  let p := s.cfg.parse
  let h := parsedHeader p
  if scrapped s then some .scrapped
  else if h.idcode &&& 0x0FFF_FFFF ≠ idcodeWord &&& 0x0FFF_FFFF then some .idcode
  else if h.version ≠ 1 then some .version
  else if h.compat ≠ 1 then some .compat
  else
    match targetSlot s with
    | none => some .slot
    | some b =>
      if bootedSlot s = some b ∨ commandOn s then some .active
      else if b = 0 ∧ !s.cfg.goldenWe then some .protect
      else if p.len.toNat ≠ imageFrames then some .length
      else if !zonesFit p.ztab then some .zones
      else none

/-- A CTL packet with command v taken; another value than 0, 1 or 2 is a FORMAT error (R399). -/
def takeCtl (v : Nat) (act : State → State) (s : State) : State :=
  let d := ofBe ((s.mp.buffer.take 8).drop 4)
  match frontHeader s with
  | some w =>
    if pktOf w = some .ctl ∧ 8 ≤ s.mp.buffer.length ∧ d ≤ 2 ∧ d ≠ v then s
    else takePacket .ctl (fun s ws => if (ws.getD 0 0).toNat = v then act s else cfgFail s .format) s
  | none => s

/-- BEGIN (R400, R401): the header is checked, and the target slot is BUSY and no longer VALID (R392). -/
def beginEffect (s : State) : State :=
  takeCtl 1 (fun s =>
    if s.cfg.phase = .header ∧ s.cfg.parse.stage = 6 then
      match beginFails s, targetSlot s with
      | some r, _ => cfgFail s r
      | none, some b =>
        (modSlotNv s b fun n => { n with st := .incomplete }).modCfg fun c =>
          { c with phase := .erasing, frames := 0, parse := { c.parse with expected := some 0 } }
      | none, none => s
    else cfgFail s .format) s

/-- CTL_ABORT (R398). -/
def ctlAbortEffect (s : State) : State := takeCtl 2 endEarly s

/-- CTL_NOP (R399): no effect. -/
def ctlNopEffect (s : State) : State := takeCtl 0 id s

/-! ### Frames (R395, R398, R401 to R403) -/

/-- ERASING_DONE (R401, R403, R411). Where R411 leaves the slot EMPTY or INCOMPLETE, a free value chooses. -/
def erasingDoneEffect (ok : Bool) (s : State) : State :=
  match targetSlot s with
  | none => s
  | some b =>
    if s.cfg.phase ≠ .erasing then s
    else
      let aborted := s.cfg.parse.aborting
      let s := modSlotNv s b fun n => { n with writes := satInc n.writes, frames := [], hdrCrcOk := false, hdr := Header.init }
      if !ok then
        let s := recordFault s { perm := true, blk := blkCfg, kind := 2, inst := b.val }
        cfgFail (s.modCfg fun c => { c with flags := c.flags.set 4 }) (if aborted then .aborted else .program)
      else if aborted then
        let empty := freeValue s % 2 == 0
        cfgFail (modSlotNv s.freeStep b fun n => { n with st := if empty then .empty else .incomplete }) .aborted
      else
        let h := parsedHeader s.cfg.parse
        lossCheck ((modSlotNv s b fun n => { n with hdr := h, hdrCrcOk := true }).modCfg fun c =>
          { c with phase := .frames, parse := { c.parse with stage := 6 } })

/-- FADDR (R398): it must hold the expected address, and FDATA must follow it. -/
def faddrEffect (s : State) : State :=
  takePacket .faddr (fun s ws =>
    if s.cfg.phase ≠ .frames ∨ s.cfg.parse.stage ≠ 6 then cfgFail s .format
    else if s.cfg.parse.expected = some (ws.getD 0 0) then s.modCfg fun c => { c with parse := { c.parse with stage := 7 } }
    else cfgFail s .order) s

/-- FDATA (R397): the frames of the packet follow. -/
def fdataEffect (s : State) : State :=
  let n := fld (BitVec.ofNat 32 (ofBe (s.mp.buffer.take 4))) 23 0 / 97
  takePacket .fdata (fun s _ =>
    if s.cfg.phase ≠ .frames then cfgFail s .format
    else s.modCfg fun c => { c with parse := { c.parse with framesLeft := n, fdataSeen := true, stage := 6 } }) s

/-- FRAME_ARRIVAL (R389, R395, R401, R402): one whole frame into a frame register. -/
def frameArrivalEffect (s : State) : State :=
  let p := s.cfg.parse
  if s.cfg.phase = .frames ∧ p.framesLeft ≠ 0 ∧ 388 ≤ s.mp.buffer.length ∧ p.queued.isEmpty then
    let data := s.mp.buffer.take 384
    let ws := beWords (s.mp.buffer.take 388)
    let s := consume s 388 true
    match p.expected with
    | none => cfgFail s .count
    | some a =>
      if crc32c data ≠ ws.getD 96 0 then cfgFail s .frameCrc
      else
        let f : CfgFrame := { addr := a, words := ws }
        lossCheck (s.modCfg fun c =>
          let p := { c.parse with framesLeft := c.parse.framesLeft - 1, framesTaken := c.parse.framesTaken + 1,
                                  expected := nextFrame a }
          { c with parse := if p.current.isNone then { p with current := some f, attempt := 0 } else { p with queued := [f] } })
  else s

/-- The frame register that waits begins its programming. -/
def nextRegister (p : Parse) : Parse :=
  match p.queued with
  | [] => { p with current := none, attempt := 0 }
  | f :: r => { p with current := some f, queued := r, attempt := 0 }

/-- FRAME_PROGRAM_DONE (R401, R403): one attempt and its read-back. -/
def frameProgramDoneEffect (ok : Bool) (s : State) : State :=
  match s.cfg.parse.current, targetSlot s with
  | some f, some b =>
    if !writeRuns s then s
    else
      let p := s.cfg.parse
      let record := fun (perm : Bool) (s : State) =>
        (recordFault s { perm := perm, blk := blkCfg, kind := 1, inst := b.val, retries := p.attempt, d0 := f.addr }).modCfg
          fun c => { c with flags := c.flags.set 4 }
      if ok then
        let s := if p.attempt = 0 then s else record false s
        lossCheck ((modSlotNv s b fun n => { n with frames := n.frames ++ [f] }).modCfg fun c =>
          { c with frames := c.frames + 1, parse := nextRegister c.parse })
      else if 2 ≤ p.attempt then cfgFail (record true s) .program
      else s.modCfg fun c => { c with parse := { c.parse with attempt := c.parse.attempt + 1 } }
  | _, _ => s

/-! ### END (R401, R402) -/

/-- END (R401): the stream's CRC is supplied and PHASE is FINISHING. -/
def endEffect (s : State) : State :=
  takePacket .end_ (fun s ws =>
    if s.cfg.phase ≠ .frames ∨ s.cfg.parse.stage ≠ 6 ∨ !s.cfg.parse.fdataSeen then cfgFail s .format
    else s.modCfg fun c =>
      { c with phase := .finishing,
               parse := { c.parse with endCrc := some (ws.getD 0 0), endCrcWant := crc32c c.parse.crcBytes } }) s

/-- The 384 data bytes of a frame in stream order. -/
def cfgFrameBytes (f : CfgFrame) : List Byte := (f.words.take 96).flatMap fun w => beBytes 4 w.toNat

/-- The zones that a header declares hold column c. -/
def headerZone (zt : Vector Word 8) (c : Nat) : Bool := zt.toList.any fun w => zEn w && decide (zFirst w ≤ c ∧ c ≤ zLast w)

/-- The signature of an image (R390): SHA-256 over its static frames. -/
def imageSignature (n : NvSlot) : List Word :=
  beWords (sha256 ((n.frames.filter fun f => faBlock f.addr == 0 && !headerZone n.hdr.ztab (faColumn f.addr)).flatMap cfgFrameBytes))

/-- FINISHING_DONE (R401, R402): after END and the last frame. -/
def finishingDoneEffect (s : State) : State :=
  match targetSlot s with
  | none => s
  | some b =>
    let p := s.cfg.parse
    if s.cfg.phase ≠ .finishing ∨ p.current.isSome then s
    else if p.framesTaken ≠ imageFrames then cfgFail s .count
    else if p.endCrc ≠ some p.endCrcWant then cfgFail s .streamCrc
    else if imageSignature (getNv s b) ≠ p.sig.toList then cfgFail s .signature
    else
      let s := modSlotNv s b fun n => { n with st := .valid }
      settle (refreshView (s.modCfg fun c => { c with phase := .done, flags := c.flags.set 0 }) b)

/-! ### Sources (R86 to R88, R393, R394, R420) -/

/-- Bytes that enter the stream buffer, at most `free` of them; those beyond are discarded and set OVERFLOW (R86). -/
def enterBytes (s : State) (bs : List Byte) (free : Nat) : State :=
  settle (s.modMp fun m =>
    let m := { m with buffer := m.buffer ++ bs.take free }
    if free < bs.length then { m with overflow := true, losses := m.losses ++ [m.buffer.length] } else m)

/-- A partial byte discarded after the bytes in the buffer (R88). -/
def cutByte (s : State) : State := settle (s.modMp fun m => { m with cut := true, losses := m.losses ++ [m.buffer.length] })

/-- PC_STB_BYTE (R393, R394): one byte while PCP_EN is 1. -/
def pcStbByteEffect (b : Byte) (s : State) : State :=
  if s.cfg.pcpEn && !held s then enterBytes s [b] (streamFree s) else s

/-- PCP_EN_WRITE (R393, R420). -/
def pcpEnWriteEffect (v : Bool) (s : State) : State :=
  if s.cfg.pcpEn == v then s else endEarly (s.modCfg fun c => { c with pcpEn := v })

/-- The halt ends (R404). -/
def endHalt (s : State) : State := if cfgHalted s then s.modCfg fun c => { c with phase := .search } else s

/-- STREAM_ABORT (R87, R98, R404, R411). -/
def streamAbortEffect (s : State) : State :=
  let s := s.modMp emptyBuffer
  if streamOpen s then endEarly s else endHalt s

/-! ### Slot commands (R406, R407) -/

/-- The slot a command names, none for SLOT 3. -/
def cmdSlot (n : BitVec 2) : Option (Fin 3) := if n.toNat < 3 then some (Fin.ofNat 3 n.toNat) else none

/-- A command is refused (R406); SLOT 3 names no slot (log entry 44). -/
def cmdRefuses (s : State) (op : CfgOp) (n : BitVec 2) : Bool :=
  let golden := n == 0 && !s.cfg.goldenWe
  match op with
  | .invalidate => scrapped s || golden || (cmdSlot n).isNone
  | .erase => scrapped s || golden || (cmdSlot n).isNone || (bootedSlot s).any fun b => b.val == n.toNat
  | .saveBoot => scrapped s
  | .clear => false

/-- The slot a command takes is no longer VALID (R392). -/
def cmdUnmark (s : State) (op : CfgOp) (n : BitVec 2) : State :=
  match op, cmdSlot n with
  | .invalidate, some b => modSlotNv s b fun x => { x with st := .incomplete }
  | .erase, some b => modSlotNv s b fun x => { x with st := .incomplete }
  | _, _ => s

/-- One slot command started while no command and no write is running (R406); one that meets a command ending in this tick follows
it (R9). -/
def cmdStart (op : CfgOp) (n : BitVec 2) (s : State) : State :=
  if s.cfg.cmd.isSome then noteRetry (.slotCommand op n) s
  else if writeRuns s then s
  else if cmdRefuses s op n then s.modCfg fun c => { c with cmdResult := 2, flags := c.flags.set 2 }
  else cmdUnmark (s.modCfg fun c => { c with cmd := some (op, n), cmdResult := 0 }) op n

/-- The slot registers of the slot a command named. -/
def cmdView (s : State) (n : BitVec 2) : State := match cmdSlot n with | some b => refreshView s b | none => s

/-- The end of a slot command (R403, R406, R407). -/
def cmdEnd (op : CfgOp) (n : BitVec 2) (ok : Bool) (s : State) : State :=
  let s := s.modCfg fun c => { c with cmd := none, cmdResult := 1, flags := c.flags.set 2 }
  match op with
  | .invalidate => cmdView s n
  | .erase =>
    match cmdSlot n with
    | none => s
    | some b =>
      let s := modSlotNv s b fun x =>
        { x with writes := satInc x.writes, frames := [], hdr := Header.init, hdrCrcOk := false,
                 st := if ok then .empty else .incomplete }
      if ok then refreshView s b
      else
        let s := recordFault s { perm := true, blk := blkCfg, kind := 2, inst := b.val }
        refreshView (s.modCfg fun c => { c with cmdResult := 3, flags := c.flags.set 4 }) b
  | .saveBoot =>
    s.modCfg fun c => { c with bootCopyA := some (c.mode, c.prefer), bootCopyB := some (c.mode, c.prefer) }
  | .clear => endHalt s

/-- CFG_CMD_DONE. -/
def cfgCmdDoneEffect (ok : Bool) (s : State) : State :=
  match s.cfg.cmd with
  | none => s
  | some (op, n) =>
    let t := cmdEnd op n ok s
    match s.moment.retry.findSome? fun r => match r with | .slotCommand o k => some (o, k) | _ => none with
    | some (o, k) => cmdStart o k t
    | none => t

/-! ### Registers of CFG -/

def phaseNo : WPhase → Nat
  | .search => 0 | .header => 1 | .erasing => 2 | .frames => 3 | .finishing => 4 | .done => 5 | .failed => 6

def reasonNo : WReason → Nat
  | .none => 0 | .format => 1 | .idcode => 2 | .version => 3 | .compat => 4 | .slot => 5 | .active => 6 | .protect => 7
  | .scrapped => 8 | .length => 9 | .zones => 10 | .order => 11 | .frameCrc => 12 | .count => 13 | .streamCrc => 14
  | .signature => 15 | .program => 16 | .aborted => 17

def bootResNo : BootRes → Nat
  | .unused => 0 | .ok => 1 | .notCandidate => 2 | .frameCrc => 3

/-- Log entry i of the last boot selection in its place. -/
def bootLogWord (l : List (Fin 3 × BootRes)) (i : Nat) : Word :=
  match l[i]? with
  | none => 0
  | some (b, r) => put (8 * i) b.val ||| put (8 * i + 2) (bootResNo r)

/-- The registers of slot b by word offset. -/
def slotRegs (s : State) (b : Fin 3) (i : Nat) : Word :=
  let v := s.cfg.views[b.val]
  match i with
  | 0 => put 0 (if slotBusy s b then 3 else v.st.toNat) ||| putB 2 v.hdrBad ||| put 16 (getNv s b).writes.toNat
  | 1 => v.hdr.seq
  | 2 => v.hdr.idcode
  | 3 => put 24 v.hdr.version.toNat ||| put 0 v.hdr.compat.toNat
  | _ => if 8 ≤ i ∧ i < 16 then v.hdr.ztab[(Fin.ofNat 8 (i - 8)).val] else 0

/-- Reads of the CFG block by offset. -/
def cfgRead (s : State) (off : Nat) : Word :=
  let c := s.cfg
  if off = 0x004 then put 0 c.booted.toNat ||| putB 2 (s.sys.phase == .failed) ||| putB 3 c.bootDefault
  else if off = 0x008 then bootLogWord c.bootLog 0 ||| bootLogWord c.bootLog 1 ||| bootLogWord c.bootLog 2
  else if off = 0x00C then put 0 c.nextSlot.toNat ||| putB 31 c.nextEn
  else if off = 0x010 then putB 0 c.mode ||| put 4 c.prefer.toNat
  else if off = 0x018 then putB 0 c.cmd.isSome ||| put 1 c.cmdResult.toNat
  else if off = 0x01C then putB 0 c.pcpEn ||| putB 1 c.goldenWe
  else if off = 0x020 then put 0 (phaseNo c.phase) ||| put 4 c.target.toNat ||| put 8 (reasonNo c.reason)
  else if off = 0x024 then c.frames
  else if off = 0x028 then c.cntDisc
  else if off = 0x030 then c.flags.word
  else if off = 0x034 then c.flagEn.setWidth 32
  else if 0x100 ≤ off ∧ off < 0x1C0 then slotRegs s (Fin.ofNat 3 ((off - 0x100) / 64)) ((off / 4) % 16)
  else if 0x200 ≤ off ∧ off < 0x260 then
    (c.views[(Fin.ofNat 3 ((off - 0x200) / 32)).val]).hdr.sig[(Fin.ofNat 8 ((off / 4) % 8)).val]
  else 0

/-- A write of CFG_CMD (R406). -/
def cfgCmdWrite (w : Word) (s : State) : State :=
  if fld w 31 16 ≠ 0x5A3C then s
  else
    let n := BitVec.ofNat 2 (fld w 5 4)
    match fld w 2 0 with
    | 1 => cmdStart .invalidate n s
    | 2 => cmdStart .erase n s
    | 3 => cmdStart .saveBoot 0 s
    | 4 => cmdStart .clear 0 s
    | _ => s

/-- Writes of the CFG block by offset. -/
def cfgWrite (off : Nat) (w : Word) (s : State) : State :=
  if off = 0x00C then s.modCfg fun c => { c with nextSlot := BitVec.ofNat 2 (fld w 1 0), nextEn := bit w 31 }
  else if off = 0x010 then s.modCfg fun c => { c with mode := bit w 0, prefer := BitVec.ofNat 2 (fld w 5 4) }
  else if off = 0x014 then cfgCmdWrite w s
  else if off = 0x01C then pcpEnWriteEffect (bit w 0) (s.modCfg fun c => { c with goldenWe := bit w 1 })
  else if off = 0x030 then s.modCfg fun c => { c with flags := c.flags.clear w }
  else if off = 0x034 then s.modCfg fun c => { c with flagEn := w.setWidth 5 }
  else s

/-- Attention flags of CFG that are set and enabled (R81). -/
def cfgAttn (s : State) : Bool := s.cfg.flags.raised s.cfg.flagEn

/-! ### The commands of the configuration controller -/

def execPcStbByte (b : Byte) (s : State) : Out := onAny s (pcStbByteEffect b)
def execPcpEnWrite (v : Bool) (s : State) : Out := onSys s (pcpEnWriteEffect v)
def execSyncWord (s : State) : Out := onSys s syncWordEffect
def execNop (s : State) : Out := onSys s nopEffect
def execIdc (s : State) : Out := onSys s idcEffect
def execSeq (s : State) : Out := onSys s seqEffect
def execLen (s : State) : Out := onSys s lenEffect
def execZtab (s : State) : Out := onSys s ztabEffect
def execSig (s : State) : Out := onSys s sigEffect
def execBegin (s : State) : Out := onSys s beginEffect
def execCtlAbort (s : State) : Out := onSys s ctlAbortEffect
def execCtlNop (s : State) : Out := onSys s ctlNopEffect
def execFaddr (s : State) : Out := onSys s faddrEffect
def execFdata (s : State) : Out := onSys s fdataEffect
def execEnd (s : State) : Out := onSys s endEffect
def execErasingDone (ok : Bool) (s : State) : Out := onSys s (erasingDoneEffect ok)
def execFrameArrival (s : State) : Out := onSys s frameArrivalEffect
def execFrameProgramDone (ok : Bool) (s : State) : Out := onSys s (frameProgramDoneEffect ok)
def execFinishingDone (s : State) : Out := onSys s finishingDoneEffect
def execInvalidate (slot : BitVec 2) (s : State) : Out := onSys s (cmdStart .invalidate slot)
def execErase (slot : BitVec 2) (s : State) : Out := onSys s (cmdStart .erase slot)
def execSaveBoot (s : State) : Out := onSys s (cmdStart .saveBoot 0)
def execClear (s : State) : Out := onSys s (cmdStart .clear 0)
def execCfgCmdDone (ok : Bool) (s : State) : Out := onSys s (cfgCmdDoneEffect ok)

end Sys2Proof.Machine
end

