-- ==== Sys2Proof/Machine/Lcs.lean ====
section
/-! DEFINITION. Life-cycle states, fuse operations and debug authorization (05_lifecycle_debug.md R123 to R149). -/

namespace Sys2Proof.Machine

/-! ### Fuses (R125 to R128) -/

/-- Blown bits of a group. -/
def popcount {n : Nat} (w : BitVec n) : Nat := ((List.range n).filter fun i => bit w i).length

/-- Majority decode of a 5-bit group (R125, R128). -/
def majority (g : BitVec 5) : Bool := decide (3 ≤ popcount g)

/-- Group g of the LCW. -/
def lcwGroup (w : BitVec 30) (g : Nat) : BitVec 5 := (w >>> (5 * g)).setWidth 5

/-- The decode of the LCW (R125). -/
def fusedState (w : BitVec 30) : BitVec 3 :=
  BitVec.ofNat 3 (min ((List.range 6).filter fun g => majority (lcwGroup w g)).length 5)

/-- The bits of one group. -/
def groupBits (g : Nat) : BitVec 30 := BitVec.ofNat 30 (0x1F <<< (5 * g))

/-- The lowest-numbered group that is not set. -/
def nextGroup (w : BitVec 30) : Option Nat := (List.range 6).find? fun g => !majority (lcwGroup w g)

/-- Every group that is not set. -/
def unsetGroups (w : BitVec 30) : List Nat := (List.range 6).filter fun g => !majority (lcwGroup w g)

/-- The LCW after a transition to a target (R126). -/
def lcwAfter (w : BitVec 30) (target : BitVec 3) : BitVec 30 :=
  if target = lcScrapped then (unsetGroups w).foldl (fun w g => w ||| groupBits g) w
  else match nextGroup w with | some g => w ||| groupBits g | none => w

def keyHashZero (l : Lcs) : Bool := l.keyHash.toList.all fun w => w == 0

/-! ### Operations (R129, R130) -/

/-- Transitions allowed from the fused state (R123). -/
def transitionAllowed (fused target : BitVec 3) : Bool :=
  (target == lcScrapped && fused != lcScrapped) || (decide (fused.toNat < 4) && target == fused + 1)

/-- The first condition of R129 that rejects an operation, 0 when none does. -/
def lcsWhy (s : State) (op : LcsOp) : BitVec 4 :=
  let l := s.lcs
  let fused := fusedState l.lcw
  match op with
  | .nothing => 0
  | .transition t =>
    if !transitionAllowed fused t then 1
    else if t = lcProvisioned ∧ keyHashZero l then 2
    else if t = lcReturn ∧ majority l.nfd then 2
    else if t = lcReturn ∧ !scopeHas s 4 then 3
    else 0
  | .keyHash =>
    if (fused != lcBlank && fused != lcFactory) || majority l.keyLock then 2
    else if (allFin 8).any fun i => l.keyHash[i.val] &&& ~~~ l.stage[i.val] != 0 then 4
    else 0
  | .noFieldDebug =>
    if fused = lcScrapped then 2 else if majority l.nfd then 4 else 0

/-- Operations and authorization commands act for MP and JTAG (R129, R131, R134). -/
def lcsAllowed (r : Req) : Bool := r == .mp || r == .jtag

/-- The fuses after an operation that no reset stopped: every bit it programs is blown (R126, R127). Whether a bit can fail to
blow in an operation that runs to its end the manual does not say; the model lets none fail (DESIGN CHOICE; log entry 94). -/
def lcsBlow (l : Lcs) (op : LcsOp) : Lcs :=
  match op with
  | .nothing => l
  | .transition t =>
    { l with lcw := lcwAfter l.lcw t, keyLock := if t = lcProvisioned then BitVec.allOnes 5 else l.keyLock }
  | .keyHash => { l with keyHash := Vector.ofFn fun i => l.keyHash[i.val] ||| l.opHash[i.val] }
  | .noFieldDebug => { l with nfd := BitVec.allOnes 5 }

/-- LCS_OPERATION_DONE (R129): 10 ms after the write. -/
def lcsDoneEffect (s : State) : State :=
  match s.lcs.running with
  | none => s
  | some (op, t) =>
    if s.clock < t + tenMs then s
    else s.modLcs fun l =>
      let l := if l.opWhy = 0 then lcsBlow l op else l
      { l with running := none, result := if l.opWhy = 0 then 1 else 2, why := l.opWhy, flags := l.flags.set 1 }

/-- An operation started (R129): judged now, against the fuses as they are now (R130). One that ends in this tick ends first
(R9). LCS_KEY_STAGE is copied now, and RESULT and WHY read 0 while the operation runs (DESIGN CHOICE: R129 says neither when
the value is read nor what the last RESULT becomes; log entry 94). -/
def lcsStart (r : Req) (op : LcsOp) (s : State) : State :=
  if !lcsAllowed r then s
  else
    let s := lcsDoneEffect s
    if s.lcs.running.isSome then s
    else s.modLcs fun l =>
      { l with running := some (op, s.clock), opWhy := lcsWhy s op, opHash := l.stage, result := 0, why := 0 }

/-- The fuses that a reset leaves of an operation in progress (R126, R149): which of its bits were blown before the reset the
manual leaves open, so a free value chooses each; no bit of the group of PROVISIONED is blown before KEY_LOCK is set (R127). A
soft reset stops the operation as the fall of RESET_N does (DESIGN CHOICE: R149 names only the pin; log entry 94). -/
def lcsInterrupt (s : State) : State :=
  match s.lcs.running with
  | none => s
  | some (op, _) =>
    if s.lcs.opWhy ≠ 0 then s
    else
      let f := fun (k : Nat) => Config.freeNat (s.freeCtr + k)
      let l := s.lcs
      let a := lcsBlow l op
      let lock := l.keyLock ||| (a.keyLock &&& BitVec.ofNat 5 (f 1))
      (s.freeSteps 11).modLcs fun l =>
        { l with lcw := if lock = a.keyLock then l.lcw ||| (a.lcw &&& BitVec.ofNat 30 (f 0)) else l.lcw, keyLock := lock,
                 nfd := l.nfd ||| (a.nfd &&& BitVec.ofNat 5 (f 2)),
                 keyHash := Vector.ofFn fun i => l.keyHash[i.val] ||| (a.keyHash[i.val] &&& BitVec.ofNat 32 (f (3 + i.val))) }

/-! ### Debug sessions (R134 to R142) -/

/-- Bytes 32 to 47 of a challenge: the UID as LCS_UID holds it (R134, R137). -/
def uidBytes : List Byte := leBytes 16 Config.uid.toNat

/-- The challenge, 48 bytes. -/
def challengeBytes (l : Lcs) : List Byte := l.nonce ++ uidBytes

/-- Bytes of registers that hold a structure (R137). -/
def structBytes (ws : List Word) : List Byte := ws.flatMap fun w => leBytes 4 w.toNat

/-- NEW_CHALLENGE (R134, R140). A challenge it replaces can still be consumed in the same tick (R147). -/
def newChallengeEffect (r : Req) (s : State) : State :=
  let d := s.lcs.dbg
  if lcsAllowed r && (d == .idle || d == .challengeReady || d == .session) then
    s.modLcs fun l =>
      { l with dbg := .generating, nonce := [], replaced := if d == .challengeReady then l.nonce else [], genAt := s.clock }
  else s

/-- CHALLENGE_READY (R134, R135): 200 µs after NEW_CHALLENGE; the nonce is a free value. -/
def challengeReadyEffect (healthy : Bool) (s : State) : State :=
  if s.lcs.dbg = .generating ∧ s.lcs.genAt + 80000 ≤ s.clock then
    if healthy then
      let n := (List.range 32).map fun k => BitVec.ofNat 8 (Config.freeNat (s.freeCtr + k))
      (s.freeSteps 32).modLcs fun l => { l with dbg := .challengeReady, nonce := n }
    else (recordFault s { perm := true, blk := blkLcs, kind := 1, inst := 0 }).modLcs fun l => { l with dbg := .trngFault }
  else s

/-- The nonce that a VERIFY of the present tick consumes: that of CHALLENGE_READY, or one that a NEW_CHALLENGE of the same tick
replaced (R147). -/
def verifiable (s : State) : Option (List Byte) :=
  let l := s.lcs
  if l.dbg = .challengeReady then some l.nonce
  else if l.dbg = .generating ∧ l.genAt = s.clock ∧ l.replaced ≠ [] then some l.replaced
  else none

/-- VERIFY (R139): the challenge is consumed and key and ticket are copied; a NEW_CHALLENGE of the same tick has no effect
(R147). -/
def verifyEffect (r : Req) (s : State) : State :=
  match verifiable s with
  | none => s
  | some n =>
    if lcsAllowed r then
      s.modLcs fun l =>
        { l with dbg := .verifying, nonce := [],
                 verifying := some { at_ := s.clock, challenge := challengeBytes { l with nonce := n },
                                     pubkey := structBytes l.pubkey.toList, ticket := structBytes l.ticket.toList } }
    else s

/-- Bits 3 and 31:5 of a scope are reserved (R138). -/
def scopeReserved : Word := 0xFFFF_FFE8

/-- The verdict of R139, with the fuses as they are at its release: R146 says so of NO_FIELD_DEBUG, and the model reads KEY_HASH
then too (DESIGN CHOICE; log entry 95). -/
def ticketPasses (l : Lcs) (v : Verifying) : Bool :=
  let x := ofBe (v.pubkey.take 32)
  let y := ofBe ((v.pubkey.drop 32).take 32)
  let rr := ofBe (v.ticket.take 32)
  let ss := ofBe ((v.ticket.drop 32).take 32)
  let mask := BitVec.ofNat 32 (ofBe ((v.ticket.drop 64).take 4))
  !majority l.nfd && !keyHashZero l && structBytes l.keyHash.toList == sha256 v.pubkey && onCurve x y &&
    decide (1 ≤ rr ∧ rr < p256N) && decide (1 ≤ ss ∧ ss < p256N) &&
    ecdsaVerify (sha256 (v.challenge ++ (v.ticket.drop 64).take 4)) x y rr ss && mask &&& scopeReserved == 0

/-- 1 s in ticks (R2, R141). -/
def oneSecond : Nat := 400000000

/-- VERDICT (R140): 4,800,000 ticks after VERIFY. -/
def verdictEffect (s : State) : State :=
  match s.lcs.verifying with
  | none => s
  | some v =>
    if s.clock < v.at_ + 4800000 then s
    else
      let pass := ticketPasses s.lcs v
      s.modLcs fun l =>
        { l with verifying := none, flags := l.flags.set 0, lastVerdict := pass, dbg := if pass then .session else .lockout,
                 scope := if pass then some (BitVec.ofNat 32 (ofBe ((v.ticket.drop 64).take 4))) else l.scope,
                 lockoutEnd := if pass then l.lockoutEnd else s.clock + oneSecond }

/-- LOCKOUT_END (R140, R141): STATE returns to SESSION while one is open. -/
def lockoutEndEffect (s : State) : State :=
  if s.lcs.dbg = .lockout ∧ s.lcs.lockoutEnd ≤ s.clock then
    s.modLcs fun l => { l with dbg := if l.scope.isSome then .session else .idle }
  else s

/-! ### Resets (R36, R123, R141, R144) -/

/-- What every kind of reset does to the LCS: the fuses of an operation stop where they are, the session closes, and STATE is
LOCKOUT (R141). The registers of a pin or soft reset take their reset values. -/
def lcsReset (s : State) : State :=
  let s := lcsInterrupt s
  s.modLcs fun l =>
    { Lcs.init with lcw := l.lcw, keyLock := l.keyLock, nfd := l.nfd, keyHash := l.keyHash, latched := l.latched,
                    lockoutEnd := s.clock + oneSecond }

/-- What a reconfiguration does to the LCS (R36, R141): registers and a running operation are kept (R129), the state is latched
anew. -/
def lcsReconf (s : State) : State :=
  s.modLcs fun l =>
    { l with nonce := [], replaced := [], verifying := none, scope := none, dbg := .lockout, lockoutEnd := s.clock + oneSecond,
             latched := fusedState l.lcw }

/-- The life-cycle state latched from the LCW (R123). -/
def lcsLatch (s : State) : State := s.modLcs fun l => { l with latched := fusedState l.lcw }

/-! ### Registers of LCS -/

def dbgStateNo : DbgState → Nat
  | .idle => 0 | .generating => 1 | .challengeReady => 2 | .verifying => 3 | .session => 4 | .lockout => 5 | .trngFault => 6

/-- Word k of a structure held as bytes (R137). -/
def structWord (bs : List Byte) (k : Nat) : Word := BitVec.ofNat 32 (leAt bs (4 * k) 4)

/-- Reads of the LCS block by offset, by a requester (R131, R134). -/
def lcsRead (r : Req) (s : State) (off : Nat) : Word :=
  let l := s.lcs
  if off = 0x000 then put 0 (fusedState l.lcw).toNat ||| put 4 l.latched.toNat ||| putB 8 l.erased
  else if off = 0x004 then l.lcw.setWidth 32
  else if off = 0x008 then putB 0 (majority l.keyLock) ||| putB 1 (majority l.nfd) ||| putB 2 (keyHashZero l)
  else if off = 0x00C then l.flags.word
  else if off = 0x010 then putB 0 l.enVerdict ||| putB 1 l.enTrans
  else if off = 0x024 then putB 0 l.running.isSome ||| put 1 l.result.toNat ||| put 4 l.why.toNat
  else if off = 0x044 then put 0 (dbgStateNo l.dbg) ||| putB 8 l.lastVerdict
  else if off = 0x048 then l.scope.getD 0
  else if 0x100 ≤ off ∧ off < 0x130 then
    if l.dbg = .challengeReady ∧ lcsAllowed r then structWord (challengeBytes l) ((off - 0x100) / 4) else 0
  else if 0x140 ≤ off ∧ off < 0x180 then if lcsAllowed r then l.pubkey[(Fin.ofNat 16 ((off - 0x140) / 4)).val] else 0
  else if 0x180 ≤ off ∧ off < 0x1C4 then if lcsAllowed r then l.ticket[(Fin.ofNat 17 ((off - 0x180) / 4)).val] else 0
  else if 0x200 ≤ off ∧ off < 0x220 then l.keyHash[(Fin.ofNat 8 ((off - 0x200) / 4)).val]
  else if 0x220 ≤ off ∧ off < 0x230 then structWord uidBytes ((off - 0x220) / 4)
  else if 0x240 ≤ off ∧ off < 0x260 then l.stage[(Fin.ofNat 8 ((off - 0x240) / 4)).val]
  else 0

/-- A write of LCS_TRANS (R129). -/
def lcsTransWrite (r : Req) (w : Word) (s : State) : State :=
  if fld w 31 16 ≠ 0xC3A5 then s
  else
    match fld w 1 0 with
    | 0 => lcsStart r (.transition (BitVec.ofNat 3 (fld w 6 4))) s
    | 1 => lcsStart r .keyHash s
    | 2 => lcsStart r .noFieldDebug s
    | _ => lcsStart r .nothing s

/-- Writes of the LCS block by offset: only MP and JTAG have an effect (R131). A write that sets both bits of LCS_DBG_CMD takes
VERIFY first, as R147 orders two requesters (DESIGN CHOICE; log entry 95). -/
def lcsWrite (r : Req) (off : Nat) (w : Word) (s : State) : State :=
  if !lcsAllowed r then s
  else if off = 0x00C then s.modLcs fun l => { l with flags := l.flags.clear w }
  else if off = 0x010 then s.modLcs fun l => { l with enVerdict := bit w 0, enTrans := bit w 1 }
  else if off = 0x020 then lcsTransWrite r w s
  else if off = 0x040 then
    let s := if bit w 1 then verifyEffect r s else s
    if bit w 0 then newChallengeEffect r s else s
  else if 0x140 ≤ off ∧ off < 0x180 then s.modLcs fun l => { l with pubkey := upd l.pubkey (Fin.ofNat 16 ((off - 0x140) / 4)) fun _ => w }
  else if 0x180 ≤ off ∧ off < 0x1C4 then s.modLcs fun l => { l with ticket := upd l.ticket (Fin.ofNat 17 ((off - 0x180) / 4)) fun _ => w }
  else if 0x240 ≤ off ∧ off < 0x260 then s.modLcs fun l => { l with stage := upd l.stage (Fin.ofNat 8 ((off - 0x240) / 4)) fun _ => w }
  else s

/-- Attention flags of LCS that are set and enabled (R81). -/
def lcsAttn (s : State) : Bool := (s.lcs.flags.on 0 && s.lcs.enVerdict) || (s.lcs.flags.on 1 && s.lcs.enTrans)

/-! ### The commands of the LCS -/

def execLcsTransition (req : Req) (target : BitVec 3) (s : State) : Out := onSys s (lcsStart req (.transition target))
def execProgramKeyHash (req : Req) (s : State) : Out := onSys s (lcsStart req .keyHash)
def execProgramNoFieldDebug (req : Req) (s : State) : Out := onSys s (lcsStart req .noFieldDebug)
def execLcsNoOperation (req : Req) (s : State) : Out := onSys s (lcsStart req .nothing)
def execLcsOperationDone (s : State) : Out := onSys s lcsDoneEffect
def execNewChallenge (req : Req) (s : State) : Out := onSys s (newChallengeEffect req)
def execChallengeReady (healthy : Bool) (s : State) : Out := onSys s (challengeReadyEffect healthy)
def execVerify (req : Req) (s : State) : Out := onSys s (verifyEffect req)
def execVerdict (s : State) : Out := onSys s verdictEffect
def execLockoutEnd (s : State) : Out := onSys s lockoutEndEffect

end Sys2Proof.Machine
end

