-- ==== Sys2Proof/Machine/PinBase.lean ====
section
/-! DEFINITION. The settings of the multi-function pins and what reaches a pin from outside (18_pins_interrupts_adc.md R513 to R519). -/

namespace Sys2Proof.Machine

/-! ### PIO_PIN -/

def getPin (s : State) (p : Fin 96) : Word := s.pio.pin[p.val]
/-- FUNC; 4 to 7 act as 0. -/
def pinFunc (w : Word) : Nat := let f := fld w 2 0; if f < 4 then f else 0
/-- SIG (R514). -/
def pinSig (w : Word) : Nat := fld w 9 4
/-- OD (R517). -/
def pinOd (w : Word) : Bool := bit w 15
/-- PULL: 0 none, 1 down, 2 up, 3 keeper. -/
def pinPull (w : Word) : Nat := fld w 17 16
/-- The bank of a pin. -/
def pinBank (p : Fin 96) : Fin 6 := Fin.ofNat 6 (p.val / 16)
/-- Fields of PIO_PIN. -/
def pinMask : Word := 0x000F_F3F7

/-- FUNC 3: ANALOG on bank GA, a pin without digital function elsewhere (R516). -/
def pinAnalog (s : State) (p : Fin 96) : Bool := pinFunc (getPin s p) == 3

/-- The I/O column of a bank (R369). -/
def bankColumn (b : Fin 6) : Nat :=
  match b.val with | 0 => 0 | 1 => 1 | 2 => 50 | 3 => 149 | 4 => 198 | _ => 199

/-- A FABRIC pin whose I/O column lies in an isolated swap zone (R424, R519). -/
def pinIsolated (s : State) (p : Fin 96) : Bool :=
  pinFunc (getPin s p) == 1 && anyIsolated s fun c => c == bankColumn (pinBank p)

/-! ### The level of a pin that the device does not drive -/

/-- The pull in force: none before release, after a failed configuration, in ANALOG and in an isolated zone (R44, R516, R519). -/
def pullInForce (s : State) (p : Fin 96) : Nat :=
  if !released s || pinAnalog s p || pinIsolated s p then 0 else pinPull (getPin s p)

/-- What the board drives, else the pull, else nothing that a rule gives (R517). -/
def padLevel (s : State) (p : Fin 96) : Bool :=
  match Config.board s.clock p.val with
  | some b => b
  | none =>
    match pullInForce s p with
    | 1 => false
    | 2 => true
    | 3 => s.pio.kept[p.val]
    | _ => Config.floating s.clock p.val

/-! ### Peripheral signals (R514, R515, R534) -/

def sigTxd (n : Fin 18) : Nat := n.val
def sigRxd (n : Fin 18) : Nat := 18 + n.val
def sigSck (m : Fin 2) : Nat := 36 + 7 * m.val
def sigMosi (m : Fin 2) : Nat := 37 + 7 * m.val
def sigMiso (m : Fin 2) : Nat := 38 + 7 * m.val
def sigSs (m : Fin 2) (k : Fin 4) : Nat := 39 + 7 * m.val + k.val

/-- A pin in PERIPH that carries a signal. -/
def carries (s : State) (sig : Nat) (p : Fin 96) : Bool :=
  released s && pinFunc (getPin s p) == 2 && pinSig (getPin s p) == sig

/-- The pin that an input signal is taken from: the one with the lowest index among those that carry it now. -/
def sigPin (s : State) (sig : Nat) : Option (Fin 96) := (allFin 96).find? (carries s sig)

/-- The setting word of the SPC that a signal from 36 up belongs to. -/
def sigSpc (s : State) (sig : Nat) : Word := s.spc[(Fin.ofNat 2 ((sig - 36) / 7)).val].group.active.cfg

/-- The fixed level of an input signal given to no pin: 1 for RXD, CPOL for SCK, 0 for MOSI and MISO, inactive for SSk. -/
def fixedLevel (s : State) (sig : Nat) : Bool :=
  if sig < 36 then true
  else
    match (sig - 36) % 7 with
    | 0 => bit (sigSpc s sig) 2
    | 1 => false
    | 2 => false
    | k => !bit (sigSpc s sig) (9 + k)

/-- The level of an input signal. An input signal never drives its pin (R514). -/
def inputLevel (s : State) (sig : Nat) : Bool :=
  match sigPin s sig with
  | some p => padLevel s p
  | none => fixedLevel s sig

end Sys2Proof.Machine
end

