-- ==== Sys2Proof/Machine/Spi.lean ====
section
/-! DEFINITION. The clocked serial controllers (17_spi_controllers.md R486 to R512). -/

namespace Sys2Proof.Machine

def getSpc (s : State) (m : Fin 2) : Spc := s.spc[m.val]

/-! ### Settings of a controller's group -/

def spcEn (g : SpcGroup) : Bool := bit g.cfg 0
def spcSlave (g : SpcGroup) : Bool := bit g.cfg 1
/-- CPOL: the idle level of SCK (R486). -/
def spcCpol (g : SpcGroup) : Bool := bit g.cfg 2
def spcCpha (g : SpcGroup) : Bool := bit g.cfg 3
def spcLsb (g : SpcGroup) : Bool := bit g.cfg 4
def spcPerWord (g : SpcGroup) : Bool := bit g.cfg 5
def spcDecode (g : SpcGroup) : Bool := bit g.cfg 6
def spcMf (g : SpcGroup) : Bool := bit g.cfg 7
def spcWframe (g : SpcGroup) : Bool := bit g.cfg 8
/-- WORD_LEN in bytes. -/
def spcWord (g : SpcGroup) : Nat := fld g.cfg 10 9 + 1
def spcFill (g : SpcGroup) : Byte := g.fill.setWidth 8
def spcBusy (g : SpcGroup) : Byte := (g.fill >>> 8).setWidth 8

/-- An invalid group (R504). -/
def spcInvalid (g : SpcGroup) : Bool := spcDecode g && (spcMf g || (spcPerWord g && fld g.cfg 19 16 == 0))

/-! ### Bits and clock modes (R486) -/

/-- A bit is sampled on the first edge of its SCK period with CPHA = 0 and on the second with CPHA = 1; the first edge leaves the idle
level CPOL. The sampling edge therefore rises when CPOL and CPHA are equal. -/
def samplesRising (g : SpcGroup) : Bool := spcCpol g == spcCpha g

/-- The levels at the sampling edges of a byte, first bit first. -/
def sampled (g : SpcGroup) (x : SpiBits) : List Bool :=
  let v := if samplesRising g then x.rise else x.fall
  (List.range 8).map fun i => bit v i

/-- The byte that bits spell, first bit first: bit 7 travels first, or bit 0 with LSB_FIRST. -/
def wireByte (g : SpcGroup) (bs : List Bool) : Byte :=
  let bs := if spcLsb g then bs else bs.reverse
  BitVec.ofNat 8 (bs.foldr (fun b n => (if b then 1 else 0) + 2 * n) 0)

/-- The bits of a byte in the order in which they travel. -/
def wireBits (g : SpcGroup) (b : Byte) : List Bool :=
  let bs := (List.range 8).map fun i => bit b i
  if spcLsb g then bs else bs.reverse

/-- The byte received from a data line given as signal `sig`; a signal given to no pin reads 0 (R515). -/
def received (s : State) (g : SpcGroup) (sig : Nat) (x : SpiBits) : Byte :=
  if (sigPin s sig).isSome then wireByte g (sampled g x) else 0

/-- SS0 at its active level under SS_POL bit 0 (R496, R498). -/
def ss0Active (s : State) (m : Fin 2) (g : SpcGroup) : Bool := inputLevel s (sigSs m 0) == bit g.cfg 12

def spcAct (s : State) (m : Fin 2) : SpcGroup := (getSpc s m).group.active

/-- The controller executes as a master. -/
def spcMasterLive (s : State) (m : Fin 2) : Bool :=
  let g := spcAct s m
  spcEn g && !spcSlave g && !(getSpc s m).cfgBad && !(getSpc s m).halted

/-- The controller answers as a slave. -/
def spcSlaveLive (s : State) (m : Fin 2) : Bool :=
  let g := spcAct s m
  spcEn g && spcSlave g && !(getSpc s m).cfgBad

/-! ### Commands (R487 to R492) -/

def cmdKind (w : Word) : BitVec 2 := BitVec.ofNat 2 (fld w 9 8)
/-- COUNT; 0 acts as 256. -/
def cmdCount (w : Word) : Nat := let n := fld w 7 0; if n = 0 then 256 else n
def cmdCont (w : Word) : Bool := bit w 16

/-- A command that takes a byte of the TX FIFO per byte (DUPLEX, TX). -/
def takesTx (k : BitVec 2) : Bool := k == 0 || k == 1
/-- A command that stores a byte per byte (DUPLEX, RX). -/
def storesRx (k : BitVec 2) : Bool := k == 0 || k == 2

/-- The byte to be sent is there and the byte to be received has room (R488). -/
def byteReady (u : Spc) (k : BitVec 2) : Bool :=
  (!takesTx k || !u.tx.isEmpty) && (!storesRx k || decide (u.rx.length < 64))

/-- A wait before the next byte: STALL increments once, judged at the end of the tick in which the wait would begin (R488, R509). -/
def noteStall (u : Spc) : Spc :=
  match u.run with
  | some r =>
    if r.kind ≠ 3 ∧ !byteReady u r.kind ∧ !u.stalled then { u with stalled := true, tally := u.tally.bump 8 } else u
  | none => u

/-- The end of a command: the chain goes on with the next one, waits for it, or closes its frame (R489, R490). -/
def endCommand (u : Spc) (cont : Bool) : Spc :=
  let u := { u with run := none, stalled := false }
  if cont then { u with contWait := u.queue.isEmpty } else { u with frameOpen := false, chain := false, contWait := false, wordPos := 0 }

/-- A completed command (R495), counted at the end of the tick, since a mode fault of the same clock wins (R505). -/
def countDone (u : Spc) : Spc := { u with doneNow := u.doneNow + 1 }

/-- A command that R492 rejects at the head of the queue. -/
def cmdRejected (g : SpcGroup) (w : Word) : Bool :=
  cmdKind w != 3 && (spcPerWord g || spcWframe g) && cmdCount w % spcWord g != 0

/-- CMD_REJ counted, with its flag (R492, R498). -/
def countReject (u : Spc) : Spc := { u with tally := u.tally.bump 5, flags := u.flags.set 8 }

/-- The ticks of an SCK period: 2 (CDIV + 1) peripheral clocks. -/
def sckTicks (g : SpcGroup) : Nat := 8 * (fld g.clk 11 0 + 1)

/-- The head of the queue starts: the chain's first command names the select (R489). DELAY leaves the selects as they stand until its
last period ends (R487, R495). -/
def startHead (clock : Nat) (g : SpcGroup) (u : Spc) (w : Word) (rest : List Word) : Spc :=
  let u := { u with queue := rest, contWait := false, chain := true,
                    sel := if u.chain then u.sel else BitVec.ofNat 4 (fld w 15 12),
                    wordPos := if u.chain then u.wordPos else 0 }
  if cmdRejected g w then endCommand (countReject u) (cmdCont w)
  else
    { u with frameOpen := u.frameOpen || cmdKind w != 3,
             run := some { kind := cmdKind w, left := cmdCount w, cont := cmdCont w, until_ := clock + cmdCount w * sckTicks g } }

/-- A command of kind k reaches the head of the queue and starts (R487). -/
def spcStartEffect (k : BitVec 2) (m : Fin 2) (s : State) : State :=
  let u := getSpc s m
  if spcMasterLive s m && u.run.isNone then
    match u.queue with
    | [] => s
    | w :: rest => if cmdKind w = k then s.modSpc m fun u => startHead s.clock (spcAct s m) u w rest else s
  else s

/-- One byte of a command moves: the selects of a word framing open for it and close after every WORD_LEN bytes (R491). -/
def moveByte (g : SpcGroup) (u : Spc) (r : SpcRun) (got : Byte) : Spc :=
  let mosi := if takesTx r.kind then (u.tx.map (·.1)).headD 0 else spcFill g
  let pos := if u.wordPos + 1 = spcWord g then 0 else u.wordPos + 1
  let u := { u with
    tx := if takesTx r.kind then u.tx.drop 1 else u.tx,
    rx := if storesRx r.kind then u.rx ++ [(⟨got, false, true⟩ : SpcRx)] else u.rx,
    lastMosi := some mosi, stalled := false, wordPos := pos, frameOpen := !(spcPerWord g && pos == 0),
    run := some { r with left := r.left - 1 } }
  if r.left ≤ 1 then endCommand (countDone u) r.cont else u

/-- MASTER_BYTE (R486, R488, R489, R491, R495): one byte moves once data and room are present. -/
def masterByteEffect (m : Fin 2) (miso : SpiBits) (s : State) : State :=
  let g := spcAct s m
  let got := received s g (sigMiso m) miso
  let live := spcMasterLive s m
  s.modSpc m fun u =>
    match u.run with
    | none => u
    | some r => if !live || r.kind == 3 || !byteReady u r.kind then u else moveByte g u r got

/-- A DELAY whose last period has ended completes (R487, R495). -/
def delayEnd (clock : Nat) (u : Spc) : Spc :=
  match u.run with
  | some r => if r.kind = 3 ∧ r.until_ ≤ clock then endCommand (countDone u) r.cont else u
  | none => u

/-- SPC_CMD_WRITE (R487, R490, R498). -/
def spcCmdWriteEffect (m : Fin 2) (w : Word) (s : State) : State :=
  let slave := spcSlave (spcAct s m)
  s.modSpc m fun u =>
    if slave then countReject u
    else if 32 ≤ u.queue.length then { u with tally := u.tally.bump 7 }
    else { u with queue := u.queue ++ [w], contWait := false }

/-! ### Mode fault, ABORT, RESUME (R496, R505 to R507) -/

/-- The command in progress abandoned, the frame closed, the queue and the TX FIFO emptied. -/
def spcEmpty (u : Spc) : Spc :=
  { u with run := none, queue := [], tx := [], frameOpen := false, chain := false, contWait := false, stalled := false, wordPos := 0 }

/-- MODE_FAULT (R496, R505): a command that would complete in this tick is abandoned. SS0 given to no pin claims nothing (R515). -/
def modeFaultEffect (m : Fin 2) (s : State) : State :=
  let g := spcAct s m
  if spcEn g && !spcSlave g && spcMf g && !(getSpc s m).cfgBad && (sigPin s (sigSs m 0)).isSome then
    s.modSpc m fun u => { spcEmpty u with halted := true, doneNow := 0, tally := u.tally.bump 0, flags := u.flags.set 3 }
  else s

/-- SPC_ABORT (R507). -/
def spcAbortEffect (m : Fin 2) (s : State) : State := s.modSpc m spcEmpty

/-- RESUME (R496): only while the claim input is inactive. -/
def resumeEffect (m : Fin 2) (s : State) : State :=
  if ss0Active s m (spcAct s m) then s else s.modSpc m fun u => { u with halted := false }

/-! ### The slave (R498 to R502) -/

/-- The byte the slave sends next (R499): the oldest one written at least 100 ns before; a younger one may or may not be taken,
which a free value decides; else the BUSY byte. -/
def slaveChoose (s : State) (m : Fin 2) : State :=
  let u := getSpc s m
  let g := spcAct s m
  let busy := fun (s : State) => s.modSpc m fun u =>
    { u with slaveNext := none, slaveOut := spcBusy g, tally := u.tally.bump 2, flags := u.flags.set 5 }
  let take := fun (b : Byte) (s : State) => s.modSpc m fun u => { u with slaveNext := some b, slaveOut := b, tx := u.tx.drop 1 }
  match u.tx with
  | [] => busy s
  | (b, t) :: _ =>
    if t + 40 ≤ s.clock then take b s
    else if freeValue s % 2 = 0 then take b s.freeStep else busy s.freeStep

/-- SLAVE_FRAME_START (R498, R499): SS0 given to no pin is never active (R515). -/
def slaveStartEffect (m : Fin 2) (s : State) : State :=
  if spcSlaveLive s m && !(getSpc s m).slaveFrame && (sigPin s (sigSs m 0)).isSome then
    slaveChoose (s.modSpc m fun u => { u with slaveFrame := true, slaveBytes := 0, slaveLost := false, slaveFlushed := false }) m
  else s

/-- A byte held over a full FIFO is discarded, with RX_OVR (R500), unless a read has made room (R511). -/
def spcSettle (u : Spc) : Spc :=
  match u.rxHeld with
  | none => u
  | some c =>
    if u.rx.length < 64 then { u with rx := u.rx ++ [c], rxHeld := none }
    else { u with rxHeld := none, slaveLost := true, tally := u.tally.bump 1, flags := u.flags.set 4 }

/-- A complete byte enters the RX FIFO, or is held to the end of the tick where that is full. -/
def slaveStore (c : SpcRx) (u : Spc) : Spc :=
  let u := spcSettle u
  let u := { u with slaveBytes := u.slaveBytes + 1 }
  if u.rx.length < 64 then { u with rx := u.rx ++ [c] } else { u with rxHeld := some c }

/-- SLAVE_BYTE (R486, R499, R500); without a pin for SCK no edge arrives (R515). -/
def slaveByteEffect (m : Fin 2) (mosi : SpiBits) (s : State) : State :=
  let g := spcAct s m
  let got := received s g (sigMosi m) mosi
  if (getSpc s m).slaveFrame && (sigPin s (sigSck m)).isSome then
    slaveChoose (s.modSpc m (slaveStore { data := got, frameEnd := false, committed := !spcWframe g })) m
  else s

/-- The bytes of an accepted frame become readable, the last one with FRAME_END (R502). -/
def acceptFrame : List SpcRx → List SpcRx
  | [] => []
  | [c] => [if c.committed then c else { c with committed := true, frameEnd := true }]
  | c :: r => { c with committed := true } :: acceptFrame r

/-- SLAVE_FRAME_END (R501, R502): bits is what came of a byte cut short. A byte chosen of which no bit was sent returns to the
head of the TX FIFO (DEDUCED; log entry 48). -/
def slaveEndEffect (m : Fin 2) (bits : Nat) (s : State) : State :=
  let g := spcAct s m
  if (getSpc s m).slaveFrame then
    s.modSpc m fun u =>
      let u := spcSettle u
      let cut := decide (bits ≠ 0)
      let u := { u with slaveFrame := false, framesNow := u.framesNow + 1, slaveNext := none,
                        tally := (u.tally.bumpIf cut 3).bumpIf (cut && u.slaveNext.isSome) 9,
                        flags := u.flags.setIf cut 6,
                        tx := match cut, u.slaveNext with
                          | false, some b => (b, 0) :: u.tx
                          | _, _ => u.tx }
      if !spcWframe g then u
      else if u.slaveBytes % spcWord g = 0 ∧ !cut ∧ !u.slaveLost ∧ !u.slaveFlushed then { u with rx := acceptFrame u.rx }
      else
        { u with rx := u.rx.filter (·.committed), tally := u.tally.bump 4, flags := u.flags.set 7 }
  else s

/-! ### FIFOs (R503, R510) -/

/-- Bytes written to the TX FIFO, discarded whole when they find too little room (R503). -/
def spcTxWrite (m : Fin 2) (bs : List Byte) (s : State) : State :=
  let t := s.clock
  s.modSpc m fun u =>
    if 64 < u.tx.length + bs.length then { u with tally := u.tally.bump 6, flags := u.flags.set 9 }
    else { u with tx := u.tx ++ bs.map fun b => (b, t) }

/-- SPC_RXDATA as one read returns it, and the state with that byte removed (R503). -/
def spcRxRead (s : State) (m : Fin 2) : Word × State :=
  match (getSpc s m).rx with
  | c :: r =>
    if c.committed then
      (c.data.setWidth 32 ||| putB 8 c.frameEnd ||| putB 31 true, s.modSpc m fun u => spcSettle { u with rx := r })
    else (0, s)
  | [] => (0, s)

/-- SPC_RX_FLUSH (R510). -/
def spcRxFlushEffect (m : Fin 2) (s : State) : State :=
  s.modSpc m fun u => { u with rx := [], rxHeld := none, slaveFlushed := u.slaveFlushed || u.slaveFrame }

def spcTxFlushEffect (m : Fin 2) (s : State) : State := s.modSpc m fun u => { u with tx := [] }

/-- SPC_CNT_CLEAR (R512). -/
def spcCntClearEffect (m : Fin 2) (s : State) : State :=
  s.modSpc m fun u => { u with tally := u.tally.clear, doneCmds := 0, doneFrames := 0 }

/-! ### Settings (R504, R508) -/

/-- No frame is open, or the controller is disabled (R504). -/
def spcSafe (s : State) (m : Fin 2) : Bool :=
  let u := getSpc s m
  let g := u.group.active
  u.group.pending && (!spcEn g || if spcSlave g then !u.slaveFrame else !u.frameOpen && !u.chain)

/-- SPC_COMMIT_APPLY (R504). -/
def spcCommitEffect (m : Fin 2) (s : State) : State :=
  if spcSafe s m then
    s.modSpc m fun u =>
      let bad := spcInvalid u.group.shadow
      { u with group := u.group.apply, cfgBad := bad, flags := u.flags.setIf bad 10 }
  else s

/-! ### The end of a tick -/

/-- What a tick brings to SPCm by itself: the end of a DELAY, a stall, and the counts of the tick (R488, R495, R501, R505, R509). -/
def spcTickEnd (live : Bool) (clock : Nat) (u : Spc) : Spc :=
  let u := spcSettle u
  let u := if live then noteStall (delayEnd clock u) else u
  { u with doneCmds := u.doneCmds + u.doneNow, doneFrames := u.doneFrames + u.framesNow, flags := u.flags.setIf (u.doneNow != 0) 2,
           doneNow := 0, framesNow := 0, tally := u.tally.age }

/-! ### The levels of the bus (R486, R493, R494, R496, R498, R504) -/

/-- The level of SSk: the decoded code, or the pattern's active and inactive levels; SS0 is an input with MF_EN. -/
def ssLevel (g : SpcGroup) (u : Spc) (k : Nat) : Bool :=
  if spcDecode g then (if u.frameOpen then bit u.sel k else bit g.cfg (16 + k))
  else (u.frameOpen && bit u.sel k) == bit g.cfg (12 + k)

/-- MISO of a slave between bytes: with CPHA = 0 the first bit of the byte to be sent stands there (R499). -/
def misoRest (s : State) (g : SpcGroup) (u : Spc) : Bool :=
  if spcCpha g then Config.restLevel s.clock else (wireBits g u.slaveOut).headD false

/-- What SPCm drives at its signal j: 0 SCK, 1 MOSI, 2 MISO, 3 + k SSk; none where it is high-impedance or an input. SCK rests at CPOL while
no bit is moving. A controller that is not enabled, whose group is invalid, or that is halted drives nothing. -/
def spcOut (s : State) (m : Fin 2) (j : Nat) : Option Bool :=
  let u := getSpc s m
  let g := spcAct s m
  if spcMasterLive s m then
    match j with
    | 0 => some (spcCpol g)
    | 1 => some (Config.restLevel s.clock)
    | 2 => none
    | k + 3 => if k = 0 ∧ spcMf g then none else some (ssLevel g u k)
  else if spcSlaveLive s m && u.slaveFrame && j == 2 then some (misoRest s g u)
  else none

/-! ### Registers of SPC -/

/-- Readable RX bytes. -/
def spcReadable (u : Spc) : Nat := (u.rx.filter (·.committed)).length

/-- SPC_FLAGS with its two levels. -/
def spcFlags (u : Spc) : BitVec 11 :=
  let g := u.group.active
  assignBit (assignBit u.flags.bits 0 (decide (4 * fld g.cfg 27 24 < spcReadable u))) 1 (decide (u.tx.length ≤ 4 * fld g.cfg 31 28))

def spcFlagged (u : Spc) : Bool := spcFlags u &&& u.flagEn != 0

/-- Reads of SPCm by offset, SPC_RXDATA excepted. -/
def spcRead (s : State) (m : Fin 2) (off : Nat) : Word :=
  let u := getSpc s m
  match off with
  | 0x00 => u.group.look.cfg
  | 0x04 => u.group.look.clk
  | 0x08 => u.group.word
  | 0x10 => put 0 (spcReadable u) ||| put 8 u.tx.length ||| put 16 u.queue.length ||| putB 24 (u.frameOpen || u.slaveFrame) |||
      putB 25 u.contWait ||| putB 26 u.halted ||| putB 27 u.cfgBad
  | 0x24 => u.group.look.fill
  | 0x28 => (spcFlags u).setWidth 32
  | 0x2C => u.flagEn.setWidth 32
  | 0x30 => put 0 (u.tally.at_ 0) ||| put 8 (u.tally.at_ 1) ||| put 16 (u.tally.at_ 2) ||| put 24 (u.tally.at_ 3)
  | 0x34 => put 0 (u.tally.at_ 4) ||| put 8 (u.tally.at_ 5) ||| put 16 (u.tally.at_ 6) ||| put 24 (u.tally.at_ 7)
  | 0x38 => put 0 (u.tally.at_ 8) ||| put 8 (u.tally.at_ 9)
  | 0x3C => put 0 u.doneCmds.toNat ||| put 16 u.doneFrames.toNat
  | 0xF0 => putB 0 (spcFlagged (getSpc s 0)) ||| putB 1 (spcFlagged (getSpc s 1))
  | _ => 0

/-- Writes of SPCm by offset: ABORT before RESUME (R506). -/
def spcWrite (m : Fin 2) (off : Nat) (w : Word) (s : State) : State :=
  match off with
  | 0x00 => s.modSpc m fun u => { u with group := u.group.write fun g => { g with cfg := w &&& 0xFF0F_F7FF } }
  | 0x04 => s.modSpc m fun u => { u with group := u.group.write fun g => { g with clk := w &&& 0x0FFF_FFFF } }
  | 0x08 => s.modSpc m fun u => { u with group := u.group.commitWrite w }
  | 0x0C =>
    let s := if bit w 0 then spcAbortEffect m s else s
    let s := if bit w 1 then resumeEffect m s else s
    let s := if bit w 2 then spcRxFlushEffect m s else s
    let s := if bit w 3 then spcTxFlushEffect m s else s
    if bit w 4 then spcCntClearEffect m s else s
  | 0x14 => spcCmdWriteEffect m (w &&& 0x0001_F3FF) s
  | 0x18 => spcTxWrite m [w.setWidth 8] s
  | 0x1C => spcTxWrite m (leBytes 4 w.toNat) s
  | 0x24 => s.modSpc m fun u => { u with group := u.group.write fun g => { g with fill := w &&& 0xFFFF } }
  | 0x28 => s.modSpc m fun u => { u with flags := u.flags.clear w }
  | 0x2C => s.modSpc m fun u => { u with flagEn := w.setWidth 11 }
  | _ => s

/-- Attention flags of SPC that are set and enabled (R81). -/
def spcAttn (s : State) : Bool := s.spc.toList.any spcFlagged

/-! ### The commands of the controllers -/

def execDuplex (m : Fin 2) (s : State) : Out := onSys s (spcStartEffect 0 m)
def execTx (m : Fin 2) (s : State) : Out := onSys s (spcStartEffect 1 m)
def execRx (m : Fin 2) (s : State) : Out := onSys s (spcStartEffect 2 m)
def execDelay (m : Fin 2) (s : State) : Out := onSys s (spcStartEffect 3 m)
def execMasterByte (m : Fin 2) (miso : SpiBits) (s : State) : Out := onSys s (masterByteEffect m miso)
def execModeFault (m : Fin 2) (s : State) : Out := onSys s (modeFaultEffect m)
def execSpcAbort (m : Fin 2) (s : State) : Out := onSys s (spcAbortEffect m)
def execResume (m : Fin 2) (s : State) : Out := onSys s (resumeEffect m)
def execSpcRxFlush (m : Fin 2) (s : State) : Out := onSys s (spcRxFlushEffect m)
def execSpcTxFlush (m : Fin 2) (s : State) : Out := onSys s (spcTxFlushEffect m)
def execSpcCntClear (m : Fin 2) (s : State) : Out := onSys s (spcCntClearEffect m)
def execSlaveFrameStart (m : Fin 2) (s : State) : Out := onSys s (slaveStartEffect m)
def execSlaveByte (m : Fin 2) (mosi : SpiBits) (s : State) : Out := onSys s (slaveByteEffect m mosi)
def execSlaveFrameEnd (m : Fin 2) (bits : Nat) (s : State) : Out := onSys s (slaveEndEffect m bits)
def execSpcTxdataWrite (m : Fin 2) (b : Byte) (s : State) : Out := onSys s (spcTxWrite m [b])
def execSpcTxdata4Write (m : Fin 2) (w : Word) (s : State) : Out := onSys s (spcTxWrite m (leBytes 4 w.toNat))
def execSpcCommitApply (m : Fin 2) (s : State) : Out := onSys s (spcCommitEffect m)
def execSpcCmdWrite (m : Fin 2) (w : Word) (s : State) : Out := onSys s (spcCmdWriteEffect m w)

end Sys2Proof.Machine
end

