-- ==== Sys2Proof/Machine/Uart.lean ====
section
/-! DEFINITION. The serial character ports (16_uarts.md R458 to R485). -/

namespace Sys2Proof.Machine

def getUa (s : State) (n : Fin 18) : Ua := s.ua[n.val]

/-! ### Settings of a UART's group -/

def uaEn (g : UaGroup) : Bool := bit g.cfg 0
/-- D, the data bits. -/
def uaBits (g : UaGroup) : Nat := 5 + min (fld g.cfg 4 2) 4
/-- P: 1 when parity is enabled (R464). -/
def uaParBits (g : UaGroup) : Nat := if fld g.cfg 6 5 = 0 then 0 else 1
def uaOdd (g : UaGroup) : Bool := fld g.cfg 6 5 == 2
def uaMsb (g : UaGroup) : Bool := bit g.cfg 9
def uaInv (g : UaGroup) : Bool := bit g.cfg 10
def uaIr (g : UaGroup) : Bool := bit g.cfg 13
/-- DIV; 0 acts as 1 (R462). -/
def uaDiv (g : UaGroup) : Nat := max (fld g.div 15 0) 1
/-- A sample period in ticks: DIV peripheral clocks of 4 ticks. -/
def samplePeriod (g : UaGroup) : Nat := 4 * uaDiv g
/-- Stop bits in sample periods (R458). -/
def stopPeriods (g : UaGroup) : Nat := match fld g.cfg 8 7 with | 0 => 16 | 1 => 24 | _ => 32

/-- An invalid group (R478). -/
def uaInvalid (g : UaGroup) : Bool :=
  decide (4 < fld g.cfg 4 2) || fld g.cfg 6 5 == 3 || fld g.cfg 8 7 == 3 || (uaIr g && decide (uaDiv g < 54))

def uaAct (s : State) (n : Fin 18) : UaGroup := (getUa s n).group.active

/-- The UART sends and receives. -/
def uaLive (s : State) (n : Fin 18) : Bool := uaEn (uaAct s n) && !(getUa s n).cfgBad

/-- A character is being sent. -/
def uaSending (s : State) (n : Fin 18) : Bool := (getUa s n).frame.any fun f => decide (s.clock < f.end_)

/-! ### The bit pipeline (R458, R459, R461) -/

/-- Logical data bits in the order sent: least significant first, or D−1 first. -/
def orderBits (g : UaGroup) (bs : List Bool) : List Bool := if uaMsb g then bs.reverse else bs

/-- The D data bits of a character, least significant first. -/
def dataBits (g : UaGroup) (c : BitVec 9) : List Bool := (List.range (uaBits g)).map fun i => bit c i

/-- The parity bit over logical data (R458). -/
def parityBit (g : UaGroup) (bs : List Bool) : Bool := ((bs.filter id).length % 2 == 1) != uaOdd g

/-- The framed levels of a character: start, data, parity and the first stop bit (R459, steps 1 to 5). -/
def framed (g : UaGroup) (c : BitVec 9) : List Bool :=
  let bs := dataBits g c
  let body := orderBits g bs ++ (if uaParBits g = 1 then [parityBit g bs] else [])
  [false] ++ body.map (fun b => b != uaInv g) ++ [true]

/-- The number that bits spell, least significant first. -/
def ofBits : List Bool → Nat
  | [] => 0
  | b :: r => (if b then 1 else 0) + 2 * ofBits r

/-- The data and the parity mismatch of received bits (R459). -/
def unframe (g : UaGroup) (bits : List Bool) : BitVec 9 × Bool :=
  let raw := bits.map fun b => b != uaInv g
  let bs := orderBits g (raw.take (uaBits g))
  (BitVec.ofNat 9 (ofBits bs), uaParBits g == 1 && (raw.drop (uaBits g)).headD false != parityBit g bs)

/-! ### FIFOs and counters (R470, R471, R480) -/

/-- Places of the counters in the tally: FE, PE, OVR, BREAK, IR_FLOOD, DISCARD, TX_LOST. -/
def uaBump (u : Ua) (i : Fin 7) : Ua := { u with tally := u.tally.bump i }

/-- A character held over a full FIFO replaces the newest entry, with OVR (R470). -/
def uaSettle (u : Ua) : Ua :=
  match u.rxHeld with
  | none => u
  | some c =>
    if u.rx.length < 16 then { u with rx := u.rx ++ [c], rxHeld := none }
    else
      { u with rx := u.rx.take 15 ++ [{ c with ovr := true }], rxHeld := none, flags := u.flags.set 4, tally := u.tally.bump 2 }

/-- A character stored, with its flags and counts. One that finds the FIFO full is held to the end of the tick, in which a read
may still free an entry (R480). -/
def uaPush (c : RxChar) (u : Ua) : Ua :=
  let u := uaSettle u
  let u := { u with
    flags := ((u.flags.setIf c.fe 2).setIf c.pe 3).setIf c.brk 5,
    tally := ((u.tally.bumpIf c.fe 0).bumpIf c.pe 1).bumpIf c.brk 3 }
  if u.rx.length < 16 then { u with rx := u.rx ++ [c] } else { u with rxHeld := some c }

/-- A character discarded and counted in DISCARD. -/
def uaDiscard (s : State) (n : Fin 18) : State := s.modUa n fun u => uaBump u 5

/-- A character lost in transmission. -/
def uaTxLost (u : Ua) : Ua := { u with flags := u.flags.set 7, tally := u.tally.bump 6 }

/-- An entry of the RX FIFO as UA_RXDATA shows it. -/
def rxWord (c : RxChar) : Word :=
  c.data.setWidth 32 ||| putB 12 c.fe ||| putB 13 c.pe ||| putB 14 c.brk ||| putB 15 c.ovr ||| putB 31 true

/-- UA_RXDATA as one read returns it, and the state with the oldest entry removed (R471); a character held over the full FIFO
takes the freed entry (R480). -/
def uaRxRead (s : State) (n : Fin 18) : Word × State :=
  match (getUa s n).rx with
  | [] => (0, s)
  | c :: r => (rxWord c, s.modUa n fun u => uaSettle { u with rx := r })

/-! ### Connections (R239, R477) -/

/-- The channel whose serial pair connects to UAn: the lowest-numbered one that names it. -/
def uaChannel (s : State) (n : Fin 18) : Option (Fin 16) :=
  (allFin 16).find? fun c => !s.cap[c.val].serNone && s.cap[c.val].serUart.toNat == n.val

/-- What the receiver listens to: its own transmitter, a line, or nothing, which is the idle level. Receivers are off before
release (R44). -/
inductive UaSource where
  | own
  | line (l : UaLine)
  | idle
  deriving DecidableEq, Repr

/-- The connection in force. -/
def uaSource (s : State) (n : Fin 18) : UaSource :=
  let u := getUa s n
  if u.loop then .own
  else if u.pins then
    match sigPin s (sigRxd n) with
    | some p => .line (.pin p)
    | none => .idle
  else if !pinsLive s then .idle
  else
    match uaChannel s n with
    | some c => .line (.serTfg c)
    | none => .idle

/-! ### The transmitter's line (R458 to R460, R473, R477) -/

/-- The framed level of a character in a tick, none outside it. -/
def frameLevel (f : TxFrame) (t : Nat) : Option Bool :=
  if f.from_ ≤ t ∧ t < f.end_ then some (f.bits.getD ((t - f.from_) / f.unit) true) else none

/-- The framed level in a tick: a character's, then 0 during a break, else 1. -/
def framedAt (u : Ua) (t : Nat) : Bool :=
  match u.frame.bind fun f => frameLevel f t with
  | some b => b
  | none =>
    match u.before.bind fun f => frameLevel f t with
    | some b => b
    | none => !(u.brk && decide (u.brkFrom ≤ t))

/-- The ticks of an IrDA pulse (R473): 3 sample periods, or 163 peripheral clocks. -/
def pulseTicks (g : UaGroup) : Nat := if bit g.cfg 14 then 652 else 3 * samplePeriod g

/-- The first tick of the bits that the line carries in tick t: the character's, or the break's. -/
def bitsFrom (u : Ua) (t : Nat) : Nat :=
  match u.frame with
  | some f => if t < f.end_ then f.from_ else max u.brkFrom f.end_
  | none => u.brkFrom

/-- The transmitter's signal before TX_LINE_INV: with IR_EN a pulse at the beginning of each framed 0 bit. -/
def txSignal (s : State) (n : Fin 18) : Bool :=
  let u := getUa s n
  let g := uaAct s n
  let level := !uaLive s n || framedAt u s.clock
  if uaIr g then !level && decide ((s.clock - bitsFrom u s.clock) % (16 * samplePeriod g) < pulseTicks g) else level

/-- The idle level of the transmitter's signal: framed 1, or no pulse. -/
def txIdle (g : UaGroup) : Bool := !uaIr g

/-- TXD: the idle level with LOOP, and at a connection that is not in force. -/
def txdLevel (s : State) (n : Fin 18) (connected : Bool) : Bool :=
  let g := uaAct s n
  (if connected && !(getUa s n).loop then txSignal s n else txIdle g) != bit g.cfg 11

/-- UAn_TXD at a multi-function pin (R514). -/
def uaTxd (s : State) (n : Fin 18) : Bool := txdLevel s n (getUa s n).pins

/-- The SerTC output of channel c: the UART connected to it, else mark (R239). -/
def serTcLevel (s : State) (c : Fin 16) : Bool :=
  match (allFin 18).find? fun n => !(getUa s n).pins && uaChannel s n == some c with
  | some n => if pinsLive s then txdLevel s n true else true
  | none => true

/-! ### Receiving (R463 to R467) -/

/-- What a sample period makes of a character: stored, discarded, or nothing yet. -/
inductive RxEvent where
  | none
  | store (c : RxChar)
  | discard
  deriving DecidableEq, Repr

/-- The character of a start sample, its data and parity samples and its stop sample (R464, R466); `early` when a change from 1 to 0
ended it (R465). -/
def rxChar (g : UaGroup) (bits : List Bool) (early : Bool) : RxChar :=
  let d := unframe g ((bits.drop 1).take (uaBits g + uaParBits g))
  if !early && bits.all (!·) then { data := 0, fe := true, pe := false, brk := true, ovr := false }
  else { data := d.1, fe := early || !bits.getLastD true, pe := d.2, brk := false, ovr := false }

/-- A sample period in which no character is in assembly (R463, R467). -/
def rxIdle (arm : RxArm) (level : Bool) : RxArm :=
  match arm with
  | .armed true => if level then .armed true else .assembling 0 [] false
  | .armed false => .armed level
  | _ => if level then .armed true else .waitMark

/-- One sample period of the receiver at a framed level: bit k is sampled at period 16k + 8, the stop bit is watched for a new start
up to its sample, and the period after that stores the character and re-arms. -/
def rxStep (g : UaGroup) (arm : RxArm) (level : Bool) : RxArm × RxEvent :=
  match arm with
  | .assembling p bits prev =>
    let q := p + 1
    let n := 1 + uaBits g + uaParBits g
    if q = 16 * n + 9 then
      let c := rxChar g bits false
      (rxIdle (if c.brk then .waitMark else .armed prev) level, .store c)
    else if decide (16 * n ≤ q) && prev && !level then (.assembling 0 [] false, .store (rxChar g bits true))
    else if q % 16 ≠ 8 then (.assembling q bits level, .none)
    else if q = 8 ∧ level then (.armed true, .discard)
    else (.assembling q (bits ++ [level]) level, .none)
  | _ => (rxIdle arm level, .none)

/-- One sample period of UAn. -/
def uaSample (n : Fin 18) (level : Bool) (s : State) : State :=
  s.modUa n fun u =>
    let (arm, ev) := rxStep u.group.active u.arm level
    let u := { u with arm := arm }
    match ev with
    | .none => u
    | .store c => uaPush c u
    | .discard => uaBump u 5

/-- A pulse accepted in tick p holds the framed level at 0 for 16 sample periods (R474). -/
def irLow (u : Ua) (t : Nat) : Bool :=
  u.pulses.any fun p => decide (p ≤ t ∧ t < p + 16 * samplePeriod u.group.active)

/-- The framed levels of m sample periods that end now, from a level by tick. -/
def pastLevels (s : State) (n : Fin 18) (m : Nat) (at_ : Nat → Bool) : List Bool :=
  (List.range m).map fun k => at_ (s.clock - (m - 1 - k) * samplePeriod (uaAct s n))

/-- The framed levels that the receiver examines, none where the line named is not the one it listens to. With LOOP it sees its own
signal, but for IrDA, where its own pulses are blanked (R476, R477). -/
def rxLevels (s : State) (n : Fin 18) (rx : UaSamples) : Option (List Bool) :=
  let u := getUa s n
  let g := uaAct s n
  let m := rx.levels.length
  match uaSource s n with
  | .own => some (if uaIr g then List.replicate m true else pastLevels s n m (framedAt u))
  | .line l =>
    if uaIr g then some (pastLevels s n m fun t => !irLow u t)
    else if l = rx.line then some (rx.levels.map fun b => b != bit g.cfg 12)
    else none
  | .idle => some (List.replicate m (uaIr g || !bit g.cfg 12))

/-- CHARACTER_RECEIVE (R463 to R467): the sample periods since the last one examined; in QUIET the receiver is not armed (R475). -/
def characterReceiveEffect (n : Fin 18) (rx : UaSamples) (s : State) : State :=
  if !uaLive s n || (getUa s n).quiet then s
  else
    match rxLevels s n rx with
    | none => s
    | some ls => forEach ls (uaSample n) s

/-- A character is in assembly. -/
def inAssembly (u : Ua) : Bool := match u.arm with | .assembling .. => true | _ => false

/-! ### Transmitting (R458, R460, R472, R476, R481) -/

/-- The transmitter takes the next character. -/
def uaCanSend (s : State) (n : Fin 18) : Bool :=
  let u := getUa s n
  uaLive s n && !u.brk && !uaSending s n && decide (u.gapUntil ≤ s.clock) && !u.tx.isEmpty

/-- A character begins on the line in the present tick. -/
def newFrame (s : State) (g : UaGroup) (c : BitVec 9) : TxFrame :=
  { from_ := s.clock, unit := 16 * samplePeriod g, bits := framed g c,
    end_ := s.clock + samplePeriod g * (16 * (1 + uaBits g + uaParBits g) + stopPeriods g) }

/-- CHARACTER_TRANSMIT (R458, R472, R476): the next character of the TX FIFO begins. With IR_EN one in assembly is discarded. -/
def characterTransmitEffect (n : Fin 18) (s : State) : State :=
  let g := uaAct s n
  if uaCanSend s n then
    let s := if uaIr g && inAssembly (getUa s n) then (uaDiscard s n).modUa n fun u => { u with arm := .waitMark } else s
    s.modUa n fun u =>
      match u.tx with
      | [] => u
      | c :: r => { u with tx := r, before := u.frame, frame := some (newFrame s g c) }
  else s

/-- UA_TXDATA_WRITE (R471): a transmitter that can take a character from a full FIFO in this tick does so first (R481). -/
def uaTxWriteEffect (n : Fin 18) (c : BitVec 9) (s : State) : State :=
  let s := if 16 ≤ (getUa s n).tx.length then characterTransmitEffect n s else s
  s.modUa n fun u => if 16 ≤ u.tx.length then uaTxLost u else { u with tx := u.tx ++ [c] }

/-- The tick in which the character on the line ends, or the present one. -/
def lineFree (s : State) (u : Ua) : Nat :=
  match u.frame with
  | some f => max s.clock f.end_
  | none => s.clock

/-- UA_CTRL.BREAK (R460): after it, level 1 for one bit time before the next character. -/
def breakEffect (n : Fin 18) (v : Bool) (s : State) : State :=
  let g := uaAct s n
  s.modUa n fun u =>
    if u.brk == v then u
    else if v then { u with brk := true, brkFrom := s.clock }
    else { u with brk := false, gapUntil := lineFree s u + 16 * samplePeriod g }

/-! ### IrDA (R474 to R476, R482) -/

/-- Light that the receiver does not see: during its own character and one bit time after it (R476). -/
def irBlind (s : State) (u : Ua) : Bool := u.frame.any fun f => decide (s.clock < f.end_ + f.unit)

/-- The receiver sees light: IR_EN is set, and a line that carries it is connected. -/
def seesLight (s : State) (n : Fin 18) : Bool :=
  uaLive s n && uaIr (uaAct s n) && !irBlind s (getUa s n) &&
    match uaSource s n with | .line _ => true | _ => false

/-- IR_PULSE_ACCEPT (R474): framed level 0 for 16 sample periods. Pulses older than a character are dropped. -/
def irPulseEffect (n : Fin 18) (s : State) : State :=
  if seesLight s n && !(getUa s n).quiet then
    s.modUa n fun u =>
      { u with pulses := s.clock :: u.pulses.filter fun p => decide (s.clock < p + 16 * 16 * samplePeriod u.group.active) }
  else s

/-- IR_FLOOD (R475, R482): the character in assembly is discarded and not stored, and the framed level is held at 1. -/
def irFloodEffect (n : Fin 18) (s : State) : State :=
  if seesLight s n then
    s.modUa n fun u =>
      { u with quiet := true, quietFrom := s.clock, arm := .waitMark, pulses := [], flags := u.flags.set 6, tally := u.tally.bump 4 }
  else s

/-- QUIET_EXIT (R475, R467): not before 16 sample periods have passed since the flood. -/
def quietExitEffect (n : Fin 18) (s : State) : State :=
  s.modUa n fun u =>
    if u.quietFrom + 16 * samplePeriod u.group.active ≤ s.clock then { u with quiet := false } else u

/-! ### Actions, routing and settings (R477, R478, R483 to R485) -/

def uaRxFlushEffect (n : Fin 18) (s : State) : State := s.modUa n fun u => { u with rx := [] }
def uaTxFlushEffect (n : Fin 18) (s : State) : State := s.modUa n fun u => { u with tx := [] }
def uaCntClearEffect (n : Fin 18) (s : State) : State := s.modUa n fun u => { u with tally := u.tally.clear }

/-- Characters in progress across a change of settings or connection (R477, R478). -/
def uaCut (s : State) (n : Fin 18) : State :=
  let s := if uaSending s n then s.modUa n uaTxLost else s
  let s := if inAssembly (getUa s n) then uaDiscard s n else s
  s.modUa n fun u => { u with arm := .waitMark, pulses := [], frame := none, before := none }

/-- UA_ROUTE_WRITE (R477). -/
def uaRouteEffect (n : Fin 18) (pins loop : Bool) (s : State) : State :=
  let u := getUa s n
  if u.pins == pins && u.loop == loop then s else (uaCut s n).modUa n fun u => { u with pins := pins, loop := loop }

/-- The UARTs whose connection a change of the capture channels' routing alters (R477). -/
def uaRerouted (before after : State) : List (Fin 18) :=
  (allFin 18).filter fun n =>
    !(getUa after n).loop && !(getUa after n).pins && uaChannel before n != uaChannel after n

/-- CAP_SER of channel c written (R239, R477). -/
def capSerWrite (c : Fin 16) (w : Word) (s : State) : State :=
  let t := s.modCap c fun x => { x with serUart := BitVec.ofNat 5 (fld w 4 0), serNone := bit w 7 }
  forEach (uaRerouted s t) (fun n t => uaCut t n) t

/-- UA_COMMIT_APPLY (R478, R485). -/
def uaCommitEffect (n : Fin 18) (s : State) : State :=
  if (getUa s n).group.pending then
    let s := uaCut s n
    s.modUa n fun u =>
      let bad := uaInvalid u.group.shadow
      { u with group := u.group.apply, cfgBad := bad, quiet := false, flags := u.flags.setIf bad 8 }
  else s

/-- The end of a tick in UAn. -/
def uaTickEnd (u : Ua) : Ua :=
  let u := uaSettle u
  { u with tally := u.tally.age }

/-! ### Registers of UA -/

/-- UA_FLAGS with its two levels. -/
def uaFlags (u : Ua) : BitVec 9 :=
  let g := u.group.active
  assignBit (assignBit u.flags.bits 0 (decide (fld g.cfg 19 16 < u.rx.length))) 1 (decide (u.tx.length ≤ fld g.cfg 23 20))

/-- An enabled flag of UAn is set. -/
def uaFlagged (u : Ua) : Bool := uaFlags u &&& u.flagEn != 0

/-- UA_STAT's CONN and CHAN. -/
def uaConn (s : State) (n : Fin 18) : Word :=
  let u := getUa s n
  if u.loop then put 20 3
  else if u.pins then put 20 2
  else match uaChannel s n with
    | some c => put 20 1 ||| put 24 c.val
    | none => 0

/-- Reads of UAn by offset, UA_RXDATA excepted. -/
def uaRead (s : State) (n : Fin 18) (off : Nat) : Word :=
  let u := getUa s n
  match off with
  | 0x00 => u.group.look.cfg
  | 0x04 => u.group.look.div
  | 0x08 => u.group.word
  | 0x0C => putB 0 u.pins ||| putB 1 u.loop
  | 0x10 => putB 8 u.brk
  | 0x14 => put 0 u.rx.length ||| put 8 u.tx.length ||| putB 16 (uaSending s n || (uaLive s n && u.brk)) |||
      putB 17 (inAssembly u) ||| putB 18 u.quiet ||| putB 19 u.cfgBad ||| uaConn s n
  | 0x20 => (uaFlags u).setWidth 32
  | 0x24 => u.flagEn.setWidth 32
  | 0x30 => put 0 (u.tally.at_ 0) ||| put 8 (u.tally.at_ 1) ||| put 16 (u.tally.at_ 2) ||| put 24 (u.tally.at_ 3)
  | 0x34 => put 0 (u.tally.at_ 4) ||| put 8 (u.tally.at_ 5) ||| put 16 (u.tally.at_ 6)
  | 0xF0 => (allFin 18).foldl (fun w m => w ||| putB m.val (uaFlagged (getUa s m))) 0
  | _ => 0

/-- Writes of UAn by offset. -/
def uaWrite (n : Fin 18) (off : Nat) (w : Word) (s : State) : State :=
  match off with
  | 0x00 => s.modUa n fun u => { u with group := u.group.write fun g => { g with cfg := w &&& 0x00FF_7FFD } }
  | 0x04 => s.modUa n fun u => { u with group := u.group.write fun g => { g with div := w &&& 0xFFFF } }
  | 0x08 => s.modUa n fun u => { u with group := u.group.commitWrite w }
  | 0x0C => uaRouteEffect n (bit w 0) (bit w 1) s
  | 0x10 =>
    let s := if bit w 0 then uaRxFlushEffect n s else s
    let s := if bit w 1 then uaTxFlushEffect n s else s
    let s := if bit w 2 then uaCntClearEffect n s else s
    breakEffect n (bit w 8) s
  | 0x18 => uaTxWriteEffect n (w.setWidth 9) s
  | 0x20 => s.modUa n fun u => { u with flags := u.flags.clear w }
  | 0x24 => s.modUa n fun u => { u with flagEn := w.setWidth 9 }
  | _ => s

/-- Attention flags of UA that are set and enabled (R81). -/
def uaAttn (s : State) : Bool := s.ua.toList.any uaFlagged

/-! ### The commands of the UARTs -/

def execCharacterReceive (n : Fin 18) (rx : UaSamples) (s : State) : Out := onSys s (characterReceiveEffect n rx)
def execCharacterTransmit (n : Fin 18) (s : State) : Out := onSys s (characterTransmitEffect n)
def execIrPulseAccept (n : Fin 18) (s : State) : Out := onSys s (irPulseEffect n)
def execIrFlood (n : Fin 18) (s : State) : Out := onSys s (irFloodEffect n)
def execQuietExit (n : Fin 18) (s : State) : Out := onSys s (quietExitEffect n)
def execUaTxdataWrite (n : Fin 18) (data : BitVec 9) (s : State) : Out := onSys s (uaTxWriteEffect n data)
def execUaRxFlush (n : Fin 18) (s : State) : Out := onSys s (uaRxFlushEffect n)
def execUaTxFlush (n : Fin 18) (s : State) : Out := onSys s (uaTxFlushEffect n)
def execUaCntClear (n : Fin 18) (s : State) : Out := onSys s (uaCntClearEffect n)
def execBreak (n : Fin 18) (v : Bool) (s : State) : Out := onSys s (breakEffect n v)
def execUaRouteWrite (n : Fin 18) (pins loop : Bool) (s : State) : Out := onSys s (uaRouteEffect n pins loop)
def execUaCommitApply (n : Fin 18) (s : State) : Out := onSys s (uaCommitEffect n)

end Sys2Proof.Machine
end

