-- ==== Sys2Proof/Machine/Pins.lean ====
section
/-! DEFINITION. Multi-function pins, pin interrupts and the housekeeping ADC (18_pins_interrupts_adc.md R513 to R536). -/

namespace Sys2Proof.Machine

/-! ### What the device drives at a pin (R44, R513 to R519) -/

/-- The output of the peripheral signal that SIG names, none for an input and for 50 to 63 (R514). -/
def signalOut (s : State) (sig : Nat) : Option Bool :=
  if sig < 18 then some (uaTxd s (Fin.ofNat 18 sig))
  else if 36 ≤ sig ∧ sig < 50 then spcOut s (Fin.ofNat 2 ((sig - 36) / 7)) ((sig - 36) % 7)
  else none

/-- The output of the pin's function, before OD. An output signal given to several pins drives all of them (R515). -/
def functionOut (s : State) (p : Fin 96) : Option Bool :=
  let w := getPin s p
  match pinFunc w with
  | 0 => if bit s.pio.oe[pinBank p] (p.val % 16) then some (bit s.pio.out[pinBank p] (p.val % 16)) else none
  | 1 => if pinIsolated s p then none else Config.fabricPin (imageSig s) s.clock p.val
  | 2 => signalOut s (pinSig w)
  | _ => none

/-- What the device drives at pin p, none while it is high-impedance: before release and after a failed configuration (R44), and for
a 1 under OD (R517). EXTEST drives the pins by itself (R132). -/
def pinDrive (s : State) (p : Fin 96) : Option Bool :=
  match extestDrive s p.val with
  | some d => d
  | none =>
    if !released s then none
    else
      match functionOut s p with
      | some true => if pinOd (getPin s p) then none else some true
      | d => d

/-- The level at the ball of a pin. -/
def ballLevel (s : State) (p : Fin 96) : Bool := (pinDrive s p).getD (padLevel s p)

/-- The level after the input buffer: 0 for FUNC 3 (R516). -/
def pinLevel (s : State) (p : Fin 96) : Bool := !pinAnalog s p && ballLevel s p

/-- The level of a pin's input that the device alone determines: 0 for FUNC 3, or what it drives. -/
def ownLevel (s : State) (p : Fin 96) : Option Bool := if pinAnalog s p then some false else pinDrive s p

/-- A pin whose FUNC 3 is not valid sets FUNC_BAD (R516). -/
def funcBad (p : Fin 96) (w : Word) : Bool := pinFunc w == 3 && decide (16 ≤ p.val)

/-- PIO_PIN(p) written: all its fields in one clock (R518). -/
def pioPinWrite (p : Fin 96) (w : Word) (s : State) : State :=
  s.modPio fun x =>
    { x with pin := upd x.pin p fun _ => w &&& pinMask, flags := if funcBad p w then x.flags.set 16 else x.flags }

/-- PIO_OUT_SET (R533). -/
def pioSetEffect (b : Fin 6) (m : BitVec 16) (s : State) : State :=
  s.modPio fun x => { x with out := upd x.out b fun o => o ||| m }

/-- PIO_OUT_CLR (R533). -/
def pioClrEffect (b : Fin 6) (m : BitVec 16) (s : State) : State :=
  s.modPio fun x => { x with out := upd x.out b fun o => o &&& ~~~ m }

/-- The registers take the image's initial values in the release clock after a pin or soft reset (R518). -/
def pioRelease (s : State) : State :=
  let sig := imageSig s
  let v := Config.pioInit sig
  s.modPio fun x =>
    { x with pin := Vector.ofFn fun p : Fin 96 => v p.val &&& pinMask,
             out := Vector.ofFn fun b : Fin 6 => (v (96 + b.val)).setWidth 16,
             oe := Vector.ofFn fun b : Fin 6 => (v (102 + b.val)).setWidth 16,
             flags := if (allFin 96).any fun p => funcBad p (v p.val) then x.flags.set 16 else x.flags }

/-! ### Pin-interrupt lines (R521 to R524, R530 to R532) -/

def getPil (s : State) (k : Fin 16) : Pil := s.pio.pil[k.val]
def pilBank (w : Word) : Nat := fld w 2 0
def pilMode (w : Word) : Nat := fld w 6 4
/-- The line is off: BANK 6 or 7, or MODE 0 (R521). -/
def pilOff (w : Word) : Bool := decide (6 ≤ pilBank w) || pilMode w == 0

/-- An accepted change to a level is an active edge in the mode (R523, R524). -/
def pilActive (mode : Nat) (level : Bool) : Bool :=
  match mode with
  | 1 => level
  | 2 => !level
  | 3 => true
  | 4 => level
  | 5 => !level
  | _ => false

/-- A HIGH or LOW line whose level holds (R523). -/
def pilHolds (l : Pil) : Bool := !pilOff l.cfg && ((pilMode l.cfg == 4 && l.level) || (pilMode l.cfg == 5 && !l.level))

/-- HIGH and LOW lines whose level holds set their flags in every peripheral clock. -/
def pilRefresh (p : Pio) : Pio :=
  { p with flags := (allFin 16).foldl (fun f k => f.setIf (pilHolds p.pil[k.val]) k.val) p.flags }

/-- The pin that a line watches. -/
def pilPin (k : Fin 16) (cfg : Word) : Fin 96 := Fin.ofNat 96 (16 * pilBank cfg + k.val)

/-- PIL_CFG_WRITE (R530): with another BANK or FILTER the accepted level becomes the new pin's, the count of agreeing samples restarts,
and no edge is reported. A line without a bank keeps its level. -/
def pilCfgEffect (k : Fin 16) (v : Word) (s : State) : State :=
  let w := v &&& 0x0001_FF77
  let old := (getPil s k).cfg
  let level := if pilBank old = pilBank w then (getPil s k).raw else pinLevel s (pilPin k w)
  let moved := (pilBank old != pilBank w || fld old 15 8 != fld w 15 8) && decide (pilBank w < 6)
  s.modPil k fun l => if moved then { l with cfg := w, raw := level, level := level, agree := 0 } else { l with cfg := w }

/-- A peripheral clock ends in the present tick. -/
def pclkEnds (s : State) : Bool := s.clock % 4 == 0

/-- The line takes a sample in the present tick (R522): every peripheral clock, or with FUNIT = 1 the one in which the time base is a
multiple of 400. -/
def pilSamples (s : State) (w : Word) : Bool := pclkEnds s && (!bit w 16 || decide (now s % 400 < 4))

/-- F + 1 samples in a row, the one of this tick included, differ from the accepted level (R522). -/
def pilRipe (s : State) (k : Fin 16) : Bool :=
  let l := getPil s k
  !pilOff l.cfg && pilSamples s l.cfg && l.raw != l.level && decide (fld l.cfg 15 8 ≤ l.agree)

/-- The synchronizer of line k shows a level: that of the device where it drives the pin or has switched its input off. -/
def pilInput (k : Fin 16) (level : Bool) (s : State) : State :=
  let l := getPil s k
  if pilOff l.cfg then s
  else
    let r := (ownLevel s (pilPin k l.cfg)).getD level
    if r = l.raw then s else s.modPil k fun l => { l with raw := r, agree := 0 }

/-- The line accepts its level (R523, R524, R532). -/
def pilAccept (k : Fin 16) (s : State) : State :=
  let level := (getPil s k).raw
  let s := s.modPil k fun l => { l with level := level, agree := 0 }
  if pilActive (pilMode (getPil s k).cfg) level then
    let missed := s.pio.flags.on k.val
    let s := s.modPil k fun l =>
      { l with edges := l.edges + 1, stamp := s.time, missed := if missed then satInc l.missed else l.missed }
    s.modPio fun p => { p with flags := p.flags.set k.val }
  else s

/-- PIL_ACTIVE_EDGE (R522 to R524, R532): the level at the line's synchronizer; at the end of a tick it is accepted where the filter has
seen it long enough. -/
def pilEdgeEffect (k : Fin 16) (level : Bool) (s : State) : State :=
  let s := pilInput k level s
  if s.moment.late && pilRipe s k then pilAccept k s else s

/-- The end of a tick in line k: the device's own level shows, and a sample is counted (R522). -/
def pilTickEnd (s : State) (k : Fin 16) : State :=
  let s := pilInput k (getPil s k).raw s
  let l := getPil s k
  if pilOff l.cfg || !pilSamples s l.cfg then s
  else s.modPil k fun l => { l with agree := if l.raw = l.level then 0 else l.agree + 1 }

/-- The end of a tick at the pins: what the keepers hold, the samples of the lines, and the level lines' flags (R517, R522, R523). -/
def pioTickEnd (s : State) : State :=
  let k := Vector.ofFn fun p : Fin 96 => ballLevel s p
  let s := forEach (allFin 16) (fun k s => pilTickEnd s k) s
  s.modPio fun x => let x := { x with kept := k }; if pclkEnds s then pilRefresh x else x

/-- PIO_CNT_CLEAR (R524). -/
def pioCntClearEffect (s : State) : State :=
  s.modPio fun p => { p with pil := p.pil.map fun l => { l with edges := 0, missed := 0 } }

/-! ### Registers of PIO -/

/-- PIO_IN(b). -/
def pioInWord (s : State) (b : Fin 6) : Word :=
  (List.range 16).foldl (fun w n => w ||| putB n (pinLevel s (Fin.ofNat 96 (16 * b.val + n)))) 0

/-- PIO_OUT(b), which PIO_OUT_SET and PIO_OUT_CLR read as well. -/
def shownOut (s : State) (b : Fin 6) : Word := if released s then s.pio.out[b.val].setWidth 32 else 0

/-- Reads of the PIO block by offset. Before release and after a failed configuration PIO_PIN, PIO_OUT and PIO_OE read 0 (R518). -/
def pioRead (s : State) (off : Nat) : Word :=
  let p := s.pio
  let b : Fin 6 := Fin.ofNat 6 ((off - 0x200) / 32)
  let k : Fin 16 := Fin.ofNat 16 ((off - 0x400) / 32)
  let l := p.pil[k.val]
  if off < 0x180 then (if released s then p.pin[(Fin.ofNat 96 (off / 4)).val] else 0)
  else if 0x200 ≤ off ∧ off < 0x2C0 then
    match (off / 4) % 8 with
    | 0 => shownOut s b
    | 1 => shownOut s b
    | 2 => shownOut s b
    | 3 => if released s then p.oe[b.val].setWidth 32 else 0
    | 4 => pioInWord s b
    | _ => 0
  else if 0x400 ≤ off ∧ off < 0x600 then
    match (off / 4) % 8 with
    | 0 => l.cfg
    | 1 => put 0 l.edges.toNat ||| put 16 l.missed.toNat
    | 2 => l.stamp.setWidth 32
    | 3 => (l.stamp >>> 32).setWidth 32
    | _ => 0
  else if off = 0x600 then (allFin 16).foldl (fun w k => w ||| putB k.val p.pil[k.val].level) 0
  else if off = 0x610 then p.flags.word
  else if off = 0x614 then p.flagEn.setWidth 32
  else 0

/-- Writes of the PIO block by offset. -/
def pioWrite (off : Nat) (w : Word) (s : State) : State :=
  let b : Fin 6 := Fin.ofNat 6 ((off - 0x200) / 32)
  if off < 0x180 then pioPinWrite (Fin.ofNat 96 (off / 4)) w s
  else if 0x200 ≤ off ∧ off < 0x2C0 then
    match (off / 4) % 8 with
    | 0 => s.modPio fun p => { p with out := upd p.out b fun _ => w.setWidth 16 }
    | 1 => pioSetEffect b (w.setWidth 16) s
    | 2 => pioClrEffect b (w.setWidth 16) s
    | 3 => s.modPio fun p => { p with oe := upd p.oe b fun _ => w.setWidth 16 }
    | _ => s
  else if 0x400 ≤ off ∧ off < 0x600 then
    if (off / 4) % 8 = 0 then pilCfgEffect (Fin.ofNat 16 ((off - 0x400) / 32)) w s else s
  else if off = 0x610 then s.modPio fun p => { p with flags := p.flags.clear w }
  else if off = 0x614 then s.modPio fun p => { p with flagEn := w.setWidth 17 }
  else if off = 0x620 then (if bit w 0 then pioCntClearEffect s else s)
  else s

/-- Attention flags of PIO that are set and enabled (R81). -/
def pioAttn (s : State) : Bool := s.pio.flags.raised s.pio.flagEn

/-! ### The housekeeping ADC (R525 to R529, R535, R536) -/

def adcEn (g : AdcGroup) : Bool := bit g.cfg 0
def adcCont (g : AdcGroup) : Bool := bit g.cfg 1
/-- AVG; 5 to 7 act as 4. -/
def adcAvg (g : AdcGroup) : Nat := min (fld g.cfg 6 4) 4
/-- PERIOD in ticks. -/
def adcPeriod (g : AdcGroup) : Nat := 400 * fld g.cfg 31 16

/-- The lowest enabled channel from c upward. -/
def adcNext (g : AdcGroup) (c : Nat) : Option (Fin 20) := (allFin 20).find? fun k => decide (c ≤ k.val) && bit g.mask k.val

/-- A channel among 0 to 15 whose pin is not ANALOG is skipped (R527). -/
def adcSkips (s : State) (c : Fin 20) : Bool := decide (c.val < 16) && !pinAnalog s (Fin.ofNat 96 c.val)

/-- The end of a scan (R528). -/
def adcScanDone (s : State) : State :=
  s.modAdc fun a => { a with scanning := false, scanCount := a.scanCount + 1, flags := a.flags.set 20 }

/-- Conversion of the channel from c upward, or the end of the scan. -/
def adcChannel (s : State) (c : Nat) : State :=
  match adcNext s.adc.group.active c with
  | some k => s.modAdc fun a => { a with scanning := true, channel := k, skip := adcSkips s k, channelFrom := s.clock }
  | none => adcScanDone s

/-- A scan starts (R526). -/
def adcStart (s : State) : State := adcChannel (s.modAdc fun a => { a with due := false, lastStart := s.clock }) 0

/-- HKADC_START (R526): a START during a scan has no effect, but for one in the tick in which the scan ends (R9). -/
def hkadcStartEffect (s : State) : State :=
  if !adcEn s.adc.group.active then s
  else if s.adc.scanning then noteRetry .hkadc s
  else adcStart s

/-- SCAN_PERIOD (R526, R535): a scan that still runs at a start time is followed at once by the next. -/
def scanPeriodEffect (s : State) : State :=
  let g := s.adc.group.active
  if adcEn g && adcCont g && decide (s.adc.lastStart + adcPeriod g ≤ s.clock) then
    if s.adc.scanning then s.modAdc fun a => { a with due := true } else adcStart s
  else s

/-- The ticks that the conversions of a channel take: 1 µs each (R525, R526). -/
def adcTicks (g : AdcGroup) : Nat := 400 * 2 ^ adcAvg g

/-- The conversions of the channel have ended. -/
def adcRipe (s : State) : Bool :=
  s.adc.scanning && decide (s.adc.channelFrom + adcTicks s.adc.group.active ≤ s.clock)

/-- The result of a channel: the mean of its conversions, or 0 where it is skipped (R526, R527). -/
def adcValue (g : AdcGroup) (skip : Bool) (codes : List (BitVec 12)) : BitVec 12 :=
  let n := 2 ^ adcAvg g
  if skip then 0 else BitVec.ofNat 12 (((codes.take n).map (·.toNat)).sum / n)

/-- After a scan the next one starts at once where a start time has passed, PERIOD is 0, or a START was written in this tick. -/
def adcNextScan (s : State) : State :=
  let g := s.adc.group.active
  if !s.adc.scanning && (s.adc.due || (adcCont g && adcPeriod g == 0) || s.moment.retry.contains .hkadc) then adcStart s else s

/-- CHANNEL_RESULT (R526 to R528): the codes of the channel's conversions, at their end. -/
def channelResultEffect (codes : List (BitVec 12)) (s : State) : State :=
  let a := s.adc
  let g := a.group.active
  if !adcRipe s || (!a.skip && decide (codes.length < 2 ^ adcAvg g)) then s
  else
    let v := adcValue g a.skip codes
    let lim := g.lim[a.channel.val]
    let out := !a.skip && (decide (v.toNat < fld lim 11 0) || decide (fld lim 27 16 < v.toNat))
    let s := s.modAdc fun a =>
      { a with res := upd a.res a.channel fun _ => { value := v, valid := true, skipped := a.skip, scan := a.scanCount.setWidth 8 },
               flags := a.flags.setIf out a.channel.val }
    adcNextScan (adcChannel s (a.channel.val + 1))

/-- HKADC_COMMIT_APPLY (R529, R536). -/
def hkadcCommitEffect (s : State) : State :=
  if s.adc.group.pending then
    let was := adcEn s.adc.group.active
    let running := s.adc.scanning
    let s := s.modAdc fun a => { a with group := a.group.apply, scanning := false }
    let g := s.adc.group.active
    if !adcEn g then s.modAdc fun a => { a with due := false }
    else if running then adcChannel s 0
    else if !was && adcCont g then adcStart s
    else s
  else s

/-- Reads of the HKADC block by offset. -/
def adcRead (s : State) (off : Nat) : Word :=
  let a := s.adc
  let r := a.res[(Fin.ofNat 20 ((off - 0x100) / 4)).val]
  if off = 0x000 then a.group.look.cfg
  else if off = 0x004 then a.group.look.mask
  else if off = 0x008 then a.group.word
  else if off = 0x010 then putB 0 a.scanning ||| put 8 a.channel.val ||| put 16 a.scanCount.toNat
  else if off = 0x018 then a.flags.word
  else if off = 0x01C then a.flagEn.setWidth 32
  else if 0x100 ≤ off ∧ off < 0x150 then put 0 r.value.toNat ||| putB 16 r.valid ||| putB 17 r.skipped ||| put 24 r.scan.toNat
  else if 0x200 ≤ off ∧ off < 0x250 then a.group.look.lim[(Fin.ofNat 20 ((off - 0x200) / 4)).val]
  else 0

/-- Writes of the HKADC block by offset. -/
def adcWrite (off : Nat) (w : Word) (s : State) : State :=
  let wr := fun (f : AdcGroup → AdcGroup) => s.modAdc fun a => { a with group := a.group.write f }
  if off = 0x000 then wr fun g => { g with cfg := w &&& 0xFFFF_0073 }
  else if off = 0x004 then wr fun g => { g with mask := w &&& 0x000F_FFFF }
  else if off = 0x008 then s.modAdc fun a => { a with group := a.group.commitWrite w }
  else if off = 0x00C then (if bit w 0 then hkadcStartEffect s else s)
  else if off = 0x018 then s.modAdc fun a => { a with flags := a.flags.clear w }
  else if off = 0x01C then s.modAdc fun a => { a with flagEn := w.setWidth 21 }
  else if 0x200 ≤ off ∧ off < 0x250 then
    wr fun g => { g with lim := upd g.lim (Fin.ofNat 20 ((off - 0x200) / 4)) fun _ => w &&& 0x0FFF_0FFF }
  else s

/-- Attention flags of HKADC that are set and enabled (R81). -/
def adcAttn (s : State) : Bool := s.adc.flags.raised s.adc.flagEn

/-! ### The commands -/

def execPioOutSet (b : Fin 6) (mask : BitVec 16) (s : State) : Out := onSys s (pioSetEffect b mask)
def execPioOutClr (b : Fin 6) (mask : BitVec 16) (s : State) : Out := onSys s (pioClrEffect b mask)
def execPilCfgWrite (k : Fin 16) (value : Word) (s : State) : Out := onSys s (pilCfgEffect k value)
def execPilActiveEdge (k : Fin 16) (level : Bool) (s : State) : Out := onSys s (pilEdgeEffect k level)
def execPioCntClear (s : State) : Out := onSys s pioCntClearEffect
def execHkadcStart (s : State) : Out := onSys s hkadcStartEffect
def execScanPeriod (s : State) : Out := onSys s scanPeriodEffect
def execChannelResult (codes : List (BitVec 12)) (s : State) : Out := onSys s (channelResultEffect codes)
def execHkadcCommitApply (s : State) : Out := onSys s hkadcCommitEffect

end Sys2Proof.Machine
end

