-- ==== Sys2Proof/Machine/Hl.lean ====
section
/-! DEFINITION. The herd link (12_herd_link.md R334 to R368): training, messages and forwarding, time alignment, positions,
herds, error counters and HERD_HALT_N. -/

namespace Sys2Proof.Machine

/-! ### Ports (R340, R355, R356) -/

/-- Port p is enabled in the active group. -/
def portEn (s : State) (p : Fin 2) : Bool := bit (hlCfg s) (8 + p.val)

/-- A port enters TRAIN: nothing measured, no run of good messages, 16 PROBEs to send, and nothing that waits for a slot (R340). -/
def portTrain (q : HlPort) : HlPort :=
  { q with st := .train, probesLeft := 16, probeAt := [], trips := [], goodRun := 0, fwd := [], timeDue := false, readyDue := 0 }

/-- TRAIN_START (R340): an enabled port that is DOWN while its lanes run. -/
def trainStartEffect (p : Fin 2) (s : State) : State :=
  if portEn s p && (getPort s p).st == .down && hlOn s then s.modPort p portTrain else s

/-- One good message received on port p: a run in TRAIN; on an UP port each 256th since the last decrement takes 1 from the
error counter, and an open fault closes at 0 (R340, R355, R356). -/
def goodMessage (s : State) (p : Fin 2) : State :=
  let q := getPort s p
  match q.st with
  | .train => s.modPort p fun q => { q with goodRun := q.goodRun + 1 }
  | .up =>
    if q.err = 0 then s
    else if q.good + 1 < 256 then s.modPort p fun q => { q with good := q.good + 1 }
    else
      let s := s.modPort p fun q => { q with good := 0, err := q.err - 1 }
      match q.fault with
      | some f =>
        if q.err = 1 then
          let seq := s.qe.seq
          let s := recordFault s { perm := false, blk := blkHl, kind := 1, inst := p.val,
                                   d0 := BitVec.ofNat 32 f.high, d1 := BitVec.ofNat 32 f.bad }
          (s.modPort p fun q => { q with fault := none, faultSeq := seq }).modHl fun l => { l with flags := l.flags.set 7 }
        else s
      | none => s
  | _ => s

/-- The herds that a failure of port p retires (R357). -/
def herdsAcross (s : State) (p : Fin 2) : List (Fin 4) :=
  (allFin 4).filter fun h => isMember s h && herdLive s h && bit (getHerd s h).cross p.val

/-- Port p becomes FAILED: its record is written, and the herds whose messages crossed it are retired (R356, R357). -/
def portFail (s : State) (p : Fin 2) (f : HlErr) : State :=
  let seq := s.qe.seq
  let herds := herdsAcross s p
  let s := recordFault s { perm := true, blk := blkHl, kind := 1, inst := p.val, retired := !herds.isEmpty,
                           d0 := BitVec.ofNat 32 f.high, d1 := BitVec.ofNat 32 f.bad }
  let s := s.modPort p fun q => { q with st := .failed, fault := none, faultSeq := seq, timeDue := false, readyDue := 0 }
  let s := s.modHl fun l => { l with flags := (l.flags.set 1).set 7 }
  forEach herds (fun h s => originate s .retire h 448 blkHl seq) s

/-- One bad message on port p: it ends the run of a port in TRAIN, and adds 8 to the error counter of an UP one (R340, R355, R356). -/
def badMessage (s : State) (p : Fin 2) : State :=
  let q := getPort s p
  match q.st with
  | .train => s.modPort p fun q => { q with cntBad := q.cntBad + 1, goodRun := 0 }
  | .up =>
    let err := min (q.err + 8) 255
    let f : Option HlErr :=
      match q.fault with
      | some f => some { high := max f.high err, bad := f.bad + 1 }
      | none => if 96 ≤ err then some { high := err, bad := 1 } else none
    let s := s.modPort p fun q => { q with cntBad := q.cntBad + 1, err := err, fault := f }
    let s := if q.fault.isNone && f.isSome then s.modHl fun l => { l with flags := l.flags.set 0 } else s
    match f with
    | some g => if err = 255 then portFail s p g else s
    | none => s
  | _ => s

/-- The TYPEs of R338. -/
def hlTypes : List Nat := [0, 1, 2, 3, 4, 5, 8, 9, 10, 11]

/-- The TYPEs whose byte 0 names a herd. -/
def hlHerdTypes : List Nat := [4, 5, 8, 9, 10, 11]

/-- The reserved bits of a message are 0: bits 1:0 of bytes 0 and 1, and bits 7:4 of byte 12 of a POSITION (R338, R339). The herd field
of a message without a herd and payload bytes past those listed are no bits that R338 calls reserved. -/
def reservedZero (m : List Byte) : Bool :=
  fld (byteAt m 0) 1 0 == 0 && fld (byteAt m 1) 1 0 == 0 && (fld (byteAt m 0) 7 4 != 4 || fld (byteAt m 12) 7 4 == 0)

/-- A received message is good: its CRC agrees, its TYPE is listed, and its reserved bits are 0 (R339). -/
def messageGood (m : List Byte) : Bool :=
  (crc16 (m.take 14)).toNat == ofBe (m.drop 14) && decide (fld (byteAt m 0) 7 4 ∈ hlTypes) && reservedZero m

/-- A received slot is a bad message (R339); a slot that is missing is one on an UP port only. -/
def slotBad (s : State) (p : Fin 2) (slot : HlSlot) : Bool :=
  match slot with
  | .missing => (getPort s p).st == .up
  | .groups g => hlOn s && !((slotMessage g).any messageGood)

/-- BAD_MESSAGE (R339, R355, R356): a slot that is not bad after all has no effect here. -/
def badMessageEffect (p : Fin 2) (slot : HlSlot) (s : State) : State := if slotBad s p slot then badMessage s p else s

/-- PROBE (R340): a port that trains or is trained notes its receive start, the present tick, and answers with an ECHO. -/
def probeEffect (p : Fin 2) (s : State) : State :=
  let q := getPort s p
  if !hlOn s then s
  else
    let s := goodMessage s p
    if q.st = .train ∨ q.st = .up ∨ q.st = .long then s.modPort p fun q => { q with echoes := q.echoes ++ [s.clock] } else s

/-- L = floor((min RT − TA) / 2), over the round trips measured; none before the 16th (R340). -/
def measuredL (trips : List (Nat × Nat)) : Option Nat :=
  match trips with
  | [] => none
  | t :: r =>
    if (t :: r).length < 16 then none
    else some (r.foldl (fun m x => min m (x.1 - x.2)) (t.1 - t.2) / 2)

/-- L shown in the 7 bits of HL_PORT_STAT; a delay they cannot hold has no stated value and shows a free one. -/
def showL (s : State) (l : Nat) : BitVec 7 := if l < 128 then BitVec.ofNat 7 l else BitVec.ofNat 7 (freeValue s)

/-- ECHO (R340): the round trip of the oldest PROBE not answered, from its transmit start to the present tick; the 16th gives L. -/
def echoEffect (p : Fin 2) (ta : BitVec 16) (s : State) : State :=
  let q := getPort s p
  if !hlOn s then s
  else
    let s := goodMessage s p
    match q.probeAt with
    | [] => s
    | t :: r =>
      let s := s.modPort p fun q => { q with probeAt := r, trips := q.trips ++ [(s.clock - t, ta.toNat)] }
      match measuredL (getPort s p).trips with
      | some l => (s.modPort p fun q => { q with l := showL s l }).freeStep
      | none => s

/-- TRAIN_COMPLETE (R340): UP after 16 round trips and 16 consecutive good messages with L ≤ 24, LONG with a longer link. -/
def trainCompleteEffect (p : Fin 2) (s : State) : State :=
  let q := getPort s p
  if q.st = .train then
    match measuredL q.trips with
    | none => s
    | some l =>
      if 24 < l then s.modPort p fun q => { q with st := .long }
      else if 16 ≤ q.goodRun then s.modPort p fun q => { q with st := .up }
      else s
  else s

/-- The error budget of a port emptied (R23, R356). -/
def portFresh (q : HlPort) : HlPort := { q with err := 0, good := 0, fault := none }

/-- PORT_REVIVE (R356): only a FAILED or a LONG port trains again, with an empty error budget; one that is disabled in that state
forgets it and trains once it is enabled. -/
def portReviveEffect (p : Fin 2) (s : State) : State :=
  let q := getPort s p
  if q.st = .failed ∨ q.st = .long then s.modPort p fun q => portTrain (portFresh q)
  else if q.st = .disabled ∧ q.kept ≠ .down then s.modPort p fun q => { portFresh q with kept := .down }
  else s

/-! ### Receiving and forwarding (R341 to R344) -/

/-- A 48-bit tick extended to the 64-bit value nearest the present tick (R338). -/
def extend48 (s : State) (v : BitVec 48) : Nat :=
  let t := now s
  let base := t / 2 ^ 48 * 2 ^ 48 + v.toNat
  if t + 2 ^ 47 < base ∧ 2 ^ 48 ≤ base then base - 2 ^ 48
  else if base + 2 ^ 47 ≤ t then base + 2 ^ 48
  else base

def otherPort (p : Fin 2) : Fin 2 := if p = 0 then 1 else 0

/-- A device forwards only while it is the time lead or is aligned (R341). -/
def forwards (s : State) : Bool := isTimeLead s || s.hl.aligned

/-- A message received on head.port goes out of the other port with HOPS incremented, in the slot that starts in the present tick
(R341 to R343); on a FAILED port a class-0 message waits for that slot too, which then pulls HERD_HALT_N low (R358). -/
def forward (s : State) (head : HlHead) (type : Nat) (payload : List Byte) : State :=
  let q := otherPort head.port
  let herd := if type ∈ hlHerdTypes then some head.herd else none
  if forwards s && (portUp s q || (portFailed s q && decide (8 ≤ type))) then
    s.modPort q fun port => { port with fwd := port.fwd ++
      [{ msg := hlBytes type head.herd head.origin (head.hops + 1) payload, herd := herd, class0 := decide (8 ≤ type) }] }
  else s

/-- A message of classes 0 to 3 acts on a port that is UP; in TRAIN it only counts as good; with the lanes off it does not arrive. -/
def onUp (s : State) (p : Fin 2) (f : State → State) : State :=
  if !hlOn s then s else if portUp s p then f s else goodMessage s p

/-- What every good message of a herd does on the port it came in on: it counts as good and has crossed the port. -/
def receiveHerd (s : State) (head : HlHead) : State := crossPort (goodMessage s head.port) head.herd head.port

/-- IDLE_MESSAGE (R338, R355). -/
def idleMessageEffect (p : Fin 2) (s : State) : State := if hlOn s then goodMessage s p else s

/-! ### Time alignment (R345) -/

/-- Some port is UP. -/
def anyUp (s : State) : Bool := portUp s 0 || portUp s 1

/-- The ports that are UP, as bits. -/
def upPortBits (s : State) : BitVec 2 := assignBit (assignBit 0 0 (portUp s 0)) 1 (portUp s 1)

/-- Every port that is UP has something more to send. -/
def markUp (s : State) (f : HlPort → HlPort) : State :=
  s.modHl fun l => { l with ports := l.ports.map fun q => if q.st = .up then f q else q }

/-- TIME_ORIGINATE (R345): the time lead's TIME, once every 128 slots, falls due for the next slot. -/
def timeOriginateEffect (s : State) : State :=
  let due := match s.hl.timeSentAt with | none => true | some t => decide (t + 4096 ≤ s.clock)
  if isTimeLead s && due && anyUp s then
    (markUp s fun q => { q with timeDue := true }).modHl fun l => { l with timeSentAt := some s.clock }
  else s

/-- The error e of a TIME message with its value, local tick R and delay L (R345). -/
def timeError (value r : Tick) (hops : Fin 8) (l : BitVec 7) : Int :=
  ((value + BitVec.ofNat 64 (64 * hops.val)) - (r - l.setWidth 64)).toInt

/-- HL_TIME_ERR shows e in 8 bits; an error they cannot hold shows a free value. -/
def showErr (s : State) (e : Int) : Byte :=
  if -128 ≤ e ∧ e ≤ 127 then BitVec.ofInt 8 e else BitVec.ofNat 8 (freeValue s)

/-- The follower's time base changed by e (R345). -/
def adjustTime (s : State) (e : Int) : State := s.setTime (s.time + BitVec.ofInt 64 e)

/-- TIME_MESSAGE (R336, R341, R345). Where a herd runs on a device that is not aligned the message is taken as bad
(DESIGN CHOICE between two rows of R345; log entry 39). -/
def timeMessageEffect (head : HlHead) (value r : Tick) (s : State) : State :=
  onUp s head.port fun s =>
    let fwd := fun s' : State =>
      forward (goodMessage s' head.port) head 3 (beBytes 8 value.toNat)
    if head.origin ≠ hlTimeDev s then fwd (s.modHl fun l => { l with cntForeign := l.cntForeign + 1 })
    else if isTimeLead s then fwd s
    else
      let e := timeError value r head.hops (getPort s head.port).l
      let shown := (s.modHl fun l => { l with lastErr := showErr s e }).freeStep
      if -1 ≤ e ∧ e ≤ 1 then
        adjustTime ((fwd shown).modHl fun l =>
          { l with goodTimes := l.goodTimes + 1, aligned := l.aligned || decide (4 ≤ l.goodTimes + 1) }) e
      else if anyHerdLive s then badMessage (shown.modHl fun l => { l with goodTimes := 0 }) head.port
      else
        adjustTime ((fwd shown).modHl fun l =>
          { l with aligned := false, goodTimes := 0, flags := l.flags.set 6, steps := satInc l.steps }) e

/-! ### Positions (R347, R348) -/

/-- Byte 12 of a POSITION: the state of REM(h) (R338). -/
def remFlags (s : State) (h : Fin 4) : BitVec 4 :=
  let src := 8 + h.val
  BitVec.ofNat 4 ((if srcDir s src then 1 else 0) + (if srcSuspect s src then 2 else 0) + (if srcFailed s src then 4 else 0) +
    (if srcValid s src then 8 else 0))

/-- E = S + max(640, W + 448) with W = X − S (R348). -/
def entryTick (stamp x : Nat) : Nat := stamp + max 640 (x - stamp + 448)

/-- A POSITION of herd h is due for the slot that starts 9 ticks after the present one: its state changed since the last one, or 64
slots will have passed (R347). -/
def positionIsDue (s : State) (h : Fin 4) : Bool :=
  let d := getHerd s h
  match d.sentAt with
  | none => true
  | some t => gatePos s (8 + h.val) != d.sentPos || remFlags s h != d.sentFlags || decide (t + 2048 ≤ s.clock + 9)

/-- POSITION_DUE (R347): the lead takes REM(h)'s state for the slot whose decision tick is the next one, on every UP port. -/
def positionDueEffect (h : Fin 4) (s : State) : State :=
  if isLead s h && positionIsDue s h then
    let src := 8 + h.val
    let due : PosDue := { pos := gatePos s src, stamp := (srcStamp s src).toNat, flags := remFlags s h, ports := upPortBits s,
                          sent := false }
    s.modHerd h fun d => { d with due := some due }
  else s

/-- The POSITION of herd h takes its first slot, which starts in the present tick: the lead's own predictor view has it in tick E
(R348). -/
def positionSent (s : State) (h : Fin 4) (d : PosDue) : State :=
  if d.sent then s
  else
    let s := s.modHerd h fun g => { g with sentPos := d.pos, sentFlags := d.flags, sentAt := some s.clock }
    s.modRem h fun r => { r with waiting := r.waiting ++ [{ pos := d.pos, stamp := d.stamp, at_ := entryTick d.stamp (now s) }] }

/-- What a changed REM(h) does to the sequencers that use it: direction and usability (R191, R203, R204). The fire gate looks at it at
the end of the tick (log entry 90). -/
def remMoved (s : State) (h : Fin 4) (turned : Bool) : State :=
  let users := tsqsOfRem s h
  let s := if turned then forEach users (fun m s => turnedAgainst s m) s else s
  forEach users (fun m s => leaveSrcWait s m) s

/-- POSITION_MESSAGE (R336, R348): a follower's REM(h) takes the message's state in its delivery tick, the present one. -/
def positionMessageEffect (head : HlHead) (b : HlPos) (s : State) : State :=
  onUp s head.port fun s =>
    let h := head.herd
    let payload := beBytes 4 b.pos.toNat ++ beBytes 6 b.stamp.toNat ++
      [(putB 0 b.rev ||| putB 1 b.suspect ||| putB 2 b.failed ||| putB 3 b.valid).setWidth 8]
    let s := forward (receiveHerd s head) head 4 payload
    if head.origin ≠ herdLeadDev s h then s.modHl fun l => { l with cntForeign := l.cntForeign + 1 }
    else if isMember s h && !isLead s h then
      let stamp := extend48 s b.stamp
      let x := now s - 64 * (head.hops.val + 1)
      let turned := (getRem s h).rev != b.rev
      let s := s.modHerd h fun d => { d with leadPort := some head.port }
      let s := s.modRem h fun r =>
        { r with pos := b.pos, stamp := BitVec.ofNat 64 stamp, valid := b.valid, rev := b.rev, suspect := b.suspect,
                 failed := b.failed,
                 waiting := r.waiting ++ [{ pos := b.pos, stamp := stamp, at_ := entryTick stamp x }] }
      remMoved s h turned
    else s

/-! ### READY (R350) -/

/-- READY_ORIGINATE (R350): the port toward the herd lead is the one its positions come in on (DEDUCED; log entry 40). -/
def readyOriginateEffect (h : Fin 4) (s : State) : State :=
  let d := getHerd s h
  let toLead := match d.leadPort with | some p => portUp s p | none => false
  let due := match d.readySentAt with | none => true | some t => decide (t + 4096 ≤ s.clock)
  if isMember s h && !isLead s h && s.hl.aligned && d.st != .retired && toLead && due then
    (markUp s fun q => { q with readyDue := setBit q.readyDue h.val }).modHerd h fun d => { d with readySentAt := some s.clock }
  else s

/-- EVENT_READY (R350). -/
def eventReadyEffect (head : HlHead) (s : State) : State :=
  onUp s head.port fun s =>
    let s := forward (receiveHerd s head) head 5 [1]
    if isLead s head.herd then
      s.modHerd head.herd fun d =>
        { d with readySeen := setBit d.readySeen head.origin.val, readyAt := upd d.readyAt head.origin fun _ => s.clock }
    else s

/-- READY_SEEN_EXPIRY (R350): no READY from d for 256 slots. -/
def readyExpiryEffect (h : Fin 4) (d : Fin 8) (s : State) : State :=
  let g := getHerd s h
  if bit g.readySeen d.val && decide (g.readyAt[d.val] + 8192 ≤ s.clock) then
    s.modHerd h fun g => { g with readySeen := assignBit g.readySeen d.val false }
  else s

/-! ### Commands of the herd lead (R351, R352, R354, R365) -/

/-- READY_SEEN includes every member other than the lead. -/
def allReady (s : State) (h : Fin 4) : Bool :=
  (allFin 8).all fun d => !(herdMembers s h).testBit d.val || d == hlDev s || bit (getHerd s h).readySeen d.val

/-- A START accepted by the lead, or its message received: the herd leaves IDLE with no message crossed. -/
def markStarting (s : State) (h : Fin 4) : State :=
  s.modHerd h fun d => if d.st = .idle then { d with st := .starting, cross := 0 } else d

/-- T_EFF of a herd event known on this device, which will act on it then; a START only where it made the herd STARTING (R364), and
HL_HERD_T shows its tick. -/
def schedule (s : State) (h : Fin 4) (e : Sched) : State :=
  if e.ev = .start ∧ (getHerd s h).st ≠ .starting then s
  else s.modHerd h fun d =>
    { d with sched := d.sched ++ [e], tStart := if e.ev = .start then BitVec.ofNat 64 e.tEff else d.tStart }

/-- HERD_START (R351). -/
def herdStartEffect (h : Fin 4) (s : State) : State :=
  if !isLead s h then s
  else if (getHerd s h).st == .idle && srcValid s (8 + h.val) && allReady s h then originate (markStarting s h) .start h 640 0 0
  else s.modHl fun l => { l with flags := l.flags.set 5 }

/-- HERD_STOP (R352). -/
def herdStopEffect (h : Fin 4) (s : State) : State :=
  if isLead s h && (getHerd s h).st == .started then originate s .stop h 640 0 0 else s

/-- This device drives HERD_HALT_N low; before release the pin is released (R44, R358). -/
def haltDriven (s : State) : Bool := s.hl.haltOut && pinsLive s

/-- The wire HERD_HALT_N is low, by this device or another one. -/
def haltLow (s : State) : Bool := haltDriven s || s.hl.haltExt

/-- HERD_REVIVE (R354, R365). -/
def herdReviveEffect (h : Fin 4) (s : State) : State :=
  if isLead s h && (getHerd s h).st == .retired && !haltLow s then originate s .revive h 448 0 0 else s

/-! ### Class-0 messages (R344) -/

/-- The pair is remembered until the origin's SERIAL has gone on by 128 (log entry 41). -/
def rememberSerial (s : State) (o : Fin 8) (n : Byte) : State :=
  s.modHl fun l => { l with seen := (o, n) :: l.seen.filter fun q => q.1 != o || decide ((n - q.2).toNat < 128) }

/-- The payload of a class-0 message. -/
def cmdPayload (c : HlCmd) : List Byte :=
  beBytes 6 c.tEff.toNat ++ [c.serial] ++ [c.reason] ++ beBytes 4 c.seq.toNat

/-- A class-0 message received: forwarded, and acted on at its first good copy (R341, R344). -/
def class0Effect (ev : HerdEvent) (head : HlHead) (c : HlCmd) (s : State) : State :=
  onUp s head.port fun s =>
    let first := !(s.hl.seen.any fun q => q.1 == head.origin && q.2 == c.serial)
    let h := head.herd
    let mine := first && isMember s h
    let s := if mine && ev == .start then markStarting s h else s
    let s := forward (receiveHerd s head) head (eventType ev) (cmdPayload c)
    let s := if first then rememberSerial s head.origin c.serial else s
    if mine then
      schedule s h { ev := ev, tEff := extend48 s c.tEff, origin := head.origin, seq := c.seq, localFault := false }
    else s

/-! ### The slots of the ports (R337, R340, R343, R344, R347) -/

/-- The slot that starts in the present tick carries a message on port p; while the lanes do not run nothing is sent (R44, R152). -/
def sendSlot (s : State) (p : Fin 2) (msg : List Byte) : State :=
  if hlOn s then
    s.modPort p fun q =>
      let g := slotGroups msg q.disparity
      { q with tx := some msg, line := g.1, disparity := g.2 }
  else s.modPort p fun q => { q with tx := none, line := [] }

/-- A link-local message without payload. -/
def sendLocal (s : State) (p : Fin 2) (type : Nat) : State := sendSlot s p (hlBytes type 0 (hlDev s) 0 [])

/-- The class-0 messages that may take the present slot of port p: due before its decision tick, with copies left (R343, R344). -/
def out0For (s : State) (p : Fin 2) : Option HlOut :=
  s.hl.out0.find? fun o => decide (o.since + 9 ≤ s.clock) && o.left[p.val] != 0

/-- An own class-0 message replaced in the list of those that wait. -/
def setOut0 (s : State) (o : HlOut) : State :=
  s.modHl fun l => { l with out0 := l.out0.map fun x => if x.serial = o.serial then o else x }

/-- The first slot of an own class-0 message starts in the present tick X: T_EFF = X + delta is fixed, and this device acts on it as
every other does (R344). -/
def fixOut0 (s : State) (o : HlOut) : State × HlOut :=
  match o.tEff with
  | some _ => (s, o)
  | none =>
    let tEff := now s + o.delta
    let o := { o with tEff := some tEff }
    (schedule (setOut0 s o) o.herd { ev := o.ev, tEff := tEff, origin := hlDev s, seq := o.seq, localFault := true }, o)

/-- The bytes of an own class-0 message. -/
def out0Bytes (s : State) (o : HlOut) : List Byte :=
  hlBytes (eventType o.ev) o.herd (hlDev s) 0
    (cmdPayload { tEff := BitVec.ofNat 48 (o.tEff.getD 0), serial := o.serial, reason := o.reason, seq := o.seq })

/-- One copy of an own class-0 message takes the present slot of port p: sent on an UP port, replaced by HERD_HALT_N on a FAILED one
(R344, R358). -/
def useOut0 (s : State) (p : Fin 2) (o : HlOut) (failed : Bool) : State :=
  let (s, o) := fixOut0 s o
  let o := { o with left := upd o.left p (· - 1) }
  let s := setOut0 s o
  if failed then sendLocal (s.modHl fun l => { l with haltOut := true }) p 0
  else sendSlot (crossPort s o.herd p) p (out0Bytes s o)

/-- The herds with a POSITION due on port p, the one after the herd sent last first (R343). -/
def positionTurn (s : State) (p : Fin 2) : Option (Fin 4 × PosDue) :=
  let t := (getPort s p).turn
  [t + 1, t + 2, t + 3, t].findSome? fun h =>
    match (getHerd s h).due with
    | some d => if bit d.ports p.val then some (h, d) else none
    | none => none

/-- The POSITION of herd h in the present slot of port p. -/
def sendPosition (s : State) (p : Fin 2) (h : Fin 4) (d : PosDue) : State :=
  let msg := hlBytes 4 h (hlDev s) 0 (beBytes 4 d.pos.toNat ++ beBytes 6 (d.stamp % 2 ^ 48) ++ [d.flags.setWidth 8])
  let s := positionSent s h d
  let s := s.modHerd h fun g => { g with due := some { d with ports := assignBit d.ports p.val false, sent := true } }
  sendSlot (crossPort (s.modPort p fun q => { q with turn := h }) h p) p msg

/-- The ECHO that may take the present slot: it begins at least 40 ticks after the PROBE started to arrive (R340). -/
def echoDue (s : State) (p : Fin 2) : Option Nat := (getPort s p).echoes.head?.filter fun t => decide (t + 40 ≤ s.clock)

/-- An ECHO with its TA. -/
def sendEcho (s : State) (p : Fin 2) (t : Nat) : State :=
  sendSlot (s.modPort p fun q => { q with echoes := q.echoes.tail }) p (hlBytes 2 0 (hlDev s) 0 (beBytes 2 (s.clock - t)))

/-- What an UP port sends when no forward and no ECHO takes the slot, in the precedence of R343. -/
def sendOwn (s : State) (p : Fin 2) : State :=
  match out0For s p with
  | some o => useOut0 s p o false
  | none =>
    if (getPort s p).timeDue then
      sendSlot (s.modPort p fun q => { q with timeDue := false }) p (hlBytes 3 0 (hlDev s) 0 (beBytes 8 (now s)))
    else
      match positionTurn s p with
      | some (h, d) => sendPosition s p h d
      | none =>
        match (allFin 4).find? fun h => bit (getPort s p).readyDue h.val with
        | some h =>
          sendSlot (crossPort (s.modPort p fun q => { q with readyDue := assignBit q.readyDue h.val false }) h p) p
            (hlBytes 5 h (hlDev s) 0 [1])
        | none => sendLocal s p 0

/-- The content of the slot of port p that starts in the present tick. R343 does not place an ECHO: it takes a slot that no forward
takes, before what the device originates (DESIGN CHOICE; log entry 98). -/
def portSlot (s : State) (p : Fin 2) : State :=
  let q := getPort s p
  let f := q.fwd.head?
  let s := s.modPort p fun q => { q with fwd := q.fwd.tail }
  match q.st with
  | .up =>
    match f, echoDue s p with
    | some f, _ => sendSlot (match f.herd with | some h => crossPort s h p | none => s) p f.msg
    | none, some t => sendEcho s p t
    | none, none => sendOwn s p
  | .failed =>
    match f, out0For s p with
    | some f, _ => if f.class0 then sendLocal (s.modHl fun l => { l with haltOut := true }) p 0 else sendLocal s p 0
    | none, some o => useOut0 s p o true
    | none, none => sendLocal s p 0
  | .train =>
    match echoDue s p with
    | some t => sendEcho s p t
    | none =>
      if q.probesLeft = 0 then sendLocal s p 0
      else sendLocal (s.modPort p fun q => { q with probesLeft := q.probesLeft - 1, probeAt := q.probeAt ++ [s.clock] }) p 1
  | .long => match echoDue s p with | some t => sendEcho s p t | none => sendLocal s p 0
  | _ => sendLocal s p 0

/-- A port that sends class-0 messages or replaces them. -/
def portServes (s : State) (p : Fin 2) : Bool := portUp s p || portFailed s p

/-- Where no port can send it, what is due takes the slot all the same: its tick is that slot's, and this device alone acts on it
(log entry 37). -/
def aloneSlot (s : State) : State :=
  let s :=
    if portServes s 0 || portServes s 1 then s
    else forEach (s.hl.out0.filter fun o => decide (o.since + 9 ≤ s.clock)) (fun o s => (fixOut0 s o).1) s
  if anyUp s then s
  else
    forEach (allFin 4) (fun h s =>
      match (getHerd s h).due with
      | some d => (positionSent s h d).modHerd h fun g => { g with due := none }
      | none => s) s

/-- Own class-0 messages that no port has to send any more are forgotten. -/
def clearOut0 (s : State) : State :=
  s.modHl fun l => { l with out0 := l.out0.filter fun o =>
    o.tEff.isNone || (allFin 2).any fun p => portServes s p && o.left[p.val] != 0 }

/-- The slots that start in the present tick, after everything the tick brought (R337, R342, R343). -/
def slotTurn (s : State) : State :=
  if now s % 32 = 0 then clearOut0 (aloneSlot (portSlot (portSlot s 0) 1)) else s

/-! ### The ticks T_EFF (R351 to R354, R362 to R364) -/

/-- The effects of one kind whose tick has come. -/
def schedDue (s : State) (h : Fin 4) (ev : HerdEvent) : List Sched :=
  (getHerd s h).sched.filter fun e => e.ev == ev && decide (e.tEff ≤ now s)

/-- The effects of one kind whose tick has come leave the schedule. -/
def schedDone (s : State) (h : Fin 4) (ev : HerdEvent) : State :=
  s.modHerd h fun d => { d with sched := d.sched.filter fun e => !(e.ev == ev && decide (e.tEff ≤ now s)) }

/-- The sequencers of herd h on this device (R335). -/
def herdTsqs (s : State) (h : Fin 4) : List (Fin 16) :=
  (allFin 16).filter fun n => tsqHerd (tsqAct s n) == some h && !gangOdd s n

/-- A sequencer leaves HERD_WAIT and anchors at a herd's start (R351): identity 0, and the first target PITCH beyond the
predictor view. -/
def startTsq (s : State) (h : Fin 4) (n : Fin 16) : State :=
  let t := getTsq s n
  if tsqEn t.group.active && !t.retired then
    let first := nextAfter t.group.active (fix (predPos s (8 + h.val)))
    emptyHist (s.modTsq n fun t =>
      { t with herdWait := false, nextId := 0, nextTarget := first, lastCommit := none, stopped := false,
               srcWait := t.srcWait && !srcUsable s (8 + h.val) }) n
  else s

/-- A sequencer at a herd's stop (R352): as at EN 1 → 0, and it waits for the next start. -/
def stopTsq (s : State) (n : Fin 16) : State :=
  let s := if tsqEn (tsqAct s n) then squashAll s n else s
  s.modTsq n fun t => { t with stopped := false, srcWait := false, herdWait := true }

/-- What the retirement of herd h by a RETIRE or by HALT leaves (R353, R359). -/
def retireHerd (s : State) (h : Fin 4) (cause : BitVec 3) (dev : BitVec 3) (seq pointer : Word) : State :=
  let s := retireList s (herdChannels s h) pointer
  let s := s.modHerd h fun d =>
    { d with st := .retired, cause := cause, originDev := dev, originSeq := seq, sched := d.sched.filter fun e => e.ev != .start,
             cross := if d.st = .idle then 0 else d.cross }
  s.modHl fun l => { l with flags := l.flags.set 2 }

/-- The RETIRE that acts: the earlier T_EFF, and of equal ones the lower ORIGIN_DEV (R362). -/
def firstRetire : List Sched → Option Sched
  | [] => none
  | e :: r =>
    match firstRetire r with
    | none => some e
    | some f => if f.tEff < e.tEff ∨ (f.tEff = e.tEff ∧ f.origin.val < e.origin.val) then some f else some e

/-- HERD_RETIRED (R353, R362). -/
def herdRetiredEffect (h : Fin 4) (s : State) : State :=
  match firstRetire (schedDue s h .retire) with
  | none => s
  | some e =>
    let s := schedDone s h .retire
    if !isMember s h || (getHerd s h).st == .retired then s
    else
      retireHerd s h (if e.localFault then 1 else 2) (BitVec.ofNat 3 e.origin.val) e.seq (if e.localFault then e.seq else 0)

/-- HERD_STARTED (R351, R363, R364): it starts a herd that is STARTING, and not one that retires in this tick. -/
def herdStartedEffect (h : Fin 4) (s : State) : State :=
  if (schedDue s h .start).isEmpty then s
  else
    let s := schedDone s h .start
    if !isMember s h || !(schedDue s h .retire).isEmpty || (getHerd s h).st != .starting then s
    else
      let s := s.modHerd h fun d => { d with st := .started }
      let s := s.modHl fun l => { l with flags := l.flags.set 4 }
      forEach (herdTsqs s h) (fun n s => startTsq s h n) s

/-- HERD_STOPPED (R352). -/
def herdStoppedEffect (h : Fin 4) (s : State) : State :=
  if (schedDue s h .stop).isEmpty then s
  else
    let s := schedDone s h .stop
    if isMember s h && (getHerd s h).st == .started then
      (forEach (herdTsqs s h) (fun n s => stopTsq s n) s).modHerd h fun d => { d with st := .idle }
    else s

/-- HERD_REVIVED (R354). -/
def herdRevivedEffect (h : Fin 4) (s : State) : State :=
  if (schedDue s h .revive).isEmpty then s
  else
    let s := schedDone s h .revive
    if isMember s h && (getHerd s h).st == .retired then
      let s := s.modHerd h fun d => { d with st := .idle }
      let s := reviveUnit s (herdChannels s h)
      forEach (herdTsqs s h) (fun n s => s.modTsq n fun t => { t with herdWait := t.herdWait || tsqEn t.group.active }) s
    else s

/-! ### HERD_HALT_N (R358, R359) -/

/-- Since when the wire is low, as it is now. -/
def haltNoted (s : State) : State :=
  s.modHl fun l => { l with haltSince := if haltLow s then (if l.haltSince.isSome then l.haltSince else some s.clock) else none }

/-- HALT (R358). -/
def haltEffect (s : State) : State := haltNoted (s.modHl fun l => { l with haltOut := true })

/-- HALT_RELEASE (R358). -/
def haltReleaseEffect (s : State) : State := haltNoted (s.modHl fun l => { l with haltOut := false })

/-- HERD_HALT_N has been low for 4 consecutive samples, and HALT_EN accepts it (R359). -/
def haltAccepted (s : State) : Bool :=
  hlHaltEn s && haltLow s && !s.hl.haltIn && s.hl.haltSince.any fun t => decide (t + 3 ≤ s.clock)

/-- HERD_HALT_ACCEPT (R359): the level that other devices give the wire; accepted low it retires every herd of the device. R359 names
no origin: ORIGIN_DEV is a free value, ORIGIN_SEQ reads 0 (R22). -/
def haltAcceptEffect (low : Bool) (s : State) : State :=
  let s := haltNoted (s.modHl fun l => { l with haltExt := low })
  if haltAccepted s then
    let s := s.modHl fun l => { l with haltIn := true, flags := l.flags.set 3 }
    forEach ((allFin 4).filter fun h => isMember s h && (getHerd s h).st != .retired)
      (fun h s => retireHerd s.freeStep h 3 (BitVec.ofNat 3 (freeValue s)) 0 0) s
  else s

/-- HERD_HALT_N_HIGH: no other device drives the wire, and HALT_IN clears once this one does not either. -/
def haltHighEffect (s : State) : State :=
  let s := haltNoted (s.modHl fun l => { l with haltExt := false })
  if haltLow s then s else s.modHl fun l => { l with haltIn := false }

/-! ### Settings (R361) -/

/-- HL_CNT_CLEAR: the counters of the block, the error counters of R355 excepted (log entry 42). -/
def hlCntClearEffect (s : State) : State :=
  s.modHl fun l => { l with cntForeign := 0, steps := 0, ports := l.ports.map fun q => { q with cntBad := 0 } }

/-- A port's state when the enables are applied: FAILED and LONG last until REVIVE, whatever EN does (R340, R356). -/
def portEnable (en : Bool) (q : HlPort) : HlPort :=
  if en then (if q.st = .disabled then { q with st := q.kept, kept := .down } else q)
  else if q.st = .disabled then q
  else { q with st := .disabled, kept := if q.st = .failed ∨ q.st = .long then q.st else .down, fwd := [], timeDue := false, readyDue := 0 }

/-- A herd's state when its membership is applied: a RETIRED herd stays retired until REVIVE or a reset (R16). -/
def herdEnable (en : Bool) (d : Herd) : Herd :=
  if !en then
    { d with st := .off, kept := d.kept || d.st == .retired, readySeen := 0, due := none, sentAt := none, readySentAt := none,
             leadPort := none, sched := [] }
  else if d.st = .off then { d with st := if d.kept then .retired else .idle, kept := false } else d

/-- This device is a follower of herd h. -/
def isFollower (s : State) (h : Fin 4) : Bool := isMember s h && !isLead s h

/-- REM(h) goes on over a commit: the device stays the lead of h, or a follower of it. -/
def remKept (s t : State) (h : Fin 4) : Bool := (isFollower s h && isFollower t h) || (isLead s h && isLead t h)

/-- HL_COMMIT_APPLY (R361): while no herd of the device is STARTING or STARTED. -/
def hlCommitEffect (s : State) : State :=
  if s.hl.group.pending && !anyHerdLive s then
    let t := s.modHl fun l => { l with group := l.group.apply }
    let t := t.modHl fun l =>
      { l with ports := Vector.ofFn fun p : Fin 2 => portEnable (portEn t p) (getPort t p),
               herds := Vector.ofFn fun h : Fin 4 => herdEnable (isMember t h) (getHerd t h) }
    let t := forEach (allFin 4) (fun h t =>
      if remKept s t h then t
      else t.modRem h fun r => { Rem.init with localEnc := r.localEnc }) t
    forEach (allFin 16) (fun n t => leaveSrcWait t n) t
  else s

/-! ### Registers of HL -/

def portStateNo : PortState → Nat
  | .down => 0 | .train => 1 | .up => 2 | .long => 3 | .failed => 4 | .disabled => 5

def herdStateNo : HerdState → Nat
  | .off => 0 | .idle => 1 | .starting => 2 | .started => 3 | .retired => 4

/-- The words of port p, by word offset. -/
def hlPortRead (q : HlPort) (i : Nat) : Word :=
  match i with
  | 0 => put 0 (portStateNo q.st) ||| put 8 q.err ||| put 16 q.l.toNat ||| putB 24 q.fault.isSome
  | 2 => q.cntBad
  | 3 => q.faultSeq
  | _ => 0

/-- The words of herd h, by word offset; HL_HERD_T_HI is bits 63:32 (its latch is the bus's, R156). -/
def hlHerdRead (s : State) (h : Fin 4) (i : Nat) : Word :=
  let d := getHerd s h
  match i with
  | 0 => s.hl.group.look.herd[h.val]
  | 2 => put 0 (herdStateNo d.st) ||| put 8 d.readySeen.toNat ||| put 16 d.cause.toNat ||| put 20 d.originDev.toNat |||
      put 24 d.cross.toNat
  | 3 => d.originSeq
  | 4 => d.tStart.setWidth 32
  | 5 => (d.tStart >>> 32).setWidth 32
  | _ => 0

/-- Reads of the HL block by offset. -/
def hlRead (s : State) (off : Nat) : Word :=
  let l := s.hl
  if off = 0x000 then l.group.look.cfg
  else if off = 0x004 then l.group.word
  else if off = 0x00C then putB 0 l.aligned ||| putB 1 l.haltIn ||| putB 2 (haltDriven s) ||| putB 3 (isTimeLead s)
  else if off = 0x010 then l.flags.word
  else if off = 0x014 then l.flagEn.setWidth 32
  else if off = 0x018 then put 0 l.lastErr.toNat ||| put 16 l.steps.toNat
  else if off = 0x01C then l.cntForeign
  else if 0x040 ≤ off ∧ off < 0x060 then hlPortRead (getPort s (Fin.ofNat 2 ((off - 0x40) / 16))) ((off / 4) % 4)
  else if 0x100 ≤ off ∧ off < 0x180 then hlHerdRead s (Fin.ofNat 4 ((off - 0x100) / 32)) ((off / 4) % 8)
  else 0

/-- HL_CFG's fields. -/
def hlCfgMask : Word := 0x0000_0777
/-- HL_HERD_CFG's fields. -/
def herdCfgMask : Word := 0x0000_FF71

/-- Writes of the HL block by offset; the W1S bits act at once. -/
def hlWrite (off : Nat) (w : Word) (s : State) : State :=
  let p := Fin.ofNat 2 ((off - 0x40) / 16)
  let h := Fin.ofNat 4 ((off - 0x100) / 32)
  if off = 0x000 then s.modHl fun l => { l with group := l.group.write fun g => { g with cfg := w &&& hlCfgMask } }
  else if off = 0x004 then s.modHl fun l => { l with group := l.group.commitWrite w }
  else if off = 0x008 then
    let s := if bit w 0 then haltEffect s else s
    let s := if bit w 1 then haltReleaseEffect s else s
    if bit w 2 then hlCntClearEffect s else s
  else if off = 0x010 then s.modHl fun l => { l with flags := l.flags.clear w }
  else if off = 0x014 then s.modHl fun l => { l with flagEn := w.setWidth 8 }
  else if 0x040 ≤ off ∧ off < 0x060 then
    if (off / 4) % 4 = 1 ∧ bit w 0 then portReviveEffect p s else s
  else if 0x100 ≤ off ∧ off < 0x180 then
    match (off / 4) % 8 with
    | 0 => s.modHl fun l => { l with group := l.group.write fun g => { g with herd := upd g.herd h fun _ => w &&& herdCfgMask } }
    | 1 =>
      let s := if bit w 0 then herdStartEffect h s else s
      let s := if bit w 1 then herdStopEffect h s else s
      if bit w 2 then herdReviveEffect h s else s
    | _ => s
  else s

/-- Attention flags of HL that are set and enabled (R81). -/
def hlAttn (s : State) : Bool := s.hl.flags.raised s.hl.flagEn

/-! ### The commands of the herd link -/

def execTrainComplete (p : Fin 2) (s : State) : Out := onSys s (trainCompleteEffect p)
def execProbe (p : Fin 2) (s : State) : Out := onSys s (probeEffect p)
def execEcho (p : Fin 2) (ta : BitVec 16) (s : State) : Out := onSys s (echoEffect p ta)
def execIdleMessage (p : Fin 2) (s : State) : Out := onSys s (idleMessageEffect p)
def execBadMessage (p : Fin 2) (slot : HlSlot) (s : State) : Out := onSys s (badMessageEffect p slot)
def execTimeOriginate (s : State) : Out := onSys s timeOriginateEffect
def execTimeMessage (head : HlHead) (value r : Tick) (s : State) : Out := onSys s (timeMessageEffect head value r)
def execPositionDue (h : Fin 4) (s : State) : Out := onSys s (positionDueEffect h)
def execPositionMessage (head : HlHead) (body : HlPos) (s : State) : Out := onSys s (positionMessageEffect head body)
def execReadyOriginate (h : Fin 4) (s : State) : Out := onSys s (readyOriginateEffect h)
def execEventReady (head : HlHead) (s : State) : Out := onSys s (eventReadyEffect head)
def execReadySeenExpiry (h : Fin 4) (d : Fin 8) (s : State) : Out := onSys s (readyExpiryEffect h d)
def execHerdStart (h : Fin 4) (s : State) : Out := onSys s (herdStartEffect h)
def execHerdStop (h : Fin 4) (s : State) : Out := onSys s (herdStopEffect h)
def execHerdRevive (h : Fin 4) (s : State) : Out := onSys s (herdReviveEffect h)
def execStartMessage (head : HlHead) (cmd : HlCmd) (s : State) : Out := onSys s (class0Effect .start head cmd)
def execStopMessage (head : HlHead) (cmd : HlCmd) (s : State) : Out := onSys s (class0Effect .stop head cmd)
def execRetireMessage (head : HlHead) (cmd : HlCmd) (s : State) : Out := onSys s (class0Effect .retire head cmd)
def execReviveMessage (head : HlHead) (cmd : HlCmd) (s : State) : Out := onSys s (class0Effect .revive head cmd)
def execHerdStarted (h : Fin 4) (s : State) : Out := onSys s (herdStartedEffect h)
def execHerdStopped (h : Fin 4) (s : State) : Out := onSys s (herdStoppedEffect h)
def execHerdRetired (h : Fin 4) (s : State) : Out := onSys s (herdRetiredEffect h)
def execHerdRevived (h : Fin 4) (s : State) : Out := onSys s (herdRevivedEffect h)
def execHalt (s : State) : Out := onSys s haltEffect
def execHaltRelease (s : State) : Out := onSys s haltReleaseEffect
def execHerdHaltAccept (low : Bool) (s : State) : Out := onSys s (haltAcceptEffect low)
def execHerdHaltNHigh (s : State) : Out := onSys s haltHighEffect
def execPortRevive (p : Fin 2) (s : State) : Out := onSys s (portReviveEffect p)
def execHlCntClear (s : State) : Out := onSys s hlCntClearEffect
def execHlCommitApply (s : State) : Out := onSys s hlCommitEffect
def execTrainStart (p : Fin 2) (s : State) : Out := onSys s (trainStartEffect p)

end Sys2Proof.Machine
end

