-- ==== Sys2Proof/Machine/Regs.lean ====
section
/-! DEFINITION. The registers of SYS, TBE, TSQ and CAP (the "Register reference" of chapters 02, 06, 07 and 08): what a read
returns and what a write does. -/

namespace Sys2Proof.Machine

/-! ### SYS -/

def sysPllStat (y : Sys) : Word :=
  putB 0 y.sysLock ||| putB 1 y.ethLock ||| putB 2 y.hlLock ||| put 4 y.fcgLock.toNat ||| put 8 y.lol.bits.toNat

/-- Reads of the SYS block by offset. -/
def sysRead (s : State) (off : Nat) : Word :=
  let y := s.sys
  if off = 0x000 then put 0 y.cause.toNat ||| put 8 y.reconfCount.toNat ||| put 16 y.fallbacks.toNat
  else if off = 0x008 then put 0 y.totalUs.toNat
  else if off = 0x100 then sysPllStat y
  else if off = 0x104 then y.clkFlag.word
  else if off = 0x108 then putB 0 y.clkFlagEn
  else 0

/-- A write of SYS_SOFT_RESET (R37): with its key the request waits for the end of the requester's transaction. -/
def softResetWrite (r : Req) (w : Word) (s : State) : State :=
  if fld w 31 16 = 0xA55A ∧ bit w 0 then s.modSys fun y => { y with softReq := some r } else s

/-- Writes of the SYS block by offset, by a requester. -/
def sysWrite (r : Req) (off : Nat) (w : Word) (s : State) : State :=
  if off = 0x004 then softResetWrite r w s
  else if off = 0x100 then
    s.modSys fun y => { y with lol := y.lol.clear (w >>> 8) }
  else if off = 0x104 then s.modSys fun y => { y with clkFlag := y.clkFlag.clear w }
  else if off = 0x108 then s.modSys fun y => { y with clkFlagEn := bit w 0 }
  else s

/-- SYS_CLK_FLAGS feeds the SYS attention source (R152). -/
def sysAttn (s : State) : Bool := s.sys.clkFlag.on 0 && s.sys.clkFlagEn

/-! ### TBE -/

/-- The fields of TBE_ENC_CFG. -/
def encCfgMask : Word := 0xFFF1_DF03

def encStat (e : Enc) : Word :=
  putB 0 e.inA.level ||| putB 1 e.inB.level ||| putB 2 e.inZ.level ||| putB 3 e.rev ||| putB 4 e.inA.los ||| putB 5 e.inB.los |||
    putB 6 e.inZ.los ||| putB 8 e.zarmed ||| putB 9 e.suspect ||| putB 10 e.failed ||| putB 11 (encFaultOpen e) |||
    putB 12 (encEn e)

/-- Registers of encoder n by word offset. -/
def encRead (e : Enc) (i : Nat) : Word :=
  match i with
  | 0 => e.cfg.look
  | 1 => e.cfg.word
  | 3 => encStat e
  | 4 => e.pos
  | 5 => e.wrap
  | 6 => e.load
  | 7 => e.zload
  | 8 => e.zpos
  | 9 => e.ztime.setWidth 32
  | 10 => (e.ztime >>> 32).setWidth 32
  | 11 => e.last.setWidth 32
  | 12 => (e.last >>> 32).setWidth 32
  | 13 => put 0 e.cntIllegal.toNat ||| put 8 e.cntLos.toNat ||| put 16 e.cntIndex.toNat
  | _ => 0

/-- Registers of herd source h by word offset (R169). -/
def remRead (s : State) (h : Fin 4) (i : Nat) : Word :=
  let src := 8 + h.val
  let stamp := srcStamp s src
  match i with
  | 0 => put 0 (getRem s h).localEnc.val
  | 1 => gatePos s src
  | 2 => stamp.setWidth 32
  | 3 => (stamp >>> 32).setWidth 32
  | 4 => putB 0 (srcValid s src) ||| putB 3 (srcDir s src) ||| putB 9 (srcSuspect s src) ||| putB 10 (srcFailed s src)
  | _ => 0

/-- Reads of the TBE block by offset. -/
def tbeRead (s : State) (off : Nat) : Word :=
  let t := s.tbe
  if off = 0x000 then s.time.setWidth 32
  else if off = 0x004 then (s.time >>> 32).setWidth 32
  else if off = 0x00C then t.flags.word
  else if off = 0x010 then t.flagEn.setWidth 32
  else if off = 0x020 then t.snapTime.setWidth 32
  else if off = 0x024 then (t.snapTime >>> 32).setWidth 32
  else if 0x040 ≤ off ∧ off < 0x070 then t.snapPos[(Fin.ofNat 12 ((off - 0x040) / 4)).val]
  else if 0x100 ≤ off ∧ off < 0x300 then encRead (getEnc s (Fin.ofNat 8 ((off - 0x100) / 64))) ((off / 4) % 16)
  else if 0x400 ≤ off ∧ off < 0x480 then remRead s (Fin.ofNat 4 ((off - 0x400) / 32)) ((off / 4) % 8)
  else 0

/-- A write of TBE_ENC_CTRL(n): its four actions. -/
def encCtrlWrite (n : Fin 8) (w : Word) (s : State) : State :=
  let s := if bit w 0 then loadEffect n s else s
  let s := if bit w 1 then zarmEffect n s else s
  let s := if bit w 2 then restoreEffect n s else s
  if bit w 3 then errClearEffect n s else s

/-- Writes of encoder n's registers by word offset. -/
def encWrite (n : Fin 8) (i : Nat) (w : Word) (s : State) : State :=
  match i with
  | 0 => s.modEnc n fun e => { e with cfg := e.cfg.write fun _ => w &&& encCfgMask }
  | 1 => s.modEnc n fun e => { e with cfg := e.cfg.commitWrite w }
  | 2 => encCtrlWrite n w s
  | 6 => s.modEnc n fun e => { e with load := w }
  | 7 => s.modEnc n fun e => { e with zload := w }
  | _ => s

/-- A write of TBE_REM_CFG(h): on the herd lead REM(h) follows the encoder named from then on (R169). -/
def remCfgWrite (h : Fin 4) (w : Word) (s : State) : State :=
  let rev := srcDir s (8 + h.val)
  let s := s.modRem h fun r => { r with localEnc := Fin.ofNat 8 (fld w 2 0) }
  if isLead s h then remMoved s h (rev != srcDir s (8 + h.val)) else s

/-- Writes of the TBE block by offset. -/
def tbeWrite (off : Nat) (w : Word) (s : State) : State :=
  if off = 0x008 then (if bit w 0 then snapEffect s else s)
  else if off = 0x00C then s.modTbe fun t => { t with flags := t.flags.clear w }
  else if off = 0x010 then s.modTbe fun t => { t with flagEn := w.setWidth 17 }
  else if 0x100 ≤ off ∧ off < 0x300 then encWrite (Fin.ofNat 8 ((off - 0x100) / 64)) ((off / 4) % 16) w s
  else if 0x400 ≤ off ∧ off < 0x480 then
    if (off / 4) % 8 = 0 then remCfgWrite (Fin.ofNat 4 ((off - 0x400) / 32)) w s else s
  else s

/-- Attention flags of TBE that are set and enabled (R81). -/
def tbeAttn (s : State) : Bool := s.tbe.flags.raised s.tbe.flagEn

/-! ### TSQ -/

def tsqStat (s : State) (n : Fin 16) : Word :=
  let t := getTsq s n
  let g := t.group.active
  putB 0 (running s n) ||| putB 1 t.stopped ||| putB 2 (tsqEn g && !withPolicy s n) ||| putB 3 t.srcWait |||
    putB 4 t.herdWait ||| putB 5 t.retired ||| put 16 (slotsIn s n .open_).length ||| put 24 (slotsIn s n .committed).length

/-- TSQ_INTERVAL: I as ticks per count × 256, saturating. -/
def tsqInterval (t : Tsq) : Word :=
  match t.interval with
  | none => 0xFFFF_FFFF
  | some i => BitVec.ofNat 32 (min (Int.fdiv i 256).toNat 0xFFFF_FFFF)

/-- T_exp of a slot: predicted while OPEN, frozen when COMMITTED. -/
def slotTexp (s : State) (n : Fin 16) (sl : Slot) : Option Int := if sl.st = .open_ then predict s n sl.target else sl.tExp

/-- The view of slot i by word offset; a FREE slot reads 0. -/
def slotRead (s : State) (n : Fin 16) (i : Fin 64) (k : Nat) : Word :=
  let sl := getSlot s n i
  if sl.st = .free then 0
  else
    let never := sl.st == .open_ && (slotTexp s n sl).isNone
    match k with
    | 0 => put 0 (if sl.st = .open_ then 1 else 2) ||| putB 4 (resAbsent sl.res) ||| putB 5 never
    | 1 => sl.id
    | 2 => intPart sl.target
    | _ =>
      match slotTexp s n sl with
      | none => 0xFFFF_FFFF
      | some t => BitVec.ofInt 32 t

def tsqFlagged (t : Tsq) : Bool := t.flags.raised t.flagEn

/-- Reads of TSQn by offset. -/
def tsqRead (s : State) (n : Fin 16) (off : Nat) : Word :=
  let t := getTsq s n
  let g := t.group.look
  if 0x400 ≤ off ∧ off < 0x800 then slotRead s n (Fin.ofNat 64 ((off - 0x400) / 16)) ((off / 4) % 4)
  else
    match off with
    | 0x000 => g.prog
    | 0x004 => g.pitch
    | 0x008 => g.origin
    | 0x00C => g.lead
    | 0x010 => g.preLead
    | 0x014 => g.hold
    | 0x018 => g.stop
    | 0x01C => g.pulse
    | 0x020 => g.stb
    | 0x030 => t.group.word
    | 0x040 => tsqStat s n
    | 0x044 => t.nextId
    | 0x048 => intPart t.nextTarget
    | 0x04C => tsqInterval t
    | 0x050 => t.fault
    | 0x060 => t.cntFired
    | 0x064 => t.cntGhost
    | 0x068 => t.cntSquash
    | 0x06C => t.cntShort
    | 0x070 => t.cntNores
    | 0x074 => t.cntGhostLost
    | 0x080 => t.flags.word
    | 0x084 => t.flagEn.setWidth 32
    | 0xFF0 => (allFin 16).foldl (fun w m => w ||| putB m.val (tsqFlagged (getTsq s m))) 0
    | _ => 0

/-- Writes of TSQn by offset. -/
def tsqWrite (n : Fin 16) (off : Nat) (w : Word) (s : State) : State :=
  let wr := fun (f : TsqGroup → TsqGroup) => s.modTsq n fun t => { t with group := t.group.write f }
  match off with
  | 0x000 => wr fun g => { g with prog := w &&& 0x7F01_FF3F }
  | 0x004 => wr fun g => { g with pitch := w }
  | 0x008 => wr fun g => { g with origin := w }
  | 0x00C => wr fun g => { g with lead := w &&& 0x0003_FFFF }
  | 0x010 => wr fun g => { g with preLead := w &&& 0x0003_FFFF }
  | 0x014 => wr fun g => { g with hold := w &&& 0x0000_FFFF }
  | 0x018 => wr fun g => { g with stop := w &&& 0x00FF_FFFF }
  | 0x01C => wr fun g => { g with pulse := w }
  | 0x020 => wr fun g => { g with stb := w &&& 0x700F_FFFF }
  | 0x030 => s.modTsq n fun t => { t with group := t.group.commitWrite w }
  | 0x034 => if bit w 0 then tsqCntClearEffect n s else s
  | 0x080 => s.modTsq n fun t => { t with flags := t.flags.clear w }
  | 0x084 => s.modTsq n fun t => { t with flagEn := w.setWidth 6 }
  | _ => s

/-- Attention flags of TSQ that are set and enabled (R81). -/
def tsqAttn (s : State) : Bool := s.tsq.toList.any tsqFlagged

/-! ### CAP -/

def capStat (s : State) (n : Fin 16) : Word :=
  let c := getCap s n
  let attempts := match c.fault with | some f => min f.attempts 7 | none => 0
  let locked := if gangOdd s n then c.locked else unitLocked s n
  putB 0 locked ||| putB 1 c.armed ||| putB 2 c.retired ||| putB 3 c.cfgBad ||| putB 4 c.fault.isSome ||| put 5 attempts |||
    put 8 (min (capPages c.group.active) 15) ||| put 16 c.pending.length

def capFlagged (c : Cap) : Bool := c.flags.raised c.flagEn

/-- The settings of CAPn as they read: CAP(2k+1) of a gang reads its reset values (R218). -/
def capLook (s : State) (n : Fin 16) : CapGroup := if gangOdd s n then CapGroup.init else (getCap s n).group.look

/-- Reads of CAPn by offset. -/
def capRead (s : State) (n : Fin 16) (off : Nat) : Word :=
  let c := getCap s n
  let g := capLook s n
  if 0x084 ≤ off ∧ off < 0x0B4 then c.drops[(Fin.ofNat 13 ((off - 0x080) / 4)).val]
  else
    match off with
    | 0x000 => g.cfg
    | 0x004 => g.pixels
    | 0x008 => g.matchMin
    | 0x00C => g.matchMax
    | 0x010 => g.cc
    | 0x014 => put 0 c.serUart.toNat ||| putB 7 c.serNone
    | 0x030 => c.group.word
    | 0x040 => capStat s n
    | 0x044 => c.pclk.setWidth 32
    | 0x048 => c.faultSeq
    | 0x050 => c.cntLines
    | 0x054 => c.cntRelock
    | 0x0C0 => c.flags.word
    | 0x0C4 => c.flagEn.setWidth 32
    | 0xF00 => s.tagBase.setWidth 32
    | 0xFF0 => (allFin 16).foldl (fun w m => w ||| putB m.val (capFlagged (getCap s m))) 0
    | _ => 0

/-- The fields of CAP_CFG: GANG is reserved in odd instances. -/
def capCfgMask (n : Fin 16) : Word := if n.val % 2 = 0 then 0x0000_3777 else 0x0000_3775

/-- Writes of CAPn by offset, CAP_SER excepted. -/
def capWrite (n : Fin 16) (off : Nat) (w : Word) (s : State) : State :=
  let wr := fun (f : CapGroup → CapGroup) => s.modCap n fun c => { c with group := c.group.write f }
  match off with
  | 0x000 => wr fun g => { g with cfg := w &&& capCfgMask n }
  | 0x004 => wr fun g => { g with pixels := w &&& 0x0000_7FFF }
  | 0x008 => wr fun g => { g with matchMin := w &&& 0x00FF_FFFF }
  | 0x00C => wr fun g => { g with matchMax := w &&& 0x00FF_FFFF }
  | 0x010 => wr fun g => { g with cc := w &&& 0x000F_7777 }
  | 0x030 => s.modCap n fun c => { c with group := c.group.commitWrite w }
  | 0x034 =>
    let s := if bit w 0 then capReviveEffect n s else s
    if bit w 1 then capCntClearEffect n s else s
  | 0x0C0 => s.modCap n fun c => { c with flags := c.flags.clear w }
  | 0x0C4 => s.modCap n fun c => { c with flagEn := w.setWidth 5 }
  | 0xF00 => tagBaseEffect (w.setWidth 3) s
  | _ => s

/-- Attention flags of CAP that are set and enabled (R81). -/
def capAttn (s : State) : Bool := s.cap.toList.any capFlagged

end Sys2Proof.Machine
end

