-- ==== Sys2Proof/Machine/Scrub.lean ====
section
/-! DEFINITION. Swap zones and the frame scrubber (15_swap_zones_scrubbing.md R421 to R457). -/

namespace Sys2Proof.Machine

def getZone (s : State) (z : Fin 8) : Zone := s.scb.zones[z.val]

/-! ### Frames in the latches -/

/-- A frame of the configuration latches; 97 words of 0 where nothing was loaded. -/
def latchFrame (s : State) (f : Word) : CfgFrame :=
  match s.cfg.latches.find? fun x => x.addr == f with
  | some x => x
  | none => { addr := f, words := List.replicate 97 0 }

/-- A frame written into the configuration latches. -/
def writeLatch (s : State) (x : CfgFrame) : State :=
  s.modCfg fun c => { c with latches := x :: c.latches.filter fun y => y.addr != x.addr }

/-- The check word of a frame matches its data (R389). -/
def frameOk (x : CfgFrame) : Bool := crc32c (cfgFrameBytes x) == x.words.getD 96 0

/-- Bit i of a frame, 0 to 3,103, flipped. -/
def flipBit (x : CfgFrame) (i : Nat) : CfgFrame :=
  { x with words := x.words.mapIdx fun k w => if k = i / 32 then w ^^^ BitVec.ofNat 32 (1 <<< (i % 32)) else w }

/-- The single bit that a frame's syndrome names, if it names one (R435). -/
def singleBit (x : CfgFrame) : Option Nat := (List.range 3104).find? fun i => frameOk (flipBit x i)

/-- The frame as the booted slot holds it (R438). -/
def bootedFrame (s : State) (f : Word) : Option CfgFrame :=
  match bootedSlot s with
  | some b => (getNv s b).frames.find? fun x => x.addr == f
  | none => none

/-- The booted slot holds the frame, and its check word agrees there (R438). -/
def slotFrameOk (s : State) (f : Word) : Bool := (bootedFrame s f).any frameOk

/-- A frame of the booted slot reloaded into the latches and verified (R438). -/
def reloadFrame (s : State) (f : Word) : State :=
  let s := match bootedFrame s f with | some x => writeLatch s x | none => s
  s.modScb fun b => { b with cntReloaded := b.cntReloaded + 1, lastFrame := f }

/-! ### Records and damage -/

/-- A fault record of the scrubber, with SCB_FLAGS.FAULT. -/
def scbRecord (s : State) (f : FaultRec) : State :=
  (recordFault s { f with blk := blkScb }).modScb fun b => { b with flags := b.flags.set 0 }

/-- A zone's state changes during the pass: it is not compared in it (R440). -/
def setZone (s : State) (z : Fin 8) (f : Zone → Zone) : State :=
  (s.modZone z f).modScb fun b => { b with changed := z :: b.changed }

/-- A zone becomes DAMAGED (R442): isolated, with one permanent record. -/
def zoneDamaged (s : State) (z : Fin 8) (f : Word) : State :=
  let s := setZone s z fun x => { x with st := .damaged, restoreFrom := none }
  let s := s.modScb fun b => { b with flags := b.flags.set 3 }
  scbRecord s { perm := true, blk := blkScb, kind := 4, inst := z.val, d0 := f }

/-- The voted RECONF_EN. -/
def vote3 (a b c : Bool) : Bool := (a && b) || (a && c) || (b && c)

/-- The voted scrub settings (R443). -/
def scrubCfg (s : State) : Byte × Bool :=
  let a := s.scb.cfgA
  let b := s.scb.cfgB
  let c := s.scb.cfgC
  ((a.1 &&& b.1) ||| (a.1 &&& c.1) ||| (b.1 &&& c.1), vote3 a.2 b.2 c.2)

/-- A static frame or the image stays bad (R441). -/
def staticBad (s : State) : State :=
  let s := s.modScb fun b => { b with flags := b.flags.set 1 }
  if (scrubCfg s).2 then s.modSys fun y => { y with reconfReq := true } else s

/-! ### Zone commands (R429, R432, R433) -/

def zoneBusy (z : ZoneState) : Bool := z == .loading || z == .verifying || z == .restoring

/-- OPEN and RESTORE are accepted: the zone is declared, no zone is LOADING, VERIFYING or RESTORING, and no reconfiguration is running. -/
def zoneFree (s : State) (z : Fin 8) : Bool :=
  released s && (getZone s z).st != .none && s.scb.zones.toList.all fun x => !zoneBusy x.st

/-- A command for zone z beside one that this tick accepted for a zone of a higher number: the other one is refused (R457). -/
def zoneYield (z : Fin 8) (s : State) : State :=
  match s.moment.zoneWas with
  | some (y, was) => if z.val < y.val then s.modZone y fun _ => { was with result := 2 } else s
  | none => s

/-- An accepted OPEN or RESTORE: a visit or a reload of the pass in the zone is not carried on (R423, R448). -/
def zoneTake (z : Fin 8) (f : Zone → Zone) (s : State) : State :=
  let was := getZone s z
  let s := setZone s z f
  let s := match s.scb.reload with
    | some r => if zoneOf s (faColumn r.frame) = some z then s.modScb fun b => { b with reload := none } else s
    | none => s
  s.modMoment fun m => { m with zoneWas := some (z, was) }

/-- OPEN or RESTORE: accepted, or REFUSED with no other effect. -/
def zoneCommand (z : Fin 8) (f : Zone → Zone) (s : State) : State :=
  let y := zoneYield z s
  if zoneFree y z then zoneTake z f y else s.modZone z fun x => { x with result := 2 }

def firstFrame (x : Zone) : Word := frameAddr 0 x.first.toNat 0

/-- ZONE_OPEN (R429). -/
def zoneOpenEffect (z : Fin 8) (s : State) : State :=
  zoneCommand z (fun x =>
    { x with st := .loading, reason := 0, result := 1, next := some (firstFrame x), received := 0, words := [], sigWords := [] }) s

/-- A load ends in FAILED (R432). -/
def zoneFail (s : State) (z : Fin 8) (reason : BitVec 3) : State :=
  (setZone s z fun x => { x with st := .failed, reason := reason, next := none }).modScb fun b => { b with flags := b.flags.set 2 }

/-- ZONE_ABORT (R432): acts on a zone in LOADING or VERIFYING. -/
def zoneAbortEffect (z : Fin 8) (s : State) : State :=
  let st := (getZone s z).st
  if released s ∧ (st = .loading ∨ st = .verifying) then (zoneFail s z 3).modZone z fun x => { x with result := 1 } else s

/-- ZONE_RESTORE (R433). -/
def zoneRestoreEffect (z : Fin 8) (s : State) : State :=
  zoneCommand z (fun x =>
    { x with st := .restoring, result := 1, next := none, restoreFrom := some (firstFrame x), restoreFails := 0 }) s

/-! ### The zone stream (R430, R431) -/

/-- The zone in LOADING: at most one is. -/
def loadingZone (s : State) : Option (Fin 8) := (allFin 8).find? fun z => (getZone s z).st == .loading

/-- The load buffers that still hold a frame (R432): the latch write of a frame takes 97 configuration clocks (R437), one after the other. -/
def loadHeld (s : State) : List Nat := s.scb.loadBusy.filter fun t => decide (s.clock < t)

/-- 97 configuration clocks of 5 ns. -/
def latchTicks : Nat := 194

/-- A frame handed to the latch writer: its buffer is free again once it has been written. -/
def holdBuffer (s : State) : State :=
  let h := loadHeld s
  s.modScb fun b => { b with loadBusy := h ++ [max s.clock (h.foldl max 0) + latchTicks] }

/-- A whole frame of the zone stream: checked, then written into the latches (R430, R432). -/
def zoneFrame (z : Fin 8) (fr : CfgFrame) (s : State) : State :=
  if !frameOk fr then zoneFail (s.modZone z fun x => { x with words := [] }) z 1
  else (holdBuffer (writeLatch s fr)).modZone z fun x =>
    { x with words := [], received := x.received + 1, next := nextFrameIn x.first.toNat x.last.toNat fr.addr }

/-- One word of the zone stream (R430 to R432). The latches show a frame from its last word on (log entry 46). -/
def zoneWord (z : Fin 8) (w : Word) (s : State) : State :=
  let x := getZone s z
  match x.next with
  | some f =>
    let ws := x.words ++ [w]
    if x.words.isEmpty && decide (2 ≤ (loadHeld s).length) then zoneFail s z 4
    else if ws.length < 97 then s.modZone z fun x => { x with words := ws }
    else zoneFrame z { addr := f, words := ws } s
  | none =>
    let sg := x.sigWords ++ [w]
    if sg.length < 8 then s.modZone z fun x => { x with sigWords := sg }
    else setZone s z fun x => { x with sigWords := sg, st := .verifying }

/-- ZDATA_WRITE (R428, R430): a word for the zone in LOADING; with none it has no effect. -/
def zdataWriteEffect (w : Word) (s : State) : State :=
  match loadingZone s with
  | none => s
  | some z => zoneWord z w s

/-- The configuration frames of a zone in address order (R421). -/
def zoneConfigFrames (x : Zone) : List Word :=
  ((List.range (x.last.toNat + 1)).filter fun c => decide (x.first.toNat ≤ c)).flatMap fun c =>
    (List.range (colFrames c)).map fun m => frameAddr 0 c m

/-- The signature of a zone as the latches hold it (R430). -/
def zoneSignature (s : State) (x : Zone) : List Word :=
  beWords (sha256 ((zoneConfigFrames x).flatMap fun f => cfgFrameBytes (latchFrame s f)))

/-- ZONE_VERIFY_DONE (R431, R432). -/
def zoneVerifyDoneEffect (z : Fin 8) (s : State) : State :=
  let x := getZone s z
  if !released s ∨ x.st ≠ .verifying then s
  else if ((zoneConfigFrames x).all fun f => frameOk (latchFrame s f)) && zoneSignature s x == x.sigWords then
    (setZone s z fun x => { x with st := .loaded, sig := eight x.sigWords }).modScb fun b => { b with flags := b.flags.set 4 }
  else zoneFail s z 2

/-! ### Restoring (R433, R438) -/

/-- The record of a reload that needed further attempts, or that failed. -/
def reloadRecord (s : State) (z : Option (Fin 8)) (f : Word) (fails : Nat) (perm : Bool) : State :=
  scbRecord s { perm := perm, blk := blkScb, kind := 2, inst := (match z with | none => 0 | some z => 1 + z.val),
                retries := min fails 2, d0 := f }

/-- One attempt for a frame of a zone in RESTORING (R438): it verifies when its check word agrees in the slot and after the write. -/
def restoreAttempt (s : State) (z : Fin 8) (ok : Bool) : State :=
  let x := getZone s z
  match x.restoreFrom with
  | none => s
  | some f =>
    if ok && slotFrameOk s f then
      let s := if x.restoreFails = 0 then s else reloadRecord s (some z) f x.restoreFails false
      (reloadFrame s f).modZone z fun x =>
        { x with restoreFrom := nextFrameIn x.first.toNat x.last.toNat f, restoreFails := 0 }
    else if 2 ≤ x.restoreFails then zoneDamaged (reloadRecord s (some z) f 2 true) z f
    else s.modZone z fun x => { x with restoreFails := x.restoreFails + 1 }

/-- The frames left of a zone in RESTORING, each reloaded; one that its slot holds damaged fails every attempt (R438). n bounds the walk. -/
def restoreRest (z : Fin 8) : Nat → State → State
  | 0, s => s
  | n + 1, s =>
    match (getZone s z).restoreFrom with
    | none => s
    | some f =>
      if slotFrameOk s f then restoreRest z n (restoreAttempt s z true)
      else restoreAttempt (s.modZone z fun x => { x with restoreFails := 2 }) z false

/-- ZONE_RESTORE_DONE (R433): every frame that was left has been reloaded; the zone is released when every one is verified. -/
def zoneRestoreDoneEffect (z : Fin 8) (s : State) : State :=
  if !released s ∨ (getZone s z).st ≠ .restoring then s
  else
    let s := restoreRest z 10680 s
    if (getZone s z).st ≠ .restoring then s
    else (setZone s z fun x => { x with st := .boot, restoreFrom := none, restoreFails := 0 }).modScb fun b =>
      { b with flags := b.flags.set 4 }

/-! ### The pass (R434 to R441) -/

/-- One correction by vote, recorded (R443). -/
def voteRecord (s : State) (d0 : Word) : State :=
  let s := s.modScb fun b => { b with cntVote := b.cntVote + 1 }
  scbRecord s { perm := false, blk := blkScb, kind := 5, inst := 0, d0 := d0 }

/-- The scrub settings the header gives, and whether neither copy passed (R444); in the tick in which a SAVE completes, those from before it
(R455). -/
def headerCfg (s : State) : (Byte × Bool) × Bool :=
  match s.moment.header.getD (s.cfg.scrubCopyA, s.cfg.scrubCopyB) with
  | (some a, _) => (a, false)
  | (none, some b) => (b, false)
  | (none, none) => ((0, true), true)

/-- A pass may start: at once after release, else INTERVAL ms after the last one, and with INTERVAL 0 in the following configuration clock
(R434). -/
def passDue (s : State) : Bool :=
  match s.scb.lastPassEnd with
  | none => true
  | some t => decide (t + max 2 (oneMs * (scrubCfg s).1.toNat) ≤ s.clock)

/-- PASS_START (R434, R444): INTERVAL ms after the last pass; a header that differs from the voted settings is a correction. -/
def passStartEffect (s : State) : State :=
  if released s && !s.scb.passBusy && passDue s then
    let (hd, dflt) := headerCfg s
    let differs := hd != scrubCfg s
    let s := s.modScb fun b =>
      { b with cfgA := hd, cfgB := hd, cfgC := hd, hdrDefault := dflt, passBusy := true, reloadPass := b.sigFault.isSome,
               passNext := some 0, changed := [], imgBytes := [], zoneBytes := [], reload := none, passFrom := s.clock }
    if differs then voteRecord s 0 else s
  else s

/-- The pass goes on to the next configuration frame. -/
def passAdvance (s : State) (f : Word) : State := s.modScb fun b => { b with passNext := nextConfigFrame f, reload := none }

/-- A visited frame enters the signatures of the pass. -/
def passUpdate (s : State) (f : Word) : State :=
  let bs := cfgFrameBytes (latchFrame s f)
  match zoneOf s (faColumn f) with
  | none => s.modScb fun b => { b with imgBytes := b.imgBytes ++ bs }
  | some z =>
    if (getZone s z).st = .loaded then s.modScb fun b => { b with zoneBytes := b.zoneBytes ++ [(z, bs)] } else s

/-- A frame that no single bit repairs: reloaded where the booted slot holds it, else its zone is DAMAGED (R434). -/
def scrubRepair (s : State) (f : Word) : State :=
  match zoneOf s (faColumn f) with
  | none => s.modScb fun b => { b with reload := some { frame := f, failures := 0 } }
  | some z =>
    if (getZone s z).st = .boot then s.modScb fun b => { b with reload := some { frame := f, failures := 0 } }
    else passAdvance (zoneDamaged s z f) f

/-- A zone that a pass visits (R434). -/
def visited (s : State) (f : Word) : Bool :=
  match zoneOf s (faColumn f) with
  | none => true
  | some z => (getZone s z).st == .boot || (getZone s z).st == .loaded

/-- The visit of frame f (R434, R435, R439): upsets flipped the bits of the list since the last one. -/
def scrubFrame (s : State) (f : Word) (flips : List Nat) : State :=
  let x := flips.foldl flipBit (latchFrame s f)
  let s := if flips.isEmpty then s else writeLatch s x
  if !visited s f then passAdvance (s.modScb fun b => { b with cntSkipped := b.cntSkipped + 1 }) f
  else if s.scb.reloadPass && (zoneOf s (faColumn f)).isNone then
    s.modScb fun b => { b with reload := some { frame := f, failures := 0 } }
  else if frameOk x then passAdvance (passUpdate s f) f
  else
    match singleBit x with
    | some i =>
      let s := writeLatch s (flipBit x i)
      let s := s.modScb fun b => { b with cntCorrected := b.cntCorrected + 1, lastFrame := f }
      let s := scbRecord s { perm := false, blk := blkScb, kind := 1, inst := 0, d0 := f, d1 := BitVec.ofNat 32 i }
      passAdvance (passUpdate s f) f
    | none => scrubRepair s f

/-- The pass can visit a frame: it waits for a reload and for a zone in VERIFYING (R437). -/
def passFree (s : State) : Bool :=
  released s && s.scb.passBusy && s.scb.reload.isNone && s.scb.zones.toList.all fun x => x.st != .verifying

/-- FRAME_SCRUB (R434): the next frame of the pass. A visit of a zone's frame stands at the end of its tick, so that an OPEN in it wins (R448). -/
def frameScrubEffect (flips : List Nat) (s : State) : State :=
  match s.scb.passNext with
  | none => s
  | some f =>
    if !passFree s then s
    else if s.moment.late || (zoneOf s (faColumn f)).isNone then
      scrubFrame (s.modMoment fun m => { m with scrub := none }) f flips
    else if s.moment.scrub.isSome then s
    else s.modMoment fun m => { m with scrub := some flips }

/-- A reload of the pass verified: its record, then the pass goes on. A reload pass of an IMAGE_SIG fault writes a RELOAD record
only where an attempt failed (DEDUCED; log entry 47). -/
def reloadVerified (s : State) (r : Reload) : State :=
  let z := zoneOf s (faColumn r.frame)
  let quiet := s.scb.reloadPass && z.isNone && r.failures == 0
  let s := reloadFrame s r.frame
  let s := if quiet then s else reloadRecord s z r.frame r.failures false
  passAdvance (passUpdate s r.frame) r.frame

/-- A reload of the pass has become permanent (R438, R439, R441, R454). -/
def reloadLost (s : State) (r : Reload) : State :=
  match zoneOf s (faColumn r.frame) with
  | some z => passAdvance (zoneDamaged (reloadRecord s (some z) r.frame 2 true) z r.frame) r.frame
  | none =>
    let s := match s.scb.reloadPass, s.scb.sigFault with
      | true, some n =>
        (scbRecord s { perm := true, blk := blkScb, kind := 3, inst := 0, retries := 2, d0 := n }).modScb fun b =>
          { b with sigFault := none, reloadPass := false }
      | _, _ => reloadRecord s none r.frame 2 true
    passAdvance (passUpdate (staticBad s) r.frame) r.frame

/-- RELOAD_ATTEMPT (R438): one attempt for the pass's reload, or else for a zone in RESTORING; `ok` when the latches read back what was written. -/
def reloadAttemptEffect (ok : Bool) (s : State) : State :=
  match s.scb.reload with
  | some r =>
    if ok && slotFrameOk s r.frame then reloadVerified s r
    else if 2 ≤ r.failures then reloadLost s r
    else s.modScb fun b => { b with reload := some { r with failures := r.failures + 1 } }
  | none =>
    match (allFin 8).find? fun z => (getZone s z).st == .restoring with
    | some z => restoreAttempt s z ok
    | none => s

/-- The whole-image signature at the end of a pass (R439). -/
def checkImage (s : State) : State :=
  match bootedSlot s with
  | none => s
  | some b =>
    let same := beWords (sha256 s.scb.imgBytes) == s.cfg.views[b.val].hdr.sig.toList
    let miss := fun (s : State) => s.modScb fun b => { b with cntSigFail := b.cntSigFail + 1 }
    match s.scb.sigFault with
    | none => if same then s else (miss s).modScb fun b => { b with sigFault := some b.passCount }
    | some n =>
      let close := fun (s : State) (perm : Bool) =>
        (scbRecord s { perm := perm, blk := blkScb, kind := 3, inst := 0, retries := 1, d0 := n }).modScb fun b =>
          { b with sigFault := none }
      if same then close s false else staticBad (close (miss s) true)

/-- The signature of one zone at the end of a pass (R440). -/
def checkZone (s : State) (z : Fin 8) : State :=
  let x := getZone s z
  if x.st ≠ .loaded ∨ z ∈ s.scb.changed then s
  else
    let bs := (s.scb.zoneBytes.filter fun q => q.1 == z).flatMap (·.2)
    if beWords (sha256 bs) == x.sig.toList then s
    else zoneDamaged (s.modScb fun b => { b with cntSigFail := b.cntSigFail + 1 }) z 0xFFFF_FFFF

/-- PASS_END (R434, R436, R439, R440): 400 ticks are 1 µs. -/
def passEndEffect (s : State) : State :=
  if released s && s.scb.passBusy && s.scb.passNext.isNone && s.scb.reload.isNone then
    let s := s.modScb fun b =>
      { b with passBusy := false, passCount := b.passCount + 1,
               passTime := BitVec.ofNat 20 (min ((s.clock - b.passFrom) / 400) 0xFFFFF), lastPassEnd := some s.clock }
    let s := checkImage s
    (forEach (allFin 8) (fun z s => checkZone s z) s).modScb fun b => { b with reloadPass := false, imgBytes := [], zoneBytes := [] }
  else s

/-- VOTE_CORRECTION (R443): the copy that disagreed takes the voted value. -/
def voteCorrectionEffect (what : VoteTarget) (s : State) : State :=
  let v := scrubCfg s
  match what with
  | .register off => voteRecord (s.modScb fun b => { b with cfgA := v, cfgB := v, cfgC := v }) (off.setWidth 32)
  | .sequencing => voteRecord s 0xFFFF_FFFF

/-! ### SAVE (R445) -/

/-- SAVE (R445): the staged settings go into the header; not in SCRAPPED, nor while a SAVE runs, but for one that completes in this tick
(R9). -/
def saveEffect (s : State) : State :=
  if scrapped s then s
  else if s.scb.saving.isSome then noteRetry .save s
  else s.modScb fun b => { b with saving := some (b.stageInterval, b.stageReconf) }

/-- SAVE_DONE (R445): a SAVE that was written in this tick starts (R9). -/
def saveDoneEffect (s : State) : State :=
  match s.scb.saving with
  | none => s
  | some v =>
    let was := (s.cfg.scrubCopyA, s.cfg.scrubCopyB)
    let s := (s.modScb fun b => { b with saving := none, flags := b.flags.set 5 }).modCfg fun c =>
      { c with scrubCopyA := some v, scrubCopyB := some v }
    let s := s.modMoment fun m => { m with header := some was }
    if s.moment.retry.contains .save then saveEffect s else s

/-! ### What start-up and reconfiguration leave (R422, R449, R450) -/

/-- No pass and no operation of a zone is running. -/
def scrubIdle (s : State) : State :=
  (s.modMoment fun m => { m with scrub := none, zoneWas := none }).modScb fun b =>
    { b with passBusy := false, reloadPass := false, passNext := none, changed := [], sigFault := none, reload := none,
             imgBytes := [], zoneBytes := [], lastPassEnd := none, loadBusy := [] }

/-- With no slot booted no zone exists (R421, R422), and no pass runs (R434). -/
def scrubHalt (s : State) : State :=
  (scrubIdle s).modScb fun x => { x with zones := x.zones.map fun z => { Zone.init with result := z.result, sig := z.sig } }

/-- The zones of the booted image, each in BOOT, and a scrubber about to start its first pass. -/
def scrubRelease (s : State) : State :=
  match bootedSlot s with
  | none => scrubHalt s
  | some b =>
    let h := (getNv s b).hdr
    (scrubIdle s).modScb fun x =>
      { x with
        zones := Vector.ofFn fun z : Fin 8 =>
          let w := h.ztab[z.val]
          let old := x.zones[z.val]
          if zEn w then
            { Zone.init with st := .boot, first := BitVec.ofNat 8 (zFirst w), last := BitVec.ofNat 8 (zLast w), result := old.result,
                             sig := old.sig }
          else { Zone.init with result := old.result, sig := old.sig },
        icpClkBad := Config.icpClkBad h.sig.toList }

/-! ### Registers of SCB -/

def zoneStateNo : ZoneState → Nat
  | .none => 0 | .boot => 1 | .loading => 2 | .verifying => 3 | .loaded => 4 | .failed => 5 | .damaged => 6 | .restoring => 7

/-- SCB_ZFRAMES: a zone of more frames than its 11 bits hold has no stated value there and shows a free one. -/
def zframesWord (s : State) (x : Zone) : Word :=
  let show_ := fun (n : Nat) => if n < 2048 then n else freeValue s % 2048
  if x.st = .none then 0 else put 0 (show_ (zoneFrames x.first.toNat x.last.toNat)) ||| put 16 (show_ x.received)

/-- The registers of zone z by word offset. -/
def zoneRegs (s : State) (z : Fin 8) (i : Nat) : Word :=
  let x := getZone s z
  match i with
  | 0 => put 0 (zoneStateNo x.st) ||| put 4 x.reason.toNat ||| put 8 x.result.toNat ||| put 16 x.first.toNat ||| put 24 x.last.toNat
  | 2 => x.next.getD 0
  | 3 => zframesWord s x
  | _ => 0

/-- SCB_CFG's layout. -/
def scrubWord (v : Byte × Bool) : Word := put 0 v.1.toNat ||| putB 8 v.2

/-- Reads of the SCB block by offset. -/
def scbRead (s : State) (off : Nat) : Word :=
  let b := s.scb
  if off = 0x000 then scrubWord (scrubCfg s)
  else if off = 0x004 then scrubWord (b.stageInterval, b.stageReconf)
  else if off = 0x00C then
    putB 0 b.passBusy ||| putB 1 b.reloadPass ||| putB 2 b.hdrDefault ||| putB 3 b.saving.isSome ||| putB 4 (released s && icpClkBad s)
  else if off = 0x010 then b.passCount
  else if off = 0x014 then b.passTime.setWidth 32
  else if off = 0x018 then b.flags.word
  else if off = 0x01C then b.flagEn.setWidth 32
  else if off = 0x020 then b.cntCorrected
  else if off = 0x024 then b.cntReloaded
  else if off = 0x028 then b.cntVote
  else if off = 0x02C then b.cntSigFail
  else if off = 0x030 then b.cntSkipped
  else if off = 0x040 then b.lastFrame
  else if 0x100 ≤ off ∧ off < 0x200 then zoneRegs s (Fin.ofNat 8 ((off - 0x100) / 32)) ((off / 4) % 8)
  else if 0x300 ≤ off ∧ off < 0x400 then
    (getZone s (Fin.ofNat 8 ((off - 0x300) / 32))).sig[(Fin.ofNat 8 ((off / 4) % 8)).val]
  else 0

/-- A write of SCB_ZCMD(z) (R428, R429). -/
def zcmdWrite (z : Fin 8) (w : Word) (s : State) : State :=
  if fld w 31 16 ≠ 0x2B6D then s
  else
    match fld w 2 0 with
    | 1 => zoneOpenEffect z s
    | 2 => zoneAbortEffect z s
    | 3 => zoneRestoreEffect z s
    | _ => s

/-- Writes of the SCB block by offset, by a requester. -/
def scbWrite (r : Req) (off : Nat) (w : Word) (s : State) : State :=
  if off = 0x004 then s.modScb fun b => { b with stageInterval := BitVec.ofNat 8 (fld w 7 0), stageReconf := bit w 8 }
  else if off = 0x008 then (if fld w 31 16 = 0x6C1E ∧ fld w 2 0 = 1 then saveEffect s else s)
  else if off = 0x018 then s.modScb fun b => { b with flags := b.flags.clear w }
  else if off = 0x01C then s.modScb fun b => { b with flagEn := w.setWidth 6 }
  else if 0x100 ≤ off ∧ off < 0x200 then
    if (off / 4) % 8 = 1 ∧ r ≠ .qe then zcmdWrite (Fin.ofNat 8 ((off - 0x100) / 32)) w s else s
  else if off = 0x200 then (if r = .icp then zdataWriteEffect w s else s)
  else s

/-- Attention flags of SCB that are set and enabled (R81). -/
def scbAttn (s : State) : Bool := s.scb.flags.raised s.scb.flagEn

/-! ### The commands of zones and scrubber -/

def execZoneOpen (z : Fin 8) (s : State) : Out := onSys s (zoneOpenEffect z)
def execZoneAbort (z : Fin 8) (s : State) : Out := onSys s (zoneAbortEffect z)
def execZoneRestore (z : Fin 8) (s : State) : Out := onSys s (zoneRestoreEffect z)
def execZdataWrite (word : Word) (s : State) : Out := onSys s (zdataWriteEffect word)
def execZoneVerifyDone (z : Fin 8) (s : State) : Out := onSys s (zoneVerifyDoneEffect z)
def execZoneRestoreDone (z : Fin 8) (s : State) : Out := onSys s (zoneRestoreDoneEffect z)
def execPassStart (s : State) : Out := onSys s passStartEffect
def execFrameScrub (flips : List Nat) (s : State) : Out := onSys s (frameScrubEffect flips)
def execReloadAttempt (ok : Bool) (s : State) : Out := onSys s (reloadAttemptEffect ok)
def execPassEnd (s : State) : Out := onSys s passEndEffect
def execVoteCorrection (what : VoteTarget) (s : State) : Out := onSys s (voteCorrectionEffect what)
def execSave (s : State) : Out := onSys s saveEffect
def execSaveDone (s : State) : Out := onSys s saveDoneEffect

end Sys2Proof.Machine
end

