-- ==== Sys2Proof/Machine/Flags.lean ====
section
/-! DEFINITION. The 18 attention sources (R63, R81; chapter 03, "Register reference"), and what the management port shows of
other clock domains: the views of R62 and the status byte of R79. -/

namespace Sys2Proof.Machine

/-- The MP source: STREAM_STAT.OVERFLOW or CUT. -/
def mpAttn (s : State) : Bool := s.mp.overflow || s.mp.cut

/-- The sources in the order of MP_ATTN. -/
def attnSources (s : State) : List Bool :=
  [sysAttn s, accAttn s, lcsAttn s, tbeAttn s, tsqAttn s, capAttn s, pwAttn s, qeAttn s, egrAttn s,
    hlAttn s, uaAttn s, spcAttn s, pioAttn s, adcAttn s, cfgAttn s, scbAttn s, bkpAttn s, mpAttn s]

/-- MP_ATTN: a bit is 1 while its source is active (R81). -/
def attnWord (s : State) : BitVec 18 :=
  (attnSources s).zipIdx.foldl (fun w b => if b.1 then setBit w b.2 else w) 0

/-- An enabled source is active: the ATTN bit of the status byte, and MP_ATTN_N low from release or a failed configuration on
(R44, R63, R79). -/
def attnActive (s : State) : Bool := attnWord s &&& s.mp.attnMask != 0

/-- MP_STATUS.PLL_LOCK: PLL_SYS is locked (R152, R561). -/
def pllLockView (s : State) : Bool := s.sys.sysLock

/-- The view fields of MP_STATUS as they stand (R62). -/
def liveStatus (s : State) : Word :=
  putB 0 (pllLockView s) ||| putB 1 (released s) ||| putB 2 (s.sys.phase == .failed) ||| putB 3 (!s.bus.bkpBuf.isEmpty) |||
    putB 4 s.lcs.scope.isSome

/-- MP_STATUS: its views as last sampled, and the sticky outcomes. -/
def mpStatus (s : State) : Word :=
  s.mp.viewStatus ||| putB 8 s.mp.deniedSeen ||| putB 9 s.mp.norespSeen ||| putB 10 s.mp.voidSeen

/-- MP_LAST. -/
def mpLast (m : Mp) : Word := put 0 m.lastOpcode.toNat ||| putB 8 m.wellFormed ||| put 16 m.lastWords.toNat

/-- STREAM_STAT as it stands. -/
def streamStat (s : State) : Word :=
  put 0 (streamFree s) ||| putB 16 (streamBusy s) ||| putB 17 s.mp.overflow ||| putB 18 s.mp.cut

/-- The views sampled on the first rising SCK edge of a transaction (R62). Between transactions they keep their values, which are
what the mirror shows to every requester. -/
def sampleViews (s : State) : State :=
  s.modMp fun m => { m with viewStatus := liveStatus s, viewAttn := attnWord s, viewStream := streamStat s }

/-- The status byte (R79); after a pin or soft reset the first shows ATTN alone (R37). -/
def statusByte (s : State) : Byte :=
  let m := s.mp
  (putB 7 m.lastOk ||| putB 6 m.denied ||| putB 5 m.noresp ||| putB 4 (attnActive s) |||
    putB 3 (streamBusy s && !m.fresh)).setWidth 8

/-- A direct register as a direct read returns it, its views as the transaction sampled them (R62, R69, R99). -/
def mpRead (s : State) (reg : Nat) : Word :=
  let m := s.mp
  match reg with
  | 0x00 => idcodeWord
  | 0x01 => 0x0000_0101
  | 0x02 => mpStatus s
  | 0x03 => m.viewAttn.setWidth 32
  | 0x04 => m.attnMask.setWidth 32
  | 0x05 => mpLast m
  | 0x08 => m.winAddr
  | 0x09 => m.winData
  | 0x0A => putB 0 m.autoinc
  | 0x0C => m.viewStream
  | 0x11 => m.scratch
  | _ => 0

/-- A direct register through the MP mirror: the outcome fields read 0 (R80). -/
def mirrorRead (s : State) (reg : Nat) : Word :=
  match reg with
  | 0x02 => mpStatus s &&& 0xFFFF_F8FF
  | 0x05 => 0
  | _ => mpRead s reg

end Sys2Proof.Machine
end

