-- ==== Sys2Proof/Machine/Bus.lean ====
section
/-! DEFINITION. Internal Space as its requesters see it: every register by its address (R89), reads with their side effects
and latches (R156, R471, R503), posted writes and their order (R76, R77, R284), the answers owed to FRP, ICP and JTAG
(R113, R133, R373, R426), and COMMIT.GO (R82). -/

namespace Sys2Proof.Machine

/-! ### Every register by its address -/

/-- The instance of a replicated block an address names. -/
def instAt {n : Nat} [NeZero n] (a base stride : Nat) : Fin n := Fin.ofNat n ((a - base) / stride)

/-- The word at an address of a block, without the side effects of a read. -/
def regWord (r : Req) (s : State) (addr : Word) : Word :=
  let a := addr.toNat
  match blockOf addr with
  | none => 0
  | some .mirror => mirrorRead s (a / 4)
  | some .sys => sysRead s (a - 0x1_0000)
  | some .acc => accRead s (a - 0x2_0000)
  | some .lcs => lcsRead r s (a - 0x3_0000)
  | some .tbe => tbeRead s (a - 0x4_0000)
  | some .tsq => tsqRead s (instAt a 0x5_0000 0x1000) (a % 0x1000)
  | some .cap => capRead s (instAt a 0x6_0000 0x1000) (a % 0x1000)
  | some .pw =>
    let off := a - 0x7_0000
    if 0x400 ≤ off ∧ off < 0x500 then fspRegRead s (instAt off 0x400 0x20) ((off / 4) % 8) else pwRead s off
  | some .qe => qeRead s (a - 0x8_0000)
  | some .desc => memRead32 s.dm (a - 0x10_0000)
  | some .egr => egrRead s (instAt a 0x20_0000 0x1000) (a % 0x1000)
  | some .hl => hlRead s (a - 0x21_0000)
  | some .ua => uaRead s (instAt a 0x22_0000 0x100) (a % 0x100)
  | some .spc => spcRead s (instAt a 0x23_0000 0x100) (a % 0x100)
  | some .pio => pioRead s (a - 0x24_0000)
  | some .hkadc => adcRead s (a - 0x25_0000)
  | some .cfg => cfgRead s (a - 0x26_0000)
  | some .scb => scbRead s (a - 0x27_0000)
  | some .bkp => bkpRead s (a - 0x28_0000)
  | some .fs => memRead32 s.fs (a - 0x100_0000)

/-- A write that would enable a unit: in SCRAPPED it has no effect (R124). -/
def enables (addr w : Word) : Bool :=
  let a := addr.toNat
  match blockOf addr with
  | some .tbe => decide (0x4_0100 ≤ a ∧ a < 0x4_0300) && a % 64 == 0 && bit w 0
  | some .tsq => a % 0x1000 == 0 && bit w 0
  | some .cap => a % 0x1000 == 0 && bit w 0
  | some .qe => decide (0x8_8000 ≤ a ∧ a < 0x9_0000) && a % 32 == 4 && bit w 0
  | some .egr => a % 0x1000 == 0 && bit w 0
  | some .hl => (a == 0x21_0000 && (bit w 8 || bit w 9)) || (decide (0x21_0100 ≤ a ∧ a < 0x21_0180) && a % 32 == 0 && bit w 0)
  | some .ua => a % 0x100 == 0 && bit w 0
  | some .spc => a % 0x100 == 0 && bit w 0
  | some .hkadc => a == 0x25_0000 && bit w 0
  | _ => false

/-- The shadow group that a COMMIT register at an address belongs to (the uniform layout of chapter 03). -/
def commitGroup (addr : Word) : Option Group :=
  let a := addr.toNat
  match blockOf addr with
  | some .acc => if a = 0x2_0008 then some .acc else none
  | some .tbe =>
    if 0x4_0100 ≤ a ∧ a < 0x4_0300 ∧ a % 64 = 4 then some (.enc (instAt a 0x4_0100 64)) else none
  | some .tsq => if a % 0x1000 = 0x030 then some (.tsq (instAt a 0x5_0000 0x1000)) else none
  | some .cap => if a % 0x1000 = 0x030 then some (.cap (instAt a 0x6_0000 0x1000)) else none
  | some .pw => if a = 0x7_0008 then some .pw else none
  | some .qe => if 0x8_8000 ≤ a ∧ a < 0x9_0000 ∧ a % 32 = 12 then some (.ring (instAt a 0x8_8000 32)) else none
  | some .egr => if a % 0x1000 = 0x030 then some (.egr (instAt a 0x20_0000 0x1000)) else none
  | some .hl => if a = 0x21_0004 then some .hl else none
  | some .ua => if a % 0x100 = 0x08 then some (.ua (instAt a 0x22_0000 0x100)) else none
  | some .spc => if a % 0x100 = 0x08 then some (.spc (instAt a 0x23_0000 0x100)) else none
  | some .hkadc => if a = 0x25_0008 then some .adc else none
  | _ => none

/-- The commit of a group would enable a unit that is disabled. -/
def commitEnables (s : State) (g : Group) : Bool :=
  let turns := fun (old new : Word) (i : Nat) => bit new i && !bit old i
  match g with
  | .enc n => let g := (getEnc s n).cfg; turns g.active g.shadow 0
  | .tsq n => let g := (getTsq s n).group; turns g.active.prog g.shadow.prog 0
  | .cap n => let g := (getCap s n).group; turns g.active.cfg g.shadow.cfg 0
  | .ring r => let g := (getRing s r).group; turns g.active.ctrl g.shadow.ctrl 0
  | .egr n => let g := (getEgr s n).group; turns g.active.cfg g.shadow.cfg 0
  | .hl =>
    let g := s.hl.group
    turns g.active.cfg g.shadow.cfg 8 || turns g.active.cfg g.shadow.cfg 9 ||
      (allFin 4).any fun h => turns g.active.herd[h.val] g.shadow.herd[h.val] 0
  | .ua n => let g := (getUa s n).group; turns g.active.cfg g.shadow.cfg 0
  | .spc m => let g := (getSpc s m).group; turns g.active.cfg g.shadow.cfg 0
  | .adc => let g := s.adc.group; turns g.active.cfg g.shadow.cfg 0
  | .acc => false
  | .pw => false

/-- A write that has no effect in SCRAPPED: one that would enable a unit, by its EN field or by the commit of one (R124). -/
def scrapDrops (s : State) (addr w : Word) : Bool :=
  scrapped s && (enables addr w || (bit w 0 && (commitGroup addr).any fun g => commitEnables s g))

/-- A write as it takes effect in its target block (R4 to R6, R91); `ecc` is what the merging read of the frame store finds
(R254). -/
def blockWrite (r : Req) (addr w : Word) (ecc : Ecc) (s : State) : State :=
  let a := addr.toNat
  if scrapDrops s addr w then s
  else
    match blockOf addr with
    | none => s
    | some .mirror => s
    | some .sys => sysWrite r (a - 0x1_0000) w s
    | some .acc => accWrite (a - 0x2_0000) w s
    | some .lcs => lcsWrite r (a - 0x3_0000) w s
    | some .tbe => tbeWrite (a - 0x4_0000) w s
    | some .tsq => tsqWrite (instAt a 0x5_0000 0x1000) (a % 0x1000) w s
    | some .cap =>
      if a % 0x1000 = 0x014 then capSerWrite (instAt a 0x6_0000 0x1000) w s
      else capWrite (instAt a 0x6_0000 0x1000) (a % 0x1000) w s
    | some .pw => pwWrite (a - 0x7_0000) w s
    | some .qe => qeWrite (a - 0x8_0000) w s
    | some .desc => dmWrite s (a - 0x10_0000) (leBytes 4 w.toNat)
    | some .egr => egrWrite (instAt a 0x20_0000 0x1000) (a % 0x1000) w s
    | some .hl => hlWrite (a - 0x21_0000) w s
    | some .ua => uaWrite (instAt a 0x22_0000 0x100) (a % 0x100) w s
    | some .spc => spcWrite (instAt a 0x23_0000 0x100) (a % 0x100) w s
    | some .pio => pioWrite (a - 0x24_0000) w s
    | some .hkadc => adcWrite (a - 0x25_0000) w s
    | some .cfg => cfgWrite (a - 0x26_0000) w s
    | some .scb => scbWrite r (a - 0x27_0000) w s
    | some .bkp => bkpWrite (a - 0x28_0000) w s
    | some .fs => fsWrite32 s (a - 0x100_0000) w ecc

/-- A register at an address holds actions only (W1S and WO); the frame store is no register. -/
def isAction (addr : Word) : Bool :=
  let a := addr.toNat
  match blockOf addr with
  | some .sys => a == 0x1_0004
  | some .lcs => a == 0x3_0020 || a == 0x3_0040
  | some .tbe => a == 0x4_0008 || (decide (0x4_0100 ≤ a ∧ a < 0x4_0300) && a % 64 == 8)
  | some .tsq => a % 0x1000 == 0x034
  | some .cap => a % 0x1000 == 0x034
  | some .pw => a == 0x7_0000
  | some .qe => a == 0x8_0000 || a == 0x8_0010 || a == 0x8_0100
  | some .egr => a % 0x1000 == 0x034
  | some .hl =>
    a == 0x21_0008 || (decide (0x21_0040 ≤ a ∧ a < 0x21_0060) && a % 16 == 4) ||
      (decide (0x21_0100 ≤ a ∧ a < 0x21_0180) && a % 32 == 4)
  | some .ua => a % 0x100 == 0x18
  | some .spc => decide (0x0C ≤ a % 0x100 ∧ a % 0x100 ≤ 0x1C)
  | some .pio => (decide (0x24_0200 ≤ a ∧ a < 0x24_02C0) && (a % 32 == 4 || a % 32 == 8)) || a == 0x24_0620
  | some .hkadc => a == 0x25_000C
  | some .cfg => a == 0x26_0000 || a == 0x26_0014
  | some .scb => a == 0x27_0008 || a == 0x27_0200 || (decide (0x27_0100 ≤ a ∧ a < 0x27_0200) && a % 32 == 4)
  | some .bkp => a == 0x28_0004
  | some .fs => true
  | _ => false

/-- The bits of a register at an address in which the value written last remains: every bit but those of actions. -/
def lasting (addr : Word) : Word :=
  if isAction addr then 0
  else if (commitGroup addr).isSome then 0x2
  else if blockOf addr = some .ua ∧ addr.toNat % 0x100 = 0x10 then 0xFFFF_FFF8
  else 0xFFFF_FFFF

/-- A write noted as one of the present tick (R10, R94). -/
def noteWrote (r : Req) (addr w : Word) (s : State) : State :=
  s.modMoment fun m => { m with wrote := ⟨r, addr, w⟩ :: m.wrote }

/-- What MP wrote last to an address in the present tick. -/
def mpWrote (s : State) (addr : Word) : Option Word :=
  (s.moment.wrote.find? fun x => x.req == .mp && x.addr == addr).map (·.data)

/-- QE_DOORBELL. -/
def doorbellAddr : Word := 0x0008_0010

/-- Two values of QE_DOORBELL name the same side of the same ring. -/
def sameBell (v w : Word) : Bool := fld v 12 0 == fld w 12 0

/-- The PIO_OUT bank of an address that writes it: PIO_OUT, PIO_OUT_SET or PIO_OUT_CLR. -/
def pioOutBank (addr : Word) : Option Nat :=
  let a := addr.toNat
  if 0x24_0200 ≤ a ∧ a < 0x24_02C0 ∧ a % 32 < 12 then some ((a - 0x24_0200) / 32) else none

/-- The writes of MP to the outputs of a bank in the present tick act once more, in order (R533). -/
def mpOutsAgain (b : Nat) (s : State) : State :=
  forEach ((s.moment.wrote.filter fun x => x.req == .mp && pioOutBank x.addr == some b).reverse)
    (fun x s => blockWrite .mp x.addr x.data .clean s) s

/-- A write takes effect. Of two writes of one tick to one register both act, that of MP last: after the write of another
requester the value MP wrote remains (R94), its outputs (R533), and an index MP rang (R299). -/
def regWrite (r : Req) (addr w : Word) (ecc : Ecc) (s : State) : State :=
  let t := noteWrote r addr w (blockWrite r addr w ecc s)
  match (if r = .mp then none else pioOutBank addr) with
  | some b => mpOutsAgain b t
  | none =>
  match mpWrote s addr with
  | some v =>
    if r = .mp then t
    else if addr = doorbellAddr then (if sameBell v w then blockWrite .mp addr v .clean t else t)
    else if lasting addr = 0 then t
    else blockWrite .mp addr (v &&& lasting addr) .clean t
  | none => t

/-! ### _LO and _HI pairs (R156) -/

/-- The address is the _LO register of a pair that R156 governs; its _HI lies 4 above it. -/
def isPairLo (addr : Word) : Bool :=
  let a := addr.toNat
  a == 0x4_0000 || a == 0x4_0020 || a == 0x28_0008 ||
    (decide (0x4_0100 ≤ a ∧ a < 0x4_0300) && (a % 64 == 0x10 || a % 64 == 0x24 || a % 64 == 0x2C)) ||
    (decide (0x4_0400 ≤ a ∧ a < 0x4_0480) && a % 32 == 8) ||
    (decide (0x20_0000 ≤ a ∧ a < 0x20_4000) && a % 0x1000 == 0x300) ||
    (decide (0x21_0100 ≤ a ∧ a < 0x21_0180) && a % 32 == 0x10) ||
    (decide (0x24_0400 ≤ a ∧ a < 0x24_0600) && a % 32 == 8)

/-- The address is the _HI register of such a pair. -/
def isPairHi (addr : Word) : Bool := decide (4 ≤ addr.toNat) && isPairLo (addr - 4)

/-- The latch of one requester for one pair, named by its _LO address. -/
def findLatch (s : State) (r : Req) (lo : Word) : Option Word :=
  (s.bus.hiLatches.find? fun l => l.req == r && l.addr == lo).map (·.word)

/-- The latch spent or emptied. -/
def dropLatch (s : State) (r : Req) (lo : Word) : State :=
  s.modBus fun b => { b with hiLatches := b.hiLatches.filter fun l => !(l.req == r && l.addr == lo) }

/-- A read of _LO latches the _HI word for its requester, replacing any word latched before. -/
def setLatch (s : State) (r : Req) (lo w : Word) : State :=
  (dropLatch s r lo).modBus fun b => { b with hiLatches := b.hiLatches ++ [⟨r, lo, w⟩] }

/-! ### Reads -/

/-- A read of the frame-store window: one that ends uncorrectable returns the data of the last read, uncorrected (R252). -/
def fsWindowRead (s : State) (addr : Word) (ecc : Ecc) : Word × State :=
  let a := addr.toNat - 0x100_0000
  (BitVec.ofNat 32 (leAt (codeBytes s a ecc) (a % 8) 4), eccRead s a none ecc)

/-- One read that reached its block: its word, and the state with the read's side effects. -/
def takeRead (r : Req) (addr : Word) (ecc : Ecc) (s : State) : Word × State :=
  let a := addr.toNat
  if isPairLo addr then
    (regWord r s addr, setLatch s r addr (regWord r s (addr + 4)))
  else if isPairHi addr then
    match findLatch s r (addr - 4) with
    | some w => (w, dropLatch s r (addr - 4))
    | none => (regWord r s addr, s)
  else
    match blockOf addr with
    | some .ua => if a % 0x100 = 0x1C then uaRxRead s (instAt a 0x22_0000 0x100) else (regWord r s addr, s)
    | some .spc => if a % 0x100 = 0x20 then spcRxRead s (instAt a 0x23_0000 0x100) else (regWord r s addr, s)
    | some .pio => (regWord r s addr, s.freeStep)
    | some .scb => (regWord r s addr, s.freeStep)
    | some .fs => fsWindowRead s addr ecc
    | _ => (regWord r s addr, s)

/-! ### Posted writes taking effect (R76, R77, R284) -/

/-- One posted write takes effect and retires. -/
def applyAccess (ecc : Ecc) (a : Access) (s : State) : State :=
  let s := s.modBus fun b =>
    { b with inflight := b.inflight.filter fun x => x.id != a.id, bkpBuf := b.bkpBuf.filter fun x => x.id != a.id }
  regWrite a.req a.addr a.data ecc s

/-- The address is that of QE_DOORBELL. -/
def isDoorbell (addr : Word) : Bool := addr == doorbellAddr

/-- The writes to descriptor memory that a requester issued before its access number n take effect: a doorbell is not taken
before them (R284). -/
def settleDesc (r : Req) (n : Nat) (s : State) : State :=
  forEach (s.bus.inflight.filter fun b => b.req == r && decide (b.id < n) && blockOf b.addr == some .desc) (applyAccess .clean) s

/-- A posted write takes effect; a doorbell only after the earlier writes to descriptor memory (R284). -/
def applyPosted (ecc : Ecc) (a : Access) (s : State) : State :=
  applyAccess ecc a (if isDoorbell a.addr then settleDesc a.req a.id s else s)

/-- What the merging read of a posted write finds when the model lets it take effect for a later access (R254). -/
def mergeFinds (a : Access) : Ecc :=
  let k := Config.mergeRead a.id
  match k % 3 with
  | 0 => .clean
  | 1 => .corrected
  | _ => .uncorrectable (BitVec.ofNat 64 (k / 3))

/-- The posted writes that satisfy a test take effect in order of issue. -/
def drainWhere (p : Access → Bool) (s : State) : State :=
  forEach (s.bus.inflight.filter p) (fun a => applyPosted (mergeFinds a) a) s

/-- POSTED_WRITE_APPLY (R77): the oldest posted write of a requester into a block; a BKP write when it is at the front of its
buffer. -/
def postedApplyEffect (r : Req) (blk : Block) (ecc : Ecc) (s : State) : State :=
  if blk = .bkp then
    match s.bus.bkpBuf with
    | [] => s
    | a :: _ =>
      if a.req = r ∧ s.bkp.oscRunning = true then noteFence s ((applyPosted ecc a s).modBus fun b => { b with bkpEdges := 0 }) else s
  else
    match s.bus.inflight.find? fun a => a.req == r && blockOf a.addr == some blk with
    | none => s
    | some a => noteFence s (applyPosted ecc a s)

/-- Every posted write outside BKP takes effect (R78, R96). -/
def drainAll (s : State) : State := drainWhere (fun _ => true) s

/-- The earlier writes of a requester to the block of an address take effect before its next access there (R76). -/
def settleBlock (r : Req) (addr : Word) (s : State) : State :=
  drainWhere (fun b => b.req == r && blockOf b.addr == blockOf addr) s

/-- The same before a write, and before a doorbell those to descriptor memory too (R284). -/
def settleBefore (r : Req) (addr : Word) (s : State) : State :=
  let s := settleBlock r addr s
  if isDoorbell addr then settleDesc r s.bus.nextId s else s

/-! ### One read as a requester issues it (R73, R74, R76) -/

/-- A read checked at issue; a permitted one reaches its block after the earlier writes of its requester to that block
(R76, R373). -/
def issueRead (r : Req) (addr : Word) (ecc : Ecc) (s : State) : (Issue × Word) × State :=
  match checkAccess s r false addr with
  | some why => ((.denied, 0), logRefusal s r false addr why)
  | none =>
    if !responds s addr then ((.noresp, 0), s)
    else
      let t := settleBlock r addr s
      let x := takeRead r addr ecc t
      ((.ok, x.1), noteFence s x.2)

/-! ### FRP and ICP (R373, R426) -/

def respOf : Issue → RespCode
  | .ok => .ok
  | .denied => .denied
  | .noresp => .noresp

/-- 120 ns in ticks (R2). -/
def answerTicks : Nat := 48

/-- An answer given to its requester. -/
def giveAnswer (o : Owed) (s : State) : State :=
  match o.req with
  | .frp => s.modBus fun b => { b with frpAnswer := some (o.code, o.data) }
  | .icp => s.modBus fun b => { b with icpAnswer := some (o.code, o.data) }
  | .jtag => s.modJtag fun j =>
      { j with lastData := if o.write then j.lastData else o.data, ok := o.code == .ok, denied := o.code == .denied,
               pendingAnswer := false }
  | _ => s

/-- The answers a requester waits for. -/
def owedTo (s : State) (r : Req) : List Owed := s.bus.owed.filter fun o => o.req == r

/-- An answer owed from now on; one due at once with none before it is given at once (R113, R373, R426). -/
def oweAnswer (o : Owed) (s : State) : State :=
  if o.write && (owedTo s o.req).isEmpty then giveAnswer o s else s.modBus fun b => { b with owed := b.owed ++ [o] }

/-- One access of FRP, ICP or JTAG, checked and issued (R107, R113). -/
def issueAccess (r : Req) (write : Bool) (addr data : Word) (ecc : Ecc) (s : State) : State :=
  let a := wordAddr addr
  let ord := s.bus.epochOrder
  if write then
    let x := issueWrite s r a data
    oweAnswer { req := r, write := true, addr := a, due := s.clock, order := ord, holds := x.1 == .denied, code := respOf x.1,
                data := 0 } x.2
  else
    let x := issueRead r a ecc s
    oweAnswer { req := r, write := false, addr := a, due := s.clock + answerTicks, order := ord, holds := true,
                code := respOf x.1.1, data := x.1.2 } x.2

/-- FRP_ACCESS (R373, R380): from release on, with a clock (R152, R372), not driven from an isolated zone (R424), and with fewer than 8
outstanding. -/
def frpAccessEffect (write : Bool) (addr data : Word) (ecc : Ecc) (s : State) : State :=
  if frpReady s && decide ((owedTo s .frp).length < 8) then issueAccess .frp write addr data ecc s else s

/-- ICP_ACCESS (R380, R424, R426, R427). -/
def icpAccessEffect (write : Bool) (addr data : Word) (ecc : Ecc) (s : State) : State :=
  if icpReady s && decide ((owedTo s .icp).length < 8) then issueAccess .icp write addr data ecc s else s

/-- The clock in which a requester takes its answers runs (R152, R373, R426). -/
def answerClock (s : State) : Req → Bool
  | .frp => netRuns s s.fab.frpNet
  | .icp => netRuns s s.fab.icpNet
  | _ => true

/-- ACCESS_ANSWER (R113): the oldest answer owed to a requester, once it is due and its requester's clock runs. -/
def accessAnswerEffect (r : Req) (s : State) : State :=
  match owedTo s r with
  | [] => s
  | o :: _ =>
    if s.clock < o.due || !answerClock s r then s
    else noteFence s (giveAnswer o (s.modBus fun b => { b with owed := b.owed.erase o }))

/-! ### JTAG accesses (R133) -/

/-- One access issued as requester JTAG: a new one discards an answer not yet captured. -/
def jtagIssue (write : Bool) (addr data : Word) (ecc : Ecc) (s : State) : State :=
  let s' := s.modBus fun b => { b with owed := b.owed.filter fun o => o.req != .jtag }
  let s' := s'.freeStep.modJtag fun j =>
    { j with lastWrite := write, lastAddr := wordAddr addr, lastData := BitVec.ofNat 32 (freeValue s), ok := false,
             denied := false, pendingAnswer := !write }
  noteFence s (issueAccess .jtag write addr data ecc s')

/-- An access refused by the address limit of its instruction (R133): logged, with a reason the manual does not state. The data
of a write, and of a read until its answer, are free values. -/
def jtagRefuse (write : Bool) (addr : Word) (s : State) : State :=
  let a := wordAddr addr
  let why := (checkAccess s .jtag write a).getD (BitVec.ofNat 4 (freeValue s))
  let s' := logRefusal s.freeStep.freeStep .jtag write a why
  let s' := s'.modBus fun b => { b with owed := b.owed.filter fun o => o.req != .jtag }
  let s' := s'.modJtag fun j =>
    { j with lastWrite := write, lastAddr := a, lastData := BitVec.ofNat 32 (Config.freeNat (s.freeCtr + 1)), ok := false,
             denied := false, pendingAnswer := !write }
  noteFence s (oweAnswer { req := .jtag, write := write, addr := a, due := if write then s.clock else s.clock + answerTicks,
                           order := s.bus.epochOrder, holds := true, code := .denied, data := 0 } s')

/-! ### A read named by its requester (rows LO_READ, HI_READ, UA_RXDATA_READ, SPC_RXDATA_READ) -/

/-- One read by a requester, delivered as that requester learns it: MP in WIN_DATA, the others by the answer owed to them. -/
def requestRead (r : Req) (addr : Word) (s : State) : State :=
  match r with
  | .mp =>
    let x := issueRead .mp addr .clean s
    x.2.modMp fun m => { m with winData := x.1.2 }
  | .frp => frpAccessEffect false addr 0 .clean s
  | .icp => icpAccessEffect false addr 0 .clean s
  | .jtag => jtagIssue false addr 0 .clean s
  | .qe => (issueRead .qe addr .clean s).2

def loReadEffect (r : Req) (addr : Word) (s : State) : State := if isPairLo addr then requestRead r addr s else s
def hiReadEffect (r : Req) (addr : Word) (s : State) : State := if isPairHi addr then requestRead r addr s else s
def uaRxdataEffect (n : Fin 18) (r : Req) (s : State) : State :=
  requestRead r (BitVec.ofNat 32 (0x22_001C + 0x100 * n.val)) s
def spcRxdataEffect (m : Fin 2) (r : Req) (s : State) : State :=
  requestRead r (BitVec.ofNat 32 (0x23_0020 + 0x100 * m.val)) s

/-! ### REGISTER_WRITE and COMMIT_GO -/

/-- REGISTER_WRITE (R4): a permitted write acts in its target block at once, after the earlier writes it must follow; a refused
one is logged and has no effect (R112, R115). One to the backup domain joins a buffer that is not empty (R77). -/
def registerWriteEffect (r : Req) (addr data : Word) (ecc : Ecc) (s : State) : State :=
  let a := wordAddr addr
  match checkAccess s r true a with
  | some why => logRefusal s r true a why
  | none =>
    if !responds s a then s
    else if blockOf a = some .bkp ∧ s.bus.bkpBuf ≠ [] then (issueWrite s r a data).2
    else noteFence s (regWrite r a data ecc (settleBefore r a s))

/-- QE_DOORBELL's value for a side of a ring and an index. -/
def bellWord (ci : Bool) (ring : Fin 1024) (idx : BitVec 16) : Word :=
  put 0 ring.val ||| putB 12 ci ||| put 16 idx.toNat

/-- DOORBELL_PI and DOORBELL_CI (R285): QE_DOORBELL as a requester rings it, after its earlier writes to descriptor memory (R284). -/
def doorbellEffect (r : Req) (ci : Bool) (ring : Fin 1024) (idx : BitVec 16) (s : State) : State :=
  noteFence s (regWrite r doorbellAddr (bellWord ci ring idx) .clean (settleDesc r s.bus.nextId s))

/-- COMMIT_GO (R82); in SCRAPPED one that would enable a unit has no effect (R124). -/
def commitGoEffect (g : Group) (s : State) : State :=
  if scrapped s && commitEnables s g then s
  else match g with
  | .acc => s.modAcc fun a => { a with group := a.group.request }
  | .enc n => s.modEnc n fun e => { e with cfg := e.cfg.request }
  | .tsq n => s.modTsq n fun t => { t with group := t.group.request }
  | .cap n => s.modCap n fun c => { c with group := c.group.request }
  | .pw => s.modPw fun p => { p with group := p.group.request }
  | .ring r => s.modRing r fun q => { q with group := q.group.request }
  | .egr n => s.modEgr n fun p => { p with group := p.group.request }
  | .hl => s.modHl fun l => { l with group := l.group.request }
  | .ua n => s.modUa n fun u => { u with group := u.group.request }
  | .spc m => s.modSpc m fun u => { u with group := u.group.request }
  | .adc => s.modAdc fun a => { a with group := a.group.request }

/-! ### The commands -/

def execRegisterWrite (req : Req) (addr data : Word) (ecc : Ecc) (s : State) : Out := onSys s (registerWriteEffect req addr data ecc)
def execPostedWriteApply (req : Req) (blk : Block) (ecc : Ecc) (s : State) : Out :=
  if blk = .bkp then onAny s (postedApplyEffect req blk ecc) else onSys s (postedApplyEffect req blk ecc)
def execAccessAnswer (req : Req) (s : State) : Out := onSys s (accessAnswerEffect req)
def execFrpAccess (write : Bool) (addr data : Word) (ecc : Ecc) (s : State) : Out := onSys s (frpAccessEffect write addr data ecc)
def execIcpAccess (write : Bool) (addr data : Word) (ecc : Ecc) (s : State) : Out := onSys s (icpAccessEffect write addr data ecc)
def execDoorbellPi (req : Req) (ring : Fin 1024) (idx : BitVec 16) (s : State) : Out := onSys s (doorbellEffect req false ring idx)
def execDoorbellCi (req : Req) (ring : Fin 1024) (idx : BitVec 16) (s : State) : Out := onSys s (doorbellEffect req true ring idx)
def execCommitGo (grp : Group) (s : State) : Out := onSys s (commitGoEffect grp)
def execAccCommitApply (s : State) : Out := onSys s fun s => noteFence s (accCommitEffect s)
def execLoRead (req : Req) (addr : Word) (s : State) : Out := onSys s (loReadEffect req addr)
def execHiRead (req : Req) (addr : Word) (s : State) : Out := onSys s (hiReadEffect req addr)
def execUaRxdataRead (n : Fin 18) (req : Req) (s : State) : Out := onSys s (uaRxdataEffect n req)
def execSpcRxdataRead (m : Fin 2) (req : Req) (s : State) : Out := onSys s (spcRxdataEffect m req)

end Sys2Proof.Machine
end

