-- ==== Sys2Proof/Machine/MgmtPort.lean ====
section
/-! DEFINITION. The management port (03_management_port.md R61 to R99): its five transactions by their count of SCK cycles,
what each records, and its commands. One transaction is one command; what it shifts out is kept in `Mp.miso`. -/

namespace Sys2Proof.Machine

/-- A transaction that reaches logic PLL_SYS clocks: its window accesses and its stream check are undefined once that clock
was lost (R152). Before the first lock they are defined (R75, R85). -/
def onPort (s : State) (reaches : Bool) (f : State → State) : Out :=
  match s.undef with
  | some .pllSysLost => if reaches then .fault (.undefinedBehaviour .pllSysLost) else onAny s f
  | _ => onAny s f

/-- The opcodes of R67. -/
def listedOpcode (op : Byte) : Bool := op == 0x02 || op == 0x03 || op == 0x0A || op == 0x0B || op == 0x0C

/-- A count as MP_LAST.WORDS holds it, saturating at 0xFFFF. -/
def satWords (n : Nat) : BitVec 16 := BitVec.ofNat 16 (min n 0xFFFF)

/-- The record of a transaction at the rise of MP_CSN (R68, R79): a void one reports neither DENIED nor NORESP. -/
def record (op : Byte) (wf : Bool) (words : Nat) (denied noresp : Bool) (s : State) : State :=
  s.modMp fun m =>
    { m with
      lastOpcode := op, wellFormed := wf, lastWords := satWords words, fresh := false,
      lastOk := wf && !denied && !noresp, denied := wf && denied, noresp := wf && noresp,
      deniedSeen := m.deniedSeen || (wf && denied), norespSeen := m.norespSeen || (wf && noresp), voidSeen := m.voidSeen || !wf }

/-- What the port shifts out: the status byte of the state at cycle 1 and the whole data words (R64 to R67, R79). -/
def shiftOut (at1 : State) (data : List Word) (s : State) : State :=
  s.modMp fun m => { m with miso := some ⟨statusByte at1, data⟩ }

/-- A transaction of a port that is not held in reset (R42): its first rising edge samples the views (R62), and what follows acts
once its command byte is complete (R68). -/
def transaction (cycles : Nat) (f : State → State) (s : State) : State :=
  if cycles = 0 || held s then s
  else if cycles < 8 then sampleViews s
  else f (sampleViews s)

/-! ### Window accesses of the port (R70, R71, R73, R74) -/

/-- One window write at WIN_ADDR. -/
def winWrite (data : Word) (s : State) : Issue × State := issueWrite s .mp (wordAddr s.mp.winAddr) data

/-- One window read at WIN_ADDR. -/
def winRead (ecc : Ecc) (s : State) : (Issue × Word) × State := issueRead .mp (wordAddr s.mp.winAddr) ecc s

/-- WIN_ADDR moved to the next word, wrapping (R70). -/
def nextWin (s : State) : State := s.modMp fun m => { m with winAddr := m.winAddr + 4 }

/-- WIN_ADDR loaded by a burst at cycle 40. -/
def loadWin (addr : Word) (s : State) : State := s.modMp fun m => { m with winAddr := wordAddr addr }

/-! ### Direct registers (R69, R99) -/

/-- A write of MP_COMMAND (R79, R87). STREAM_ABORT acts at once, before the first lock of PLL_SYS too, when the configuration
clock of R98 does not run yet (DESIGN CHOICE; log entry 93). -/
def mpCommand (cmd : Byte) (s : State) : State :=
  if cmd = 0x01 then streamAbortEffect s
  else if cmd = 0x02 then s.modMp fun m => { m with deniedSeen := false, norespSeen := false, voidSeen := false }
  else s

/-- A direct write as it takes effect at cycle 48; WIN_DATA keeps the last word a burst read captured, and its window write is
`winDataWriteAt`. -/
def mpWrite (reg : Byte) (w : Word) (s : State) : State :=
  match reg.toNat with
  | 0x02 => s.modMp fun m =>
      { m with deniedSeen := m.deniedSeen && !bit w 8, norespSeen := m.norespSeen && !bit w 9,
               voidSeen := m.voidSeen && !bit w 10 }
  | 0x04 => s.modMp fun m => { m with attnMask := w.setWidth 18 }
  | 0x08 => s.modMp fun m => { m with winAddr := wordAddr w }
  | 0x0A => s.modMp fun m => { m with autoinc := bit w 0 }
  | 0x0C => s.modMp fun m => { m with overflow := m.overflow && !bit w 17, cut := m.cut && !bit w 18 }
  | 0x10 => mpCommand (w.setWidth 8) s
  | 0x11 => s.modMp fun m => { m with scratch := w }
  | _ => s

/-- A direct write of WIN_DATA: one window write, then WIN_ADDR moves on when AUTOINC is 1 (R69). -/
def winDataWriteAt (data : Word) (s : State) : Issue × State :=
  let x := winWrite data s
  (x.1, if x.2.mp.autoinc then nextWin x.2 else x.2)

/-- DIRECT_WRITE (R67 to R69). -/
def directWriteEffect (reg : Byte) (data : Word) (cycles : Nat) : State → State := transaction cycles fun s =>
  if cycles < 48 then record 0x02 false 0 false false (shiftOut s [] s)
  else if reg = 0x09 then
    let x := winDataWriteAt data s
    record 0x02 true 1 (x.1 == .denied) (x.1 == .noresp) (shiftOut s [] x.2)
  else record 0x02 true 0 false false (shiftOut s [] (mpWrite reg data s))

/-- DIRECT_READ (R62, R67, R68): data taken at cycle 16 from the register or the views of cycle 1. -/
def directReadEffect (reg : Byte) (cycles : Nat) : State → State := transaction cycles fun s =>
  if cycles < 48 then record 0x03 false 0 false false (shiftOut s [] s)
  else record 0x03 true 0 false false (shiftOut s [mpRead s reg.toNat] s)

/-! ### The stream opcode (R85, R86, R88, R393) -/

/-- The bytes of a permitted stream transaction: discarded and counted while PCP_EN is 1, else taken as far as FREE showed
room; a partial byte is discarded with CUT. -/
def streamTake (bytes : List Byte) (partialByte : Bool) (s : State) : State :=
  if s.cfg.pcpEn then s.modCfg fun c => { c with cntDisc := c.cntDisc + BitVec.ofNat 32 bytes.length }
  else
    let s := enterBytes s bytes (streamFree s)
    if partialByte then cutByte s else s

/-- STREAM (R85 to R88): checked once, at cycle 8, as a write by MP to 0x0026_0000. -/
def streamEffect (bytes : List Byte) (cycles : Nat) : State → State := transaction cycles fun s =>
  let n := (cycles - 8) / 8
  let part := (cycles - 8) % 8 != 0
  let wf := !part && decide (1 ≤ n)
  match checkAccess s .mp true 0x0026_0000 with
  | some why => record 0x0A wf n true false (shiftOut s [] (logRefusal s .mp true 0x0026_0000 why))
  | none => record 0x0A wf n false false (shiftOut s [] (streamTake (bytes.take n) part s))

/-! ### Window bursts (R67, R70, R71, R83, R119) -/

/-- What the words of a burst met so far. -/
structure Met where
  denied : Bool
  noresp : Bool
  deriving DecidableEq, Repr

def Met.with (m : Met) (i : Issue) : Met := { denied := m.denied || i == .denied, noresp := m.noresp || i == .noresp }

/-- The words of a write burst, each checked and issued at its own edge. -/
def burstWrite : List Word → Met → State → Met × State
  | [], m, s => (m, s)
  | w :: r, m, s =>
    let x := winWrite w s
    burstWrite r (m.with x.1) (nextWin x.2)

/-- WINDOW_BURST_WRITE: word k issued at cycle 72 + 32k. -/
def burstWriteEffect (addr : Word) (words : List Word) (cycles : Nat) : State → State := transaction cycles fun s =>
  if cycles < 40 then record 0x0B false 0 false false (shiftOut s [] s)
  else
    let n := (cycles - 40) / 32
    let x := burstWrite (words.take n) ⟨false, false⟩ (loadWin addr s)
    record 0x0B (decide (1 ≤ n) && (cycles - 40) % 32 == 0) n x.1.denied x.1.noresp (shiftOut s [] x.2)

/-- n further words of a read burst: WIN_ADDR moves on before each after the first (R71). -/
def burstRead : Nat → List Ecc → Met → List Word → State → (Met × List Word) × State
  | 0, _, m, ws, s => ((m, ws), s)
  | n + 1, es, m, ws, s =>
    let x := winRead (es.headD .clean) (if ws.isEmpty then s else nextWin s)
    burstRead n es.tail (m.with x.1.1) (ws ++ [x.1.2]) x.2

/-- WINDOW_BURST_READ: word k issued at cycle 40 + 32k, captured at 48 + 32k and shifted out by 80 + 32k; the last word
captured is left in WIN_DATA. -/
def burstReadEffect (addr : Word) (ecc : List Ecc) (cycles : Nat) : State → State := transaction cycles fun s =>
  if cycles < 40 then record 0x0C false 0 false false (shiftOut s [] s)
  else
    let issued := 1 + (cycles - 40) / 32
    let captured := if cycles < 48 then 0 else 1 + (cycles - 48) / 32
    let x := burstRead issued ecc ⟨false, false⟩ [] (loadWin addr s)
    let ws := x.1.2
    let t := if captured = 0 then x.2 else x.2.modMp fun m => { m with winData := ws.getD (captured - 1) 0 }
    record 0x0C (decide (80 ≤ cycles) && (cycles - 48) % 32 == 0) issued x.1.1.denied x.1.1.noresp
      (shiftOut s (ws.take ((cycles - 48) / 32)) t)

/-- UNLISTED_OPCODE (R68): no access, void. -/
def unlistedEffect (op : Byte) (cycles : Nat) (s : State) : State :=
  if listedOpcode op then s else transaction cycles (fun s => record op false 0 false false (shiftOut s [] s)) s

/-! ### The commands -/

def execDirectWrite (reg : Byte) (data : Word) (cycles : Nat) (s : State) : Out :=
  onPort s (decide (48 ≤ cycles) && (reg == 0x09 || (reg == 0x10 && data.setWidth 8 == (1 : Byte)))) (directWriteEffect reg data cycles)
def execDirectRead (reg : Byte) (cycles : Nat) (s : State) : Out := onPort s false (directReadEffect reg cycles)
def execStream (bytes : List Byte) (cycles : Nat) (s : State) : Out := onPort s (decide (8 ≤ cycles)) (streamEffect bytes cycles)
def execWindowBurstWrite (addr : Word) (words : List Word) (cycles : Nat) (s : State) : Out :=
  onPort s (decide (72 ≤ cycles)) (burstWriteEffect addr words cycles)
def execWindowBurstRead (addr : Word) (ecc : List Ecc) (cycles : Nat) (s : State) : Out :=
  onPort s (decide (40 ≤ cycles)) (burstReadEffect addr ecc cycles)
def execUnlistedOpcode (op : Byte) (cycles : Nat) (s : State) : Out := onPort s false (unlistedEffect op cycles)
def execWinDataWrite (data : Word) (s : State) : Out := onPort s true (directWriteEffect 0x09 data 48)
def execStreamAbort (s : State) : Out := onPort s true (mpCommand 0x01)
def execStickyClear (s : State) : Out := onPort s false (mpCommand 0x02)

end Sys2Proof.Machine
end

