-- ==== Sys2Proof/Machine/Jtag.lean ====
section
/-! DEFINITION. The JTAG port (05_lifecycle_debug.md R132, R133; 15_swap_zones_scrubbing.md R447). One command is one scan of
an instruction: Capture-DR, and Update-DR with what was shifted in. `Jtag.dr` holds what was captured, 32 bits a word (log
entry 14). -/

namespace Sys2Proof.Machine

/-! ### The instructions of IEEE 1149.1 (R132) -/

def opSample : Byte := 0x01
def opIdcode : Byte := 0x02
def opAuth : Byte := 0x10
def opDebugBus : Byte := 0x20
def opReadback : Byte := 0x21
def opRlog : Byte := 0x22

/-- An instruction that is closed, dead or unlisted selects the 1-bit bypass register, which captures 0 (R132). -/
def bypassEffect (op : Byte) (s : State) : State := s.modJtag fun j => { j with ir := op, bypassReg := false, dr := [0] }

/-- What Capture-DR takes of a boundary-scan register as long as the chain shifted through it: the levels of the pins, in an
order and of a length the manual does not state, so free values stand for them. -/
def scanCapture (chain : List Bool) (s : State) : List Word × State :=
  let n := (chain.length + 31) / 32
  ((List.range n).map fun k => BitVec.ofNat 32 (Config.freeNat (s.freeCtr + k)), s.freeSteps n)

/-- EXTEST: the boundary-scan register captures the pins, and drives them with what was shifted in. -/
def extestEffect (chain : List Bool) (s : State) : State :=
  let x := scanCapture chain s
  x.2.modJtag fun j => { j with ir := opExtest, bscan := chain, dr := x.1 }

/-- SAMPLE/PRELOAD: the boundary-scan register captures the pins, and the shifted bits are preloaded. -/
def samplePreloadEffect (chain : List Bool) (s : State) : State :=
  let x := scanCapture chain s
  x.2.modJtag fun j => { j with ir := opSample, bscan := chain, dr := x.1 }

def idcodeEffect (s : State) : State := s.modJtag fun j => { j with ir := opIdcode, dr := [idcodeWord] }

/-- The private instruction of a scope bit is open: by the latched state, or by the scope of a session in PROVISIONED or
FIELD; in SCRAPPED it is dead (R123, R132). -/
def privateOpen (s : State) (bitNo : Nat) : Bool :=
  !scrapped s && (stateOpens s || scopeHas s bitNo)

/-- BYPASS, and every opcode that selects the bypass register (R132). -/
def selectsBypass (s : State) (op : Byte) : Bool :=
  if op == opExtest || op == opSample || op == opIdcode || op == opAuth then false
  else if op == opDebugBus then !privateOpen s 0
  else if op == opReadback then !privateOpen s 1
  else if op == opRlog then !privateOpen s 2
  else true

/-! ### The 69-bit access register (R133) -/

/-- What Capture-DR takes: an answer that is due is taken first. -/
def captureAccess (op : Byte) (s : State) : State :=
  (accessAnswerEffect .jtag s).modJtag fun j =>
    { j with ir := op,
             dr := [j.lastData, j.lastAddr,
                    putB 0 j.lastWrite ||| putB 2 j.ok ||| putB 3 j.denied ||| putB 4 j.pendingAnswer] }

/-- Update-DR: with GO one access is issued, refused outside the limits of its instruction (R133); none while RESET_N is low
(R35). -/
def updateAccess (lo hi : Nat) (go write : Bool) (addr data : Word) (ecc : Ecc) (s : State) : State :=
  if !go || held s then s
  else if lo ≤ addr.toNat ∧ addr.toNat ≤ hi then jtagIssue write addr data ecc s
  else jtagRefuse write addr s

/-- AUTH: limited to the LCS block. -/
def authEffect (go write : Bool) (addr data : Word) (s : State) : State :=
  updateAccess 0x3_0000 0x3_FFFF go write addr data .clean (captureAccess opAuth s)

/-- DEBUG_BUS: scope bit 0, all of Internal Space. -/
def debugBusEffect (go write : Bool) (addr data : Word) (ecc : Ecc) (s : State) : State :=
  if privateOpen s 0 then updateAccess 0 0xFFFF_FFFF go write addr data ecc (captureAccess opDebugBus s)
  else bypassEffect opDebugBus s

/-- RLOG: scope bit 2, limited to the refusal log. -/
def rlogEffect (go write : Bool) (addr data : Word) (s : State) : State :=
  if privateOpen s 2 then updateAccess 0x2_0800 0x2_0BFF go write addr data .clean (captureAccess opRlog s)
  else bypassEffect opRlog s

/-! ### Readback (R447) -/

/-- READBACK: scope bit 1. Capture-DR takes the frame read last, zero data while READY is 0; Update-DR asks for another. -/
def readbackEffect (frame : Word) (s : State) : State :=
  if privateOpen s 1 then
    s.modJtag fun j =>
      { j with ir := opReadback,
               dr := j.rbFrame :: (putB 0 j.rbReady ||| putB 1 (j.rbReady && j.rbInvalid)) ::
                       (if j.rbReady then j.rbWords else List.replicate 97 0),
               rbFrame := frame, rbRequested := true, rbReady := false, rbInvalid := false, rbWords := [] }
  else bypassEffect opReadback s

/-- READBACK_FRAME_READ: the scrubber reads the frame asked for; the data of an address that is no configuration frame is
not stated, so free values stand for it. A frame under reload is read after its repair (R456). Nothing else changes. -/
def readbackFrameReadEffect (s : State) : State :=
  let j := s.jtag
  if !j.rbRequested || s.scb.reload.any (fun r => r.frame == j.rbFrame) || s.scb.zones.toList.any (fun z => z.restoreFrom == some j.rbFrame) then s
  else if isConfigFrame j.rbFrame then
    s.modJtag fun j => { j with rbRequested := false, rbReady := true, rbInvalid := false, rbWords := (latchFrame s j.rbFrame).words }
  else
    (s.freeSteps 97).modJtag fun j =>
      { j with rbRequested := false, rbReady := true, rbInvalid := true,
               rbWords := (List.range 97).map fun k => BitVec.ofNat 32 (Config.freeNat (s.freeCtr + k)) }

/-! ### The commands -/

def execExtest (chain : List Bool) (s : State) : Out := onAny s (extestEffect chain)
def execSamplePreload (chain : List Bool) (s : State) : Out := onAny s (samplePreloadEffect chain)
def execIdcode (s : State) : Out := onAny s idcodeEffect
def execBypass (opcode : Byte) (s : State) : Out := onAny s fun s => if selectsBypass s opcode then bypassEffect opcode s else s
def execAuth (go write : Bool) (addr data : Word) (s : State) : Out := onPort s go (authEffect go write addr data)
def execDebugBus (go write : Bool) (addr data : Word) (ecc : Ecc) (s : State) : Out :=
  onPort s go (debugBusEffect go write addr data ecc)
def execRlog (go write : Bool) (addr data : Word) (s : State) : Out := onPort s go (rlogEffect go write addr data)
def execReadback (frame : Word) (s : State) : Out := onAny s (readbackEffect frame)
def execReadbackFrameRead (s : State) : Out := onSys s readbackFrameReadEffect

end Sys2Proof.Machine
end

