-- ==== Sys2Proof/Machine/MgmtEngine.lean ====
section
/-! DEFINITION. The management engine (10_queue_engine.md R282, R302; 04_access_rules.md R104, R113): the words of its operations. -/

namespace Sys2Proof.Machine

/-- The next word of an operation may be issued now: the first at once, each further one at the pace of R113. -/
def wordDue (s : State) (o : MgmtOp) : Bool :=
  !opEnded o && decide (o.next < o.nwords) && (o.next == 0 || decide (o.lastAt + wordTicks ≤ s.clock))

/-- An operation replaced. -/
def setOp (o : MgmtOp) (f : MgmtOp → MgmtOp) (s : State) : State :=
  s.modQe fun q => { q with ops := q.ops.map fun x => if x.ring == o.ring && x.idx == o.idx then f x else x }

/-- The next word's address. -/
def opAddr (o : MgmtOp) : Word := o.addr + BitVec.ofNat 32 (4 * o.next)

/-- Object offset of the next word. -/
def opOffset (o : MgmtOp) : Nat := o.objOffset + 4 * o.next

/-- A word of a write: posted under the epoch of the operation's check (R107, R108), or NORESP (R73, R77); a refused operation writes
nothing (R112). -/
def opWrite (o : MgmtOp) (w : Word) (s : State) : State :=
  let a := opAddr o
  let bad := !responds s a || (blockOf a == some .bkp && decide (8 ≤ s.bus.bkpBuf.length))
  if o.refused then s
  else if bad then setOp o (fun x => { x with noresp := true }) s
  else
    let acc : Access := { id := s.bus.nextId, req := .qe, addr := a, data := w, order := o.order, at_ := s.clock }
    s.modBus fun b =>
      if blockOf a = some .bkp then
        { b with nextId := b.nextId + 1, bkpBuf := b.bkpBuf ++ [acc], bkpEdges := if b.bkpBuf.isEmpty then 0 else b.bkpEdges }
      else { b with nextId := b.nextId + 1, inflight := b.inflight ++ [acc] }

/-- A word of a read: the word, and the state with its side effects. NORESP reads 0, and so does a refused operation, which reaches no
target (R73, R112). -/
def opRead (o : MgmtOp) (ecc : Ecc) (s : State) : Word × State :=
  let a := opAddr o
  if o.refused then (0, s)
  else if responds s a then takeRead .qe a ecc (settleBlock .qe a s)
  else (0, setOp o (fun x => { x with noresp := true }) s)

/-- The entry a word's frame-store access is made for (R252). -/
def opEntry (o : MgmtOp) : Option (Fin 1024 × BitVec 16) := some (o.ring, o.idx)

/-- One word of a write from an object: its frame-store read may end the operation (R252). -/
def wordFromObject (o : MgmtOp) (e : MapEntry) (ecc : Ecc) (s : State) : State :=
  match objAddr e (opOffset o) with
  | none => opWrite o 0 (pwRange s)
  | some a =>
    let t := eccRead s a (opEntry o) ecc
    if isBad s (a, ecc) then setOp o (fun x => { x with poisoned := true }) t
    else opWrite o (BitVec.ofNat 32 (leAt (codeBytes s a ecc) (a % 8) 4)) t

/-- One word of a read into an object: a merging write (R254). -/
def wordToObject (o : MgmtOp) (e : MapEntry) (ecc : Ecc) (s : State) : State :=
  let x := opRead o .clean s
  match objAddr e (opOffset o) with
  | none => pwRange x.2
  | some a => fsWrite32 x.2 a x.1 ecc

/-- The word of an operation whose turn has come. -/
def opWord (o : MgmtOp) (ecc : Ecc) (s : State) : State :=
  if o.inline then
    if o.write then opWrite o (o.inlineData.getD o.next 0) s
    else
      let x := opRead o ecc s
      setOp o (fun y => { y with inlineData := y.inlineData.set o.next x.1 }) x.2
  else
    match objOf s o.handle o.gen with
    | none => setOp o (fun x => { x with stale := true }) (pwStale s)
    | some e => if o.write then wordFromObject o e ecc s else wordToObject o e ecc s

/-- MGMT_WORD_ISSUE (R113, R282): the oldest operation of a half whose next word is due issues it; `ecc` is what the frame-store read of
the word finds, of the target's where that is the frame store and the data is inline, else of the object's. -/
def mgmtWordEffect (fabric : Bool) (ecc : Ecc) (s : State) : State :=
  match s.qe.ops.find? fun o => o.fabric == fabric && wordDue s o with
  | none => s
  | some o =>
    let t := opWord o ecc s
    noteFence s (setOp o (fun x => { x with next := x.next + 1, lastAt := s.clock }) t)

/-! ### The commands -/

def execMgmtWordIssue (fabric : Bool) (ecc : Ecc) (s : State) : Out := onSys s (mgmtWordEffect fabric ecc)

end Sys2Proof.Machine
end

