-- ==== Sys2Proof/Machine/Startup.lean ====
section
/-! DEFINITION. Supplies, the three kinds of reset, the PLLs and start-up (02_power_reset_backup.md R31 to R43;
06_time_position.md R152, R561; 14_configuration_images.md R407 to R410; 19_electrical_package.md R543, R556). -/

namespace Sys2Proof.Machine

/-! ### Supplies (R33, R47) -/

/-- SUPPLY_OUT_OF_RANGE: with RESET_N high every behaviour becomes undefined; with it low nothing happens (R557). -/
def supplyEffect (s : State) : State := if s.sys.resetN then s.setUndef (some .railOut) else s

/-- The backup domain after VBAT was first applied: every register holds a free value (R47). The pair registers are powered
from the core and are kept (R53). -/
def vbatBkp (s : State) : Bkp :=
  let f := fun (k : Nat) => Config.freeNat (s.freeCtr + k)
  { s.bkp with
    bc := BitVec.ofNat 48 (f 0), bcLoad := BitVec.ofNat 48 (f 1), kcCfg := BitVec.ofNat 7 (f 2) &&& 0x77,
    kc := #v[BitVec.ofNat 32 (f 3), BitVec.ofNat 32 (f 4)], kcShown := #v[BitVec.ofNat 32 (f 5), BitVec.ofNat 32 (f 6)],
    kcA := BitVec.ofNat 2 (f 7), kcB := BitVec.ofNat 2 (f 8), almCfg := BitVec.ofNat 8 (f 9),
    almLevel := BitVec.ofNat 4 (f 10), sealTick := BitVec.ofNat 64 (f 11), logCount := f 12 % 17,
    logLost := BitVec.ofNat 8 (f 13), alarms := ⟨BitVec.ofNat 2 (f 14), 0⟩,
    almSample := BitVec.ofNat 4 (f 15), loadPending := f 16 % 2 == 1,
    kcClear := BitVec.ofNat 2 (f 17),
    scratch := Vector.ofFn fun i : Fin 32 => BitVec.ofNat 32 (f (18 + i.val)),
    log := Vector.ofFn fun i : Fin 16 =>
      { bc := BitVec.ofNat 48 (f (50 + 4 * i.val)), alm := BitVec.ofNat 2 (f (51 + 4 * i.val)),
        mainOff := f (52 + 4 * i.val) % 2 == 1, valid := f (53 + 4 * i.val) % 2 == 1 } }

/-- VBAT_POWER_UP. -/
def vbatEffect (s : State) : State := (s.freeSteps 114).modBkp fun _ => vbatBkp s

/-! ### What a pin reset and a soft reset clear (R36, R78, R149, R268, R407, R413, R445) -/

/-- Two copies written one after the other, stopped by a reset: a free value k says how far the writing had come. -/
def torn {α : Type} (k : Nat) (new : α) (a b : Option α) : Option α × Option α :=
  match k % 5 with
  | 0 => (a, b)
  | 1 => (none, b)
  | 2 => (some new, b)
  | 3 => (some new, none)
  | _ => (some new, some new)

/-- The non-volatile array as a reset leaves it: a SAVE_BOOT or SAVE in progress stops. -/
def cfgArray (s : State) : Cfg :=
  let boot := match s.cfg.cmd with
    | some (.saveBoot, _) => torn (Config.freeNat s.freeCtr) (s.cfg.mode, s.cfg.prefer) s.cfg.bootCopyA s.cfg.bootCopyB
    | _ => (s.cfg.bootCopyA, s.cfg.bootCopyB)
  let scrub := match s.scb.saving with
    | some v => torn (Config.freeNat (s.freeCtr + 1)) v s.cfg.scrubCopyA s.cfg.scrubCopyB
    | none => (s.cfg.scrubCopyA, s.cfg.scrubCopyB)
  { s.cfg with bootCopyA := boot.1, bootCopyB := boot.2, scrubCopyA := scrub.1, scrubCopyB := scrub.2 }

/-- CFG after a reset: the array and PCP_EN are kept (R393). -/
def cfgReset (a : Cfg) : Cfg :=
  { Cfg.init with slots := a.slots, bootCopyA := a.bootCopyA, bootCopyB := a.bootCopyB, scrubCopyA := a.scrubCopyA,
                  scrubCopyB := a.scrubCopyB, pcpEn := a.pcpEn }

/-- The posted writes that are still in flight take effect before the reset (R78, R96). -/
def settleWrites (s : State) : State := if s.sys.sysLock && s.undef.isNone then drainAll s else s

/-- The accesses over a reset: the posted writes buffered for the backup domain are kept (R78), and a soft reset keeps what the
JTAG port waits for (R122); the epoch of each begins anew with the table (R36, R110). -/
def resetBus (soft : Bool) (b : Bus) : Bus :=
  { Bus.init with
    nextId := b.nextId, bkpBuf := b.bkpBuf.map (fun a => { a with order := 0 }), bkpEdges := b.bkpEdges,
    owed := if soft then (b.owed.filter fun o => o.req == .jtag).map (fun o => { o with order := 0 }) else [] }

/-- Every block at its reset values, the time base at 0, both memories zero; the backup domain, the posted writes buffered
for it, OTP and the array are kept. -/
def resetBlocks (soft : Bool) (s : State) : State :=
  let c := cfgArray s
  let s := lcsReset (s.freeSteps 2)
  pairClear { s with
    time := 0, mp := Mp.init, bus := resetBus soft s.bus, acc := Acc.init,
    jtag := { s.jtag with pendingAnswer := soft && s.jtag.pendingAnswer, rbRequested := false }, tbe := Tbe.init, tsq := Vector.replicate 16 Tsq.init,
    cap := capInit, tagBase := 7, pw := Pw.init, qe := Qe.init, egr := Vector.replicate 4 Egr.init, hl := Hl.init,
    fsp := Vector.replicate 8 Fsp.init, fab := Fab.init, cfg := cfgReset c, scb := Scb.init, ua := Vector.replicate 18 Ua.init,
    spc := Vector.replicate 2 Spc.init, pio := Pio.init, adc := Adc.init, dm := [], fs := [] }

/-- RESET_N falls and the reset acts (R35, R36). -/
def pinResetFull (s : State) : State :=
  let s := resetBlocks false (settleWrites s)
  (s.setUndef none).modSys fun y => { Sys.init with resetN := false, phase := .held, totalUs := y.totalUs }

/-- PIN_RESET (R543): a pulse shorter than 20 ns never acts, one of 20 ns to 1 µs acts whole or not at all. -/
def pinResetEffect (lowNs : Nat) (s : State) : State :=
  if lowNs < 20 then s
  else if lowNs ≤ 1000 then (if freeValue s % 2 = 0 then s.freeStep else pinResetFull s.freeStep)
  else pinResetFull s

/-- RESET_N_RISE (R38, R393, R556): start-up begins, undefined when t_RH was not met. -/
def resetNRiseEffect (met pcEn : Bool) (s : State) : State :=
  if held s then
    ((s.setUndef (if met then none else some .earlyReset)).modSys fun y => { y with resetN := true, phase := .waitLock }).modCfg
      fun c => { c with pcpEn := pcEn }
  else s

/-- SOFT_RESET (R37, R96): requested by SYS_SOFT_RESET, at the end of the requester's transaction; start-up runs from boot
selection on, with every PLL kept. -/
def softResetEffect (s : State) : State :=
  let s := drainAll s
  if s.sys.softReq.isNone then s
  else
    let y := s.sys
    let nextSlot := s.cfg.nextSlot
    let nextEn := s.cfg.nextEn
    let s := lcsLatch (resetBlocks true s)
    let s := s.modSys fun _ =>
      { y with phase := .bootSelect, cause := 0b010, reconfCount := 0, fallbacks := 0, lockUs := 0,
               softReq := none, reconfReq := false, lol := .none, clkFlag := .none, clkFlagEn := false }
    let s := s.modCfg fun c => { c with nextSlot := nextSlot, nextEn := nextEn }
    s.modBkp fun b => { b with pairDue := true }

/-! ### PLLs (R152, R561) -/

/-- The egress ports whose link is up. -/
def upPorts (s : State) : List (Fin 4) := (allFin 4).filter fun n => egrUp s n

/-- The ports that come up between two states. -/
def egrRising (before after : State) : State :=
  forEach ((allFin 4).filter fun n => !egrUp before n && egrUp after n) (fun n s => egrRisen s n) after

/-- The herd-link ports train again after PLL_HL relocked (R368). -/
def hlRetrain (s : State) : State :=
  forEach ((allFin 2).filter fun p => (getPort s p).st == .up || (getPort s p).st == .train) (fun p s => s.modPort p portTrain) s

/-- PLL_LOCK: the first lock after the rise of RESET_N. PLL_SYS starts the time base at 0 and latches the life-cycle state
(R38, R123). -/
def pllLockEffect (pll : Pll) (us : Nat) (s : State) : State :=
  match pll with
  | .sys =>
    if s.sys.phase = .waitLock then
      let s := lcsLatch (s.setTime 0)
      (s.modSys fun y => { y with sysLock := true, lockUs := us, phase := .bootSelect }).modBkp fun b => { b with pairDue := true }
    else s
  | .eth =>
    if held s || s.sys.ethFirst then s
    else egrRising s (s.modSys fun y => { y with ethLock := true, ethFirst := true })
  | .hl => if held s || s.sys.hlFirst then s else s.modSys fun y => { y with hlLock := true, hlFirst := true }
  | .fcg n => if held s then s else s.modSys fun y => { y with fcgLock := setBit y.fcgLock n.val }

/-- PLL_LOSS_OF_LOCK. -/
def pllLossEffect (pll : Pll) (s : State) : State :=
  match pll with
  | .sys =>
    if s.sys.sysLock then
      (s.setUndef (some .pllSysLost)).modSys fun y => { y with lol := y.lol.set 0, clkFlag := y.clkFlag.set 0, sysLock := false }
    else s
  | .eth =>
    if s.sys.ethLock then
      let up := upPorts s
      forEach up (fun n s => egrLoss s n) (s.modSys fun y => { y with lol := y.lol.set 1, clkFlag := y.clkFlag.set 0, ethLock := false })
    else s
  | .hl => if s.sys.hlLock then s.modSys fun y => { y with lol := y.lol.set 2, clkFlag := y.clkFlag.set 0, hlLock := false } else s
  | .fcg n =>
    if bit s.sys.fcgLock n.val then
      s.modSys fun y => { y with lol := y.lol.set (4 + n.val), clkFlag := y.clkFlag.set 0, fcgLock := assignBit y.fcgLock n.val false }
    else s

/-- PLL_RELOCK: PLL_ETH and PLL_HL relock by themselves; PLL_SYS stays lost until the next pin reset. -/
def pllRelockEffect (pll : Pll) (s : State) : State :=
  match pll with
  | .sys => s
  | .eth => if s.sys.ethFirst && !s.sys.ethLock then egrRising s (s.modSys fun y => { y with ethLock := true }) else s
  | .hl => if s.sys.hlFirst && !s.sys.hlLock then hlRetrain (s.modSys fun y => { y with hlLock := true }) else s
  | .fcg n => if held s then s else s.modSys fun y => { y with fcgLock := setBit y.fcgLock n.val }

/-! ### Boot selection (R407, R408, R124) -/

/-- The boot configuration in use, and whether neither stored copy passed (R407). -/
def bootCfg (c : Cfg) : (Bool × BitVec 2) × Bool :=
  match c.bootCopyA, c.bootCopyB with
  | some a, _ => (a, false)
  | none, some b => (b, false)
  | none, none => ((false, 0), true)

/-- A slot that may be tried (R408). -/
def isCandidate (s : State) (b : Fin 3) : Bool :=
  let n := getNv s b
  n.st == .valid && n.hdrCrcOk && headerFits n.hdr

/-- A name added unless it is there already. -/
def addSlot (l : List (Fin 3)) (b : Fin 3) : List (Fin 3) := if l.contains b then l else l ++ [b]

/-- Slots 1 and 2, the newer first, slot 1 on a tie (R417). -/
def newestFirst (s : State) : List (Fin 3) :=
  if (0 : Int) < sInt ((getNv s 2).hdr.seq - (getNv s 1).hdr.seq) then [2, 1] else [1, 2]

/-- The order of R408 before the non-candidates are removed. -/
def bootOrder (s : State) (prefer : BitVec 2) : List (Fin 3) :=
  let first := if s.cfg.nextEn then (match cmdSlot s.cfg.nextSlot with | some b => [b] | none => []) else []
  let op : List (Fin 3) := match prefer.toNat with | 0 => newestFirst s | 1 => [1, 2] | 2 => [2, 1] | _ => []
  (op ++ [0]).foldl addSlot first

/-- Configuration fails (R41). -/
def configFail (s : State) : State :=
  settle (scrubHalt ((s.modCfg fun c => { c with booted := 3 }).modSys fun y => { y with phase := .failed }))

/-- In SCRAPPED every slot is marked INCOMPLETE and erased (R124). -/
def scrapErase (s : State) : State :=
  (s.modCfg fun c =>
    { c with slots := c.slots.map fun n => { st := .empty, hdr := Header.init, hdrCrcOk := false, frames := [], writes := satInc n.writes } }).modLcs
      fun l => { l with erased := true }

/-- The slot registers show the headers as read at start-up. -/
def readHeaders (s : State) : State := forEach (allFin 3) (fun b s => refreshView s b) s

/-- The settings that start-up loads from the system area and the header (R407, R444). -/
def loadSettings (s : State) : State :=
  let b := bootCfg s.cfg
  let h := headerCfg s
  (s.modCfg fun c => { c with mode := b.1.1, prefer := b.1.2, bootDefault := b.2 }).modScb fun x =>
    { x with cfgA := h.1, cfgB := h.1, cfgC := h.1, hdrDefault := h.2 }

/-- BOOT_SELECTION (R408): in SCRAPPED there is none (R124). A CFG_NEXT_BOOT written in its tick stays for the next one (R10). -/
def bootSelectionEffect (s : State) : State :=
  if s.sys.phase ≠ .bootSelect then s
  else
    let s := loadSettings s
    if scrapped s then configFail (readHeaders (scrapErase s))
    else
      let s := readHeaders s
      let order := bootOrder s s.cfg.prefer
      let good := order.filter fun b => isCandidate s b
      let bad := order.filter fun b => !isCandidate s b
      let good := if s.cfg.mode then good.take 1 else good
      let s := s.modCfg fun c => { c with nextEn := c.nextEn && wroteNow s 0x0026_000C, bootLog := bad.map fun b => (b, .notCandidate) }
      if good.isEmpty then configFail s else s.modSys fun y => { y with phase := .transfer good }

/-! ### Transfer and release (R39, R409, R410) -/

/-- The frames of the slot moved into the latches (R409). -/
def loadLatches (s : State) (b : Fin 3) : State := s.modCfg fun c => { c with latches := (getNv s b).frames }

/-- The fabric takes the image's interface parameters, and every zone is BOOT (R371, R372, R422). -/
def startFabric (s : State) : State :=
  scrubRelease (forEach (allFin 8) (fun p s => fspLoadImage s p) (fabLoadImage s))

/-- Release (R39): the user pins take the image's initial values (R518), and the stream controller starts. -/
def releaseEffect (s : State) : State :=
  let us := s.sys.lockUs + now s / 400
  let s := s.modSys fun y =>
    { y with phase := .released, totalUs := BitVec.ofNat 16 (min us 0xFFFF) }
  settle (pioRelease (startFabric s))

/-- Every frame that was moved agrees with its check word, in the array and in the latches that took it; `mismatch` when one was
disturbed on its way (R409). -/
def transferOk (s : State) (b : Fin 3) (mismatch : Bool) : Bool := !mismatch && (getNv s b).frames.all frameOk

/-- FRAME_TRANSFER_DONE (R409): the slot is released, or the try is logged and the next candidate follows. -/
def transferDoneEffect (mismatch : Bool) (s : State) : State :=
  match s.sys.phase with
  | .transfer (b :: rest) =>
    let s := loadLatches s b
    if !transferOk s b mismatch then
      let s := s.modCfg fun c => { c with bootLog := c.bootLog ++ [(b, .frameCrc)] }
      if rest.isEmpty then configFail s
      else
        (s.modCfg fun c => { c with flags := c.flags.set 3 }).modSys fun y =>
          { y with phase := .transfer rest, fallbacks := satInc y.fallbacks }
    else releaseEffect (s.modCfg fun c => { c with bootLog := c.bootLog ++ [(b, .ok)], booted := BitVec.ofNat 2 b.val })
  | _ => s

/-- The FRP and the ICP lose what they wait for (R380). -/
def dropAnswers (s : State) : State :=
  noteFence s (s.modBus fun b =>
    { b with owed := b.owed.filter fun o => o.req != .frp && o.req != .icp, frpAnswer := none, icpAnswer := none })

/-- RECONFIGURATION (R36, R410): the slot booted last is loaded again, and hardened blocks keep their state. -/
def reconfigurationEffect (mismatch : Bool) (s : State) : State :=
  if !(s.sys.reconfReq && released s) then s
  else
    let s := s.modSys fun y => { y with reconfReq := false, cause := 0b100, reconfCount := satInc y.reconfCount }
    let s := dropAnswers (forEach (allFin 8) (fun p s => fspReconfigure s p) (lcsReconf s))
    let slot := if scrapped s then none else bootedSlot s
    let s := match slot with | some b => loadLatches s b | none => s
    if !(slot.any fun b => transferOk s b mismatch) then configFail s
    else
      let us := BitVec.ofNat 16 (freeValue s)
      startFabric (s.freeStep.modSys fun y => { y with totalUs := us })

/-! ### The commands -/

def execSupplyOutOfRange (s : State) : Out := .next (supplyEffect s)
def execVbatPowerUp (s : State) : Out := onAny s vbatEffect
def execPinReset (lowNs : Nat) (s : State) : Out := .next (pinResetEffect lowNs s)
def execResetNRise (held pcEn : Bool) (s : State) : Out := .next (resetNRiseEffect held pcEn s)
def execPllLock (pll : Pll) (us : Nat) (s : State) : Out := onAny s (pllLockEffect pll us)
def execBootSelection (s : State) : Out := onSys s bootSelectionEffect
def execFrameTransferDone (mismatch : Bool) (s : State) : Out := onSys s (transferDoneEffect mismatch)
def execSoftReset (s : State) : Out := onSys s softResetEffect
def execReconfiguration (mismatch : Bool) (s : State) : Out := onSys s (reconfigurationEffect mismatch)
def execPllLossOfLock (pll : Pll) (s : State) : Out := onAny s (pllLossEffect pll)
def execPllRelock (pll : Pll) (s : State) : Out := onAny s (pllRelockEffect pll)

end Sys2Proof.Machine
end

