-- ==== Sys2Proof/Machine/Dispatch.lean ====
section
/-! DEFINITION. Every command and its meaning. -/

namespace Sys2Proof.Machine

def exec (i : Instr) (s : State) : Host.Outcome State Fault Refusal :=
  match i with
  | .registerWrite req addr data ecc => Sys2Proof.Machine.execRegisterWrite req addr data ecc s
  | .supplyOutOfRange => Sys2Proof.Machine.execSupplyOutOfRange s
  | .vbatPowerUp => Sys2Proof.Machine.execVbatPowerUp s
  | .pinReset lowNs => Sys2Proof.Machine.execPinReset lowNs s
  | .resetNRise held pcEn => Sys2Proof.Machine.execResetNRise held pcEn s
  | .pllLock pll us => Sys2Proof.Machine.execPllLock pll us s
  | .bootSelection => Sys2Proof.Machine.execBootSelection s
  | .frameTransferDone mismatch => Sys2Proof.Machine.execFrameTransferDone mismatch s
  | .softReset => Sys2Proof.Machine.execSoftReset s
  | .reconfiguration mismatch => Sys2Proof.Machine.execReconfiguration mismatch s
  | .kcEdge ch pin level inLimits => Sys2Proof.Machine.execKcEdge ch pin level inLimits s
  | .alarmAccept n level => Sys2Proof.Machine.execAlarmAccept n level s
  | .bkpCapture => Sys2Proof.Machine.execBkpCapture s
  | .bkpPairTake => Sys2Proof.Machine.execBkpPairTake s
  | .logClear => Sys2Proof.Machine.execLogClear s
  | .bcLoad => Sys2Proof.Machine.execBcLoad s
  | .kc0Clear => Sys2Proof.Machine.execKc0Clear s
  | .kc1Clear => Sys2Proof.Machine.execKc1Clear s
  | .directWrite reg data cycles => Sys2Proof.Machine.execDirectWrite reg data cycles s
  | .directRead reg cycles => Sys2Proof.Machine.execDirectRead reg cycles s
  | .stream bytes cycles => Sys2Proof.Machine.execStream bytes cycles s
  | .windowBurstWrite addr words cycles => Sys2Proof.Machine.execWindowBurstWrite addr words cycles s
  | .windowBurstRead addr ecc cycles => Sys2Proof.Machine.execWindowBurstRead addr ecc cycles s
  | .unlistedOpcode op cycles => Sys2Proof.Machine.execUnlistedOpcode op cycles s
  | .winDataWrite data => Sys2Proof.Machine.execWinDataWrite data s
  | .streamAbort => Sys2Proof.Machine.execStreamAbort s
  | .stickyClear => Sys2Proof.Machine.execStickyClear s
  | .postedWriteApply req blk ecc => Sys2Proof.Machine.execPostedWriteApply req blk ecc s
  | .accessAnswer req => Sys2Proof.Machine.execAccessAnswer req s
  | .frpAccess write addr data ecc => Sys2Proof.Machine.execFrpAccess write addr data ecc s
  | .icpAccess write addr data ecc => Sys2Proof.Machine.execIcpAccess write addr data ecc s
  | .commitGo grp => Sys2Proof.Machine.execCommitGo grp s
  | .accCommitApply => Sys2Proof.Machine.execAccCommitApply s
  | .lcsTransition req target => Sys2Proof.Machine.execLcsTransition req target s
  | .programKeyHash req => Sys2Proof.Machine.execProgramKeyHash req s
  | .programNoFieldDebug req => Sys2Proof.Machine.execProgramNoFieldDebug req s
  | .lcsNoOperation req => Sys2Proof.Machine.execLcsNoOperation req s
  | .lcsOperationDone => Sys2Proof.Machine.execLcsOperationDone s
  | .newChallenge req => Sys2Proof.Machine.execNewChallenge req s
  | .challengeReady healthy => Sys2Proof.Machine.execChallengeReady healthy s
  | .verify req => Sys2Proof.Machine.execVerify req s
  | .verdict => Sys2Proof.Machine.execVerdict s
  | .lockoutEnd => Sys2Proof.Machine.execLockoutEnd s
  | .extest chain => Sys2Proof.Machine.execExtest chain s
  | .samplePreload chain => Sys2Proof.Machine.execSamplePreload chain s
  | .idcode => Sys2Proof.Machine.execIdcode s
  | .bypass opcode => Sys2Proof.Machine.execBypass opcode s
  | .auth go write addr data => Sys2Proof.Machine.execAuth go write addr data s
  | .debugBus go write addr data ecc => Sys2Proof.Machine.execDebugBus go write addr data ecc s
  | .rlog go write addr data => Sys2Proof.Machine.execRlog go write addr data s
  | .readback frame => Sys2Proof.Machine.execReadback frame s
  | .readbackFrameRead => Sys2Proof.Machine.execReadbackFrameRead s
  | .pllLossOfLock pll => Sys2Proof.Machine.execPllLossOfLock pll s
  | .pllRelock pll => Sys2Proof.Machine.execPllRelock pll s
  | .encoderTransition n a b => Sys2Proof.Machine.execEncoderTransition n a b s
  | .index n level => Sys2Proof.Machine.execIndex n level s
  | .losEntry n pin => Sys2Proof.Machine.execLosEntry n pin s
  | .losExit n pin => Sys2Proof.Machine.execLosExit n pin s
  | .illegalWindowEnd n => Sys2Proof.Machine.execIllegalWindowEnd n s
  | .losLimitExpiry n z => Sys2Proof.Machine.execLosLimitExpiry n z s
  | .load n => Sys2Proof.Machine.execLoad n s
  | .zarm n => Sys2Proof.Machine.execZarm n s
  | .restore n => Sys2Proof.Machine.execRestore n s
  | .errClear n => Sys2Proof.Machine.execErrClear n s
  | .snap => Sys2Proof.Machine.execSnap s
  | .encCommitApply n => Sys2Proof.Machine.execEncCommitApply n s
  | .loRead req addr => Sys2Proof.Machine.execLoRead req addr s
  | .hiRead req addr => Sys2Proof.Machine.execHiRead req addr s
  | .slotOpen n => Sys2Proof.Machine.execSlotOpen n s
  | .slotCommit n => Sys2Proof.Machine.execSlotCommit n s
  | .strobeRise n => Sys2Proof.Machine.execStrobeRise n s
  | .pretrigRise n => Sys2Proof.Machine.execPretrigRise n s
  | .pulseEnd n out => Sys2Proof.Machine.execPulseEnd n out s
  | .holdExpiry n => Sys2Proof.Machine.execHoldExpiry n s
  | .stopTicksExpiry n => Sys2Proof.Machine.execStopTicksExpiry n s
  | .predictorEntry h => Sys2Proof.Machine.execPredictorEntry h s
  | .tsqCommitApply n => Sys2Proof.Machine.execTsqCommitApply n s
  | .tsqCntClear n => Sys2Proof.Machine.execTsqCntClear n s
  | .pclkMeasure n count => Sys2Proof.Machine.execPclkMeasure n count s
  | .lockSuccess n => Sys2Proof.Machine.execLockSuccess n s
  | .lockAttemptFail n => Sys2Proof.Machine.execLockAttemptFail n s
  | .lossOfLock n => Sys2Proof.Machine.execLossOfLock n s
  | .lineStart n fval skew => Sys2Proof.Machine.execLineStart n fval skew s
  | .lineEnd n words stored falls => Sys2Proof.Machine.execLineEnd n words stored falls s
  | .matchExpiry n => Sys2Proof.Machine.execMatchExpiry n s
  | .capLinkWindowEnd n => Sys2Proof.Machine.execCapLinkWindowEnd n s
  | .capRevive n => Sys2Proof.Machine.execCapRevive n s
  | .capCntClear n => Sys2Proof.Machine.execCapCntClear n s
  | .capTagBaseWrite value => Sys2Proof.Machine.execCapTagBaseWrite value s
  | .capCommitApply n => Sys2Proof.Machine.execCapCommitApply n s
  | .reserve dest cls owner n => Sys2Proof.Machine.execReserve dest cls owner n s
  | .returnRes res => Sys2Proof.Machine.execReturnRes res s
  | .map dest res stride => Sys2Proof.Machine.execMap dest res stride s
  | .alloc dest cls owner n stride => Sys2Proof.Machine.execAlloc dest cls owner n stride s
  | .trim h gen n => Sys2Proof.Machine.execTrim h gen n s
  | .seal dest h gen => Sys2Proof.Machine.execSeal dest h gen s
  | .addref dest h gen => Sys2Proof.Machine.execAddref dest h gen s
  | .release dest h gen => Sys2Proof.Machine.execRelease dest h gen s
  | .abandon dest h gen => Sys2Proof.Machine.execAbandon dest h gen s
  | .readRepeat addr entry repeats found => Sys2Proof.Machine.execReadRepeat addr entry repeats found s
  | .poisonRewriteDone => Sys2Proof.Machine.execPoisonRewriteDone s
  | .pwCommitApply => Sys2Proof.Machine.execPwCommitApply s
  | .pwCntClear => Sys2Proof.Machine.execPwCntClear s
  | .doorbellPi req ring idx => Sys2Proof.Machine.execDoorbellPi req ring idx s
  | .doorbellCi req ring idx => Sys2Proof.Machine.execDoorbellCi req ring idx s
  | .hostAlloc => Sys2Proof.Machine.execHostAlloc s
  | .hostAddref h gen => Sys2Proof.Machine.execHostAddref h gen s
  | .hostRelease h gen => Sys2Proof.Machine.execHostRelease h gen s
  | .hostSeal h gen => Sys2Proof.Machine.execHostSeal h gen s
  | .hostAbandon h gen => Sys2Proof.Machine.execHostAbandon h gen s
  | .dispatch c => Sys2Proof.Machine.execDispatch c s
  | .mgmtWordIssue fabric ecc => Sys2Proof.Machine.execMgmtWordIssue fabric ecc s
  | .entryComplete ring idx => Sys2Proof.Machine.execEntryComplete ring idx s
  | .ringTimeout ring idx => Sys2Proof.Machine.execRingTimeout ring idx s
  | .qeRingCommitApply r => Sys2Proof.Machine.execQeRingCommitApply r s
  | .qeCntClear => Sys2Proof.Machine.execQeCntClear s
  | .linkUp n => Sys2Proof.Machine.execLinkUp n s
  | .linkDown n rx => Sys2Proof.Machine.execLinkDown n rx s
  | .frameBuild n => Sys2Proof.Machine.execFrameBuild n s
  | .payloadReadDone n ecc => Sys2Proof.Machine.execPayloadReadDone n ecc s
  | .frameSend n => Sys2Proof.Machine.execFrameSend n s
  | .frameDiscard n => Sys2Proof.Machine.execFrameDiscard n s
  | .receiveFrame n bytes => Sys2Proof.Machine.execReceiveFrame n bytes s
  | .rxCiWrite n ci => Sys2Proof.Machine.execRxCiWrite n ci s
  | .egrLinkWindowEnd n => Sys2Proof.Machine.execEgrLinkWindowEnd n s
  | .egrRevive n => Sys2Proof.Machine.execEgrRevive n s
  | .egrCntClear n => Sys2Proof.Machine.execEgrCntClear n s
  | .gapReset n mask => Sys2Proof.Machine.execGapReset n mask s
  | .egrCommitApply n => Sys2Proof.Machine.execEgrCommitApply n s
  | .trainComplete p => Sys2Proof.Machine.execTrainComplete p s
  | .probe p => Sys2Proof.Machine.execProbe p s
  | .echo p ta => Sys2Proof.Machine.execEcho p ta s
  | .idleMessage p => Sys2Proof.Machine.execIdleMessage p s
  | .badMessage p slot => Sys2Proof.Machine.execBadMessage p slot s
  | .timeOriginate => Sys2Proof.Machine.execTimeOriginate s
  | .timeMessage head value r => Sys2Proof.Machine.execTimeMessage head value r s
  | .positionDue h => Sys2Proof.Machine.execPositionDue h s
  | .positionMessage head body => Sys2Proof.Machine.execPositionMessage head body s
  | .readyOriginate h => Sys2Proof.Machine.execReadyOriginate h s
  | .eventReady head => Sys2Proof.Machine.execEventReady head s
  | .readySeenExpiry h d => Sys2Proof.Machine.execReadySeenExpiry h d s
  | .herdStart h => Sys2Proof.Machine.execHerdStart h s
  | .herdStop h => Sys2Proof.Machine.execHerdStop h s
  | .herdRevive h => Sys2Proof.Machine.execHerdRevive h s
  | .startMessage head cmd => Sys2Proof.Machine.execStartMessage head cmd s
  | .stopMessage head cmd => Sys2Proof.Machine.execStopMessage head cmd s
  | .retireMessage head cmd => Sys2Proof.Machine.execRetireMessage head cmd s
  | .reviveMessage head cmd => Sys2Proof.Machine.execReviveMessage head cmd s
  | .herdStarted h => Sys2Proof.Machine.execHerdStarted h s
  | .herdStopped h => Sys2Proof.Machine.execHerdStopped h s
  | .herdRetired h => Sys2Proof.Machine.execHerdRetired h s
  | .herdRevived h => Sys2Proof.Machine.execHerdRevived h s
  | .halt => Sys2Proof.Machine.execHalt s
  | .haltRelease => Sys2Proof.Machine.execHaltRelease s
  | .herdHaltAccept low => Sys2Proof.Machine.execHerdHaltAccept low s
  | .portRevive p => Sys2Proof.Machine.execPortRevive p s
  | .hlCntClear => Sys2Proof.Machine.execHlCntClear s
  | .hlCommitApply => Sys2Proof.Machine.execHlCommitApply s
  | .fspTake p ring idx => Sys2Proof.Machine.execFspTake p ring idx s
  | .fspAlloc p n stride => Sys2Proof.Machine.execFspAlloc p n stride s
  | .fspAddref p h gen => Sys2Proof.Machine.execFspAddref p h gen s
  | .fspRelease p h gen => Sys2Proof.Machine.execFspRelease p h gen s
  | .fspSeal p h gen => Sys2Proof.Machine.execFspSeal p h gen s
  | .fspAbandon p h gen => Sys2Proof.Machine.execFspAbandon p h gen s
  | .fspRead p h gen offset beats ecc => Sys2Proof.Machine.execFspRead p h gen offset beats ecc s
  | .fspWrite p h gen offset beats data => Sys2Proof.Machine.execFspWrite p h gen offset beats data s
  | .fspPost p ring entry => Sys2Proof.Machine.execFspPost p ring entry s
  | .fspComplete p ring idx status => Sys2Proof.Machine.execFspComplete p ring idx status s
  | .pcStbByte b => Sys2Proof.Machine.execPcStbByte b s
  | .pcpEnWrite v => Sys2Proof.Machine.execPcpEnWrite v s
  | .syncWord => Sys2Proof.Machine.execSyncWord s
  | .nop => Sys2Proof.Machine.execNop s
  | .idc => Sys2Proof.Machine.execIdc s
  | .seq => Sys2Proof.Machine.execSeq s
  | .len => Sys2Proof.Machine.execLen s
  | .ztab => Sys2Proof.Machine.execZtab s
  | .sig => Sys2Proof.Machine.execSig s
  | .begin_ => Sys2Proof.Machine.execBegin s
  | .ctlAbort => Sys2Proof.Machine.execCtlAbort s
  | .ctlNop => Sys2Proof.Machine.execCtlNop s
  | .faddr => Sys2Proof.Machine.execFaddr s
  | .fdata => Sys2Proof.Machine.execFdata s
  | .end_ => Sys2Proof.Machine.execEnd s
  | .erasingDone ok => Sys2Proof.Machine.execErasingDone ok s
  | .frameArrival => Sys2Proof.Machine.execFrameArrival s
  | .frameProgramDone ok => Sys2Proof.Machine.execFrameProgramDone ok s
  | .finishingDone => Sys2Proof.Machine.execFinishingDone s
  | .invalidate slot => Sys2Proof.Machine.execInvalidate slot s
  | .erase slot => Sys2Proof.Machine.execErase slot s
  | .saveBoot => Sys2Proof.Machine.execSaveBoot s
  | .clear => Sys2Proof.Machine.execClear s
  | .cfgCmdDone ok => Sys2Proof.Machine.execCfgCmdDone ok s
  | .zoneOpen z => Sys2Proof.Machine.execZoneOpen z s
  | .zoneAbort z => Sys2Proof.Machine.execZoneAbort z s
  | .zoneRestore z => Sys2Proof.Machine.execZoneRestore z s
  | .zdataWrite word => Sys2Proof.Machine.execZdataWrite word s
  | .zoneVerifyDone z => Sys2Proof.Machine.execZoneVerifyDone z s
  | .zoneRestoreDone z => Sys2Proof.Machine.execZoneRestoreDone z s
  | .passStart => Sys2Proof.Machine.execPassStart s
  | .frameScrub flips => Sys2Proof.Machine.execFrameScrub flips s
  | .reloadAttempt ok => Sys2Proof.Machine.execReloadAttempt ok s
  | .passEnd => Sys2Proof.Machine.execPassEnd s
  | .voteCorrection what => Sys2Proof.Machine.execVoteCorrection what s
  | .save => Sys2Proof.Machine.execSave s
  | .saveDone => Sys2Proof.Machine.execSaveDone s
  | .characterReceive n rx => Sys2Proof.Machine.execCharacterReceive n rx s
  | .characterTransmit n => Sys2Proof.Machine.execCharacterTransmit n s
  | .irPulseAccept n => Sys2Proof.Machine.execIrPulseAccept n s
  | .irFlood n => Sys2Proof.Machine.execIrFlood n s
  | .quietExit n => Sys2Proof.Machine.execQuietExit n s
  | .uaTxdataWrite n data => Sys2Proof.Machine.execUaTxdataWrite n data s
  | .uaRxdataRead n req => Sys2Proof.Machine.execUaRxdataRead n req s
  | .uaRxFlush n => Sys2Proof.Machine.execUaRxFlush n s
  | .uaTxFlush n => Sys2Proof.Machine.execUaTxFlush n s
  | .uaCntClear n => Sys2Proof.Machine.execUaCntClear n s
  | .break_ n v => Sys2Proof.Machine.execBreak n v s
  | .uaRouteWrite n pins loop => Sys2Proof.Machine.execUaRouteWrite n pins loop s
  | .uaCommitApply n => Sys2Proof.Machine.execUaCommitApply n s
  | .duplex m => Sys2Proof.Machine.execDuplex m s
  | .tx m => Sys2Proof.Machine.execTx m s
  | .rx m => Sys2Proof.Machine.execRx m s
  | .delay m => Sys2Proof.Machine.execDelay m s
  | .masterByte m miso => Sys2Proof.Machine.execMasterByte m miso s
  | .modeFault m => Sys2Proof.Machine.execModeFault m s
  | .spcAbort m => Sys2Proof.Machine.execSpcAbort m s
  | .resume m => Sys2Proof.Machine.execResume m s
  | .spcRxFlush m => Sys2Proof.Machine.execSpcRxFlush m s
  | .spcTxFlush m => Sys2Proof.Machine.execSpcTxFlush m s
  | .spcCntClear m => Sys2Proof.Machine.execSpcCntClear m s
  | .slaveFrameStart m => Sys2Proof.Machine.execSlaveFrameStart m s
  | .slaveByte m mosi => Sys2Proof.Machine.execSlaveByte m mosi s
  | .slaveFrameEnd m bits => Sys2Proof.Machine.execSlaveFrameEnd m bits s
  | .spcTxdataWrite m b => Sys2Proof.Machine.execSpcTxdataWrite m b s
  | .spcTxdata4Write m w => Sys2Proof.Machine.execSpcTxdata4Write m w s
  | .spcRxdataRead m req => Sys2Proof.Machine.execSpcRxdataRead m req s
  | .spcCommitApply m => Sys2Proof.Machine.execSpcCommitApply m s
  | .pioOutSet b mask => Sys2Proof.Machine.execPioOutSet b mask s
  | .pioOutClr b mask => Sys2Proof.Machine.execPioOutClr b mask s
  | .pilCfgWrite k value => Sys2Proof.Machine.execPilCfgWrite k value s
  | .pilActiveEdge k level => Sys2Proof.Machine.execPilActiveEdge k level s
  | .pioCntClear => Sys2Proof.Machine.execPioCntClear s
  | .hkadcStart => Sys2Proof.Machine.execHkadcStart s
  | .scanPeriod => Sys2Proof.Machine.execScanPeriod s
  | .channelResult codes => Sys2Proof.Machine.execChannelResult codes s
  | .hkadcCommitApply => Sys2Proof.Machine.execHkadcCommitApply s
  | .spcCmdWrite m w => Sys2Proof.Machine.execSpcCmdWrite m w s
  | .frameSent n => Sys2Proof.Machine.execFrameSent n s
  | .herdHaltNHigh => Sys2Proof.Machine.execHerdHaltNHigh s
  | .bkpOscillatorStop => Sys2Proof.Machine.execBkpOscillatorStop s
  | .bkpOscillatorStart => Sys2Proof.Machine.execBkpOscillatorStart s
  | .trainStart p => Sys2Proof.Machine.execTrainStart p s

end Sys2Proof.Machine
end

