-- ==== Sys2Proof/Machine/Due.lean ====
section
/-! DEFINITION. What a tick does by itself (DESIGN CHOICE; log entries 6 and 90). The commands of a tick act first, in the order in
which the sender gives them. On an empty queue the commands that the state alone shows to fall due in the tick follow, in the order of
chapter 07 ("Squash": retirement, position step, STOPPED, release or cancellation, commit, opening) with the fault records of one
clock in ascending block order (R293). On the next empty queue the tick ends: the slots of the herd link start, and the time base, the
oscillator and the model's clock move on. A command listed here that has nothing to do leaves the state as it is. -/

namespace Sys2Proof.Machine

/-- A command, when a condition holds. -/
def dueIf (c : Bool) (i : Instr) : List Instr := if c then [i] else []

/-! ### The backup domain, which PLL_SYS does not clock -/

/-- A posted write whose 4 oscillator periods are over (R77), the samples of the alarm inputs at an oscillator edge (R50), and the pair
(R53). -/
def dueBackup (s : State) : List Instr :=
  let b := s.bkp
  (s.bus.bkpBuf.take 1).flatMap (fun a => dueIf (decide (4 ≤ s.bus.bkpEdges)) (.postedWriteApply a.req .bkp .clean)) ++
    (allFin 4).flatMap (fun n => dueIf (almSampled s n) (.alarmAccept n (bit b.almSample n.val))) ++
    dueIf (b.pairDue && b.oscRunning && b.edgeNow && s.sys.sysLock) .bkpPairTake

/-! ### Posted writes (R77) -/

/-- The ticks of 4 clocks of a block's register clock (R2, R77, R89). -/
def postTicks : Block → Nat
  | .tbe | .tsq => 4
  | .cap | .pw | .qe | .desc | .egr | .hl | .fs => 3
  | .cfg | .scb => 8
  | .mirror | .sys | .acc | .lcs | .ua | .spc | .pio | .hkadc | .bkp => 16

/-- The posted writes that take effect in this tick at the latest. -/
def duePosted (s : State) : List Instr :=
  s.bus.inflight.flatMap fun a =>
    match blockOf a.addr with
    | some b => dueIf (decide (a.at_ + postTicks b ≤ s.clock)) (.postedWriteApply a.req b (mergeFinds a))
    | none => []

/-! ### Encoders, and the faults of one clock -/

/-- What LOS does to an input whose voltage has been on one side of the threshold for 400 ticks (R159). -/
def dueLos (s : State) (n : Fin 8) (p : EncPin) : List Instr :=
  let i := getIn (getEnc s n) p
  dueIf (i.losRipe s.clock) (if i.low then .losEntry n p else .losExit n p)

/-- Levels that the filters accept, and the starts and ends of LOS (R159, R160). -/
def dueInputs (s : State) (n : Fin 8) : List Instr :=
  let e := getEnc s n
  dueIf (abRipe s n) (.encoderTransition n e.inA.raw e.inB.raw) ++ dueIf (zRipe s n) (.index n e.inZ.raw) ++
    [EncPin.a, .b, .z].flatMap (dueLos s n)

/-- The illegal transition of the tick, and the ends of the fault windows of an encoder (R171). -/
def dueEnc (s : State) (n : Fin 8) : List Instr :=
  let e := getEnc s n
  dueIf (abRipe s n || e.illegalNow == some s.clock || e.illegal.any fun f => decide (f.start + tenMs ≤ s.clock)) (.illegalWindowEnd n) ++
    dueIf (e.losAB.any fun f => decide (f.start + encLosTicks e ≤ s.clock)) (.losLimitExpiry n false) ++
    dueIf (e.losZf.any fun f => decide (f.start + encLosTicks e ≤ s.clock)) (.losLimitExpiry n true)

/-- A lock attempt that has failed (R220), and the end of a LINK window (R234). -/
def dueCap (s : State) (n : Fin 16) : List Instr :=
  let c := getCap s n
  dueIf (!c.locked && c.attemptAt.any fun a => decide (a + oneMs ≤ s.clock)) (.lockAttemptFail n) ++
    dueIf (c.fault.any fun f => decide (f.start + tenMs ≤ s.clock)) (.capLinkWindowEnd n)

/-- The end of a LINK window of an egress port (R324). -/
def dueEgr (s : State) (n : Fin 4) : List Instr :=
  let p := getEgr s n
  dueIf (p.fault.any fun f => decide (f.start + egrLimit p.group.active * tenMs ≤ s.clock)) (.egrLinkWindowEnd n)

/-- A slot that does not arrive while the lanes do not run (R152, R339, R355). -/
def dueMissing (s : State) (p : Fin 2) : List Instr :=
  dueIf (now s % 32 == 0 && !hlOn s && portUp s p) (.badMessage p .missing)

/-- What can write a fault record in this clock, in ascending block order (R293). -/
def dueFaults (s : State) : List Instr :=
  dueIf (s.lcs.dbg == .generating && decide (s.lcs.genAt + 80000 ≤ s.clock)) (.challengeReady (Config.trngHealthy s.clock)) ++
    (allFin 8).flatMap (dueEnc s) ++ (allFin 16).flatMap (dueCap s) ++
    (s.qe.taken.filter (timedOut s)).map (fun t => .ringTimeout t.ring t.idx) ++ (allFin 4).flatMap (dueEgr s) ++
    (allFin 2).flatMap (dueMissing s) ++ dueIf (released s && !s.scb.passBusy && passDue s) .passStart ++
    s.moment.scrub.toList.map .frameScrub

/-! ### The herd link -/

/-- HERD_HALT_N accepted low, or seen high again (R359). -/
def dueHalt (s : State) : List Instr :=
  dueIf (haltAccepted s) (.herdHaltAccept s.hl.haltExt) ++ dueIf (s.hl.haltIn && !haltLow s) .herdHaltNHigh

/-- Herd events whose tick has come (R344, R353), READY_SEEN bits that expire (R350), and positions that enter the predictor view
(R348). -/
def dueHerd (s : State) (h : Fin 4) : List Instr :=
  let g := getHerd s h
  dueIf (!(schedDue s h .retire).isEmpty) (.herdRetired h) ++ dueIf (!(schedDue s h .revive).isEmpty) (.herdRevived h) ++
    dueIf (!(schedDue s h .stop).isEmpty) (.herdStopped h) ++ dueIf (!(schedDue s h .start).isEmpty) (.herdStarted h) ++
    ((allFin 8).flatMap fun d => dueIf (bit g.readySeen d.val && decide (g.readyAt[d.val] + 8192 ≤ s.clock)) (.readySeenExpiry h d)) ++
    dueIf ((getRem s h).waiting.any fun e => decide (e.at_ ≤ now s)) (.predictorEntry h)

/-- A port whose training has ended (R340). -/
def dueTrain (s : State) (p : Fin 2) : List Instr :=
  let q := getPort s p
  dueIf (q.st == .train && (measuredL q.trips).any fun l => decide (24 < l) || decide (16 ≤ q.goodRun)) (.trainComplete p)

/-- What a slot that starts in 9 ticks carries is settled up to the end of this tick (R343, R345, R347, R350). -/
def dueSlot (s : State) : List Instr :=
  if (now s + 9) % 32 = 0 then
    dueIf (isTimeLead s) .timeOriginate ++
      (allFin 4).flatMap fun h => dueIf (isLead s h) (.positionDue h) ++ dueIf (isFollower s h) (.readyOriginate h)
  else []

/-! ### Trigger sequencers (R183, R189 to R195, R202) -/

/-- A sequencer that is enabled, that a commit may enable, or that still holds slots. -/
def tsqBusy (s : State) (n : Fin 16) : Bool :=
  let t := getTsq s n
  tsqEn t.group.active || t.group.pending || !t.steps.isEmpty || t.slots.toList.any fun sl => sl.st != .free

/-- The end of a tick in sequencer n: pulses that end, the position steps and the stop count, the fire gate and the hold windows, the
commit, the commits of slots, and the slot that opens. -/
def dueTsq (s : State) (n : Fin 16) : List Instr :=
  let t := getTsq s n
  dueIf (t.strobe.active && decide (t.strobe.end_ ≤ s.clock)) (.pulseEnd n .strobe) ++
    dueIf (t.pretrig.active && decide (t.pretrig.end_ ≤ s.clock)) (.pulseEnd n .pretrig) ++
    dueIf (t.expose.any fun p => decide (p.end_ ≤ s.clock)) (.pulseEnd n .expose) ++
    dueIf (t.edges.any fun e => !e.strobe && decide (e.at_ ≤ (now s : Int))) (.pretrigRise n) ++
    dueIf (t.edges.any fun e => e.strobe && decide (e.at_ ≤ (now s : Int))) (.strobeRise n) ++
    (if tsqBusy s n then
      [.stopTicksExpiry n, .holdExpiry n, .tsqCommitApply n, .slotCommit n, .tsqCommitApply n, .slotOpen n]
     else [])

/-- A pending release whose window has passed (R222). -/
def dueMatch (s : State) (n : Fin 16) : List Instr :=
  let c := getCap s n
  dueIf (c.pending.any fun r => decide (r.exposeTick + capMax c.group.active < now s)) (.matchExpiry n)

/-! ### Commits at the last clock that their safe point allows (R7) -/

/-- A commit that has waited its clocks. -/
def commitRipe {α : Type} (g : Shadowed α) (ticks : Nat) : Bool := g.pending && decide (ticks ≤ g.wait)

/-- The commits of every block but the sequencers: 4 clocks of the block after the request, or the first clock at the safe point (R117,
R162, R240, R265, R278, R323, R361, R478, R504, R529). -/
def dueCommits (s : State) : List Instr :=
  dueIf (commitRipe s.acc.group 16) .accCommitApply ++
    (allFin 8).flatMap (fun n => dueIf (commitRipe (getEnc s n).cfg 4) (.encCommitApply n)) ++
    (allFin 16).flatMap (fun n => dueIf (capSafe s n && decide (1 ≤ (getCap s n).group.wait)) (.capCommitApply n)) ++
    dueIf (commitRipe s.pw.group 3) .pwCommitApply ++
    ((allFin 1024).filter fun r => commitRipe (getRing s r).group 3).map .qeRingCommitApply ++
    (allFin 4).flatMap (fun n => dueIf (commitRipe (getEgr s n).group 3 && (getEgr s n).held.isEmpty) (.egrCommitApply n)) ++
    dueIf (commitRipe s.hl.group 3 && !anyHerdLive s) .hlCommitApply ++
    (allFin 18).flatMap (fun n => dueIf (commitRipe (getUa s n).group 16) (.uaCommitApply n)) ++
    (allFin 2).flatMap (fun m => dueIf (spcSafe s m && decide (4 ≤ (getSpc s m).group.wait)) (.spcCommitApply m)) ++
    dueIf (commitRipe s.adc.group 80) .hkadcCommitApply

/-! ### The other blocks -/

/-- Answers owed (R113), the ends of an LCS operation, of a verification and of a lockout (R129, R140, R141). -/
def dueAnswers (s : State) : List Instr :=
  ([Req.frp, Req.icp, Req.jtag].flatMap fun r => dueIf ((owedTo s r).head?.any fun o => decide (o.due ≤ s.clock)) (.accessAnswer r)) ++
    dueIf (s.lcs.running.any fun o => decide (o.2 + tenMs ≤ s.clock)) .lcsOperationDone ++
    dueIf (s.lcs.verifying.any fun v => decide (v.at_ + 4800000 ≤ s.clock)) .verdict ++
    dueIf (s.lcs.dbg == .lockout && decide (s.lcs.lockoutEnd ≤ s.clock)) .lockoutEnd

/-- The command of a packet kind; a CTL packet's depends on its data word (R397, R399). -/
def packetInstr (s : State) (k : Pkt) : Instr :=
  match k with
  | .nop => .nop
  | .idc => .idc
  | .seq => .seq
  | .len => .len
  | .ztab => .ztab
  | .sig => .sig
  | .faddr => .faddr
  | .fdata => .fdata
  | .end_ => .end_
  | .ctl =>
    match ofBe ((s.mp.buffer.take 8).drop 4) with
    | 1 => .begin_
    | 2 => .ctlAbort
    | _ => .ctlNop

/-- The sync word or the packet at the front of the stream buffer, or the next frame of FDATA (R396 to R398, R401). -/
def duePacket (s : State) : List Instr :=
  let p := s.cfg.parse
  if cfgRuns s && searching s && s.mp.buffer.take 4 == syncBytes then [.syncWord]
  else if s.cfg.phase == .frames && p.framesLeft != 0 && decide (388 ≤ s.mp.buffer.length) && p.queued.isEmpty then [.frameArrival]
  else
    match frontHeader s with
    | none => []
    | some w => match pktOf w with | some k => [packetInstr s k] | none => [.nop]

/-- The command at the head of an SPC queue starts (R487). -/
def dueSpc (s : State) (m : Fin 2) : List Instr :=
  let u := getSpc s m
  if spcMasterLive s m && u.run.isNone then
    (u.queue.take 1).map fun w =>
      match (cmdKind w).toNat with
      | 0 => .duplex m
      | 1 => .tx m
      | 2 => .rx m
      | _ => .delay m
  else []

/-- Characters that the transmitters take (R458), SPC commands, levels that pin-interrupt lines accept (R522), scan starts and skipped
channels (R526, R527). -/
def dueSerial (s : State) : List Instr :=
  let g := s.adc.group.active
  (allFin 18).flatMap (fun n => dueIf (uaCanSend s n) (.characterTransmit n)) ++ (allFin 2).flatMap (dueSpc s) ++
    (allFin 16).flatMap (fun k => dueIf (pilRipe s k) (.pilActiveEdge k (getPil s k).raw)) ++
    dueIf (adcEn g && adcCont g && !s.adc.due && decide (s.adc.lastStart + adcPeriod g ≤ s.clock) && (!s.adc.scanning || adcPeriod g != 0))
      .scanPeriod ++
    dueIf (adcRipe s && s.adc.skip) (.channelResult [])

/-- What falls due in the blocks that PLL_SYS clocks. A snapshot of this tick is taken again after everything else (R157, R176); a soft
reset requested in it, whose transaction has ended, acts last (R37). -/
def dueClocked (s : State) : List Instr :=
  duePosted s ++ (allFin 8).flatMap (dueInputs s) ++ dueFaults s ++ dueHalt s ++ (allFin 4).flatMap (dueHerd s) ++
    (allFin 16).flatMap (dueTsq s) ++ (allFin 16).flatMap (dueMatch s) ++ (allFin 2).flatMap (dueTrain s) ++ dueSlot s ++
    dueAnswers s ++ duePacket s ++ dueSerial s ++ dueCommits s ++ dueIf (s.tbe.snapAt == some s.clock) .snap ++
    dueIf s.sys.softReq.isSome .softReset

/-- PLL_SYS clocks its blocks. -/
def clockRuns (s : State) : Bool := s.sys.sysLock && s.undef.isNone

/-- Every command that falls due in the present tick; none where the behaviour is undefined. -/
def dueNow (s : State) : List Instr :=
  match s.undef with
  | some .railOut => []
  | some .earlyReset => []
  | _ => dueBackup s ++ (if clockRuns s then dueClocked s else [])

/-! ### The end of a tick -/

/-- What hardware set in the tick can be cleared from now on, and the commits that wait have waited a tick longer (R8, R9). -/
def ageClocked (s : State) : State :=
  { s with
    acc := { s.acc with group := s.acc.group.age, fenceDone := s.acc.fenceDone.age },
    lcs := { s.lcs with flags := s.lcs.flags.age },
    tbe := { s.tbe with flags := s.tbe.flags.age, enc := s.tbe.enc.map fun e => { e with cfg := e.cfg.age } },
    tsq := s.tsq.map fun t => { t with group := t.group.age, flags := t.flags.age },
    cap := s.cap.map fun c => { c with group := c.group.age, flags := c.flags.age },
    pw := { s.pw with group := s.pw.group.age, flags := s.pw.flags.age },
    qe := { s.qe with rings := s.qe.rings.map (fun r => { r with group := r.group.age }), flags := s.qe.flags.age },
    egr := s.egr.map fun p => { p with group := p.group.age, flags := p.flags.age },
    hl := { s.hl with group := s.hl.group.age, flags := s.hl.flags.age },
    cfg := { s.cfg with flags := s.cfg.flags.age },
    scb := { s.scb with flags := s.scb.flags.age },
    ua := s.ua.map fun u => { u with group := u.group.age, flags := u.flags.age },
    spc := s.spc.map fun u => { u with group := u.group.age, flags := u.flags.age },
    pio := { s.pio with flags := s.pio.flags.age },
    adc := { s.adc with group := s.adc.group.age, flags := s.adc.flags.age } }

/-- What the blocks that PLL_SYS clocks do at the end of a tick. -/
def endBlocks (s : State) : State :=
  let s := haltNoted (slotTurn (haltNoted s))
  let s := forEach (allFin 4) egrArm s
  let s := forEach (allFin 18) (fun n s => s.modUa n uaTickEnd) s
  let s := forEach (allFin 2) (fun m s => s.modSpc m (spcTickEnd (spcMasterLive s m) s.clock)) s
  ageClocked (pioTickEnd s)

/-- The end of a tick of those blocks, and the start of the next one: the time base counts (R155). -/
def endClocked (s : State) : State :=
  let s := endBlocks s
  (s.setTime (s.time + 1)).setClock (s.clock + 1)

/-- The oscillator's phase after one tick: 32,768 periods in 400,000,000 ticks. An edge is one more of the oscillator periods that the
buffered writes have waited (R77). -/
def oscTurn (s : State) : State :=
  let p := s.bkp.oscPhase + 32768
  if !s.bkp.oscRunning then s
  else if p < 400000000 then s.modBkp fun b => { b with oscPhase := p }
  else
    (oscEdge (s.modBkp fun b => { b with oscPhase := p - 400000000 })).modBus fun b =>
      { b with bkpEdges := if b.bkpBuf.isEmpty then 0 else b.bkpEdges + 1 }

/-- The tick ends. -/
def tickEnd (s : State) : State :=
  let s := if clockRuns s then endClocked s else s
  let s := (s.modMoment fun _ => .init).modSys fun y => { y with lol := y.lol.age, clkFlag := y.clkFlag.age }
  oscTurn (s.modBkp fun b => { b with edgeNow := false, alarms := b.alarms.age })

/-- An empty queue: what falls due in the present tick, or, once that has acted, the end of the tick. -/
def tick (s : State) : State :=
  if s.moment.late || (dueNow s).isEmpty then tickEnd s
  else { s.modMoment (fun m => { m with late := true }) with pending := dueNow s }

end Sys2Proof.Machine
end

