-- ==== Sys2Proof/Safety.lean ====
section
/-! DEFINITION. The words the statements use: when a command's behaviour is defined, what a command may change, and the
canonical form that every step keeps. -/

namespace Sys2Proof.Machine

/-- Behaviour is defined for every block that PLL_SYS clocks: it is locked, and no rail, start-up or lost lock has made
anything undefined (R33, R152, R556, R561). -/
abbrev Clocked (s : State) : Prop := s.undef = none ∧ s.sys.sysLock = true

/-- Behaviour is defined for the logic that PLL_SYS does not clock: the management port, resets, JTAG and the backup domain. -/
abbrev Powered (s : State) : Prop := s.undef ≠ some .railOut ∧ s.undef ≠ some .earlyReset

/-- The parts of the state: the queue, what the present tick has seen, the counter of free values, the clocks, and one part for every
block and memory. -/
inductive Part where
  | queue | moment | free | undef | time | clock | sys | mp | bus | acc | lcs | jtag | tbe | tsq | cap | tagBase | pw | qe | egr | hl
  | fsp | fab | cfg | scb | ua | spc | pio | adc | bkp | dm | fs
  deriving DecidableEq, Repr

/-- Two states agree in one part. -/
def Part.same (s t : State) : Part → Prop
  | .queue => t.pending = s.pending
  | .moment => t.moment = s.moment
  | .free => t.freeCtr = s.freeCtr
  | .undef => t.undef = s.undef
  | .time => t.time = s.time
  | .clock => t.clock = s.clock
  | .sys => t.sys = s.sys
  | .mp => t.mp = s.mp
  | .bus => t.bus = s.bus
  | .acc => t.acc = s.acc
  | .lcs => t.lcs = s.lcs
  | .jtag => t.jtag = s.jtag
  | .tbe => t.tbe = s.tbe
  | .tsq => t.tsq = s.tsq
  | .cap => t.cap = s.cap
  | .tagBase => t.tagBase = s.tagBase
  | .pw => t.pw = s.pw
  | .qe => t.qe = s.qe
  | .egr => t.egr = s.egr
  | .hl => t.hl = s.hl
  | .fsp => t.fsp = s.fsp
  | .fab => t.fab = s.fab
  | .cfg => t.cfg = s.cfg
  | .scb => t.scb = s.scb
  | .ua => t.ua = s.ua
  | .spc => t.spc = s.spc
  | .pio => t.pio = s.pio
  | .adc => t.adc = s.adc
  | .bkp => t.bkp = s.bkp
  | .dm => t.dm = s.dm
  | .fs => t.fs = s.fs

/-- The frame of a command: every part outside the list is as it was. -/
def Only (ps : List Part) (s t : State) : Prop := ∀ p : Part, p ∉ ps → p.same s t

/-- Every instance but one is as it was. -/
def Others {α : Type} {k : Nat} (n : Fin k) (v w : Vector α k) : Prop := ∀ j : Fin k, j ≠ n → w[j.val] = v[j.val]

/-- Every byte outside [lo, lo + n) reads as before. -/
def SameOutside (m m' : List Host.Cell) (lo n : Nat) : Prop :=
  ∀ a : Nat, (a < lo ∨ lo + n ≤ a) → memRead m' a = memRead m a

/-- Both memories keep the canonical form: addresses strictly rising, no listed byte 0. -/
def MemInv (s : State) : Prop := Memory.wf s.dm = true ∧ Memory.wf s.fs = true

/-- A requester of a single read has room for it: FRP and ICP own at most eight answers (R373, R426). -/
def CanRead (s : State) : Req → Prop
  | .frp => frpReady s = true ∧ (owedTo s .frp).length < 8
  | .icp => icpReady s = true ∧ (owedTo s .icp).length < 8
  | _ => True

/-- What requester r is owed for a permitted read of an address that gave a word: due 120 ns later (R113). -/
def owedRead (s : State) (r : Req) (addr w : Word) : Owed :=
  { req := r, write := false, addr := addr, due := s.clock + 48, order := s.bus.epochOrder, holds := true, code := .ok, data := w }

/-- How requester r learns the word of a permitted read: MP in WIN_DATA, FRP, ICP and JTAG by an answer; a new read of JTAG discards
the answers it had not captured (R133). The word of a QE read goes where its operation says. -/
def Learns (s t : State) (r : Req) (addr w : Word) : Prop :=
  match r with
  | .mp => t.mp = { s.mp with winData := w }
  | .frp => t.bus.owed = s.bus.owed ++ [owedRead s .frp addr w]
  | .icp => t.bus.owed = s.bus.owed ++ [owedRead s .icp addr w]
  | .jtag => t.bus.owed = (s.bus.owed.filter fun o => o.req != .jtag) ++ [owedRead s .jtag addr w] ∧ t.jtag.pendingAnswer = true
  | .qe => True

/-- A read of the address has no effect on the block it reaches, and shows nothing of the management port. -/
def PlainRead (addr : Word) : Prop :=
  isPairLo addr = false ∧ isPairHi addr = false ∧
    ∀ b, blockOf addr = some b → b ≠ .mirror ∧ b ≠ .ua ∧ b ≠ .spc ∧ b ≠ .pio ∧ b ≠ .scb ∧ b ≠ .fs

/-- No earlier write of the requester to the block of an address is on its way (R76). -/
def Settled (s : State) (r : Req) (addr : Word) : Prop := ∀ a ∈ s.bus.inflight, a.req = r → blockOf a.addr ≠ blockOf addr

/-- The state but for the schedulers' lists and credits of R290. -/
def SameButTurns (s t : State) : Prop :=
  Only [.qe] s t ∧ t.qe = { s.qe with rings := t.qe.rings, turns := t.qe.turns } ∧
    ∀ r : Fin 1024, t.qe.rings[r.val] = { s.qe.rings[r.val] with
      deficit := t.qe.rings[r.val].deficit, inTurn := t.qe.rings[r.val].inTurn }

/-- What the handling of a fault of encoder n leaves alone. -/
def Calm (n : Fin 8) (s t : State) : Prop :=
  let e := s.tbe.enc[n.val]
  let f := t.tbe.enc[n.val]
  f.pos = e.pos ∧ f.wrap = e.wrap ∧ f.inA.level = e.inA.level ∧ f.inB.level = e.inB.level ∧ f.last = e.last ∧
    f.cntIllegal = e.cntIllegal ∧ Others n s.tbe.enc t.tbe.enc

/-- The parts of the state that a command may change; every other part it leaves as it was. -/
def frameOf : Instr → List Part
  | .scanPeriod .. | .channelResult .. | .hkadcCommitApply .. =>
    [.adc]
  | .alarmAccept .. | .bkpCapture .. | .logClear .. | .bcLoad .. | .kc0Clear .. | .kc1Clear ..
  | .bkpOscillatorStop .. | .bkpOscillatorStart .. =>
    [.bkp]
  | .lockSuccess .. | .capCntClear .. =>
    [.cap]
  | .frameSend .. | .receiveFrame .. | .rxCiWrite .. | .egrRevive .. | .egrCntClear .. | .gapReset ..
  | .frameSent .. =>
    [.egr]
  | .trainComplete .. | .timeOriginate .. | .positionDue .. | .readyOriginate .. | .readySeenExpiry ..
  | .herdStart .. | .herdStop .. | .herdRevive .. | .halt .. | .haltRelease .. | .portRevive .. | .hlCntClear ..
  | .herdHaltNHigh .. | .trainStart .. =>
    [.hl]
  | .idcode .. | .bypass .. | .readback .. =>
    [.jtag]
  | .lcsTransition .. | .programKeyHash .. | .programNoFieldDebug .. | .lcsNoOperation .. | .lcsOperationDone ..
  | .newChallenge .. | .verify .. | .verdict .. | .lockoutEnd .. =>
    [.lcs]
  | .directRead .. | .unlistedOpcode .. =>
    [.mp]
  | .pioOutSet .. | .pioOutClr .. | .pilCfgWrite .. | .pilActiveEdge .. | .pioCntClear .. =>
    [.pio]
  | .returnRes .. | .trim .. | .pwCommitApply .. | .pwCntClear .. =>
    [.pw]
  | .qeCntClear .. =>
    [.qe]
  | .zoneAbort .. | .zoneVerifyDone .. =>
    [.scb]
  | .duplex .. | .tx .. | .rx .. | .delay .. | .masterByte .. | .modeFault .. | .spcAbort .. | .resume ..
  | .spcRxFlush .. | .spcTxFlush .. | .spcCntClear .. | .slaveFrameEnd .. | .spcTxdataWrite .. | .spcTxdata4Write ..
  | .spcCommitApply .. | .spcCmdWrite .. =>
    [.spc]
  | .capTagBaseWrite .. =>
    [.tagBase]
  | .losEntry .. | .zarm .. | .errClear .. | .snap .. =>
    [.tbe]
  | .strobeRise .. | .pretrigRise .. | .pulseEnd .. | .tsqCntClear .. =>
    [.tsq]
  | .characterReceive .. | .characterTransmit .. | .irPulseAccept .. | .irFlood .. | .quietExit ..
  | .uaTxdataWrite .. | .uaRxFlush .. | .uaTxFlush .. | .uaCntClear .. | .break_ .. | .uaRouteWrite ..
  | .uaCommitApply .. =>
    [.ua]
  | .supplyOutOfRange .. =>
    [.undef]
  | .accCommitApply .. =>
    [.bus, .acc]
  | .lineStart .. | .matchExpiry .. =>
    [.cap, .pw]
  | .zdataWrite .. =>
    [.cfg, .scb]
  | .vbatPowerUp .. | .kcEdge .. | .bkpPairTake .. =>
    [.free, .bkp]
  | .extest .. | .samplePreload .. | .readbackFrameRead .. =>
    [.free, .jtag]
  | .slaveFrameStart .. | .slaveByte .. =>
    [.free, .spc]
  | .hkadcStart .. =>
    [.moment, .adc]
  | .invalidate .. | .erase .. | .saveBoot .. | .clear .. =>
    [.moment, .cfg]
  | .zoneOpen .. | .zoneRestore .. | .save .. =>
    [.moment, .scb]
  | .streamAbort .. | .stickyClear .. | .pcStbByte .. | .pcpEnWrite .. | .syncWord .. | .nop .. | .idc .. | .seq ..
  | .len .. | .ztab .. | .sig .. | .begin_ .. | .ctlAbort .. | .ctlNop .. | .faddr .. | .fdata .. | .end_ ..
  | .frameArrival .. | .finishingDone .. =>
    [.mp, .cfg]
  | .poisonRewriteDone .. =>
    [.pw, .fs]
  | .fspRelease .. =>
    [.pw, .fsp]
  | .seal .. | .addref .. | .release .. | .abandon .. | .hostAlloc .. | .hostAddref .. | .hostRelease ..
  | .hostSeal .. | .hostAbandon .. =>
    [.pw, .qe]
  | .fspTake .. =>
    [.qe, .fsp]
  | .index .. | .load .. | .restore .. | .predictorEntry .. =>
    [.tbe, .tsq]
  | .capRevive .. =>
    [.tsq, .cap]
  | .herdStarted .. =>
    [.tsq, .hl]
  | .dispatch .. =>
    [.acc, .qe, .egr]
  | .accessAnswer .. =>
    [.bus, .acc, .jtag]
  | .alloc .. =>
    [.free, .pw, .qe]
  | .saveDone .. =>
    [.moment, .cfg, .scb]
  | .stream .. =>
    [.mp, .acc, .cfg]
  | .windowBurstWrite .. =>
    [.mp, .bus, .acc]
  | .fspWrite .. =>
    [.pw, .fsp, .fs]
  | .readRepeat .. | .qeRingCommitApply .. =>
    [.pw, .qe, .dm]
  | .fspAbandon .. =>
    [.pw, .qe, .fsp]
  | .linkUp .. | .linkDown .. | .frameBuild .. | .egrLinkWindowEnd .. | .egrCommitApply .. =>
    [.qe, .egr, .dm]
  | .fspPost .. =>
    [.qe, .fsp, .dm]
  | .probe .. | .idleMessage .. | .badMessage .. | .eventReady .. | .startMessage .. | .stopMessage ..
  | .retireMessage .. | .reviveMessage .. =>
    [.qe, .hl, .dm]
  | .passStart .. | .voteCorrection .. =>
    [.qe, .scb, .dm]
  | .pllRelock .. =>
    [.sys, .egr, .hl]
  | .hlCommitApply .. =>
    [.tbe, .tsq, .hl]
  | .encoderTransition .. =>
    [.tbe, .tsq, .pw]
  | .herdRevived .. =>
    [.tsq, .cap, .hl]
  | .herdStopped .. =>
    [.tsq, .pw, .hl]
  | .resetNRise .. =>
    [.undef, .sys, .cfg]
  | .challengeReady .. =>
    [.free, .lcs, .qe, .dm]
  | .echo .. =>
    [.free, .qe, .hl, .dm]
  | .reserve .. =>
    [.free, .tsq, .cap, .pw]
  | .cfgCmdDone .. =>
    [.moment, .qe, .cfg, .dm]
  | .directWrite .. | .winDataWrite .. =>
    [.mp, .bus, .acc, .cfg]
  | .frameProgramDone .. =>
    [.mp, .qe, .cfg, .dm]
  | .payloadReadDone .. | .frameDiscard .. =>
    [.pw, .qe, .egr, .dm]
  | .fspRead .. =>
    [.pw, .qe, .fsp, .dm]
  | .zoneRestoreDone .. =>
    [.qe, .cfg, .scb, .dm]
  | .passEnd .. =>
    [.sys, .qe, .scb, .dm]
  | .slotOpen .. | .stopTicksExpiry .. | .tsqCommitApply .. =>
    [.tsq, .pw, .qe, .dm]
  | .entryComplete .. =>
    [.acc, .pw, .qe, .egr, .dm]
  | .erasingDone .. =>
    [.free, .mp, .qe, .cfg, .dm]
  | .timeMessage .. =>
    [.free, .time, .qe, .hl, .dm]
  | .frameScrub .. =>
    [.moment, .qe, .cfg, .scb, .dm]
  | .fspComplete .. =>
    [.pw, .qe, .egr, .fsp, .dm]
  | .reloadAttempt .. =>
    [.sys, .qe, .cfg, .scb, .dm]
  | .pllLock .. =>
    [.time, .sys, .lcs, .egr, .bkp]
  | .slotCommit .. | .holdExpiry .. =>
    [.tsq, .cap, .pw, .qe, .dm]
  | .pllLossOfLock .. =>
    [.undef, .sys, .qe, .egr, .dm]
  | .ringTimeout .. =>
    [.acc, .pw, .qe, .egr, .fsp, .dm]
  | .lineEnd .. | .map .. =>
    [.free, .cap, .pw, .qe, .dm, .fs]
  | .bootSelection .. =>
    [.moment, .sys, .mp, .lcs, .cfg, .scb]
  | .positionMessage .. =>
    [.tbe, .tsq, .pw, .qe, .hl, .dm]
  | .pclkMeasure .. | .lockAttemptFail .. | .lossOfLock .. | .capLinkWindowEnd .. | .capCommitApply ..
  | .herdRetired .. =>
    [.tsq, .cap, .pw, .qe, .hl, .dm]
  | .herdHaltAccept .. =>
    [.free, .tsq, .cap, .pw, .qe, .hl, .dm]
  | .losExit .. | .illegalWindowEnd .. | .losLimitExpiry .. | .encCommitApply .. =>
    [.tbe, .tsq, .cap, .pw, .qe, .hl, .dm]
  | .fspAlloc .. | .fspAddref .. | .fspSeal .. =>
    [.free, .tsq, .cap, .pw, .qe, .fsp, .dm, .fs]
  | .frameTransferDone .. =>
    [.moment, .sys, .mp, .fsp, .fab, .cfg, .scb, .pio]
  | .commitGo .. =>
    [.acc, .tbe, .tsq, .cap, .pw, .qe, .egr, .hl, .ua, .spc, .adc]
  | .reconfiguration .. =>
    [.moment, .free, .sys, .mp, .bus, .acc, .lcs, .pw, .qe, .egr, .fsp, .fab, .cfg, .scb, .dm]
  | .registerWrite .. | .postedWriteApply .. | .doorbellPi .. | .doorbellCi .. =>
    [.moment, .sys, .mp, .bus, .acc, .lcs, .tbe, .tsq, .cap, .tagBase, .pw, .qe, .egr, .hl, .cfg, .scb, .ua, .spc, .pio,
      .adc, .bkp, .dm, .fs]
  | .windowBurstRead .. | .mgmtWordIssue .. =>
    [.moment, .free, .sys, .mp, .bus, .acc, .lcs, .tbe, .tsq, .cap, .tagBase, .pw, .qe, .egr, .hl, .cfg, .scb, .ua,
      .spc, .pio, .adc, .bkp, .dm, .fs]
  | .frpAccess .. | .icpAccess .. | .auth .. | .debugBus .. | .rlog .. | .loRead .. | .hiRead .. | .uaRxdataRead ..
  | .spcRxdataRead .. =>
    [.moment, .free, .sys, .mp, .bus, .acc, .lcs, .jtag, .tbe, .tsq, .cap, .tagBase, .pw, .qe, .egr, .hl, .cfg, .scb,
      .ua, .spc, .pio, .adc, .bkp, .dm, .fs]
  | .softReset .. =>
    [.moment, .free, .time, .sys, .mp, .bus, .acc, .lcs, .jtag, .tbe, .tsq, .cap, .tagBase, .pw, .qe, .egr, .hl, .fsp,
      .fab, .cfg, .scb, .ua, .spc, .pio, .adc, .bkp, .dm, .fs]
  | .pinReset .. =>
    [.moment, .free, .undef, .time, .sys, .mp, .bus, .acc, .lcs, .jtag, .tbe, .tsq, .cap, .tagBase, .pw, .qe, .egr, .hl,
      .fsp, .fab, .cfg, .scb, .ua, .spc, .pio, .adc, .bkp, .dm, .fs]

end Sys2Proof.Machine
end

