-- ==== Sys2Proof/Certificates/Slice0/Obligations.lean ====
section
/-! DEFINITION. The statements for the provers: the machine as a whole first, then the blocks in the order of the chapters. -/

open Sys2Proof Sys2Proof.Machine

/-- The queue of commands: one step runs the command at the front of the queue on the state with the queue's rest. With an empty
queue a tick passes and the block answers a next state (the model's choice, log entry 6). -/
def Obligations.StepRunsTheFront : Prop :=
  ∀ (s : State) (c : Instr) (rest : List Instr),
    Sys2Proof.Machine.step { s with pending := c :: rest } = Sys2Proof.Machine.exec c { s with pending := rest } ∧
    (s.pending = c :: rest → Sys2Proof.Machine.step s = Sys2Proof.Machine.exec c { s with pending := rest }) ∧
    (s.pending = [] → Sys2Proof.Machine.step s = .next (tick s))

/-- The state right after reset. The clauses over registers are the reset values of the register references (chapters 02 to 18), with
the frame store and the descriptor memory at zero (R268); the last line is the model's choice (log entries 6, 7, 8). -/
def Obligations.ResetState : Prop :=
  let s := State.reset
  (mpRead s 0x00 = 0x01610B47 ∧ mpRead s 0x01 = 0x101 ∧ mpRead s 0x04 = 0x1C000 ∧ mpRead s 0x08 = 0 ∧ mpRead s 0x0A = 1 ∧
    mpRead s 0x0C = 0x1000 ∧ mpRead s 0x11 = 0) ∧
  (∀ e ∈ ([
      (0x10000, 1), (0x20000, 1), (0x20100, 0), (0x20104, 0xFFFF_FFFC), (0x20108, 0x907), (0x20110, 0), (0x20118, 0),
      (0x30044, 5), (0x70004, 0x0800_1000), (0x70020, 0), (0x70030, 0x0800_1000), (0x70038, 0x0800_1000), (0x80014, 1),
      (0x88004, 0x0001_0040), (0x88224, 0x0012_0040), (0x88404, 0x0003_0040), (0x88804, 0x40), (0x220000, 0xC),
      (0x220004, 0x28B), (0x22000C, 0), (0x220020, 2), (0x230000, 0x000F_0000), (0x230004, 0x0F9), (0x230024, 0xFFFF),
      (0x230028, 2)] : List (Word × Word)), regWord .mp s e.1 = e.2) ∧
  s.tagBase = 7 ∧ s.time = 0 ∧ (∀ h : Fin 4, s.hl.herds[h.val].st = .off) ∧ s.dm = [] ∧ s.fs = [] ∧
  s.pending = [] ∧ s.moment = .init ∧ s.freeCtr = 0 ∧ s.clock = 0 ∧ s.undef = none

/-- R106: the access table, the rule epoch and what they grant, after a pin reset, after a soft reset and at the model's reset
state; a reconfiguration keeps both. -/
def Obligations.AccessTableAfterReset : Prop :=
  let fresh := fun t : State =>
    t.acc.group.active[0] = ⟨0, 0xFFFF_FFFC, 0x0000_0907⟩ ∧ (∀ n : Fin 64, n ≠ 0 → t.acc.group.active[n.val] = ⟨0, 0, 0⟩) ∧
    t.acc.epoch = 0 ∧
    ∀ (write : Bool) (addr : Word), (∀ r, r = .frp ∨ r = .icp ∨ r = .qe → checkAccess t r write addr ≠ none) ∧
      (addr.toNat < 0x20000 ∨ 0x30000 ≤ addr.toNat → checkAccess t .mp write addr = none ∧ checkAccess t .jtag write addr = none)
  fresh State.reset ∧
  (∀ s n, 1000 < n → ∃ t, exec (.pinReset n) s = .next t ∧ fresh t) ∧
  (∀ s, Clocked s → (drainAll s).sys.softReq ≠ none → ∃ t, exec .softReset s = .next t ∧ fresh t) ∧
  (∀ s mismatch, Clocked s → ∃ t, exec (.reconfiguration mismatch) s = .next t ∧ t.acc.group = s.acc.group ∧
    t.acc.epoch = s.acc.epoch)

/-- Both memories keep the one canonical form: every step from a state whose memories have it gives a state whose memories have
it, whatever command is at the front of the queue. -/
def Obligations.MemoryFormKept : Prop :=
  ∀ s t : State, MemInv s → Sys2Proof.Machine.step s = .next t → MemInv t

/-- The canonical form of both memories holds at reset. -/
def Obligations.MemoryFormAtReset : Prop := MemInv Sys2Proof.Machine.State.reset

/-- What a command leaves alone: every command changes only the parts of the state that frameOf names for it. -/
def Obligations.CommandFrames : Prop :=
  ∀ (c : Instr) (s t : State), Sys2Proof.Machine.exec c s = .next t → Only (frameOf c) s t

/-- Every command answers a next state while PLL_SYS is locked and nothing has made the behaviour undefined: none is refused, and
none stops on its operands. -/
def Obligations.CommandsComplete : Prop :=
  ∀ (c : Instr) (s : State), Clocked s → ∃ t, Sys2Proof.Machine.exec c s = .next t

/-- R33: once a main rail has been outside its range with RESET_N high, every command but another rail event, a pin reset and the
rise of RESET_N finds its behaviour undefined, which the machine says as a fault. -/
def Obligations.RailsOutUndefined : Prop :=
  ∀ (s : State) (c : Instr), s.undef = some .railOut → c ≠ .supplyOutOfRange → (∀ n, c ≠ .pinReset n) →
    (∀ h p, c ≠ .resetNRise h p) → exec c s = .fault (.undefinedBehaviour .railOut)

/-- The time base of R155: the end of a tick adds 1, a pin reset and a soft reset and the first lock of PLL_SYS leave it at 0, and no
other command changes it but the TIME message that a follower takes. That a tick passes on an empty queue, first with what is due in
it and then with its end, is the model's choice (log entries 6 and 90). -/
def Obligations.TimeBase : Prop :=
  (∀ s, Clocked s → s.pending = [] →
    (s.moment.late = true ∨ dueNow s = [] → ∃ t, Sys2Proof.Machine.step s = .next t ∧ t.time = s.time + 1 ∧ t.pending = [] ∧
      t.moment = .init) ∧
    (s.moment.late = false → dueNow s ≠ [] → Sys2Proof.Machine.step s =
      .next { s with pending := dueNow s, moment := { s.moment with late := true } })) ∧
  (∀ s n, 1000 < n → ∃ t, exec (.pinReset n) s = .next t ∧ t.time = 0) ∧
  (∀ s, Clocked s → (drainAll s).sys.softReq ≠ none → ∃ t, exec .softReset s = .next t ∧ t.time = 0) ∧
  (∀ s us, Powered s → s.sys.phase = .waitLock → ∃ t, exec (.pllLock .sys us) s = .next t ∧ t.time = 0) ∧
  (∀ s t head value r, exec (.timeMessage head value r) s = .next t → isTimeLead s = true ∨ portUp s head.port = false →
    t.time = s.time) ∧
  (∀ c s t, exec c s = .next t → (∀ n, c ≠ .pinReset n) → c ≠ .softReset → (∀ p us, c ≠ .pllLock p us) →
    (∀ head value r, c ≠ .timeMessage head value r) → t.time = s.time)

/-- R293, R295: a fault record takes the next sequence number and goes into ring 32, its 32 bytes at the ring's PI and nowhere else;
a ring that is full or disabled stores nothing, and the number is used all the same. -/
def Obligations.FaultRecords : Prop :=
  ∀ (s : State) (f : FaultRec), MemInv s →
    let g := s.qe.rings[32]
    let t := recordFault s f
    Only [.qe, .dm] s t ∧ t.qe.seq = (if s.qe.seq = 0xFFFF_FFFF then 1 else s.qe.seq + 1) ∧
    (ringOn g = true → ringFull g = false →
      SameOutside s.dm t.dm (entryAt g g.pi) 32 ∧
      (∀ k, k < 32 → memRead t.dm (entryAt g g.pi + k) = (faultBytes s.qe.seq s.time f).getD k 0) ∧
      t.qe.rings[32].pi = g.pi + 1 ∧ t.qe.flags.on 0 = true ∧ t.qe.cntFaultLost = s.qe.cntFaultLost) ∧
    (ringOn g = false ∨ ringFull g = true →
      t.dm = s.dm ∧ t.qe.rings[32].pi = g.pi ∧ t.qe.flags.on 1 = true ∧ t.qe.cntFaultLost = s.qe.cntFaultLost + 1)

/-- R51, R60: log entries fill the log in order; while it is full each further entry is not stored and counts as lost, up to 255;
LOG_CLEAR empties the log and zeroes the count. An entry of the MAIN_OFF period sets VBAT_ALARM, stored or not (R60). The level is
accepted at the oscillator edge that samples it a second time. -/
def Obligations.AlarmLog : Prop :=
  ∀ (s : State) (n : Fin 4) (level : Bool), Powered s →
    let b := s.bkp
    (almSampled s n = true → bit b.almSample n.val = level → bit b.almLevel n.val ≠ level → bit b.almCfg n.val = true →
      level = bit b.almCfg (4 + n.val) →
      ∃ t, exec (.alarmAccept n level) s = .next t ∧ Only [.bkp] s t ∧ bit t.bkp.almLevel n.val = level ∧
        (∀ k : Fin 16, k.val = b.logCount → t.bkp.logCount = b.logCount + 1 ∧ t.bkp.logLost = b.logLost ∧
          Others k b.log t.bkp.log ∧ t.bkp.log[k.val].bc = b.bc ∧ t.bkp.log[k.val].valid = true ∧
          t.bkp.log[k.val].alm.toNat = n.val) ∧
        (16 ≤ b.logCount → t.bkp.logCount = b.logCount ∧ t.bkp.log = b.log ∧
          t.bkp.logLost.toNat = min 255 (b.logLost.toNat + 1)) ∧
        (b.mainRun = false → t.bkp.alarms.on 0 = true)) ∧
    ∃ t, exec .logClear s = .next t ∧ Only [.bkp] s t ∧ t.bkp.logCount = 0 ∧ t.bkp.logLost = 0 ∧
      ∀ k : Fin 16, t.bkp.log[k.val].valid = false

/-- An edge of the backup oscillator: the counter takes the load that waits for it, without the increment, or increments; a
clear that waits for it zeroes its keep-count counter. -/
def Obligations.BackupOscillatorEdge : Prop :=
  ∀ s : State, Only [.bkp] s (oscEdge s) ∧
    (s.bkp.loadPending = true → (oscEdge s).bkp.bc = s.bkp.bcLoad) ∧
    (s.bkp.loadPending = false → (oscEdge s).bkp.bc = s.bkp.bc + 1) ∧
    (oscEdge s).bkp.loadPending = false ∧ (oscEdge s).bkp.kcClear = 0 ∧
    ∀ ch : Fin 2, (oscEdge s).bkp.kc[ch.val] = if bit s.bkp.kcClear ch.val then 0 else s.bkp.kc[ch.val]

/-- R48, R51, R53, R56, R90: the actions of the backup domain, with everything else as it was. A clear or a load waits for
the next oscillator edge; CAPTURE clears PAIR_VALID until the pair is taken. -/
def Obligations.BackupActions : Prop :=
  ∀ s : State, Powered s →
    exec .bkpCapture s = .next { s with bkp := { s.bkp with pairValid := false, pairDue := true } } ∧
    exec .logClear s = .next { s with bkp := { s.bkp with
      logCount := 0, logLost := 0, log := s.bkp.log.map fun e => { e with valid := false } } } ∧
    exec .bcLoad s = .next { s with bkp := { s.bkp with loadPending := true } } ∧
    exec .kc0Clear s = .next { s with bkp := { s.bkp with kcClear := s.bkp.kcClear ||| 1#2 } } ∧
    exec .kc1Clear s = .next { s with bkp := { s.bkp with kcClear := s.bkp.kcClear ||| 2#2 } } ∧
    exec .bkpOscillatorStop s = .next { s with bkp := { s.bkp with oscRunning := false } } ∧
    exec .bkpOscillatorStart s = .next { s with bkp := { s.bkp with oscRunning := true, kcShown := s.bkp.kc } }

/-- R49: OFF holds the value, X1 counts the rising edges of A, up while B is low and down while it is high, X4 counts every
quadrature step, and DIR inverts the sense. The pin's level is kept in every mode. An edge outside the limits counts like this or is
lost, one of the two. -/
def Obligations.KeepCountEdges : Prop :=
  ∀ (s : State) (ch : Fin 2) (pin : KcPin) (level : Bool), Powered s →
    let a := bit s.bkp.kcA ch.val
    let b := bit s.bkp.kcB ch.val
    let a' := if pin = .a then level else a
    let b' := if pin = .b then level else b
    let plus := upd s.bkp.kc ch fun v => if kcDir s.bkp ch then v - 1 else v + 1
    let minus := upd s.bkp.kc ch fun v => if kcDir s.bkp ch then v + 1 else v - 1
    let pins := { s.bkp with kcA := assignBit s.bkp.kcA ch.val a', kcB := assignBit s.bkp.kcB ch.val b' }
    let after :=
      if kcMode s.bkp ch = 1 ∧ a = false ∧ a' = true then { pins with kc := if b' then minus else plus }
      else if kcMode s.bkp ch = 2 ∧ a' = !b ∧ b' = a then { pins with kc := plus }
      else if kcMode s.bkp ch = 2 ∧ a' = b ∧ b' = !a then { pins with kc := minus }
      else pins
    exec (.kcEdge ch pin level true) s = .next { s with bkp := after } ∧
    (exec (.kcEdge ch pin level false) s = .next { s.freeStep with bkp := after } ∨
      exec (.kcEdge ch pin level false) s = .next { s.freeStep with bkp := pins })

/-- R50 to R54, R60: an alarm input at an oscillator edge, its level once two edges agree, its entry in the log or the lost count of
a full log, and the pair taken at an oscillator edge, whose tick lies 0 to 3 ticks after the edge. -/
def Obligations.AlarmsAndPairs : Prop :=
  ∀ (s : State) (n : Fin 4) (level : Bool), Powered s →
    let b := s.bkp
    let off := !b.mainRun
    let sampled := { b with almSeen := setBit b.almSeen n.val, almSample := assignBit b.almSample n.val level }
    let shown := { sampled with almLevel := assignBit b.almLevel n.val level }
    let seen := { shown with alarms := b.alarms.set (if off then 0 else 1) }
    let active := bit b.almCfg n.val = true ∧ level = bit b.almCfg (4 + n.val)
    let first := bit b.almSample n.val ≠ level ∨ bit b.almLevel n.val = level
    (almSampled s n = false → exec (.alarmAccept n level) s = .next s) ∧
    (almSampled s n = true →
      (first → exec (.alarmAccept n level) s = .next { s with bkp := sampled }) ∧
      (¬first → ¬active → exec (.alarmAccept n level) s = .next { s with bkp := shown }) ∧
      (¬first → active → b.logCount < 16 → exec (.alarmAccept n level) s = .next { s with bkp := { seen with
        log := upd b.log (Fin.ofNat 16 b.logCount) fun _ => ⟨b.bc, BitVec.ofNat 2 n.val, off, true⟩, logCount := b.logCount + 1 } }) ∧
      (¬first → active → 16 ≤ b.logCount →
        exec (.alarmAccept n level) s = .next { s with bkp := { seen with logLost := satInc b.logLost } })) ∧
    (b.pairDue = false ∨ b.oscRunning = false ∨ b.edgeNow = false ∨ s.sys.sysLock = false → exec .bkpPairTake s = .next s) ∧
    (b.pairDue = true → b.oscRunning = true → b.edgeNow = true → s.sys.sysLock = true → ∃ k : Nat, k < 4 ∧
      exec .bkpPairTake s = .next { s.freeStep with bkp := { b with
        pairBc := b.bc, pairTick := s.time + BitVec.ofNat 64 k, pairKc := b.kc, pairValid := true, pairDue := false, kcShown := b.kc } })

/-- R33, R35 to R37, R47, R543, R556: a rail out of range, a pin reset by the length of its pulse with what it clears and
what it keeps, the rise of RESET_N, and the first power of the backup domain. -/
def Obligations.SuppliesAndPinReset : Prop :=
  ∀ (s : State) (lowNs : Nat) (met pcEn : Bool),
    (s.sys.resetN = true → exec .supplyOutOfRange s = .next { s with undef := some .railOut }) ∧
    (s.sys.resetN = false → exec .supplyOutOfRange s = .next s) ∧
    (lowNs < 20 → exec (.pinReset lowNs) s = .next s) ∧
    (20 ≤ lowNs → lowNs ≤ 1000 →
      exec (.pinReset lowNs) s = .next s.freeStep ∨ exec (.pinReset lowNs) s = exec (.pinReset 1001) s.freeStep) ∧
    (1000 < lowNs → ∃ t, exec (.pinReset lowNs) s = .next t ∧ t.undef = none ∧ t.time = 0 ∧
      t.sys = { Sys.init with resetN := false, phase := .held, totalUs := t.sys.totalUs } ∧ (s.bus.inflight = [] → t.sys.totalUs = s.sys.totalUs) ∧
      t.mp = Mp.init ∧ t.acc = Acc.init ∧ t.tbe = Tbe.init ∧ t.tsq = Vector.replicate 16 Tsq.init ∧ t.cap = capInit ∧
      t.tagBase = 7 ∧ t.pw = Pw.init ∧ t.qe = Qe.init ∧ t.egr = Vector.replicate 4 Egr.init ∧ t.hl = Hl.init ∧
      t.fsp = Vector.replicate 8 Fsp.init ∧ t.fab = Fab.init ∧ t.scb = Scb.init ∧ t.ua = Vector.replicate 18 Ua.init ∧
      t.spc = Vector.replicate 2 Spc.init ∧ t.pio = Pio.init ∧ t.adc = Adc.init ∧ t.dm = [] ∧ t.fs = [] ∧
      t.bus.inflight = [] ∧ t.bus.owed = [] ∧ t.bus.hiLatches = [] ∧ t.lcs.dbg = .lockout ∧ t.lcs.scope = none ∧
      (s.bus.inflight = [] → t.cfg.slots = s.cfg.slots ∧ t.cfg.pcpEn = s.cfg.pcpEn ∧ t.bus.bkpBuf.map (fun a => (a.id, a.req, a.addr, a.data)) =
          s.bus.bkpBuf.map (fun a => (a.id, a.req, a.addr, a.data)) ∧
        t.bkp = { s.bkp with mainRun := false, pairBc := 0, pairTick := 0, pairKc := Vector.replicate 2 0, pairValid := false, pairDue := false } ∧
        (s.lcs.running = none → t.lcs.lcw = s.lcs.lcw ∧ t.lcs.keyHash = s.lcs.keyHash ∧ t.lcs.keyLock = s.lcs.keyLock ∧
          t.lcs.nfd = s.lcs.nfd))) ∧
    (s.sys.phase = .held → exec (.resetNRise met pcEn) s = .next { s with
      undef := if met then none else some .earlyReset, sys := { s.sys with resetN := true, phase := .waitLock },
      cfg := { s.cfg with pcpEn := pcEn } }) ∧
    (s.sys.phase ≠ .held → exec (.resetNRise met pcEn) s = .next s) ∧
    (Powered s → ∃ t, exec .vbatPowerUp s = .next t ∧ Only [.bkp, .free] s t ∧ t.bkp.pairBc = s.bkp.pairBc ∧
      t.bkp.pairTick = s.bkp.pairTick ∧ t.bkp.pairKc = s.bkp.pairKc ∧ t.bkp.pairValid = s.bkp.pairValid)

/-- R38, R123, R152, R368, R561: what the first lock, the loss and the relock of each PLL do. The loss of PLL_SYS is final. -/
def Obligations.PllEvents : Prop :=
  ∀ (s : State) (us : Nat) (n : Fin 4), Powered s →
    (s.sys.phase = .waitLock →
      exec (.pllLock .sys us) s = .next { s with
        time := 0, lcs := { s.lcs with latched := fusedState s.lcs.lcw },
        sys := { s.sys with sysLock := true, lockUs := us, phase := .bootSelect }, bkp := { s.bkp with pairDue := true } }) ∧
    (s.sys.phase ≠ .waitLock → exec (.pllLock .sys us) s = .next s) ∧
    (s.sys.phase ≠ .held → s.sys.ethFirst = false → ∃ t, exec (.pllLock .eth us) s = .next t ∧ Only [.sys, .egr] s t ∧
      t.sys = { s.sys with ethLock := true, ethFirst := true }) ∧
    (s.sys.phase = .held ∨ s.sys.ethFirst = true → exec (.pllLock .eth us) s = .next s) ∧
    (s.sys.phase ≠ .held → s.sys.hlFirst = false →
      exec (.pllLock .hl us) s = .next { s with sys := { s.sys with hlLock := true, hlFirst := true } }) ∧
    (s.sys.phase ≠ .held →
      exec (.pllLock (.fcg n) us) s = .next { s with sys := { s.sys with fcgLock := setBit s.sys.fcgLock n.val } } ∧
      exec (.pllRelock (.fcg n)) s = .next { s with sys := { s.sys with fcgLock := setBit s.sys.fcgLock n.val } }) ∧
    (s.sys.sysLock = true → exec (.pllLossOfLock .sys) s = .next { s with
      undef := some .pllSysLost, sys := { s.sys with lol := s.sys.lol.set 0, clkFlag := s.sys.clkFlag.set 0, sysLock := false } }) ∧
    exec (.pllRelock .sys) s = .next s ∧
    (s.sys.ethLock = true → ∃ t, exec (.pllLossOfLock .eth) s = .next t ∧
      t.sys = { s.sys with lol := s.sys.lol.set 1, clkFlag := s.sys.clkFlag.set 0, ethLock := false }) ∧
    (s.sys.hlLock = true → exec (.pllLossOfLock .hl) s =
      .next { s with sys := { s.sys with lol := s.sys.lol.set 2, clkFlag := s.sys.clkFlag.set 0, hlLock := false } }) ∧
    (bit s.sys.fcgLock n.val = true → exec (.pllLossOfLock (.fcg n)) s = .next { s with sys := { s.sys with
      lol := s.sys.lol.set (4 + n.val), clkFlag := s.sys.clkFlag.set 0, fcgLock := assignBit s.sys.fcgLock n.val false } }) ∧
    (s.sys.ethFirst = true → s.sys.ethLock = false → ∃ t, exec (.pllRelock .eth) s = .next t ∧ Only [.sys, .egr] s t ∧
      t.sys = { s.sys with ethLock := true }) ∧
    (s.sys.hlFirst = true → s.sys.hlLock = false → ∃ t, exec (.pllRelock .hl) s = .next t ∧ Only [.sys, .hl] s t ∧
      t.sys = { s.sys with hlLock := true } ∧
      ∀ p : Fin 2, (getPort t p).st = if (getPort s p).st = .up then .train else (getPort s p).st)

/-- R37, R41, R96, R124, R407 to R410: boot selection, the end of a transfer, a soft reset and a reconfiguration. -/
def Obligations.BootAndSoftReset : Prop :=
  ∀ (s : State) (mismatch : Bool), Clocked s →
    let good := (bootOrder s (bootCfg s.cfg).1.2).filter fun b => isCandidate s b
    let tried := if (bootCfg s.cfg).1.1 then good.take 1 else good
    (s.sys.phase ≠ .bootSelect → exec .bootSelection s = .next s) ∧
    (s.sys.phase = .bootSelect → scrapped s = false → ∃ t, exec .bootSelection s = .next t ∧
      Only [.sys, .mp, .lcs, .cfg, .scb] s t ∧ t.lcs = s.lcs ∧ t.cfg.nextEn = (s.cfg.nextEn && wroteNow s 0x0026_000C) ∧ t.cfg.slots = s.cfg.slots ∧
      t.sys.phase = (if tried = [] then .failed else .transfer tried) ∧
      t.cfg.bootLog = ((bootOrder s (bootCfg s.cfg).1.2).filter fun b => !isCandidate s b).map fun b => (b, .notCandidate)) ∧
    (s.sys.phase = .bootSelect → scrapped s = true → ∃ t, exec .bootSelection s = .next t ∧ t.sys.phase = .failed ∧
      t.lcs.erased = true ∧ ∀ b : Fin 3, t.cfg.slots[b.val].st = .empty ∧ t.cfg.slots[b.val].frames = []) ∧
    (∀ b rest, s.sys.phase = .transfer (b :: rest) →
      (mismatch = false → (getNv s b).frames.all frameOk = true → ∃ t, exec (.frameTransferDone mismatch) s = .next t ∧
        t.sys.phase = .released ∧
        t.cfg.booted.toNat = b.val ∧ t.cfg.latches = s.cfg.slots[b.val].frames ∧ t.cfg.bootLog = s.cfg.bootLog ++ [(b, .ok)] ∧
        t.sys.totalUs.toNat = min (s.sys.lockUs + now s / 400) 0xFFFF) ∧
      (mismatch = true ∨ (getNv s b).frames.all frameOk = false → ∃ t, exec (.frameTransferDone mismatch) s = .next t ∧
        t.cfg.bootLog = s.cfg.bootLog ++ [(b, .frameCrc)] ∧
        t.sys.phase = (if rest = [] then .failed else .transfer rest) ∧
        (rest ≠ [] → t.sys.fallbacks = satInc s.sys.fallbacks ∧ t.cfg.flags.on 3 = true))) ∧
    (s.bus.inflight = [] → s.sys.softReq = none → exec .softReset s = .next s) ∧
    (s.bus.inflight = [] → s.sys.softReq.isSome = true → ∃ t, exec .softReset s = .next t ∧ t.time = 0 ∧
      t.sys.phase = .bootSelect ∧ t.sys.cause = 0b010 ∧ t.sys.sysLock = true ∧ t.sys.softReq = none ∧
      t.cfg.slots = s.cfg.slots ∧ t.acc = Acc.init ∧ t.qe = Qe.init ∧ t.pw = Pw.init ∧ t.tbe = Tbe.init ∧ t.dm = [] ∧ t.fs = [] ∧
      t.bkp.scratch = s.bkp.scratch ∧ t.bkp.pairValid = false ∧ t.bkp.pairDue = true) ∧
    (s.sys.reconfReq = false ∨ released s = false → exec (.reconfiguration mismatch) s = .next s) ∧
    (s.sys.reconfReq = true → released s = true → ∃ t, exec (.reconfiguration mismatch) s = .next t ∧ t.time = s.time ∧
      t.sys.cause = 0b100 ∧ t.sys.reconfReq = false ∧ t.sys.reconfCount = satInc s.sys.reconfCount ∧
      t.tbe = s.tbe ∧ t.tsq = s.tsq ∧ t.cap = s.cap ∧ t.hl = s.hl ∧ t.ua = s.ua ∧ t.spc = s.spc ∧ t.pio = s.pio ∧ t.bkp = s.bkp ∧
      t.lcs.dbg = .lockout ∧ t.lcs.scope = none ∧
      (t.sys.phase = .failed ∨ t.sys.phase = .released) ∧ (mismatch = true → t.sys.phase = .failed) ∧
      (mismatch = false → scrapped s = false → (∀ b, bootedSlot s = some b → (getNv s b).frames.all frameOk = true) →
        bootedSlot s ≠ none → t.sys.phase = .released))

/-- R42, R62, R64 to R69, R73, R74, R77 to R79, R87: transactions of the management port by their count of cycles. None does anything
to a port held in reset; the first cycle samples the views, and one cut short before its command byte does no more; one without its
data is void; a direct read shifts out the status byte and the register, a direct write sets its register; a write of WIN_DATA is one
window write, refused and logged, ended with NORESP or posted. -/
def Obligations.PortTransactions : Prop :=
  ∀ (s : State) (reg op : Byte) (data : Word) (cycles : Nat), s.undef = none →
    let v := sampleViews s
    let at_ := wordAddr s.mp.winAddr
    let shifted := fun (ws : List Word) (m : Mp) => { m with miso := some ⟨statusByte v, ws⟩, fresh := false }
    let void := fun (o : Byte) => v.modMp fun m => { shifted [] m with
      lastOpcode := o, wellFormed := false, lastWords := 0, lastOk := false, denied := false, noresp := false, voidSeen := true }
    let good := fun (o : Byte) (n : BitVec 16) (ws : List Word) (m : Mp) => { shifted ws m with
      lastOpcode := o, wellFormed := true, lastWords := n, lastOk := true, denied := false, noresp := false }
    let next := fun (m : Mp) => { m with winAddr := if m.autoinc then m.winAddr + 4 else m.winAddr }
    (cycles = 0 ∨ held s = true →
      exec (.directWrite reg data cycles) s = .next s ∧ exec (.directRead reg cycles) s = .next s ∧
      exec (.unlistedOpcode op cycles) s = .next s) ∧
    (0 < cycles → cycles < 8 → held s = false →
      exec (.directWrite reg data cycles) s = .next v ∧ exec (.directRead reg cycles) s = .next v) ∧
    (8 ≤ cycles → cycles < 48 → held s = false →
      exec (.directWrite reg data cycles) s = .next (void 0x02) ∧ exec (.directRead reg cycles) s = .next (void 0x03)) ∧
    (8 ≤ cycles → held s = false → listedOpcode op = false → exec (.unlistedOpcode op cycles) s = .next (void op)) ∧
    (48 ≤ cycles → held s = false →
      exec (.directRead reg cycles) s = .next (v.modMp (good 0x03 0 [mpRead v reg.toNat])) ∧
      (reg ≠ 0x09 → exec (.directWrite reg data cycles) s = .next ((mpWrite reg data v).modMp (good 0x02 0 []))) ∧
      exec (.directWrite 0x09 data cycles) s = exec (.winDataWrite data) s) ∧
    (mpWrite 0x04 data v = v.modMp (fun m => { m with attnMask := data.setWidth 18 }) ∧
      mpWrite 0x08 data v = v.modMp (fun m => { m with winAddr := wordAddr data }) ∧
      mpWrite 0x0A data v = v.modMp (fun m => { m with autoinc := bit data 0 }) ∧
      mpWrite 0x11 data v = v.modMp (fun m => { m with scratch := data })) ∧
    (held s = false →
      (∀ why, checkAccess s .mp true at_ = some why → exec (.winDataWrite data) s = .next
        ((logRefusal v .mp true at_ why).modMp fun m => { shifted [] (next m) with
          lastOpcode := 0x02, wellFormed := true, lastWords := 1, lastOk := false, denied := true, noresp := false, deniedSeen := true })) ∧
      (checkAccess s .mp true at_ = none →
        (responds s at_ = false ∨ (blockOf at_ = some .bkp ∧ 8 ≤ s.bus.bkpBuf.length) →
          exec (.winDataWrite data) s = .next (v.modMp fun m => { shifted [] (next m) with
            lastOpcode := 0x02, wellFormed := true, lastWords := 1, lastOk := false, denied := false, noresp := true, norespSeen := true })) ∧
        (responds s at_ = true → blockOf at_ ≠ some .bkp → exec (.winDataWrite data) s = .next
          ((v.modBus fun b => { b with
              nextId := b.nextId + 1, inflight := b.inflight ++ [⟨b.nextId, .mp, at_, data, b.epochOrder, s.clock⟩] }).modMp
            fun m => good 0x02 1 [] (next m))) ∧
        (responds s at_ = true → blockOf at_ = some .bkp → s.bus.bkpBuf.length < 8 → exec (.winDataWrite data) s = .next
          ((v.modBus fun b => { b with
              nextId := b.nextId + 1, bkpEdges := if b.bkpBuf.isEmpty then 0 else b.bkpEdges,
              bkpBuf := b.bkpBuf ++ [⟨b.nextId, .mp, at_, data, b.epochOrder, s.clock⟩] }).modMp
            fun m => good 0x02 1 [] (next m))))) ∧
    exec .stickyClear s = .next (s.modMp fun m => { m with deniedSeen := false, norespSeen := false, voidSeen := false }) ∧
    ∃ t, exec .streamAbort s = .next t ∧ Only [.mp, .cfg] s t ∧ t.mp.buffer = [] ∧ (cfgHalted s = true → t.cfg.phase = .search)

/-- R67, R70, R71, R73, R74, R77, R79: a write burst checks and issues each of its words in order and leaves WIN_ADDR past the last; a
refused word makes the burst end DENIED, and permitted ones are posted. A read burst issues a word for every 32 cycles from cycle 40
on, shifts out those its cycles hold, and leaves the last captured one in WIN_DATA; a word of a register without read effects is what
the register holds, and a refused word is 0. -/
def Obligations.WindowBursts : Prop :=
  ∀ (s : State) (addr : Word) (words : List Word) (ecc : List Ecc) (cycles : Nat), s.undef = none → held s = false →
    let v := sampleViews s
    let at_ := fun (k : Nat) => wordAddr addr + BitVec.ofNat 32 (4 * k)
    let n := (cycles - 40) / 32
    let issued := 1 + n
    let captured := 1 + (cycles - 48) / 32
    let shown := (cycles - 48) / 32
    (8 ≤ cycles → cycles < 40 → ∃ t u, exec (.windowBurstWrite addr words cycles) s = .next t ∧
      exec (.windowBurstRead addr ecc cycles) s = .next u ∧ Only [.mp] s t ∧ Only [.mp] s u ∧ t.mp.voidSeen = true ∧
      u.mp.voidSeen = true ∧ t.mp.wellFormed = false ∧ u.mp.wellFormed = false ∧ t.mp.winAddr = s.mp.winAddr ∧
      u.mp.winAddr = s.mp.winAddr) ∧
    (40 ≤ cycles → words.length = n → ∃ t, exec (.windowBurstWrite addr words cycles) s = .next t ∧ Only [.mp, .bus, .acc] s t ∧
      t.mp.winAddr = at_ n ∧ t.mp.lastOpcode = 0x0B ∧ t.mp.lastWords = BitVec.ofNat 16 (min n 0xFFFF) ∧
      t.mp.wellFormed = (decide (1 ≤ n) && (cycles - 40) % 32 == 0) ∧ t.mp.miso = some ⟨statusByte v, []⟩ ∧
      (t.mp.wellFormed = true → t.mp.denied = (List.range n).any fun k => (checkAccess s .mp true (at_ k)).isSome) ∧
      ((∀ k, k < n → checkAccess s .mp true (at_ k) = none ∧ responds s (at_ k) = true ∧ blockOf (at_ k) ≠ some .bkp) →
        Only [.mp, .bus] s t ∧ t.mp.lastOk = t.mp.wellFormed ∧
        t.bus = { s.bus with nextId := s.bus.nextId + n, inflight := s.bus.inflight ++ (words.zipIdx.map fun w =>
          ⟨s.bus.nextId + w.2, .mp, at_ w.2, w.1, s.bus.epochOrder, s.clock⟩) })) ∧
    (40 ≤ cycles → ∃ t ws, exec (.windowBurstRead addr ecc cycles) s = .next t ∧
      t.mp.lastOpcode = 0x0C ∧ t.mp.lastWords = BitVec.ofNat 16 (min issued 0xFFFF) ∧
      t.mp.wellFormed = (decide (80 ≤ cycles) && (cycles - 48) % 32 == 0) ∧
      t.mp.miso = some ⟨statusByte v, ws⟩ ∧ ws.length = shown ∧
      ((∀ k, k < issued → checkAccess s .mp false (at_ k) ≠ none) →
        Only [.mp, .acc] s t ∧ t.mp.winAddr = at_ n ∧ (∀ w ∈ ws, w = 0) ∧ (t.mp.wellFormed = true → t.mp.denied = true)) ∧
      ((∀ k, k < issued → checkAccess s .mp false (at_ k) = none ∧ responds s (at_ k) = true ∧ PlainRead (at_ k) ∧ Settled s .mp (at_ k)) →
        Only [.mp] s t ∧ t.mp.winAddr = at_ n ∧ t.mp.lastOk = t.mp.wellFormed ∧
        (∀ k, k < shown → ws.getD k 0 = regWord .mp s (at_ k)) ∧
        (48 ≤ cycles → t.mp.winData = regWord .mp s (at_ (captured - 1)))))

/-- R4, R7, R9, R74, R77, R82, R105, R109, R112, R115, R117, R124: a write by a requester is checked first; a refused one is logged and
does nothing else, one that no block answers does nothing, one to the backup domain joins a buffer that is not empty, and the rest act
in their block after the earlier writes of the requester to it; GO marks a group as pending and keeps its copies, but for a group that
would enable a unit in SCRAPPED; the access table with its epoch is applied as a whole. -/
def Obligations.RegisterWritesAndCommits : Prop :=
  ∀ (s : State) (req : Req) (addr data : Word) (ecc : Ecc), Clocked s →
    let a := wordAddr addr
    (∀ why, checkAccess s req true a = some why → exec (.registerWrite req addr data ecc) s = .next { s with acc := { s.acc with
      rlog := upd s.acc.rlog s.acc.rlogNext fun _ =>
        ⟨a, BitVec.ofNat 3 (reqNo req), true, why, true, s.acc.epoch, s.time.setWidth 32⟩
      rlogNext := s.acc.rlogNext + 1, rlogCount := min (s.acc.rlogCount + 1) 16,
      rlogOver := if s.acc.rlogCount < 16 then s.acc.rlogOver else satInc s.acc.rlogOver } }) ∧
    (checkAccess s req true a = none →
      (responds s a = false → exec (.registerWrite req addr data ecc) s = .next s) ∧
      (responds s a = true → blockOf a = some .bkp → s.bus.bkpBuf ≠ [] → ∃ t, exec (.registerWrite req addr data ecc) s = .next t ∧
        Only [.bus] s t ∧ t.bus.bkpBuf = if 8 ≤ s.bus.bkpBuf.length then s.bus.bkpBuf
          else s.bus.bkpBuf ++ [⟨s.bus.nextId, req, a, data, s.bus.epochOrder, s.clock⟩]) ∧
      (responds s a = true → ¬(blockOf a = some .bkp ∧ s.bus.bkpBuf ≠ []) →
        exec (.registerWrite req addr data ecc) s = .next (noteFence s (regWrite req a data ecc (settleBefore req a s))))) ∧
    (∀ g : Group, (scrapped s && commitEnables s g) = true → exec (.commitGo g) s = .next s) ∧
    (∀ g : Group, (scrapped s && commitEnables s g) = false → exec (.commitGo g) s = .next (match g with
      | .acc => { s with acc := { s.acc with group := s.acc.group.request } }
      | .enc n => s.modEnc n fun e => { e with cfg := e.cfg.request }
      | .tsq n => s.modTsq n fun t => { t with group := t.group.request }
      | .cap n => s.modCap n fun c => { c with group := c.group.request }
      | .pw => { s with pw := { s.pw with group := s.pw.group.request } }
      | .ring r => s.modRing r fun q => { q with group := q.group.request }
      | .egr n => s.modEgr n fun p => { p with group := p.group.request }
      | .hl => { s with hl := { s.hl with group := s.hl.group.request } }
      | .ua n => s.modUa n fun u => { u with group := u.group.request }
      | .spc m => s.modSpc m fun u => { u with group := u.group.request }
      | .adc => { s with adc := { s.adc with group := s.adc.group.request } })) ∧
    (s.acc.group.request.pending = true ∧ s.acc.group.request.shadow = s.acc.group.shadow ∧
      s.acc.group.request.active = s.acc.group.active ∧ s.acc.group.request.count = s.acc.group.count) ∧
    (s.acc.group.pending = false → exec .accCommitApply s = .next s) ∧
    (s.acc.group.pending = true → ∃ t, exec .accCommitApply s = .next t ∧ Only [.acc, .bus] s t ∧
      t.acc.group.active = s.acc.group.shadow ∧ t.acc.group.pending = s.acc.group.again ∧
      t.acc.group.count = s.acc.group.count + 1 ∧ t.acc.epoch = s.acc.epoch + 1 ∧
      t.bus = { s.bus with epochOrder := s.bus.epochOrder + 1 })

/-- R76, R94, R268, R276: a write into descriptor memory stores its four bytes, least significant first, and leaves every other byte as
it was; where MP wrote the same word in the same tick, the word of MP remains. -/
def Obligations.DescriptorWindowFrame : Prop :=
  ∀ (s : State) (req : Req) (addr data : Word) (ecc : Ecc), Clocked s → MemInv s →
    let a := wordAddr addr
    let w := if req = .mp then data else (mpWrote s a).getD data
    blockOf a = some .desc → checkAccess s req true a = none → Settled s req a →
    ∃ t, exec (.registerWrite req addr data ecc) s = .next t ∧ Only [.moment, .dm] s t ∧
      SameOutside s.dm t.dm (a.toNat - 0x10_0000) 4 ∧
      (∀ i, i < 4 → memRead t.dm (a.toNat - 0x10_0000 + i) = w.extractLsb' (8 * i) 8) ∧
      t.moment.wrote = ⟨req, a, data⟩ :: s.moment.wrote

/-- R77, R90, R107, R112, R113, R152, R373, R380, R424, R426: a posted write takes effect by its own command, oldest first, and a word of
descriptor memory or a scratch word of the backup domain then holds what was written; FRP and ICP issue nothing while they are not
ready or own eight answers; a write is answered at once when none is owed, a refused read with DENIED and 0 after 120 ns; an answer is
given once it is due and its requester's clock runs. -/
def Obligations.PostedWritesAndAnswers : Prop :=
  ∀ (s : State) (req : Req) (blk : Block) (ecc : Ecc) (addr data : Word), Clocked s → MemInv s →
    let first := s.bus.inflight.find? fun a => a.req == req && blockOf a.addr == some blk
    let w := wordAddr addr
    (blk ≠ .bkp → first = none → exec (.postedWriteApply req blk ecc) s = .next s) ∧
    (∀ a, blk ≠ .bkp → first = some a →
      exec (.postedWriteApply req blk ecc) s = .next (noteFence s (applyPosted ecc a s))) ∧
    (∀ a, blk = .desc → first = some a → (req = .mp ∨ mpWrote s a.addr = none) → ∃ t,
      exec (.postedWriteApply req blk ecc) s = .next t ∧ Only [.moment, .bus, .acc, .dm] s t ∧
      t.bus = { s.bus with inflight := s.bus.inflight.filter fun x => x.id != a.id,
                           bkpBuf := s.bus.bkpBuf.filter fun x => x.id != a.id } ∧
      SameOutside s.dm t.dm (a.addr.toNat - 0x10_0000) 4 ∧
      ∀ i, i < 4 → memRead t.dm (a.addr.toNat - 0x10_0000 + i) = a.data.extractLsb' (8 * i) 8) ∧
    (s.bus.bkpBuf = [] ∨ s.bkp.oscRunning = false ∨ (∃ a rest, s.bus.bkpBuf = a :: rest ∧ a.req ≠ req) →
      exec (.postedWriteApply req .bkp ecc) s = .next s) ∧
    (∀ a rest, s.bus.bkpBuf = a :: rest → a.req = req → s.bkp.oscRunning = true →
      exec (.postedWriteApply req .bkp ecc) s =
        .next (noteFence s ((applyPosted ecc a s).modBus fun b => { b with bkpEdges := 0 })) ∧
      ∀ k : Fin 32, a.addr = BitVec.ofNat 32 (0x28_0100 + 4 * k.val) → (req = .mp ∨ mpWrote s a.addr = none) → ∃ t,
        exec (.postedWriteApply req .bkp ecc) s = .next t ∧ t.bkp.scratch[k.val] = a.data) ∧
    (∀ r, r = .frp ∨ r = .icp →
      let cmd := fun (wr : Bool) => if r = .frp then Instr.frpAccess wr addr data ecc else .icpAccess wr addr data ecc
      let given := fun (t : State) => if r = .frp then t.bus.frpAnswer else t.bus.icpAnswer
      let ready := if r = .frp then frpReady s else icpReady s
      (∀ wr, ready = false ∨ 8 ≤ (owedTo s r).length → exec (cmd wr) s = .next s) ∧
      (ready = true → (owedTo s r).length < 8 →
        (checkAccess s r true w = none → responds s w = true → blockOf w ≠ some .bkp → ∃ t, exec (cmd true) s = .next t ∧
          Only [.bus] s t ∧ t.bus.inflight = s.bus.inflight ++ [⟨s.bus.nextId, r, w, data, s.bus.epochOrder, s.clock⟩] ∧
          (owedTo s r = [] → given t = some (.ok, 0) ∧ t.bus.owed = s.bus.owed) ∧
          (owedTo s r ≠ [] → given t = given s ∧
            t.bus.owed = s.bus.owed ++ [⟨r, true, w, s.clock, s.bus.epochOrder, false, .ok, 0⟩])) ∧
        (∀ why wr, checkAccess s r wr w = some why → ∃ t, exec (cmd wr) s = .next t ∧ Only [.bus, .acc] s t ∧
          t.acc.rlogNext = s.acc.rlogNext + 1 ∧
          (wr = true → owedTo s r = [] → given t = some (.denied, 0)) ∧
          (wr = false → t.bus = { s.bus with owed :=
            s.bus.owed ++ [⟨r, false, w, s.clock + 48, s.bus.epochOrder, true, .denied, 0⟩] })) ∧
        (checkAccess s r false w = none → responds s w = true → PlainRead w → Settled s r w → exec (cmd false) s = .next { s with
          bus := { s.bus with owed := s.bus.owed ++ [owedRead s r w (regWord r s w)] } }))) ∧
    (owedTo s req = [] → exec (.accessAnswer req) s = .next s) ∧
    (∀ o rest, owedTo s req = o :: rest →
      (s.clock < o.due ∨ answerClock s req = false → exec (.accessAnswer req) s = .next s) ∧
      (o.due ≤ s.clock → answerClock s req = true → ∃ t, exec (.accessAnswer req) s = .next t ∧ Only [.bus, .acc, .jtag] s t ∧
        t.bus.owed = s.bus.owed.erase o ∧
        (req = .frp → t.bus.frpAnswer = some (o.code, o.data)) ∧ (req = .icp → t.bus.icpAnswer = some (o.code, o.data)) ∧
        (req = .jtag → (o.write = false → t.jtag.lastData = o.data) ∧ t.jtag.ok = (o.code == .ok) ∧ t.jtag.denied = (o.code == .denied))))

/-- R76, R113, R133, R156, R373, R426, R471, R503: a read of a _LO register latches its _HI for the requester, which reads it once; a read
of UA_RXDATA or SPC_RXDATA takes the oldest entry, and reads 0 with none. Every requester learns the word in its own way. -/
def Obligations.ReadsWithEffects : Prop :=
  ∀ (s : State) (r : Req) (addr : Word) (n : Fin 18) (m : Fin 2), Clocked s → CanRead s r →
    let permitted := fun a => checkAccess s r false a = none ∧ responds s a = true ∧ Settled s r a ∧ wordAddr a = a
    let ua := BitVec.ofNat 32 (0x22_001C + 0x100 * n.val)
    let spc := BitVec.ofNat 32 (0x23_0020 + 0x100 * m.val)
    let frame := [Part.free, .mp, .bus, .acc, .jtag]
    (isPairLo addr = false → exec (.loRead r addr) s = .next s) ∧
    (isPairHi addr = false → exec (.hiRead r addr) s = .next s) ∧
    (isPairLo addr = true → permitted addr → ∃ t, exec (.loRead r addr) s = .next t ∧ Only frame s t ∧
      Learns s t r addr (regWord r s addr) ∧ findLatch t r addr = some (regWord r s (addr + 4))) ∧
    (isPairHi addr = true → isPairLo addr = false → permitted addr →
      (∀ w, findLatch s r (addr - 4) = some w → ∃ t, exec (.hiRead r addr) s = .next t ∧ Only frame s t ∧
        Learns s t r addr w ∧ findLatch t r (addr - 4) = none) ∧
      (findLatch s r (addr - 4) = none → ∃ t, exec (.hiRead r addr) s = .next t ∧ Only frame s t ∧
        Learns s t r addr (regWord r s addr))) ∧
    (permitted ua →
      ((getUa s n).rx = [] → ∃ t, exec (.uaRxdataRead n r) s = .next t ∧ Only frame s t ∧ Learns s t r ua 0) ∧
      (∀ c rest, (getUa s n).rx = c :: rest → ∃ t, exec (.uaRxdataRead n r) s = .next t ∧ Only (.ua :: frame) s t ∧
        Others n s.ua t.ua ∧ getUa t n = uaSettle { getUa s n with rx := rest } ∧
        Learns s t r ua
          (c.data.setWidth 32 ||| putB 12 c.fe ||| putB 13 c.pe ||| putB 14 c.brk ||| putB 15 c.ovr ||| putB 31 true))) ∧
    (permitted spc →
      ((∀ c rest, (getSpc s m).rx = c :: rest → c.committed = false) → ∃ t, exec (.spcRxdataRead m r) s = .next t ∧
        Only frame s t ∧ Learns s t r spc 0) ∧
      (∀ c rest, (getSpc s m).rx = c :: rest → c.committed = true → ∃ t, exec (.spcRxdataRead m r) s = .next t ∧
        Only (.spc :: frame) s t ∧ Others m s.spc t.spc ∧ getSpc t m = spcSettle { getSpc s m with rx := rest } ∧
        Learns s t r spc (c.data.setWidth 32 ||| putB 8 c.frameEnd ||| putB 31 true)))

/-- R85, R86, R88, R393, R394, R396, R404, R420: the bytes of a stream transaction, what of them the buffer has no room for, a partial
byte, the byte of PC_STB, a change of PCP_EN and the sync word. A discarded byte is kept as its place in the buffer (the model's form,
log entry 103). -/
def Obligations.StreamSources : Prop :=
  ∀ (s : State) (bytes : List Byte) (b : Byte) (v : Bool), s.undef = none → held s = false → bytes ≠ [] →
    let cycles := 8 + 8 * bytes.length
    let c := s.cfg
    let free := streamFree s
    -- the controller takes nothing of the buffer by itself
    let still := cfgRuns s = false ∨ (streamOpen s = true ∧ s.mp.losses = [])
    (∀ why, checkAccess s .mp true 0x0026_0000 = some why → ∃ t, exec (.stream bytes cycles) s = .next t ∧ Only [.mp, .acc] s t ∧
      t.mp.buffer = s.mp.buffer ∧ t.mp.denied = true ∧ t.mp.lastOk = false ∧ t.acc.rlogNext = s.acc.rlogNext + 1) ∧
    (checkAccess s .mp true 0x0026_0000 = none →
      (c.pcpEn = true → ∃ t, exec (.stream bytes cycles) s = .next t ∧ Only [.mp, .cfg] s t ∧ t.mp.buffer = s.mp.buffer ∧
        t.cfg = { c with cntDisc := c.cntDisc + BitVec.ofNat 32 bytes.length }) ∧
      (c.pcpEn = false → still → bytes.length ≤ free → ∃ t, exec (.stream bytes cycles) s = .next t ∧
        Only [.mp] s t ∧ t.mp.buffer = s.mp.buffer ++ bytes ∧ t.mp.lastOk = true ∧ t.mp.lastOpcode = 0x0A ∧
        t.mp.lastWords = BitVec.ofNat 16 (min bytes.length 0xFFFF)) ∧
      (c.pcpEn = false → free < bytes.length →
        (∃ t, exec (.stream bytes cycles) s = .next t ∧ t.mp.overflow = true ∧ (cfgRuns s = true → c.phase = .erasing →
          t.cfg.parse.aborting = true)) ∧
        (cfgRuns s = false → ∃ t, exec (.stream bytes cycles) s = .next t ∧ Only [.mp] s t ∧ t.mp.overflow = true ∧
          t.mp.buffer = s.mp.buffer ++ bytes.take free ∧ t.mp.losses = s.mp.losses ++ [s.mp.buffer.length + free])) ∧
      (∀ k, 0 < k → k < 8 → c.pcpEn = false → cfgRuns s = false → bytes.length ≤ free → ∃ t,
        exec (.stream bytes (cycles + k)) s = .next t ∧ Only [.mp] s t ∧ t.mp.cut = true ∧ t.mp.voidSeen = true ∧
          t.mp.lastOk = false ∧ t.mp.buffer = s.mp.buffer ++ bytes ∧
          t.mp.losses = s.mp.losses ++ [s.mp.buffer.length + bytes.length])) ∧
    (c.pcpEn = false → exec (.pcStbByte b) s = .next s) ∧
    (c.pcpEn = true → 0 < free →
      (still → exec (.pcStbByte b) s = .next (s.modMp fun m => { m with buffer := m.buffer ++ [b] })) ∧
      (cfgRuns s = true → cfgHalted s = true → ∃ t, exec (.pcStbByte b) s = .next t ∧ Only [.mp, .cfg] s t ∧ t.mp.buffer = [] ∧
        t.cfg = { c with cntDisc := c.cntDisc + BitVec.ofNat 32 (s.mp.buffer.length + 1) }) ∧
      (cfgRuns s = true → searching s = true → ∃ t, exec (.pcStbByte b) s = .next t ∧ Only [.mp] s t ∧
        t.mp.buffer = trimSearch (s.mp.buffer ++ [b]))) ∧
    (c.pcpEn = true → free = 0 → cfgRuns s = false → exec (.pcStbByte b) s = .next (s.modMp fun m =>
      { m with overflow := true, losses := m.losses ++ [m.buffer.length] })) ∧
    (Clocked s →
      (c.pcpEn = v → exec (.pcpEnWrite v) s = .next s) ∧
      (c.pcpEn ≠ v → streamOpen s = false → exec (.pcpEnWrite v) s = .next (s.modCfg fun c => { c with pcpEn := v })) ∧
      (c.pcpEn ≠ v → streamOpen s = true → ∃ t, exec (.pcpEnWrite v) s = .next t ∧ Only [.mp, .cfg] s t ∧ t.cfg.pcpEn = v ∧
        (c.phase = .erasing → t.cfg.phase = .erasing ∧ t.cfg.parse.aborting = true) ∧
        (c.phase ≠ .erasing → t.cfg.phase = .failed ∧ t.cfg.reason = .aborted)) ∧
      (cfgRuns s = true → searching s = true → s.mp.buffer.take 4 = syncBytes → s.mp.losses = [] → exec .syncWord s =
        .next ((s.modMp fun m => { m with buffer := m.buffer.drop 4 }).modCfg fun c =>
          { c with phase := .header, reason := .none, parse := { Parse.init with stage := 1, crcBytes := syncBytes } })) ∧
      (¬(cfgRuns s = true ∧ searching s = true ∧ (trimSearch s.mp.buffer).take 4 = syncBytes) →
        exec .syncWord s = .next (settle s)))

/-- R396, R397, R399, R400: the header packets in the order of the grammar, what each leaves in the controller, the commands of
CTL, and the packets that the grammar does not allow there; no byte of the buffer's stream was discarded. -/
def Obligations.HeaderPackets : Prop :=
  ∀ (s : State) (rest : List Byte) (a b : Word) (v : Vector Word 8) (c : Instr), Clocked s → cfgRuns s = true →
    s.cfg.phase = .header → s.cfg.parse.framesLeft = 0 → s.mp.losses = [] →
    let bytes := fun ws : List Word => ws.flatMap fun w => beBytes 4 w.toNat
    let stage := s.cfg.parse.stage
    -- the words ws lie at the front of the buffer
    let front := fun ws => s.mp.buffer = bytes ws ++ rest
    -- they are taken into the running check, and the header of the stream becomes f of it
    let taken := fun (ws : List Word) (f : Parse → Parse) => (s.modMp fun m => { m with buffer := rest }).modCfg fun g =>
      { g with parse := f { g.parse with crcBytes := g.parse.crcBytes ++ bytes ws } }
    let format := ∃ t, exec c s = .next t ∧ Only [.mp, .cfg] s t ∧ t.cfg.phase = .failed ∧ t.cfg.reason = .format ∧
      t.cfg.slots = s.cfg.slots
    (c ∈ [.nop, .idc, .seq, .len, .ztab, .sig, .begin_, .ctlAbort, .ctlNop] →
      (s.mp.buffer.length < 4 → exec c s = .next s) ∧ (front [a] → pktOf a = none → format)) ∧
    (front [0] → exec .nop s = .next (taken [0] id)) ∧
    (front [0x2400_0002, a, b] → stage = 1 →
      exec .idc s = .next (taken [0x2400_0002, a, b] fun p => { p with idcode := a, verWord := b, stage := 2 })) ∧
    (front [0x2500_0002, a, b] → stage = 2 → exec .seq s = .next
      ((taken [0x2500_0002, a, b] fun p => { p with seq := a, target := b, stage := 3 }).modCfg fun g =>
        { g with target := BitVec.ofNat 3 (b.toNat % 4) })) ∧
    (front [0x2800_0001, a] → stage = 3 → exec .len s = .next (taken [0x2800_0001, a] fun p => { p with len := a, stage := 4 })) ∧
    (front (0x2700_0008 :: v.toList) → stage = 4 →
      exec .ztab s = .next (taken (0x2700_0008 :: v.toList) fun p => { p with ztab := v, stage := 5 })) ∧
    (front (0x2600_0008 :: v.toList) → stage = 5 →
      exec .sig s = .next (taken (0x2600_0008 :: v.toList) fun p => { p with sig := v, stage := 6 })) ∧
    (front [0x2300_0001, 0] → exec .ctlNop s = .next (taken [0x2300_0001, 0] id)) ∧
    (front [0x2300_0001, 2] → ∃ t, exec .ctlAbort s = .next t ∧ Only [.mp, .cfg] s t ∧ t.cfg.phase = .failed ∧
      t.cfg.reason = .aborted ∧ t.cfg.slots = s.cfg.slots) ∧
    (front [0x2300_0001, a] → 2 < a.toNat → c ∈ [.begin_, .ctlAbort, .ctlNop] → format) ∧
    (front [0x2300_0001, 1] → stage = 6 →
      (∀ r, beginFails s = some r → ∃ t, exec .begin_ s = .next t ∧ Only [.mp, .cfg] s t ∧ t.cfg.phase = .failed ∧
        t.cfg.reason = r ∧ t.cfg.slots = s.cfg.slots) ∧
      (beginFails s = none → ∃ d : Fin 3, s.cfg.target.toNat = d.val ∧ exec .begin_ s = .next
        ((taken [0x2300_0001, 1] fun p => { p with expected := some 0 }).modCfg fun g =>
          { g with phase := .erasing, frames := 0, slots := upd g.slots d fun n => { n with st := .incomplete } }))) ∧
    (front [0x2400_0002, a, b] → stage ≠ 1 → c = .idc → format) ∧
    (front [0x2500_0002, a, b] → stage ≠ 2 → c = .seq → format) ∧
    (front [0x2800_0001, a] → stage ≠ 3 → c = .len → format) ∧
    (front (0x2700_0008 :: v.toList) → stage ≠ 4 → c = .ztab → format) ∧
    (front (0x2600_0008 :: v.toList) → stage ≠ 5 → c = .sig → format) ∧
    (front [0x2300_0001, 1] → stage ≠ 6 → c = .begin_ → format)

/-- R397, R398, R401 to R403, R411: the erase of the target slot, the address and data packets of frames, a frame register
filled, a frame programmed with its attempts, END, and the checks that make the slot VALID; no byte of the buffer's stream was
discarded. -/
def Obligations.ImageWrite : Prop :=
  ∀ (s : State) (rest : List Byte) (a : Word) (b : Fin 3) (ok : Bool), Clocked s → targetSlot s = some b → s.mp.losses = [] →
    let bytes := fun ws : List Word => ws.flatMap fun w => beBytes 4 w.toNat
    let p := s.cfg.parse
    let front := fun ws => s.mp.buffer = bytes ws ++ rest
    let rested := s.modMp fun m => { m with buffer := rest }
    let failed := fun (c : Instr) (why : WReason) (ps : List Part) =>
      ∃ t, exec c s = .next t ∧ Only ps s t ∧ t.cfg.phase = .failed ∧ t.cfg.reason = why
    let slot := s.cfg.slots[b.val]
    (s.cfg.phase ≠ .erasing → exec (.erasingDone ok) s = .next s) ∧
    (s.cfg.phase = .erasing → p.aborting = false → exec (.erasingDone true) s = .next (s.modCfg fun g => { g with
      phase := .frames, parse := { p with stage := 6 }, slots := upd g.slots b fun n =>
        { n with writes := satInc n.writes, frames := [], hdr := parsedHeader p, hdrCrcOk := true } })) ∧
    (s.cfg.phase = .erasing → p.aborting = true → failed (.erasingDone true) .aborted [.mp, .cfg, .free]) ∧
    (s.cfg.phase = .erasing → failed (.erasingDone false) (if p.aborting then .aborted else .program) [.mp, .cfg, .qe, .dm]) ∧
    (cfgRuns s = true → s.cfg.phase = .frames → p.framesLeft = 0 →
      (front [0x2100_0001, a] → p.stage = 6 → p.expected = some a → exec .faddr s = .next (rested.modCfg fun g =>
        { g with parse := { p with stage := 7, crcBytes := p.crcBytes ++ bytes [0x2100_0001, a] } })) ∧
      (front [0x2100_0001, a] → p.stage = 6 → p.expected ≠ some a → failed .faddr .order [.mp, .cfg]) ∧
      (front [0x2100_0001, a] → p.stage ≠ 6 → failed .faddr .format [.mp, .cfg]) ∧
      (∀ n : Nat, 0 < n → 97 * n < 2 ^ 24 → a = 0x2200_0000 + BitVec.ofNat 32 (97 * n) → front [a] →
        exec .fdata s = .next (rested.modCfg fun g => { g with
          parse := { p with stage := 6, framesLeft := n, fdataSeen := true, crcBytes := p.crcBytes ++ bytes [a] } })) ∧
      (front [0x2900_0001, a] → p.stage = 6 → p.fdataSeen = true → exec .end_ s = .next (rested.modCfg fun g =>
        { g with phase := .finishing, parse := { p with endCrc := some a, endCrcWant := crc32c p.crcBytes } })) ∧
      (front [0x2900_0001, a] → (p.stage ≠ 6 ∨ p.fdataSeen = false) → failed .end_ .format [.mp, .cfg])) ∧
    (s.mp.buffer.length < 388 ∨ p.framesLeft = 0 ∨ p.queued ≠ [] ∨ s.cfg.phase ≠ .frames → exec .frameArrival s = .next s) ∧
    (s.cfg.phase = .frames → p.framesLeft ≠ 0 → 388 ≤ s.mp.buffer.length → p.queued = [] →
      let frame := s.mp.buffer.take 388
      let check := (beWords frame).getD 96 0
      (p.expected = none → failed .frameArrival .count [.mp, .cfg]) ∧
      (∀ e, p.expected = some e → crc32c (frame.take 384) ≠ check → failed .frameArrival .frameCrc [.mp, .cfg]) ∧
      (∀ e, p.expected = some e → crc32c (frame.take 384) = check → ∃ t, exec .frameArrival s = .next t ∧ Only [.mp, .cfg] s t ∧
        t.mp = { s.mp with buffer := s.mp.buffer.drop 388 } ∧ t.cfg.phase = .frames ∧ t.cfg.parse.expected = nextFrame e ∧
        t.cfg.parse.framesLeft = p.framesLeft - 1 ∧ t.cfg.parse.framesTaken = p.framesTaken + 1 ∧
        t.cfg.parse.crcBytes = p.crcBytes ++ frame ∧
        (p.current = none → t.cfg.parse.current = some ⟨e, beWords frame⟩ ∧ t.cfg.parse.attempt = 0 ∧ t.cfg.parse.queued = []) ∧
        (p.current ≠ none → t.cfg.parse.current = p.current ∧ t.cfg.parse.queued = [⟨e, beWords frame⟩]))) ∧
    (p.current = none ∨ writeRuns s = false → exec (.frameProgramDone ok) s = .next s) ∧
    (∀ f, p.current = some f → writeRuns s = true →
      (p.attempt = 0 → exec (.frameProgramDone true) s = .next (s.modCfg fun g => { g with
        frames := g.frames + 1, parse := nextRegister p, slots := upd g.slots b fun n => { n with frames := n.frames ++ [f] } })) ∧
      (p.attempt < 2 → exec (.frameProgramDone false) s = .next (s.modCfg fun g => { g with
        parse := { p with attempt := p.attempt + 1 } })) ∧
      (p.attempt ≠ 0 → ∃ t, exec (.frameProgramDone true) s = .next t ∧ Only [.cfg, .qe, .dm] s t ∧ t.cfg.flags.on 4 = true ∧
        t.cfg.slots[b.val] = { slot with frames := slot.frames ++ [f] } ∧ t.cfg.parse = nextRegister p ∧
        t.dm = (recordFault s { perm := false, blk := blkCfg, kind := 1, inst := b.val, retries := p.attempt, d0 := f.addr }).dm) ∧
      (2 ≤ p.attempt → failed (.frameProgramDone false) .program [.mp, .cfg, .qe, .dm])) ∧
    (s.cfg.phase ≠ .finishing ∨ p.current ≠ none → exec .finishingDone s = .next s) ∧
    (s.cfg.phase = .finishing → p.current = none →
      (p.framesTaken ≠ imageFrames → failed .finishingDone .count [.mp, .cfg]) ∧
      (p.framesTaken = imageFrames → p.endCrc ≠ some p.endCrcWant → failed .finishingDone .streamCrc [.mp, .cfg]) ∧
      (p.framesTaken = imageFrames → p.endCrc = some p.endCrcWant →
        (imageSignature slot ≠ p.sig.toList → failed .finishingDone .signature [.mp, .cfg]) ∧
        (imageSignature slot = p.sig.toList → ∃ t, exec .finishingDone s = .next t ∧ Only [.mp, .cfg] s t ∧
          t.cfg.phase = .done ∧ t.cfg.flags.on 0 = true ∧ t.cfg.slots[b.val] = { slot with st := .valid })))

/-- R9, R392, R404, R406, R407: the commands of CFG_CMD, when each is refused, and what the end of each does. One that meets a
command still running waits for the end of its tick, and follows a command that ends in it. SLOT 3 names no slot and is refused (the
model's choice, log entry 44). -/
def Obligations.SlotCommands : Prop :=
  ∀ (s : State) (n : BitVec 2) (ok : Bool), Clocked s →
    let g := s.cfg
    let refused := Host.Outcome.next (s.modCfg fun g => { g with cmdResult := 2, flags := g.flags.set 2 })
    let golden := n = 0 ∧ g.goldenWe = false
    let started := fun (op : CfgOp) (n : BitVec 2) (b : Option (Fin 3)) => Host.Outcome.next (s.modCfg fun g => { g with
      cmd := some (op, n), cmdResult := 0,
      slots := match b with | some b => upd g.slots b fun x => { x with st := .incomplete } | none => g.slots })
    let ended := s.modCfg fun g => { g with cmd := none, cmdResult := 1, flags := g.flags.set 2 }
    let waits := fun (op : CfgOp) (n : BitVec 2) => Host.Outcome.next { s with moment := { s.moment with
      retry := s.moment.retry ++ [.slotCommand op n] } }
    (g.cmd ≠ none → exec (.invalidate n) s = waits .invalidate n ∧ exec (.erase n) s = waits .erase n ∧
      exec .saveBoot s = waits .saveBoot 0 ∧ exec .clear s = waits .clear 0) ∧
    (g.cmd = none → writeRuns s = true → exec (.invalidate n) s = .next s ∧ exec (.erase n) s = .next s ∧
      exec .saveBoot s = .next s ∧ exec .clear s = .next s) ∧
    (g.cmd = none → writeRuns s = false →
      (scrapped s = true ∨ golden ∨ n = 3 → exec (.invalidate n) s = refused) ∧
      (scrapped s = true ∨ golden ∨ n = 3 ∨ (∃ b, bootedSlot s = some b ∧ b.val = n.toNat) → exec (.erase n) s = refused) ∧
      (scrapped s = true → exec .saveBoot s = refused) ∧
      (scrapped s = false → exec .saveBoot s = started .saveBoot 0 none) ∧
      exec .clear s = started .clear 0 none ∧
      (∀ b : Fin 3, n.toNat = b.val → scrapped s = false → ¬golden → exec (.invalidate n) s = started .invalidate n (some b) ∧
        (bootedSlot s ≠ some b → exec (.erase n) s = started .erase n (some b)))) ∧
    (g.cmd = none → exec (.cfgCmdDone ok) s = .next s) ∧
    (∀ op k n' c, g.cmd = some (op, n) → s.moment.retry = [.slotCommand k n'] →
      (k = .invalidate ∧ c = .invalidate n') ∨ (k = .erase ∧ c = .erase n') ∨ (k = .saveBoot ∧ n' = 0 ∧ c = .saveBoot) ∨
        (k = .clear ∧ n' = 0 ∧ c = .clear) →
      exec (.cfgCmdDone ok) s = exec c (cmdEnd op n ok s)) ∧
    (s.moment.retry = [] →
      (∀ b : Fin 3, n.toNat = b.val →
        (g.cmd = some (.invalidate, n) → exec (.cfgCmdDone ok) s = .next (refreshView ended b)) ∧
        (g.cmd = some (.erase, n) → ∃ t, exec (.cfgCmdDone ok) s = .next t ∧ Only [.cfg, .qe, .dm] s t ∧ t.cfg.cmd = none ∧
          t.cfg.slots[b.val] = { st := if ok then .empty else .incomplete, hdr := Header.init, hdrCrcOk := false, frames := [],
                                 writes := satInc g.slots[b.val].writes } ∧ Others b g.slots t.cfg.slots ∧
          t.cfg.cmdResult = (if ok then 1 else 3) ∧ t.cfg.flags.on 2 = true ∧ (ok = false → t.cfg.flags.on 4 = true) ∧
          (ok = true → t.dm = s.dm))) ∧
      (g.cmd = some (.saveBoot, n) → exec (.cfgCmdDone ok) s = .next (ended.modCfg fun g => { g with
        bootCopyA := some (g.mode, g.prefer), bootCopyB := some (g.mode, g.prefer) })) ∧
      (g.cmd = some (.clear, n) →
        (g.phase = .failed → exec (.cfgCmdDone ok) s = .next (ended.modCfg fun g => { g with phase := .search })) ∧
        (g.phase ≠ .failed → exec (.cfgCmdDone ok) s = .next ended)))

/-- R9, R123, R126 to R130: a fuse operation is started by MP or JTAG while none runs, or none that is not over, and judged against the
fuses of that moment; 10 ms later it reports its result, and it programs nothing when it was rejected. That every bit of an
uninterrupted operation is blown, that LCS_KEY_STAGE is copied at the start and that RESULT and WHY read 0 meanwhile are the model's
choices (log entry 94). -/
def Obligations.FuseOperations : Prop :=
  ∀ (s : State) (req : Req) (target : BitVec 3), Clocked s →
    let l := s.lcs
    let fused := fusedState l.lcw
    let started := fun (op : LcsOp) (why : BitVec 4) => Host.Outcome.next (s.modLcs fun l =>
      { l with running := some (op, s.clock), opWhy := why, opHash := l.stage, result := 0, why := 0 })
    let ended := fun (why : BitVec 4) (l : Lcs) => Host.Outcome.next { s with lcs := { l with
      running := none, result := if why = 0 then 1 else 2, why := why, flags := l.flags.set 1 } }
    let starts := fun (c : Instr) => c ∈ [.lcsTransition req target, .programKeyHash req, .programNoFieldDebug req, .lcsNoOperation req]
    (req ≠ .mp → req ≠ .jtag → ∀ c, starts c → exec c s = .next s) ∧
    (req = .mp ∨ req = .jtag → ∀ op at_, l.running = some (op, at_) → ∀ c, starts c →
      (s.clock < at_ + 4_000_000 → exec c s = .next s) ∧
      (at_ + 4_000_000 ≤ s.clock → ∃ t, exec .lcsOperationDone s = .next t ∧ exec c s = exec c t)) ∧
    (req = .mp ∨ req = .jtag → l.running = none →
      (¬((target = 5 ∧ fused ≠ 5) ∨ (fused.toNat < 4 ∧ target = fused + 1)) →
        exec (.lcsTransition req target) s = started (.transition target) 1) ∧
      ((target = 5 ∧ fused ≠ 5) ∨ (fused.toNat < 4 ∧ target = fused + 1) → exec (.lcsTransition req target) s =
        started (.transition target) (if (target = 2 ∧ keyHashZero l = true) ∨ (target = 4 ∧ majority l.nfd = true) then 2
          else if target = 4 ∧ scopeHas s 4 = false then 3 else 0)) ∧
      ((fused ≠ 0 ∧ fused ≠ 1) ∨ majority l.keyLock = true → exec (.programKeyHash req) s = started .keyHash 2) ∧
      ((fused = 0 ∨ fused = 1) → majority l.keyLock = false →
        ((∃ i : Fin 8, l.keyHash[i.val] &&& ~~~l.stage[i.val] ≠ 0) → exec (.programKeyHash req) s = started .keyHash 4) ∧
        ((∀ i : Fin 8, l.keyHash[i.val] &&& ~~~l.stage[i.val] = 0) → exec (.programKeyHash req) s = started .keyHash 0)) ∧
      exec (.programNoFieldDebug req) s = started .noFieldDebug (if fused = 5 then 2 else if majority l.nfd then 4 else 0) ∧
      exec (.lcsNoOperation req) s = started .nothing 0) ∧
    (l.running = none → exec .lcsOperationDone s = .next s) ∧
    (∀ op at_, l.running = some (op, at_) →
      (s.clock < at_ + 4_000_000 → exec .lcsOperationDone s = .next s) ∧
      (at_ + 4_000_000 ≤ s.clock →
        (l.opWhy ≠ 0 → exec .lcsOperationDone s = ended l.opWhy l) ∧
        (l.opWhy = 0 →
          (op = .nothing → exec .lcsOperationDone s = ended 0 l) ∧
          (op = .keyHash → exec .lcsOperationDone s = ended 0 { l with keyHash := Vector.ofFn fun i => l.keyHash[i.val] ||| l.opHash[i.val] }) ∧
          (op = .noFieldDebug → exec .lcsOperationDone s = ended 0 { l with nfd := 0x1F }) ∧
          (op = .transition target → target ≠ 5 → ∀ g, nextGroup l.lcw = some g → exec .lcsOperationDone s = ended 0 { l with
            lcw := l.lcw ||| groupBits g, keyLock := if target = 2 then 0x1F else l.keyLock }) ∧
          (op = .transition 5 → exec .lcsOperationDone s = ended 0 { l with
            lcw := (unsetGroups l.lcw).foldl (fun w g => w ||| groupBits g) l.lcw }))))

/-- R134, R135, R139 to R141, R146, R147: a challenge asked for and made 200 µs later, the verification of a ticket, also of the challenge
that a NEW_CHALLENGE of the same tick replaced, and its verdict 4,800,000 ticks later, and the end of a lockout. The nonce is a free
value. -/
def Obligations.DebugTickets : Prop :=
  ∀ (s : State) (req : Req) (healthy : Bool), Clocked s →
    let l := s.lcs
    let sent := req = .mp ∨ req = .jtag
    let consumes := fun nonce : List Byte => Host.Outcome.next { s with lcs := { l with
      dbg := .verifying, nonce := []
      verifying := some ⟨s.clock, nonce ++ uidBytes, l.pubkey.toList.flatMap fun w => leBytes 4 w.toNat,
        l.ticket.toList.flatMap fun w => leBytes 4 w.toNat⟩ } }
    (sent → l.dbg = .idle ∨ l.dbg = .challengeReady ∨ l.dbg = .session → exec (.newChallenge req) s =
      .next { s with lcs := { l with
        dbg := .generating, nonce := [], replaced := if l.dbg = .challengeReady then l.nonce else [], genAt := s.clock } }) ∧
    (¬sent ∨ l.dbg = .generating ∨ l.dbg = .verifying ∨ l.dbg = .lockout ∨ l.dbg = .trngFault → exec (.newChallenge req) s = .next s) ∧
    (l.dbg ≠ .generating ∨ s.clock < l.genAt + 80_000 → exec (.challengeReady healthy) s = .next s) ∧
    (l.dbg = .generating → l.genAt + 80_000 ≤ s.clock →
      (∃ nonce : List Byte, nonce.length = 32 ∧ exec (.challengeReady true) s =
        .next { s with freeCtr := s.freeCtr + 32, lcs := { l with dbg := .challengeReady, nonce := nonce } }) ∧
      (∃ t, exec (.challengeReady false) s = .next t ∧ Only [.lcs, .qe, .dm] s t ∧ t.lcs = { l with dbg := .trngFault } ∧
        t.dm = (recordFault s { perm := true, blk := blkLcs, kind := 1, inst := 0 }).dm)) ∧
    (sent → l.dbg = .challengeReady → exec (.verify req) s = consumes l.nonce) ∧
    (sent → l.dbg = .generating → l.genAt = s.clock → l.replaced ≠ [] → exec (.verify req) s = consumes l.replaced) ∧
    (¬sent ∨ (l.dbg ≠ .challengeReady ∧ (l.dbg ≠ .generating ∨ l.genAt ≠ s.clock ∨ l.replaced = [])) →
      exec (.verify req) s = .next s) ∧
    (l.verifying = none → exec .verdict s = .next s) ∧
    (∀ v, l.verifying = some v →
      (s.clock < v.at_ + 4_800_000 → exec .verdict s = .next s) ∧
      (v.at_ + 4_800_000 ≤ s.clock →
        (ticketPasses l v = true → exec .verdict s = .next { s with lcs := { l with
          verifying := none, flags := l.flags.set 0, lastVerdict := true, dbg := .session
          scope := some (BitVec.ofNat 32 (ofBe ((v.ticket.drop 64).take 4))) } }) ∧
        (ticketPasses l v = false → exec .verdict s = .next { s with lcs := { l with
          verifying := none, flags := l.flags.set 0, lastVerdict := false, dbg := .lockout, lockoutEnd := s.clock + 400_000_000 } })) ∧
      (majority l.nfd = true → ticketPasses l v = false) ∧
      ((∀ i : Fin 8, l.keyHash[i.val] = 0) → ticketPasses l v = false)) ∧
    (l.dbg ≠ .lockout ∨ s.clock < l.lockoutEnd → exec .lockoutEnd s = .next s) ∧
    (l.dbg = .lockout → l.lockoutEnd ≤ s.clock →
      (l.scope = none → exec .lockoutEnd s = .next { s with lcs := { l with dbg := .idle } }) ∧
      (∀ x, l.scope = some x → exec .lockoutEnd s = .next { s with lcs := { l with dbg := .session } }))

/-- R132, R133, R447, R456: what a scan of each JTAG instruction captures and leaves, the bypass register of a closed or unlisted one,
the accesses of AUTH, DEBUG_BUS and RLOG with their limits, and a readback. What the boundary-scan register captures, and the frame data
of an address that names no frame, are free values. -/
def Obligations.JtagInstructions : Prop :=
  ∀ (s : State) (chain : List Bool) (op : Byte) (frame addr data : Word) (write : Bool) (ecc : Ecc), Powered s →
    let j := s.jtag
    let opens := fun n : Nat => s.lcs.latched ≠ 5 ∧ (s.lcs.latched = 0 ∨ s.lcs.latched = 1 ∨ s.lcs.latched = 4 ∨ scopeHas s n = true)
    let bypassed := fun op : Byte => Host.Outcome.next { s with jtag := { j with ir := op, bypassReg := false, dr := [0] } }
    let scanned := fun (c : Instr) (op : Byte) => ∃ ws : List Word, ws.length = (chain.length + 31) / 32 ∧
      exec c s = .next { s with freeCtr := s.freeCtr + (chain.length + 31) / 32, jtag := { j with ir := op, bscan := chain, dr := ws } }
    -- Capture-DR, after an answer that is due
    let captured := fun op : Byte =>
      let u := accessAnswerEffect .jtag s
      { u with jtag := { u.jtag with ir := op
                                     dr := [u.jtag.lastData, u.jtag.lastAddr, putB 0 u.jtag.lastWrite ||| putB 2 u.jtag.ok |||
                                       putB 3 u.jtag.denied ||| putB 4 u.jtag.pendingAnswer] } }
    let a := wordAddr addr
    let register := fun (c : Bool → Instr) (op : Byte) (lo hi : Nat) =>
      exec (c false) s = .next (captured op) ∧
      (Clocked s → held s = true → exec (c true) s = .next (captured op)) ∧
      (Clocked s → held s = false → owedTo s .jtag = [] →
        (addr.toNat < lo ∨ hi < addr.toNat ∨ checkAccess s .jtag write a ≠ none → ∃ t, exec (c true) s = .next t ∧
          Only [.jtag, .bus, .acc, .free] s t ∧ t.jtag.dr = (captured op).jtag.dr ∧ t.jtag.lastAddr = a ∧ t.jtag.lastWrite = write ∧
          t.acc.rlogNext = s.acc.rlogNext + 1 ∧
          (write = true → t.jtag.denied = true ∧ t.jtag.ok = false ∧ t.bus.owed = s.bus.owed) ∧
          (write = false → t.jtag.pendingAnswer = true ∧
            t.bus.owed = s.bus.owed ++ [⟨.jtag, false, a, s.clock + 48, s.bus.epochOrder, true, .denied, 0⟩])) ∧
        (lo ≤ addr.toNat → addr.toNat ≤ hi → checkAccess s .jtag write a = none → responds s a = true →
          (write = true → blockOf a ≠ some .bkp → ∃ t, exec (c true) s = .next t ∧ Only [.jtag, .bus, .acc, .free] s t ∧
            t.acc.rlogNext = s.acc.rlogNext ∧ t.jtag.ok = true ∧ t.jtag.denied = false ∧ t.bus.inflight = s.bus.inflight ++
              [⟨s.bus.nextId, .jtag, a, data, s.bus.epochOrder, s.clock⟩]) ∧
          (write = false → PlainRead a → Settled s .jtag a → ∃ t, exec (c true) s = .next t ∧
            Only [.jtag, .bus, .acc, .free] s t ∧ t.jtag.lastAddr = a ∧ Learns s t .jtag a (regWord .jtag s a))))
    scanned (.extest chain) 0x00 ∧ scanned (.samplePreload chain) 0x01 ∧
    exec .idcode s = .next { s with jtag := { j with ir := 0x02, dr := [0x0161_0B47] } } ∧
    (op ∉ [0x00, 0x01, 0x02, 0x10, 0x20, 0x21, 0x22] → exec (.bypass op) s = bypassed op) ∧
    (¬opens 0 → exec (.bypass 0x20) s = bypassed 0x20 ∧ exec (.debugBus false write addr data ecc) s = bypassed 0x20) ∧
    (¬opens 1 → exec (.bypass 0x21) s = bypassed 0x21 ∧ exec (.readback frame) s = bypassed 0x21) ∧
    (¬opens 2 → exec (.bypass 0x22) s = bypassed 0x22 ∧ exec (.rlog false write addr data) s = bypassed 0x22) ∧
    (Clocked s → (¬opens 0 → exec (.debugBus true write addr data ecc) s = bypassed 0x20) ∧
      (¬opens 2 → exec (.rlog true write addr data) s = bypassed 0x22)) ∧
    register (.auth · write addr data) 0x10 0x3_0000 0x3_FFFF ∧
    (opens 0 → register (.debugBus · write addr data ecc) 0x20 0 0xFFFF_FFFF) ∧
    (opens 2 → register (.rlog · write addr data) 0x22 0x2_0800 0x2_0BFF) ∧
    (opens 1 → exec (.readback frame) s = .next { s with jtag := { j with
      ir := 0x21
      dr := j.rbFrame :: (putB 0 j.rbReady ||| putB 1 (j.rbReady && j.rbInvalid)) :: (if j.rbReady then j.rbWords else List.replicate 97 0)
      rbFrame := frame, rbRequested := true, rbReady := false, rbInvalid := false, rbWords := [] } }) ∧
    (Clocked s →
      let repairs := (∃ r, s.scb.reload = some r ∧ r.frame = j.rbFrame) ∨ ∃ z : Fin 8, s.scb.zones[z.val].restoreFrom = some j.rbFrame
      (j.rbRequested = false ∨ repairs → exec .readbackFrameRead s = .next s) ∧
      (j.rbRequested = true → ¬repairs → isConfigFrame j.rbFrame = true → exec .readbackFrameRead s = .next { s with jtag :=
        { j with rbRequested := false, rbReady := true, rbInvalid := false, rbWords := (latchFrame s j.rbFrame).words } }) ∧
      (j.rbRequested = true → ¬repairs → isConfigFrame j.rbFrame = false → ∃ ws : List Word, ws.length = 97 ∧
        exec .readbackFrameRead s = .next { s with freeCtr := s.freeCtr + 97, jtag :=
          { j with rbRequested := false, rbReady := true, rbInvalid := true, rbWords := ws } }))

/-- R157, R160, R162 to R167, R170, R174, R175, R178: the samples of A, B and Z and the level that FILTER + 1 of them agree on, what an
accepted change does to position, extension and direction, the index, LOAD, ZARM, the cleared counters and the snapshot. That samples go
on during a LOS is the model's choice (log entry 97). -/
def Obligations.EncoderCounts : Prop :=
  ∀ (s : State) (n : Fin 8) (a b level : Bool), Clocked s →
    let e := s.tbe.enc[n.val]
    let enabled := bit e.cfg.active 0 && e.enAt != some s.clock
    -- the encoder becomes e', and beside it only what the sequencers see of it changes
    let becomes := fun (c : Instr) (ps : List Part) (e' : Enc) =>
      ∃ t, exec c s = .next t ∧ Only ps s t ∧ t.tbe = { s.tbe with enc := upd s.tbe.enc n fun _ => e' }
    let set := fun e' : Enc => Host.Outcome.next (s.modEnc n fun _ => e')
    let sampled := fun (i : EncIn) (v : Bool) => if i.raw == v then i else { i with raw := v, since := s.clock }
    let agreed := fun i : EncIn =>
      i.raw != i.level && decide (i.since + fld e.cfg.active 12 8 ≤ s.clock) && !(i.los && decide (i.losAt < s.clock))
    let ia := sampled e.inA a
    let ib := sampled e.inB b
    let iz := sampled e.inZ level
    let seen := { e with inA := ia, inB := ib }
    let takenA := agreed ia && e.accAt != some s.clock
    let takenB := agreed ib && e.accAt != some s.clock
    let takenZ := agreed iz && e.accZ != some s.clock
    let accepted := { seen with
      accAt := some s.clock, inA := if takenA then { ia with level := a } else ia, inB := if takenB then { ib with level := b } else ib }
    let order := fun x y : Bool => if x then (if y then 2 else 1) else (if y then 3 else 0)
    let forward := (order accepted.inA.level accepted.inB.level + 4 - order e.inA.level e.inB.level) % 4 = 1
    let up := forward ↔ bit e.cfg.active 1 = false
    let B : Int := fld e.cfg.active 27 20 + 1
    -- one count of an encoder, up or down, and the direction after it
    let count := fun (e : Enc) (up : Bool) =>
      let pos := if up then e.pos + 1 else e.pos - 1
      let d := (pos - e.extreme).toInt
      let declared := if e.rev then decide (B ≤ d) else decide (d ≤ -B)
      let further := if e.rev then decide (d < 0) else decide (0 < d)
      { e with
        pos := pos
        wrap := if up then (if e.pos = 0xFFFF_FFFF then e.wrap + 1 else e.wrap) else (if e.pos = 0 then e.wrap - 1 else e.wrap)
        rev := if declared then !e.rev else e.rev
        extreme := if declared || further then pos else e.extreme }
    let zmode := fld e.cfg.active 15 14
    let placed := fun p : Word => { e with
      pos := p, wrap := 0, rev := false, extreme := p, suspect := e.suspect && (e.illegal.isSome || e.losAB.isSome || e.losZf.isSome) }
    (pinsLive s = false → exec (.encoderTransition n a b) s = .next s ∧ exec (.index n level) s = .next s) ∧
    (pinsLive s = true →
      (takenA = false → takenB = false → exec (.encoderTransition n a b) s = set seen) ∧
      (takenA = true ∨ takenB = true → enabled = false → exec (.encoderTransition n a b) s = set accepted) ∧
      (takenA = true → takenB = true → enabled = true → exec (.encoderTransition n a b) s = set { accepted with
        last := s.time, cntIllegal := satInc e.cntIllegal, illegalNow := some s.clock }) ∧
      (takenA = !takenB → enabled = true → ∀ u : Bool, (u = true ↔ up) →
        let moved := { accepted with last := s.time, counted := some (s.clock, u) }
        ((∀ x, e.zIndex ≠ some (s.clock, x)) → becomes (.encoderTransition n a b) [.tbe, .tsq, .pw] (count moved u)) ∧
        (e.zIndex = some (s.clock, false) →
          becomes (.encoderTransition n a b) [.tbe, .tsq, .pw] { count moved u with zpos := (count moved u).pos }) ∧
        (e.zIndex = some (s.clock, true) → becomes (.encoderTransition n a b) [.tbe, .tsq, .pw] { moved with
          zpos := if u then e.zpos + 1 else e.zpos - 1 })) ∧
      (takenZ = false → exec (.index n level) s = set { e with inZ := iz }) ∧
      (takenZ = true →
        let shown := { e with accZ := some s.clock, inZ := { iz with level := level } }
        let latched := { shown with zpos := e.pos, ztime := s.time, cntIndex := e.cntIndex + 1 }
        (¬((zmode = 1 ∨ zmode = 2) ∧ level = bit e.cfg.active 16) → exec (.index n level) s = set shown) ∧
        (zmode = 1 ∨ (zmode = 2 ∧ e.zarmed = false) → level = bit e.cfg.active 16 → exec (.index n level) s = .next { s with tbe :=
          { s.tbe with flags := s.tbe.flags.set (8 + n.val), enc := upd s.tbe.enc n fun _ => { latched with zIndex := some (s.clock, false) } } }) ∧
        (zmode = 2 → e.zarmed = true → level = bit e.cfg.active 16 → ∃ t, exec (.index n level) s = .next t ∧
          Only [.tbe, .tsq] s t ∧ t.tbe = { s.tbe with
            flags := s.tbe.flags.set (8 + n.val)
            enc := upd s.tbe.enc n fun _ => { placed e.zload with
              accZ := some s.clock, inZ := { iz with level := level }, zpos := e.pos, ztime := s.time, cntIndex := e.cntIndex + 1,
              zIndex := some (s.clock, true), zarmed := false } }))) ∧
    ((∀ u, e.counted ≠ some (s.clock, u)) → becomes (.load n) [.tbe, .tsq] (placed e.load)) ∧
    (∀ u, e.counted = some (s.clock, u) → becomes (.load n) [.tbe, .tsq] (count (placed e.load) u)) ∧
    exec (.zarm n) s = .next (s.modEnc n fun e => { e with zarmed := true }) ∧
    exec (.errClear n) s = .next (s.modEnc n fun e => { e with cntIllegal := 0, cntLos := 0, cntIndex := 0 }) ∧
    exec .snap s = .next { s with tbe := { s.tbe with
      snapTime := s.time, snapPos := Vector.ofFn fun i => gatePos s i.val, snapAt := some s.clock, flags := s.tbe.flags.set 16 } }

/-- R25, R159, R171 to R173, R177 to R179, R353, R562: loss of signal after 400 ticks below the threshold and its end after 400 ticks
above it, the faults of an encoder with their classes, what a permanent one retires, RESTORE and the commit of an encoder's group. -/
def Obligations.EncoderFaults : Prop :=
  ∀ (s : State) (n : Fin 8) (pin : EncPin) (z : Bool), Clocked s →
    let e := s.tbe.enc[n.val]
    let i := getIn e pin
    let enabled := bit e.cfg.active 0
    let kind := if pin = .z then EncKind.losZ else EncKind.losAB
    let detects := enabled = true ∧ (pin = .z → fld e.cfg.active 15 14 = 1 ∨ fld e.cfg.active 15 14 = 2)
    let set := fun e' : Enc => Host.Outcome.next (s.modEnc n fun _ => e')
    -- the input with its voltage below the threshold, or above it, since when
    let crossed := fun low : Bool => if i.low = low then i else { i with low := low, crossed := s.clock }
    -- the fault f of kind k closes as transient: one record, and nothing is retired
    let transient := fun (c : Instr) (e' : Enc) (k : EncKind) (f : EncFault) => ∃ t, exec c s = .next t ∧
      Only [.tbe, .qe, .dm] s t ∧ t.tbe = { s.tbe with flags := s.tbe.flags.set n.val, enc := upd s.tbe.enc n fun _ => setFault e' k none } ∧
      t.dm = (recordFault s { perm := false, blk := blkTbe, kind := encKindNo k, inst := n.val, retries := f.events, d0 := f.pos }).dm
    -- it closes as permanent: FAILED, the budget of its kind is exhausted, and every enabled sequencer that uses the encoder retires,
    -- with every herd that it feeds on its lead
    let permanent := fun (c : Instr) (e' : Enc) (k : EncKind) (f : EncFault) => ∃ x, Only [.tbe, .qe, .dm] s x ∧
      exec c s = .next (retireSequencers x (encVictims s n) (encHerds s n) blkTbe s.qe.seq) ∧
      x.tbe = { s.tbe with
        flags := s.tbe.flags.set n.val
        enc := upd s.tbe.enc n fun _ => { setExhausted (setFault e' k none) k s.clock with failed := true, suspect := true } } ∧
      x.dm = (recordFault s { perm := true, blk := blkTbe, kind := encKindNo k, inst := n.val, retries := f.events, d0 := f.pos,
                              retired := !(encVictims s n).isEmpty || !(encHerds s n).isEmpty }).dm
    let limit := fun f : EncFault => f.start + 400_000 * max (fld e.cfg.active 31 28) 1
    let zk := if z then EncKind.losZ else EncKind.losAB
    (pinsLive s = false → exec (.losEntry n pin) s = .next s ∧ exec (.losExit n pin) s = .next s) ∧
    (pinsLive s = true →
      let below := crossed true
      let above := crossed false
      (i.los = true ∨ s.clock < below.crossed + 400 → exec (.losEntry n pin) s = set (setIn e pin below)) ∧
      (i.los = false → below.crossed + 400 ≤ s.clock →
        let marked := { setIn e pin { below with los := true, losAt := s.clock } with cntLos := satInc e.cntLos }
        (¬detects → exec (.losEntry n pin) s = set marked) ∧
        (detects → ∀ f, getFault e kind = some f →
          exec (.losEntry n pin) s = set (setFault marked kind (some { f with events := f.events + 1 }))) ∧
        (detects → getFault e kind = none → (exhaustedAt e kind).isSome = true → exec (.losEntry n pin) s = set marked) ∧
        (detects → getFault e kind = none → exhaustedAt e kind = none →
          exec (.losEntry n pin) s = set { setFault marked kind (some ⟨s.clock, e.pos, 0⟩) with suspect := true })) ∧
      (i.los = false ∨ s.clock < above.crossed + 400 → exec (.losExit n pin) s = set (setIn e pin above)) ∧
      (i.los = true → above.crossed + 400 ≤ s.clock →
        let left := setIn e pin { above with los := false }
        let other := if pin = .a then e.inB.los else e.inA.los
        let ended := if pin = .z then left else { left with losEnd := some s.clock }
        (pin ≠ .z → other = true → exec (.losExit n pin) s = set left) ∧
        (pin = .z ∨ other = false → getFault e kind = none → exec (.losExit n pin) s = set ended) ∧
        (pin = .z ∨ other = false → ∀ f, getFault e kind = some f →
          (s.clock ≤ limit f → transient (.losExit n pin) ended kind f) ∧
          (limit f < s.clock → permanent (.losExit n pin) ended kind f)))) ∧
    (getFault e zk = none → exec (.losLimitExpiry n z) s = .next s) ∧
    (∀ f, getFault e zk = some f → (s.clock < limit f → exec (.losLimitExpiry n z) s = .next s) ∧
      (limit f ≤ s.clock → permanent (.losLimitExpiry n z) e zk f)) ∧
    (e.illegalNow ≠ some s.clock →
      (e.illegal = none → exec (.illegalWindowEnd n) s = .next s) ∧
      (∀ f, e.illegal = some f → (s.clock < f.start + 4_000_000 → exec (.illegalWindowEnd n) s = .next s) ∧
        (f.start + 4_000_000 ≤ s.clock → transient (.illegalWindowEnd n) e .illegal f))) ∧
    (e.illegalNow = some s.clock →
      let noted := { e with illegalNow := none }
      let byLos := e.inA.los = true ∨ e.inB.los = true ∨ ∃ t, e.losEnd = some t ∧ s.clock ≤ t + 400
      (byLos → e.illegal = none → exec (.illegalWindowEnd n) s = set noted) ∧
      (¬byLos → e.illegal = none →
        (e.exIllegal = none → exec (.illegalWindowEnd n) s = set { noted with illegal := some ⟨s.clock, e.pos, 0⟩, suspect := true }) ∧
        (e.exIllegal ≠ none → exec (.illegalWindowEnd n) s = set noted)) ∧
      (¬byLos → ∀ f, e.illegal = some f → s.clock < f.start + 4_000_000 →
        (f.events < 2 → exec (.illegalWindowEnd n) s = set { noted with illegal := some { f with events := f.events + 1 } }) ∧
        (2 ≤ f.events → permanent (.illegalWindowEnd n) noted .illegal { f with events := f.events + 1 }))) ∧
    (let kept := fun x : Option Nat => if x = some s.clock then x else none
     let perm := (kept e.exIllegal).isSome || (kept e.exLosAB).isSome || (kept e.exLosZ).isSome
     ∃ t, exec (.restore n) s = .next t ∧ Only [.tbe, .tsq] s t ∧ t.tbe = { s.tbe with enc := upd s.tbe.enc n fun e => { e with
      failed := e.failed && perm, exIllegal := kept e.exIllegal, exLosAB := kept e.exLosAB, exLosZ := kept e.exLosZ
      suspect := e.suspect && (e.illegal.isSome || e.losAB.isSome || e.losZf.isSome || perm) } }) ∧
    (e.cfg.pending = false → exec (.encCommitApply n) s = .next s) ∧
    (e.cfg.pending = true →
      let new := e.cfg.shadow
      let stops := enabled = true ∧ bit new 0 = false
      let from_ := fun i : EncIn => if fld new 12 8 = fld e.cfg.active 12 8 then i else { i with since := s.clock }
      let applied := { e with
        cfg := { e.cfg with active := new, pending := e.cfg.again, again := false, wait := 0, count := e.cfg.count + 1 }
        inA := from_ e.inA, inB := from_ e.inB, inZ := from_ e.inZ }
      (¬stops ∨ (e.illegalNow ≠ some s.clock ∧ e.illegal = none ∧ e.losAB = none ∧ e.losZf = none) →
        ∃ t, exec (.encCommitApply n) s = .next t ∧ Only [.tbe, .tsq] s t ∧ t.tbe = { s.tbe with enc := upd s.tbe.enc n fun _ =>
          { applied with enAt := if enabled = false ∧ bit new 0 = true then some s.clock else e.enAt } }) ∧
      (stops → e.illegalNow ≠ some s.clock → ∀ f,
        (e.illegal = some f → e.losAB = none → e.losZf = none → transient (.encCommitApply n) applied .illegal f) ∧
        (e.illegal = none → e.losAB = some f → e.losZf = none →
          (e.inA.los = false → e.inB.los = false → transient (.encCommitApply n) applied .losAB f) ∧
          (e.inA.los = true ∨ e.inB.los = true → permanent (.encCommitApply n) applied .losAB f)) ∧
        (e.illegal = none → e.losAB = none → e.losZf = some f →
          (e.inZ.los = false → transient (.encCommitApply n) applied .losZ f) ∧
          (e.inZ.los = true → permanent (.encCommitApply n) applied .losZ f))))

/-- R183, R187, R189, R192, R199: a slot opened for the next target, one a tick, a slot committed with the prediction of its tick, the
scheduled edges of STROBE and PRETRIG, and the end of a pulse; no position step waits to be handled. -/
def Obligations.SlotsAndPulses : Prop :=
  ∀ (s : State) (n : Fin 16) (i : Fin 64), Clocked s → s.tsq[n.val].steps = [] →
    let t := s.tsq[n.val]
    let g := t.group.active
    let sl := t.slots[i.val]
    let becomes := fun t' : Tsq => Host.Outcome.next { s with tsq := upd s.tsq n fun _ => t' }
    (running s n = false ∨ t.openedAt = some s.clock ∨ tsqDepth g ≤ (slotsUsed s n).length → exec (.slotOpen n) s = .next s) ∧
    (running s n = true → t.openedAt ≠ some s.clock → (slotsUsed s n).length < tsqDepth g →
      ((allFin 64).find? fun i => t.slots[i.val].st == .free) = some i →
      exec (.slotOpen n) s = .next { s with
        tsq := upd s.tsq n fun t => { t with
          nextId := t.nextId + 1, nextTarget := nextAfter g t.nextTarget, openedAt := some s.clock
          slots := upd t.slots i fun _ => { Slot.init with st := .open_, id := t.nextId, target := t.nextTarget, res := .waiting,
                                                           src := tsqSrc g, rev := tsqRev g, herd := tsqHerd g } }
        pw := { s.pw with waiting := s.pw.waiting ++
          [.reserve (.tsqSlot n i) .capture n (capPages s.cap[n.val].group.active)] } }) ∧
    (slotsUsed s n = [] → exec (.slotCommit n) s = .next s) ∧
    (slotsUsed s n = [i] → slotsIn s n .open_ = [i] → reached (tsqRev g) (gatePos s (tsqSrc g)) sl.target = false →
      (t.interval = none → exec (.slotCommit n) s = .next s) ∧
      (∀ I, t.interval = some I →
        let ahead := (if tsqRev g then -1 else 1) * (sl.target - (predPos s (tsqSrc g)).setWidth 48 <<< 16).toInt
        let T : Int := t.tLast + Int.fdiv (ahead * max I ((now s - t.tLast) * 65536)) (2 ^ 32)
        ((now s : Int) < T - tsqLead g → exec (.slotCommit n) s = .next s) ∧
        (T - tsqLead g ≤ now s → tsqPreEn g = false → t.edges = [] → ∃ u, exec (.slotCommit n) s = .next u ∧ Only [.tsq] s u ∧
          Others n s.tsq u.tsq ∧
          u.tsq[n.val] = { t with slots := u.tsq[n.val].slots, lastCommit := some sl.target, commits := t.commits + 1,
                                  strobe := { t.strobe with active := true, end_ := s.clock + tsqStbWidth g } } ∧
          u.tsq[n.val].slots[i.val] = { sl with
            st := .committed, tExp := some T, strobeAt := now s, hold := tsqHold g, expWidth := tsqExpWidth g
            stbWidth := tsqStbWidth g, preWidth := tsqPreWidth g, strobeLead := tsqStrobeLead g, src := tsqSrc g, rev := tsqRev g
            herd := tsqHerd g, no := t.commits }))) ∧
    ((∀ e ∈ t.edges, e.strobe = true → (now s : Int) < e.at_) → exec (.strobeRise n) s = .next s) ∧
    ((∀ e ∈ t.edges, e.strobe = false → (now s : Int) < e.at_) → exec (.pretrigRise n) s = .next s) ∧
    (∀ e, t.edges = [e] → e.at_ ≤ now s →
      (e.strobe = true → exec (.strobeRise n) s = becomes { t with
        edges := [], strobe := { t.strobe with active := true, end_ := s.clock + e.width }
        slots := t.slots.map fun sl => if sl.st = .committed ∧ sl.no = e.no then { sl with strobeAt := now s } else sl }) ∧
      (e.strobe = false → exec (.pretrigRise n) s = becomes { t with
        edges := [], pretrig := { t.pretrig with active := true, end_ := s.clock + e.width } })) ∧
    (t.strobe.active = true → t.strobe.end_ ≤ s.clock → exec (.pulseEnd n .strobe) s =
      becomes { t with strobe := { t.strobe with active := false, pol := bit g.stb 28 } }) ∧
    (t.pretrig.active = true → t.pretrig.end_ ≤ s.clock → exec (.pulseEnd n .pretrig) s =
      becomes { t with pretrig := { t.pretrig with active := false, pol := bit g.stb 30 } }) ∧
    (t.strobe.active = false ∨ s.clock < t.strobe.end_ → exec (.pulseEnd n .strobe) s = .next s) ∧
    (t.pretrig.active = false ∨ s.clock < t.pretrig.end_ → exec (.pulseEnd n .pretrig) s = .next s) ∧
    ((∀ p ∈ t.expose, s.clock < p.end_) → exec (.pulseEnd n .expose) s = .next s) ∧
    (∀ p, t.expose = [p] → p.end_ ≤ s.clock → exec (.pulseEnd n .expose) s =
      becomes { t with expose := [], exposePol := bit g.stb 29 })

/-- R186, R191, R193 to R198, R202, R203, R206, R348: the exposure of a committed slot whose target is reached within its hold window, its
cancellation with a ghost record while EXPOSE is active or after the window, the stop count, positions that enter the predictor view,
the safe point of the group's commit, and the cleared counters; no position step waits to be handled. -/
def Obligations.ReleasesAndStops : Prop :=
  ∀ (s : State) (n : Fin 16) (i : Fin 64) (h : Fin 4), Clocked s → s.tsq[n.val].steps = [] →
    let t := s.tsq[n.val]
    let g := t.group.active
    let sl := t.slots[i.val]
    let becomes := fun t' : Tsq => Host.Outcome.next { s with tsq := upd s.tsq n fun _ => t' }
    let applied := { t.group with
      active := t.group.shadow, pending := t.group.again, again := false, wait := 0, count := t.group.count + 1 }
    let new := t.group.shadow
    let ring := s.qe.rings[16 + n.val]
    let cancelled := { t with slots := upd t.slots i fun _ => Slot.init, cntGhost := t.cntGhost + 1, lineBoundary := some s.clock }
    -- the exposure is cancelled for a reason: its ghost record is stored, or counted as lost
    let ghost := fun reason : Nat =>
      (ringOn ring = true → ringFull ring = false → ∃ u, exec (.holdExpiry n) s = .next u ∧ Only [.tsq, .qe, .dm] s u ∧
        u.tsq = (upd s.tsq n fun _ => { cancelled with flags := t.flags.set 0 }) ∧
        u.dm = memWriteBytes s.dm (entryAt ring ring.pi) (ghostBytes s n sl reason)) ∧
      (ringOn ring = false ∨ ringFull ring = true → ∃ u, exec (.holdExpiry n) s = .next u ∧ Only [.tsq, .qe] s u ∧
        u.tsq = upd s.tsq n fun _ => { cancelled with
          cntGhostLost := t.cntGhostLost + 1, flags := (t.flags.set 0).set 5 })
    let emptied := fun t : Tsq => { t with hist := [], interval := none, frontier := predPos s (tsqSrc g), stopFrom := s.clock }
    let stopDue := bit g.prog 0 = true ∧ tsqStop g ≠ 0 ∧ gangOdd s n = false ∧ t.retired = false ∧ t.stopped = false ∧
      t.srcWait = false ∧ t.herdWait = false ∧ t.stopFrom + tsqStop g ≤ s.clock
    let r := s.tbe.rem[h.val]
    (slotsUsed s n = [] → exec (.holdExpiry n) s = .next s) ∧
    (slotsUsed s n = [i] → slotsIn s n .committed = [i] → ∀ T, sl.tExp = some T →
      (reached sl.rev (gatePos s sl.src) sl.target = true → (now s : Int) ≤ T + sl.hold →
        let busy := ∃ p ∈ t.expose, p.from_ ≤ s.clock + 3 ∧ s.clock + 3 < p.end_
        (busy → sl.res = .refused ∨ sl.res = .none → ghost 3) ∧
        (¬busy → ∃ u, exec (.holdExpiry n) s = .next u ∧ Only [.tsq, .cap, .pw, .qe, .dm] s u ∧ Others n s.tsq u.tsq ∧
          u.tsq[n.val].cntFired = t.cntFired + 1 ∧ u.tsq[n.val].slots[i.val] = Slot.init ∧
          u.tsq[n.val].lineBoundary = some s.clock ∧
          u.tsq[n.val].expose = t.expose ++ [⟨s.clock + 3, s.clock + 3 + sl.expWidth⟩])) ∧
      (reached sl.rev (gatePos s sl.src) sl.target = false →
        ((now s : Int) ≤ T + sl.hold → exec (.holdExpiry n) s = .next s) ∧
        (T + sl.hold < now s → sl.res = .refused ∨ sl.res = .none → ghost 1))) ∧
    (¬stopDue → exec (.stopTicksExpiry n) s = .next s) ∧
    (stopDue → slotsIn s n .open_ = [] →
      exec (.stopTicksExpiry n) s = becomes { emptied t with stopped := true, flags := t.flags.set 3 }) ∧
    (stopDue → slotsIn s n .open_ = [i] → sl.res = .refused → exec (.stopTicksExpiry n) s = becomes { emptied t with
      stopped := true, flags := t.flags.set 3, slots := upd t.slots i fun _ => Slot.init, cntSquash := t.cntSquash + 1
      nextId := sl.id, nextTarget := sl.target }) ∧
    ((∀ e ∈ r.waiting, now s < e.at_) → exec (.predictorEntry h) s = .next s) ∧
    (∀ e rest, r.waiting = e :: rest → e.at_ ≤ now s → (∀ e ∈ rest, now s < e.at_) → ∃ u, exec (.predictorEntry h) s = .next u ∧
      Only [.tbe, .tsq] s u ∧ u.tbe = { s.tbe with rem := upd s.tbe.rem h fun r => { r with waiting := rest, predPos := e.pos } }) ∧
    (t.group.pending = false ∨ t.group.wait = 0 ∨ (t.lineBoundary ≠ some s.clock ∧ slotsIn s n .committed ≠ []) →
      exec (.tsqCommitApply n) s = .next s) ∧
    (t.group.pending = true → 1 ≤ t.group.wait → (t.lineBoundary = some s.clock ∨ slotsIn s n .committed = []) →
      t.strobe.active = false → t.pretrig.active = false → t.expose = [] →
      let polled := fun t : Tsq => { t with
        group := applied, strobe := { t.strobe with pol := bit new.stb 28 }, pretrig := { t.pretrig with pol := bit new.stb 30 }
        exposePol := bit new.stb 29 }
      (bit g.prog 0 = false → bit new.prog 0 = false → exec (.tsqCommitApply n) s = becomes (polled t)) ∧
      (bit g.prog 0 = true → bit new.prog 0 = false → slotsIn s n .open_ = [] → exec (.tsqCommitApply n) s =
        becomes { polled (emptied t) with stopped := false, srcWait := false, herdWait := false }) ∧
      (bit g.prog 0 = false → bit new.prog 0 = true → gangOdd s n = false → tsqHerdEn new = false → tsqSrc new < 8 →
        let usable := srcUsable s (tsqSrc new)
        let running := { polled t with nextId := 0, stopped := false, herdWait := false, lastCommit := none, hist := [], interval := none
                                       frontier := gatePos s (tsqSrc new), stopFrom := s.clock }
        let first := if bit new.prog 15 then fix new.origin else nextAfter new (fix (gatePos s (tsqSrc new)))
        exec (.tsqCommitApply n) s =
          becomes (if usable then { running with srcWait := false, nextTarget := first } else { running with srcWait := true })) ∧
      (bit g.prog 0 = true → bit new.prog 0 = true → ∃ u, exec (.tsqCommitApply n) s = .next u ∧ Only [.tsq, .pw] s u ∧
        u.tsq[n.val].group = applied)) ∧
    exec (.tsqCntClear n) s = becomes { t with
      cntFired := 0, cntGhost := 0, cntSquash := 0, cntShort := 0, cntNores := 0, cntGhostLost := 0 }

/-- R220, R221, R234 to R236, R247: the measured pixel clock, a lock attempt that succeeds or fails, the loss of lock, the end of
the window of an open LINK fault, transient or permanent, and the receivers of a gang, which share an attempt. -/
def Obligations.ReceiverLock : Prop :=
  ∀ (s : State) (n : Fin 16) (count : Nat), Clocked s →
    let c := s.cap[n.val]
    let becomes := fun c' : Cap => Host.Outcome.next { s with cap := upd s.cap n fun _ => c' }
    -- the fault ends permanent, and the channel and its sequencer retire
    let retires := fun i : Instr => ∃ t, exec i s = .next t ∧ Only [.cap, .tsq, .pw, .qe, .hl, .dm] s t ∧ t.cap[n.val].fault = none ∧
      t.cap[n.val].retired = true ∧ t.cap[n.val].armed = false ∧ t.cap[n.val].faultSeq = s.qe.seq ∧ t.tsq[n.val].retired = true ∧
      t.cap[n.val].pending = [] ∧ t.cap[n.val].ending = [] ∧ t.cap[n.val].flags.on 2 = true ∧ t.cap[n.val].flags.on 3 = true
    (c.windowAt = none → exec (.pclkMeasure n count) s = .next s) ∧
    (∀ w, c.windowAt = some w →
      let m := { c with pclk := BitVec.ofNat 17 (min (count * 100) 0x1FFFF), pclkOk := decide (190 ≤ count ∧ count ≤ 870)
                        windowAt := some (w + 4000) }
      (s.clock < w + 4000 → exec (.pclkMeasure n count) s = .next s) ∧
      (w + 4000 ≤ s.clock → (190 ≤ count ∧ count ≤ 870) ∨ c.locked = false → exec (.pclkMeasure n count) s = becomes m) ∧
      (w + 4000 ≤ s.clock → count < 190 ∨ 870 < count →
        exec (.pclkMeasure n count) s = exec (.lossOfLock n) { s with cap := upd s.cap n fun _ => m })) ∧
    (c.attemptAt = none ∨ c.locked = true → exec (.lockSuccess n) s = .next s ∧ exec (.lockAttemptFail n) s = .next s) ∧
    (∀ a, c.attemptAt = some a → c.locked = false →
      (c.pclkOk = false ∨ a + 400000 < s.clock → exec (.lockSuccess n) s = .next s) ∧
      (c.pclkOk = true → s.clock ≤ a + 400000 →
        (isGang s n = false → exec (.lockSuccess n) s = becomes { c with locked := true, attemptAt := none, armed := !c.retired }) ∧
        (isGang s n = true → ∃ t, exec (.lockSuccess n) s = .next t ∧ Only [.cap] s t ∧ t.cap[n.val].locked = true ∧
          t.cap[n.val].attemptAt = none ∧ ((∀ m ∈ [gangHead n, gangTail n], m ≠ n → s.cap[m.val].locked = true) →
            t.cap[(gangHead n).val].armed = !s.cap[(gangHead n).val].retired))) ∧
      (s.clock < a + 400000 → exec (.lockAttemptFail n) s = .next s) ∧
      (a + 400000 ≤ s.clock → isGang s n = true → ∀ f, s.cap[(gangHead n).val].fault = some f → f.attempts < 3 →
        ∃ t, exec (.lockAttemptFail n) s = .next t ∧ Only [.cap] s t ∧
          t.cap[(gangHead n).val].fault = some { f with attempts := f.attempts + 1 } ∧
          ∀ m ∈ [gangHead n, gangTail n], s.cap[m.val].attemptAt ≠ none → t.cap[m.val].attemptAt = some s.clock) ∧
      (a + 400000 ≤ s.clock → isGang s n = false →
        (c.fault = none → exec (.lockAttemptFail n) s = becomes { c with locked := false, attemptAt := some s.clock }) ∧
        (∀ f, c.fault = some f → f.attempts < 3 → exec (.lockAttemptFail n) s = becomes { c with
          locked := false, attemptAt := some s.clock, fault := some { f with attempts := f.attempts + 1 }, cntRelock := c.cntRelock + 1 }) ∧
        (∀ f, c.fault = some f → 3 ≤ f.attempts → herdOf s n = none → c.retired = false → retires (.lockAttemptFail n)))) ∧
    (c.locked = false → exec (.lossOfLock n) s = .next s) ∧
    (c.locked = true → isGang s n = true → ∃ t, exec (.lossOfLock n) s = .next t ∧ t.cap[n.val].locked = false ∧
      t.cap[n.val].attemptAt = some s.clock) ∧
    (c.locked = true → isGang s n = false → c.line = none → c.pending = [] →
      let lost := { c with locked := false, attemptAt := some s.clock, flags := c.flags.set 1, relocked := true }
      (c.armed = false ∨ c.retired = true → exec (.lossOfLock n) s = becomes lost) ∧
      (c.armed = true → c.retired = false →
        (c.fault = none → exec (.lossOfLock n) s = becomes { lost with
          fault := some { start := s.clock, attempts := 1, second := none }, cntRelock := c.cntRelock + 1 }) ∧
        (∀ f, c.fault = some f → f.attempts < 3 → exec (.lossOfLock n) s = becomes { lost with
          fault := some { f with attempts := f.attempts + 1 }, cntRelock := c.cntRelock + 1 }))) ∧
    (isGang s n = false → c.fault = none → exec (.capLinkWindowEnd n) s = .next s) ∧
    (isGang s n = false → ∀ f, c.fault = some f →
      (s.clock < f.start + 4000000 → exec (.capLinkWindowEnd n) s = .next s) ∧
      (f.start + 4000000 ≤ s.clock → c.locked = true → f.attempts ≤ 3 →
        ∃ t, exec (.capLinkWindowEnd n) s = .next t ∧ Only [.cap, .qe, .dm] s t ∧
          t.cap = upd s.cap n fun c => { c with fault := none, flags := c.flags.set 2 }) ∧
      (f.start + 4000000 ≤ s.clock → c.locked = false ∨ 3 < f.attempts → herdOf s n = none → c.retired = false →
        retires (.capLinkWindowEnd n)))

/-- R221 to R225, R228, R229, R233, R288, R289: the rise of LVAL, which takes a release, a free identity or a drop, the words of a line
with its drops for LENGTH and OVERRUN, its fall, and the window of a release that no line met. -/
def Obligations.LinesMatched : Prop :=
  ∀ (s : State) (n : Fin 16) (fval : Bool) (skew : Nat) (ws : List CamWord) (stored : Nat) (falls : Bool), Clocked s →
    let c := s.cap[n.val]
    let g := c.group.active
    let becomes := fun c' : Cap => Host.Outcome.next { s with cap := upd s.cap n fun _ => c' }
    let blank : Line := { rel := noRelease 0, free := false, start := now s, fval := fval, handle := .unasked, drop := none
                          ended := none, words := [], tags := 0 }
    -- the channel c' with one drop more of reason r
    let counted := fun (c' : Cap) (r : Fin 13) => { c' with drops := upd c.drops r (· + 1), flags := c.flags.set 0 }
    let refused := fun r : Fin 13 => counted { c with line := some { blank with handle := .refused, drop := some r } } r
    (gangOdd s n = true → capLive s n = true → unitLocked s n = true →
      ∃ r : Fin 13, r ∈ [5, 10, 11] ∧ exec (.lineStart n fval skew) s = .next (countDrop s (gangHead n) r)) ∧
    (isGang s n = false → capEn g = false ∨ c.locked = false ∨ c.line.isSome = true → exec (.lineStart n fval skew) s = .next s) ∧
    (isGang s n = false → capEn g = true → c.locked = true → c.line = none →
      (c.retired = true → capFree g = false → exec (.lineStart n fval skew) s = becomes (refused 10)) ∧
      (c.retired = false → c.cfgBad = true → capFree g = false → exec (.lineStart n fval skew) s = becomes (refused 11)) ∧
      (c.retired = false → c.cfgBad = false → capFree g = false →
        (c.pending = [] → exec (.lineStart n fval skew) s = becomes (refused 2)) ∧
        (∀ r rest, c.pending = r :: rest → (∀ x ∈ c.pending, now s ≤ x.exposeTick + capMax g) →
          (now s < r.exposeTick + capMin g → exec (.lineStart n fval skew) s = becomes (refused 2)) ∧
          (∀ k, r.exposeTick + capMin g ≤ now s → r.res = .granted k → capPages g ≤ resPages s r.res →
            exec (.lineStart n fval skew) s = .next { s with
              cap := upd s.cap n fun c => { c with pending := rest, line := some { blank with rel := r, handle := .waiting } }
              pw := { s.pw with waiting := s.pw.waiting ++ [.map (.capLine n) k (captureStride g)] } }) ∧
          (r.exposeTick + capMin g ≤ now s → r.res = .refused → exec (.lineStart n fval skew) s = becomes (counted
            { c with pending := rest, line := some { blank with rel := { r with res := .none }, handle := .refused, drop := some 1 } } 1)))) ∧
      (c.retired = false → c.cfgBad = false → capFree g = true → exec (.lineStart n fval skew) s = .next { s with
        cap := upd s.cap n fun c => { c with
          line := some { blank with rel := { noRelease c.freeId with res := .waiting }, free := true }, freeId := c.freeId + 1 }
        pw := { s.pw with waiting := s.pw.waiting ++ [.reserve (.capLine n) .capture n (capPages g)] } })) ∧
    (c.line = none → exec (.lineEnd n ws stored falls) s = .next s) ∧
    (∀ l, c.line = some l →
      let words := pixelWords g (l.words ++ ws)
      -- bytes of the line so far, and the writes of 256 bytes issued of them
      let bytes := pixBytes g (min (words.length * max (capTaps g) 1) (capPix g))
      let issued := match l.rel.res with | .granted _ => min (bytes / 256) (stored + 384) | _ => 0
      let kept := { l with words := l.words ++ ws, tags := issued - stored }
      let whole := words.length ≤ lineWords g ∧ bytes ≤ 2048 + 256 * issued
      (∀ r, l.drop = some r → exec (.lineEnd n ws stored falls) s = becomes { c with line := if falls then none else some kept }) ∧
      (l.drop = none → whole → exec (.lineEnd n ws stored false) s = becomes { c with line := some kept }) ∧
      (l.drop = none → ¬whole →
        let r : Fin 13 := if lineWords g < words.length then 4 else 7
        ∃ t, exec (.lineEnd n ws stored falls) s = .next t ∧ Only [.cap, .pw] s t ∧ t.cap = upd s.cap n fun _ => counted { c with
          line := if falls then none
                  else some { kept with drop := some r, handle := .refused, tags := 0, rel := { l.rel with res := .none } } } r) ∧
      (l.drop = none → whole → words.length ≠ lineWords g → ∃ t, exec (.lineEnd n ws stored true) s = .next t ∧
        Only [.cap, .pw] s t ∧ t.cap = upd s.cap n fun _ => counted { c with line := none } 4) ∧
      (l.drop = none → whole → words.length = lineWords g → l.handle = .waiting → exec (.lineEnd n ws stored true) s = becomes
        { c with line := none, ending := c.ending ++ [{ kept with ended := some (now s), tags := 0 }] }) ∧
      (∀ h gen, l.drop = none → whole → words.length = lineWords g → l.handle = .granted h gen →
        let ring := getRing s (captureRing n)
        (ringOn ring = true → ringFull ring = false →
          ∃ t, exec (.lineEnd n ws stored true) s = .next t ∧ Only [.cap, .pw, .qe, .dm, .fs, .free] s t ∧ Others n s.cap t.cap ∧
            t.cap[n.val].line = none ∧ t.cap[n.val].cntLines = c.cntLines + 1 ∧ t.cap[n.val].drops = c.drops ∧
            t.cap[n.val].pending = c.pending) ∧
        (ringOn ring = false ∨ ringFull ring = true →
          ∃ t, exec (.lineEnd n ws stored true) s = .next t ∧ Only [.cap, .pw, .qe, .fs] s t ∧
            t.cap = upd s.cap n fun _ => counted { c with line := none } 8))) ∧
    ((∀ r ∈ c.pending, now s ≤ r.exposeTick + capMax g) → exec (.matchExpiry n) s = .next s) ∧
    (∀ r, c.pending = [r] → r.exposeTick + capMax g < now s → ∃ t, exec (.matchExpiry n) s = .next t ∧ Only [.cap, .pw] s t ∧
      t.cap = upd s.cap n fun _ => counted { c with pending := [] } 3)

/-- R7, R27, R28, R206, R218, R231, R233, R237, R240: REVIVE of a channel, its counters cleared, the tag table moved or kept, and a
capture group applied at the line boundary: unchanged in EN, GANG and MODE, enabled, or invalid; in CAP(2k+1) of a gang only the
settings change. -/
def Obligations.CaptureActions : Prop :=
  ∀ (s : State) (n : Fin 16) (v : BitVec 3), Clocked s →
    let c := s.cap[n.val]
    let old := c.group.active
    let new := c.group.shadow
    let becomes := fun c' : Cap => Host.Outcome.next { s with cap := upd s.cap n fun _ => c' }
    let bad := capInvalid new (tsqHerdEn s.tsq[n.val].group.active)
    let group := { c.group with active := new, pending := c.group.again, again := false, wait := 0, count := c.group.count + 1 }
    let applied := { c with group := group, cfgBad := bad, flags := if bad then c.flags.set 4 else c.flags }
    let boundary := (c.line = none ∧ c.ending = []) ∨ capEn old = false ∨ unitLocked s n = false
    (c.retired = false → exec (.capRevive n) s = .next s) ∧
    (gangOdd s n = true ∨ herdOf s n ≠ none → exec (.capRevive n) s = .next s) ∧
    (c.retired = true → isGang s n = false → herdOf s n = none → ∃ t, exec (.capRevive n) s = .next t ∧ Only [.cap, .tsq] s t ∧
      t.cap = (upd s.cap n fun _ => { c with retired := false, armed := c.locked && capEn old }) ∧
      Others n s.tsq t.tsq ∧ t.tsq[n.val].retired = false) ∧
    exec (.capCntClear n) s = becomes { c with cntLines := 0, cntRelock := 0, drops := Vector.replicate 13 0 } ∧
    ((∀ m : Fin 16, capEn s.cap[m.val].group.active = false) →
      (∀ r : Fin 1024, ringInBlock s.qe.rings[r.val] (0x20000 * v.toNat) = false) →
        exec (.capTagBaseWrite v) s = .next { s with tagBase := v }) ∧
    (∀ m : Fin 16, capEn s.cap[m.val].group.active = true → exec (.capTagBaseWrite v) s = .next s) ∧
    (∀ r : Fin 1024, ringInBlock s.qe.rings[r.val] (0x20000 * v.toNat) = true → exec (.capTagBaseWrite v) s = .next s) ∧
    (c.group.pending = false → exec (.capCommitApply n) s = .next s) ∧
    (capEn old = true → unitLocked s n = true → c.line.isSome = true ∨ c.ending ≠ [] → exec (.capCommitApply n) s = .next s) ∧
    (c.group.pending = true → boundary → gangOdd s n = true → exec (.capCommitApply n) s = becomes { c with group := group }) ∧
    (c.group.pending = true → boundary → gangOdd s n = false → capGangBit new = capGangBit old → capEn new = capEn old →
      capFree new = capFree old →
      (bad = false → exec (.capCommitApply n) s = becomes applied) ∧
      (bad = true → ∃ t, exec (.capCommitApply n) s = .next t ∧ Only [.cap, .pw] s t ∧ Others n s.cap t.cap ∧
        t.cap[n.val].group = group ∧ t.cap[n.val].cfgBad = true ∧ t.cap[n.val].pending = [] ∧ t.cap[n.val].flags.on 4 = true)) ∧
    (c.group.pending = true → capGangBit new = false → capGangBit old = false → isGang s n = false → c.pending = [] →
      capEn old = false → capEn new = true → exec (.capCommitApply n) s = becomes { applied with
        locked := false, armed := false, attemptAt := some s.clock, windowAt := some s.clock, pclk := 0, pclkOk := false
        relocked := false, freeId := 0 })

/-- R257 to R260, R263, R264, R287, R563: a request for pages or a handle is granted exactly when its quota checks hold, out of the free
pages and handles, or refused at once; a reservation returned; a request that is not next in the order of R259 waits. Which pages and
which handle a grant takes are free values. -/
def Obligations.PageGrants : Prop :=
  ∀ (s : State) (dest : PwDest) (c : PwClass) (o : Fin 16) (n res : Nat) (stride : BitVec 9) (m : Fin 16) (i : Fin 64), Clocked s →
    let refused := fun c : PwClass => { s with
      pw := { s.pw with cntRefuse := upd s.pw.cntRefuse (clsNo c) (· + 1), flags := s.pw.flags.set 2 } }
    -- a free handle taken, with its GEN one more, in state WRITING on the pages given
    let taken := fun (t : State) (h : Fin 2048) (c : PwClass) (o : Fin 16) (stride : BitVec 9) (pages : List (BitVec 12)) =>
      s.pw.map[h.val].st = .free ∧ t.pw.map = upd s.pw.map h fun e => ({ st := .writing, cls := c, refs := 0, poison := false, owner := o, stride := stride, gen := e.gen + 1, pages := pages } : MapEntry)
    let fresh := fun pages : List (BitVec 12) => pages.length = n ∧ pages.Nodup ∧ ∀ p ∈ pages, p ∈ freePages s
    (grantPages s c o n = true ↔ 1 ≤ n ∧ n ≤ 8 ∧ usedPages s c + n ≤ quotaPages s c ∧
      (c = .capture → usedChannel s o + n ≤ quotaChannel s o) ∧ n + owedPages s c ≤ freePageCount s) ∧
    (grantHandle s c = true ↔ usedHandles s c + 1 ≤ quotaHandles s c ∧ 1 + owedHandles s c ≤ freeHandleCount s) ∧
    (dest ≠ .none → (pwIsNext s (.reserve dest c o n) = false → exec (.reserve dest c o n) s = .next s) ∧
      (pwIsNext s (.map dest res stride) = false → exec (.map dest res stride) s = .next s) ∧
      (pwIsNext s (.alloc dest c o n stride) = false → exec (.alloc dest c o n stride) s = .next s)) ∧
    (grantPages s c o n = false → exec (.reserve .none c o n) s = .next (refused c)) ∧
    (grantPages s c o n = true → ∃ pages, fresh pages ∧ exec (.reserve .none c o n) s = .next { s with
      freeCtr := s.freeCtr + n
      pw := { s.pw with reservations := s.pw.reservations ++ [⟨s.pw.nextRes, c, o, pages⟩], nextRes := s.pw.nextRes + 1 } }) ∧
    (pwIsNext s (.reserve (.tsqSlot m i) c o n) = true → s.tsq[m.val].slots[i.val].res = .waiting →
      let t0 := pwServed s (.reserve (.tsqSlot m i) c o n)
      ∃ t, exec (.reserve (.tsqSlot m i) c o n) s = .next t ∧ Only [.tsq, .pw, .free] s t ∧
        t.pw.waiting = s.pw.waiting.erase (.reserve (.tsqSlot m i) c o n) ∧
        t.tsq[m.val].slots[i.val].res = if grantPages t0 c o n then .granted s.pw.nextRes else .refused) ∧
    exec (.returnRes res) s = .next { s with pw := { s.pw with reservations := s.pw.reservations.filter fun r => r.num != res } } ∧
    ((s.pw.reservations.find? fun r => r.num == res) = none → exec (.map .none res stride) s = .next (refused .capture)) ∧
    (∀ r, (s.pw.reservations.find? fun r => r.num == res) = some r →
      (grantHandle s r.cls = false → exec (.map .none res stride) s = .next (refused r.cls)) ∧
      (grantHandle s r.cls = true → ∃ t h, exec (.map .none res stride) s = .next t ∧ Only [.pw, .free] s t ∧
        taken t h r.cls r.owner stride r.pages ∧ t.pw.reservations = s.pw.reservations.filter fun r => r.num != res)) ∧
    (grantPages s c o n = false ∨ grantHandle s c = false → exec (.alloc .none c o n stride) s = .next (refused c)) ∧
    (grantPages s c o n = true → grantHandle s c = true → ∃ t h pages, exec (.alloc .none c o n stride) s = .next t ∧
      Only [.pw, .free] s t ∧ fresh pages ∧ taken t h c o stride pages ∧ t.pw.reservations = s.pw.reservations) ∧
    (pwIsNext s (.alloc .host c o n stride) = true →
      let granted := grantPages s c o n && grantHandle s c
      (granted = false → ∃ t, exec (.alloc .host c o n stride) s = .next t ∧ Only [.pw, .qe] s t ∧ t.pw.map = s.pw.map ∧
        t.qe = { s.qe with flags := s.qe.flags.set 6, result := { s.qe.result with busy := false, done := true, code := 1 } }) ∧
      (granted = true → ∃ t h pages, exec (.alloc .host c o n stride) s = .next t ∧ Only [.pw, .qe, .free] s t ∧ fresh pages ∧
        taken t h c o stride pages ∧ t.qe = { s.qe with
          flags := s.qe.flags.set 6, result := ⟨false, true, 0, BitVec.ofNat 11 h.val, s.pw.map[h.val].gen + 1⟩ }))

/-- R257, R258, R260, R261, R265, R287: SEAL, ADDREF, RELEASE, ABANDON and TRIM of an object named by handle and GEN, STALE where the GEN
or the state does not fit, the same for the host with its result, and the Page Warden's settings and counters. -/
def Obligations.ObjectLife : Prop :=
  ∀ (s : State) (h : Fin 2048) (gen : BitVec 7) (n : Nat) (dest : PwDest), Clocked s →
    let e := s.pw.map[h.val]
    let becomes := fun e' : MapEntry => Host.Outcome.next { s with pw := { s.pw with map := upd s.pw.map h fun _ => e' } }
    let refused := Host.Outcome.next { s with
      pw := { s.pw with cntRefuse := upd s.pw.cntRefuse (clsNo e.cls) (· + 1), flags := s.pw.flags.set 2 } }
    let stale := Host.Outcome.next { s with pw := { s.pw with cntStale := s.pw.cntStale + 1, flags := s.pw.flags.set 3 } }
    let freed : MapEntry := { MapEntry.init with gen := e.gen }
    -- the object reclaimed; the pages of a POISON object are rewritten first
    let reclaimed := Host.Outcome.next { s with
      pw := { s.pw with map := upd s.pw.map h fun _ => freed
                        rewriting := if e.poison && !e.pages.isEmpty then s.pw.rewriting ++ [e.pages] else s.pw.rewriting } }
    -- the host's operation does in the Page Warden what one of nobody inside the model does, and its result tells the outcome
    let forHost := fun (c : PwDest → Instr) (q : PwReq) => pwIsNext s q = true → ∃ t u, exec (c .host) s = .next t ∧
      exec (c .none) (pwServed s q) = .next u ∧ Only [.pw, .qe] s t ∧ t.pw = u.pw ∧ t.qe.flags = s.qe.flags.set 6 ∧
      t.qe.result.busy = false ∧ t.qe.result.done = true ∧ t.qe.result.handle = s.qe.result.handle ∧
      (e.st = .free ∨ e.gen ≠ gen → t.qe.result.code = 2)
    (e.st = .free ∨ e.gen ≠ gen → exec (.seal .none h gen) s = stale ∧ exec (.addref .none h gen) s = stale ∧
      exec (.release .none h gen) s = stale ∧ exec (.abandon .none h gen) s = stale ∧ exec (.trim h gen n) s = stale) ∧
    (e.st = .writing → e.gen = gen →
      exec (.seal .none h gen) s = becomes { e with st := .sealed_, refs := 1 } ∧ exec (.abandon .none h gen) s = reclaimed) ∧
    (e.st = .sealed_ → e.gen = gen → exec (.seal .none h gen) s = refused ∧ exec (.abandon .none h gen) s = refused ∧
      (e.poison = true → exec (.addref .none h gen) s = .next s) ∧
      (e.poison = false → 3 ≤ e.refs →
        exec (.addref .none h gen) s = .next { s with pw := { s.pw with cntRefFull := s.pw.cntRefFull + 1 } }) ∧
      (e.poison = false → e.refs < 3 → exec (.addref .none h gen) s = becomes { e with refs := e.refs + 1 }) ∧
      (e.refs = 1 → exec (.release .none h gen) s = reclaimed) ∧
      (1 < e.refs → exec (.release .none h gen) s = becomes { e with refs := e.refs - 1 })) ∧
    (e.refs = 0 → e.st ≠ .free → e.gen = gen → exec (.release .none h gen) s = refused) ∧
    (dest ≠ .none →
      (pwIsNext s (.seal dest h gen) = false → exec (.seal dest h gen) s = .next s) ∧
      (pwIsNext s (.addref dest h gen) = false → exec (.addref dest h gen) s = .next s) ∧
      (pwIsNext s (.release dest h gen) = false → exec (.release dest h gen) s = .next s) ∧
      (pwIsNext s (.abandon dest h gen) = false → exec (.abandon dest h gen) s = .next s)) ∧
    forHost (.seal · h gen) (.seal .host h gen) ∧ forHost (.addref · h gen) (.addref .host h gen) ∧
    forHost (.release · h gen) (.release .host h gen) ∧ forHost (.abandon · h gen) (.abandon .host h gen) ∧
    (e.st ≠ .free → e.gen = gen → exec (.trim h gen n) s = .next { s with
      pw := { s.pw with map := upd s.pw.map h fun _ => { e with pages := e.pages.take n }
                        rewriting := if e.poison && !(e.pages.drop n).isEmpty then s.pw.rewriting ++ [e.pages.drop n] else s.pw.rewriting } }) ∧
    (s.pw.group.pending = false → exec .pwCommitApply s = .next s) ∧
    (s.pw.group.pending = true →
      let g := s.pw.group.shadow
      let bad := decide (4096 < (g.qmin.toList.map fun w => fld w 12 0).sum ∨ 2048 < (g.qmin.toList.map fun w => fld w 27 16).sum)
      exec .pwCommitApply s = .next { s with
        pw := { s.pw with group := { s.pw.group with
                            active := g, pending := s.pw.group.again, again := false, wait := 0, count := s.pw.group.count + 1 }
                          quotaBad := bad, flags := if bad then s.pw.flags.set 4 else s.pw.flags } }) ∧
    exec .pwCntClear s = .next { s with
      pw := { s.pw with cntRefuse := Vector.replicate 3 0, cntCe := 0, cntUe := 0, cntStale := 0, cntRefFull := 0, cntRange := 0 } }

/-- R252, R253: a repeat of a read that found an uncorrectable error, which ends clean, corrected or, at the second, uncorrectable with
the object marked POISON; and the rewrite of poisoned pages with zeros. -/
def Obligations.ReadErrors : Prop :=
  ∀ (s : State) (addr : BitVec 24) (repeats : Nat) (found : Ecc), Clocked s →
    let word := addr.toNat / 8 * 8
    -- the repeat finds the code word uncorrectable: its check bits are bad as stored, or the read says so
    let bad := word ∈ s.pw.badWords ∨ ∃ raw, found = .uncorrectable raw
    let run := exec (.readRepeat addr none repeats found) s
    (2 ≤ repeats → run = .next s) ∧
    (bad → repeats = 0 → run = .next s) ∧
    (repeats = 1 → bad → ∃ t, run = .next t ∧ Only [.pw, .qe, .dm] s t ∧
      t.pw = { s.pw with
        map := (match mappedAt s addr.toNat with
                | none => s.pw.map
                | some h => upd s.pw.map h fun e => { e with poison := true })
        cntUe := s.pw.cntUe + 1, lastErr := BitVec.ofNat 32 word, lastErrKind := 2, flags := s.pw.flags.set 1
        ueDone := s.pw.ueDone ++ [word] } ∧ t.qe.seq = nextSeq s.qe.seq) ∧
    (repeats < 2 → ¬bad → found = .clean → ∃ t, run = .next t ∧ Only [.pw, .qe, .dm] s t ∧
      t.pw = { s.pw with lastErr := BitVec.ofNat 32 word, lastErrKind := 2 } ∧ t.qe.seq = nextSeq s.qe.seq) ∧
    (repeats < 2 → ¬bad → found = .corrected → ∃ t, run = .next t ∧ Only [.pw, .qe, .dm] s t ∧
      t.pw = { s.pw with cntCe := s.pw.cntCe + 1, lastErr := BitVec.ofNat 32 word, lastErrKind := 1, flags := s.pw.flags.set 0 } ∧
      t.qe.seq = nextSeq s.qe.seq) ∧
    (∀ r i, bad → repeats = 0 → exec (.readRepeat addr (some (r, i)) repeats found) s = .next { s with qe := { s.qe with
      taken := s.qe.taken.map fun x => if x.ring = r ∧ x.idx = i then { x with at_ := s.clock, repeats := x.repeats + 1 } else x } }) ∧
    (∀ entry, repeats < 2 → ∃ t, exec (.readRepeat addr entry repeats found) s = .next t ∧ Only [.pw, .qe, .dm] s t) ∧
    (s.pw.rewriting = [] → exec .poisonRewriteDone s = .next s) ∧
    (∀ p rest, s.pw.rewriting = [p] :: rest → MemInv s → ∃ t, exec .poisonRewriteDone s = .next t ∧ Only [.pw, .fs] s t ∧
      t.pw.rewriting = rest ∧ t.pw.map = s.pw.map ∧ SameOutside s.fs t.fs (4096 * p.toNat) 4096 ∧
      (∀ i, i < 4096 → memRead t.fs (4096 * p.toNat + i) = 0) ∧
      ∀ w ∈ t.pw.badWords, w + 8 ≤ 4096 * p.toNat ∨ 4096 * p.toNat + 4096 ≤ w)

/-- R284, R285, R287, R290, R299: a doorbell that sets PI or CI, or is ignored and counted; the host's commands to the Page Warden, one
at a time; the counters cleared. -/
def Obligations.HostDoorbells : Prop :=
  ∀ (s : State) (q : Req) (r : Fin 1024) (i : BitVec 16) (h : Fin 2048) (gen : BitVec 7), Clocked s →
    let g := s.qe.rings[r.val]
    let a := g.group.active
    let on := bit a.ctrl 0 = true ∧ g.cfgBad = false
    -- no earlier write of the requester to descriptor memory is on its way, and MP rang no bell in this tick
    let first := (∀ x ∈ s.bus.inflight, x.req = q → blockOf x.addr ≠ some .desc) ∧ (q = .mp ∨ mpWrote s 0x8_0010 = none)
    let noted := fun ci : Bool => { s with moment := { s.moment with wrote := ⟨q, 0x8_0010, bellWord ci r i⟩ :: s.moment.wrote } }
    let ignored := fun ci : Bool => Host.Outcome.next { noted ci with
      qe := { s.qe with cntDoorbellBad := s.qe.cntDoorbellBad + 1, flags := s.qe.flags.set 2 } }
    let d := (i - g.di).toNat
    let asked := fun q : PwReq => Host.Outcome.next { s with
      pw := { s.pw with waiting := s.pw.waiting ++ [q] }
      qe := { s.qe with result := { s.qe.result with busy := true, done := false } } }
    (first → on → ringProdKind r a = 0 → (g.ci - g.di).toNat ≤ d → d ≤ 2 ^ fld a.ctrl 7 4 →
      ∃ t, exec (.doorbellPi q r i) s = .next t ∧ SameButTurns ((noted false).modRing r fun g => { g with
        pi := i, posts := g.posts + BitVec.ofNat 16 (d - (g.pi - g.di).toNat) }) t) ∧
    (first → ¬on ∨ ringProdKind r a ≠ 0 ∨ d < (g.ci - g.di).toNat ∨ 2 ^ fld a.ctrl 7 4 < d →
      exec (.doorbellPi q r i) s = ignored false) ∧
    (first → on → fld a.ctrl 27 24 = 0 → d ≤ (g.pi - g.di).toNat → exec (.doorbellCi q r i) s = .next { noted true with
      qe := { s.qe with rings := upd s.qe.rings r fun g => { g with ci := i, di := i, done := [] } } }) ∧
    (first → ¬on ∨ fld a.ctrl 27 24 ≠ 0 ∨ (g.pi - g.di).toNat < d → exec (.doorbellCi q r i) s = ignored true) ∧
    (s.qe.result.busy = true → exec .hostAlloc s = .next s ∧ exec (.hostAddref h gen) s = .next s ∧
      exec (.hostRelease h gen) s = .next s ∧ exec (.hostSeal h gen) s = .next s ∧ exec (.hostAbandon h gen) s = .next s) ∧
    (s.qe.result.busy = false →
      exec .hostAlloc s = asked (.alloc .host .host 0 s.qe.argN.toNat s.qe.argStride) ∧
      exec (.hostAddref h gen) s = asked (.addref .host h gen) ∧ exec (.hostRelease h gen) s = asked (.release .host h gen) ∧
      exec (.hostSeal h gen) s = asked (.seal .host h gen) ∧ exec (.hostAbandon h gen) s = asked (.abandon .host h gen)) ∧
    exec .qeCntClear s = .next { s with
      qe := { s.qe with cntFaultLost := 0, cntDoorbellBad := 0, cntTimeout := 0, cntLate := 0
                        rings := s.qe.rings.map fun g => { g with posts := 0, full := 0 } } }

/-- R276 to R278, R288 to R292, R298: the ring a consumer takes its next entry from, in its turn, by class; the entry taken; an entry
whose timeout has run out, which completes with its own status where it has one in that clock; and the commit of a ring. -/
def Obligations.RingEntries : Prop :=
  ∀ (s : State) (c : Consumer) (r : Fin 1024) (i : BitVec 16), Clocked s →
    let g := s.qe.rings[r.val]
    (accepts s c = false ∨ tagFree s c = false ∨ pickRing s c = none → exec (.dispatch c) s = .next s) ∧
    -- the first class with a ready ring is served; the ring in its turn goes on while its credit lasts
    (∀ k : Fin 4, (∀ j, j < k → turnOf s c j = []) → (∀ rest, turnOf s c k = r :: rest → g.inTurn = true →
      nextCost s r ≤ g.deficit → pickRing s c = some (r, s.modRing r fun x => { x with deficit := x.deficit - nextCost s r }))) ∧
    ((∀ k : Fin 4, turnOf s c k = []) → pickRing s c = none) ∧
    (∀ s1, accepts s c = true → tagFree s c = true → pickRing s c = some (r, s1) → ∃ t, exec (.dispatch c) s = .next t ∧
      Only [.acc, .qe, .egr] s t ∧ t.qe.rings[r.val].ci = g.ci + 1 ∧ t.qe.rings[r.val].pi = g.pi ∧ t.qe.rings[r.val].di = g.di ∧
      ∃ x ∈ t.qe.taken, x.ring = r ∧ x.idx = g.ci ∧ x.cons = c ∧ x.at_ = s.clock ∧ x.entry = entryBytes s r g.ci ∧
        x.limit = fld g.group.active.sched 31 16) ∧
    (findTaken s r i = none → exec (.ringTimeout r i) s = .next s) ∧
    (∀ e, findTaken s r i = some e →
      (e.limit = 0 ∨ s.clock < e.at_ + 400 * e.limit → exec (.ringTimeout r i) s = .next s) ∧
      (e.limit ≠ 0 → e.at_ + 400 * e.limit ≤ s.clock →
        (∀ code, endStatus s e = some code → exec (.ringTimeout r i) s = exec (.entryComplete r i) s) ∧
        (endStatus s e = none → ∃ t, exec (.ringTimeout r i) s = .next t ∧
          Only [.acc, .pw, .qe, .egr, .fsp, .dm] s t ∧ findTaken t r i = none ∧ t.qe.cntTimeout = s.qe.cntTimeout + 1 ∧
          t.qe.flags.on 3 = true ∧ t.qe.seq = nextSeq s.qe.seq))) ∧
    (g.group.pending = false ∨ ringMustWait s r = true → exec (.qeRingCommitApply r) s = .next s) ∧
    (g.group.pending = true → ringMustWait s r = false →
      (ringInvalid s r g.group.shadow = true → ringOn g = false → ∃ t, exec (.qeRingCommitApply r) s = .next t ∧ SameButTurns { s with
        qe := { s.qe with
          flags := s.qe.flags.set 5
          rings := upd s.qe.rings r fun g => { g with
            cfgBad := true, group := { g.group with pending := g.group.again, again := false, wait := 0 } } } } t) ∧
      (ringInvalid s r g.group.shadow = false → ringOn g = false ∨ ringEn g.group.shadow = true →
        ∃ t, exec (.qeRingCommitApply r) s = .next t ∧ SameButTurns (s.modRing r fun g => { g with
          cfgBad := false
          group := { g.group with
            active := g.group.shadow, pending := g.group.again, again := false, wait := 0, count := g.group.count + 1 }
          pi := if ringEn g.group.shadow = true ∧ ringOn g = false ∧ g.pi = g.di then 0 else g.pi
          ci := if ringEn g.group.shadow = true ∧ ringOn g = false ∧ g.pi = g.di then 0 else g.ci
          di := if ringEn g.group.shadow = true ∧ ringOn g = false ∧ g.pi = g.di then 0 else g.di
          done := if ringEn g.group.shadow = true ∧ ringOn g = false ∧ g.pi = g.di then [] else g.done }) t))

/-- R76, R77, R104, R112, R113, R282, R283, R286, R292: the next word of a management operation when its time has come, and the entry
completed with its STATUS and the words that an INLINE read brought. -/
def Obligations.MgmtEntries : Prop :=
  ∀ (s : State) (fabric : Bool) (ecc : Ecc) (r : Fin 1024) (i : BitVec 16), Clocked s →
    let due := fun o : MgmtOp => o.fabric == fabric && wordDue s o
    let frame := [Part.acc, .pw, .qe, .egr, .dm]
    ((∀ o ∈ s.qe.ops, due o = false) → exec (.mgmtWordIssue fabric ecc) s = .next s) ∧
    (∀ o : MgmtOp, wordDue s o = true ↔ o.poisoned = false ∧ o.stale = false ∧ o.next < o.nwords ∧ (o.next = 0 ∨ o.lastAt + 48 ≤ s.clock)) ∧
    (∀ o, s.qe.ops = [o] → due o = true →
      let stepped := { o with next := o.next + 1, lastAt := s.clock }
      let a := o.addr + BitVec.ofNat 32 (4 * o.next)
      let read := fun w : Word => { stepped with inlineData := o.inlineData.set o.next w }
      let leaves := fun o' : MgmtOp => ∃ t, exec (.mgmtWordIssue fabric ecc) s = .next t ∧ Only [.acc, .qe] s t ∧
        t.qe = { s.qe with ops := [o'] }
      -- a refused operation reaches nothing, and an INLINE read of it gives zeros
      (o.refused = true → o.inline = true → leaves (if o.write then stepped else read 0)) ∧
      -- a word of a permitted INLINE write is posted under the order of the operation's check
      (o.refused = false → o.inline = true → o.write = true →
        (responds s a = true → blockOf a ≠ some .bkp → ∃ t, exec (.mgmtWordIssue fabric ecc) s = .next t ∧ Only [.acc, .bus, .qe] s t ∧
          t.qe = { s.qe with ops := [stepped] } ∧
          t.bus = { s.bus with
            nextId := s.bus.nextId + 1
            inflight := s.bus.inflight ++ [⟨s.bus.nextId, .qe, a, o.inlineData.getD o.next 0, o.order, s.clock⟩] }) ∧
        (responds s a = false → leaves { stepped with noresp := true })) ∧
      (o.refused = false → o.inline = true → o.write = false →
        (responds s a = true → PlainRead a → Settled s .qe a → leaves (read (regWord .qe s a))) ∧
        (responds s a = false → leaves { read 0 with noresp := true })) ∧
      (o.inline = false → (s.pw.map[o.handle.val].st = .free ∨ s.pw.map[o.handle.val].gen ≠ o.gen) →
        ∃ t, exec (.mgmtWordIssue fabric ecc) s = .next t ∧ Only [.acc, .pw, .qe] s t ∧
          t.pw.cntStale = s.pw.cntStale + 1 ∧ t.qe = { s.qe with ops := [{ stepped with stale := true }] })) ∧
    (findTaken s r i = none → exec (.entryComplete r i) s = .next { s with
      qe := { s.qe with cntLate := s.qe.cntLate + 1, flags := s.qe.flags.set 4 } }) ∧
    (∀ e, findTaken s r i = some e →
      (e.verdict ≠ 0 → ∃ t, exec (.entryComplete r i) s = .next t ∧ Only frame s t ∧ findTaken t r i = none ∧
        t.dm = memWriteBytes s.dm (e.addr + 1) [e.verdict] ∧ t.qe.ops = s.qe.ops.filter fun o => !(o.ring == r && o.idx == i)) ∧
      (e.verdict = 0 → (∀ o ∈ s.qe.ops, o.ring ≠ r ∨ o.idx ≠ i) → exec (.entryComplete r i) s = .next s) ∧
      (∀ o, e.verdict = 0 → s.qe.ops = [o] → o.ring = r → o.idx = i →
        let status : Byte := if o.refused then 2 else if o.stale then 4 else if o.poisoned then 5 else if o.noresp then 8 else 1
        (opRetired s o = false → exec (.entryComplete r i) s = .next s) ∧
        (opRetired s o = true →
          ∃ t, exec (.entryComplete r i) s = .next t ∧ Only frame s t ∧ findTaken t r i = none ∧ t.qe.ops = [] ∧
            (o.inline = false ∨ o.write = true → t.dm = memWriteBytes s.dm (e.addr + 1) [status]) ∧
            (o.inline = true → o.write = false → t.dm = memWriteBytes (memWriteBytes s.dm (e.addr + 16)
              ((o.inlineData.take o.nwords).flatMap fun w => leBytes 4 w.toNat)) (e.addr + 1) [status]))))

/-- R44, R306, R313, R319, R322 to R326, R331: a port's link up and down as its receiver reports it, its LINK fault, transient or
permanent, REVIVE, its settings, counters and gap trackers, and the receive ring's consumer index. -/
def Obligations.EgressLinks : Prop :=
  ∀ (s : State) (n : Fin 4) (rx : LinkRx) (mask : BitVec 16) (ci : Byte), Clocked s →
    let p := s.egr[n.val]
    let g := p.group.active
    let becomes := fun p' : Egr => Host.Outcome.next { s with egr := upd s.egr n fun _ => p' }
    let good : LinkRx := ⟨true, false, false, false⟩
    let clear := p.blockLock = true ∧ p.hiBer = false ∧ p.rxLocalFault = false ∧ p.rxRemoteFault = false
    let link := clear ∧ s.sys.ethLock = true
    -- what the receiver reports from now on
    let reports := fun rx : LinkRx =>
      { p with blockLock := rx.blockLock, hiBer := rx.hiBer, rxLocalFault := rx.localFault, rxRemoteFault := rx.remoteFault }
    let lost := { reports rx with linkLoss := p.linkLoss + 1, flags := p.flags.set 0, wire := none
                                  discFrames := if p.wire.isSome then p.discFrames + 1 else p.discFrames }
    (pinsLive s = false → exec (.linkUp n) s = .next s ∧ exec (.linkDown n rx) s = .next s) ∧
    exec (.linkDown n good) s = .next s ∧
    (pinsLive s = true →
      (link ∨ s.sys.ethLock = false → exec (.linkUp n) s = becomes (reports good)) ∧
      (¬link → s.sys.ethLock = true → exec (.linkUp n) s = becomes { reports good with
        armed := p.armed || (bit g.cfg 0 && !p.retired)
        fault := p.fault.map fun f => { f with downTicks := egrDownTicks s f, downSince := none } }) ∧
      (rx ≠ good → ¬link → exec (.linkDown n rx) s = becomes (reports rx)) ∧
      (rx ≠ good → link →
        (p.armed = false ∨ p.retired = true → exec (.linkDown n rx) s = becomes lost) ∧
        (p.armed = true → p.retired = false →
          (p.fault = none → exec (.linkDown n rx) s = becomes { lost with
            fault := some { start := s.clock, losses := 1, downTicks := 0, downSince := some s.clock } }) ∧
          (∀ f, p.fault = some f → f.losses < 3 → exec (.linkDown n rx) s = becomes { lost with
            fault := some { f with losses := f.losses + 1, downSince := some s.clock } }) ∧
          (∀ f, p.fault = some f → 3 ≤ f.losses → ∃ t, exec (.linkDown n rx) s = .next t ∧ Only [.egr, .qe, .dm] s t ∧
            t.egr = upd s.egr n fun _ => { lost with
              fault := none, retired := true, armed := false, faultSeq := s.qe.seq
              flags := ((p.flags.set 0).set 1).set 2, group := { p.group with pending := false, again := false } })))) ∧
    (p.fault = none → exec (.egrLinkWindowEnd n) s = .next s) ∧
    (∀ f, p.fault = some f →
      let limit := max (fld g.cfg 23 16) 1 * 4000000
      (s.clock < f.start + limit → exec (.egrLinkWindowEnd n) s = .next s) ∧
      (f.start + limit ≤ s.clock → (link ∧ f.losses ≤ 3) ∨ p.retired = true → ∃ t, exec (.egrLinkWindowEnd n) s = .next t ∧
        Only [.egr, .qe, .dm] s t ∧ t.egr = upd s.egr n fun _ => { p with fault := none, flags := p.flags.set 1 }) ∧
      (f.start + limit ≤ s.clock → ¬ link ∨ 3 < f.losses → p.retired = false →
        ∃ t, exec (.egrLinkWindowEnd n) s = .next t ∧ Only [.egr, .qe, .dm] s t ∧ t.egr = upd s.egr n fun _ => { p with
          fault := none, retired := true, armed := false, faultSeq := s.qe.seq, flags := (p.flags.set 1).set 2
          group := { p.group with pending := false, again := false } })) ∧
    (p.retired = false → exec (.egrRevive n) s = .next s) ∧
    (p.retired = true → exec (.egrRevive n) s = becomes { p with
      retired := false, armed := false, pseq := Vector.replicate 8 0, gapLast := Vector.replicate 16 none }) ∧
    exec (.egrCntClear n) s = becomes { p with
      txBytes := 0, txFrames := 0, txLines := 0, discFrames := 0, discEntries := 0, entryErr := 0, cntPause := 0, cntOrder := 0
      linkLoss := 0, cntRxPtp := 0, rxDrop := Vector.replicate 6 0 } ∧
    exec (.gapReset n mask) s = becomes { p with
      gapLast := Vector.ofFn fun i : Fin 16 => if bit mask i.val then none else p.gapLast[i.val] } ∧
    ((ci - p.rxCi).toNat ≤ (p.rxPi - p.rxCi).toNat → exec (.rxCiWrite n ci) s = becomes { p with rxCi := ci }) ∧
    ((p.rxPi - p.rxCi).toNat < (ci - p.rxCi).toNat → exec (.rxCiWrite n ci) s = .next s) ∧
    -- a commit applies when no entry is held, or when the construction of a frame can start
    (let building := ∃ f ∈ p.frames, f.ready = false
     let full := egrDiscards s n = false ∧ 2 ≤ p.frames.length + (if p.wire.isSome then 1 else 0)
     let new := p.group.shadow
     let applied := { p with
        group := { p.group with active := new, pending := p.group.again, again := false, wait := 0, count := p.group.count + 1 }
        armed := bit new.cfg 0 && (if bit g.cfg 0 then p.armed else decide link && !p.retired)
        gapLast := Vector.ofFn fun i : Fin 16 =>
          if bit g.gap[i.val] 31 = bit new.gap[i.val] 31 ∧ fld g.gap[i.val] 9 0 = fld new.gap[i.val] 9 0 then p.gapLast[i.val]
          else none }
     (p.group.pending = false ∨ (p.held ≠ [] ∧ (building ∨ full)) → exec (.egrCommitApply n) s = .next s) ∧
     (p.group.pending = true → p.held = [] ∨ ¬(building ∨ full) →
       (bit g.cfg 0 = false ∨ bit new.cfg 0 = true ∨ p.fault = none → exec (.egrCommitApply n) s = becomes applied) ∧
       -- a port disabled with a LINK fault open classes it
       (∀ f, bit g.cfg 0 = true → bit new.cfg 0 = false → p.fault = some f → ∃ t, exec (.egrCommitApply n) s = .next t ∧
         Only [.egr, .qe, .dm] s t ∧ Others n s.egr t.egr ∧ t.egr[n.val].fault = none ∧ t.egr[n.val].armed = false ∧
         t.egr[n.val].group.active = new ∧ t.egr[n.val].group.pending = (p.group.again && (decide (link ∧ f.losses ≤ 3) || p.retired)) ∧
         t.egr[n.val].retired = (p.retired || !decide (link ∧ f.losses ≤ 3)))))

/-- R307 to R318, R320 to R322: a fragment's frame begun with the gap of its line, its payload read, the frame sent under the next PSEQ,
a frame that leaves or is discarded, an entry whose last fragment was read or discarded, and received frames dropped or stored. -/
def Obligations.EgressFrames : Prop :=
  ∀ (s : State) (n : Fin 4) (eccs : List Ecc) (b : List Byte), Clocked s →
    let p := s.egr[n.val]
    let g := p.group.active
    let becomes := fun p' : Egr => Host.Outcome.next { s with egr := upd s.egr n fun _ => p' }
    let dropped := fun r : Fin 6 => becomes { p with rxDrop := upd p.rxDrop r (· + 1) }
    let spent := fun c : Fin 8 => { p with pseq := upd p.pseq c (· + 1), discFrames := p.discFrames + 1 }
    let used := p.frames.length + (if p.wire.isSome then 1 else 0)
    let building := ∃ f ∈ p.frames, f.ready = false
    -- the frame of the fragment at byte h.frag of its line, with F_MAX = F and its payload still to be read
    let frameFor := fun (f : Frame) (h : Held) (F : Nat) => f.first = decide (h.frag = 0) ∧ f.fragOffset = BitVec.ofNat 16 h.frag ∧
      f.trig = h.trig + BitVec.ofNat 32 h.line ∧ f.user = h.user ∧ f.lineBytes = BitVec.ofNat 16 h.length ∧
      f.ring = BitVec.ofNat 10 h.ring.val ∧ f.last = decide (h.length ≤ h.frag + min F (h.length - h.frag)) ∧ f.cls = h.cls ∧
      f.stream = BitVec.ofNat 8 (h.cls.val + 8 * n.val + 32 * fld g.cfg 10 8) ∧ f.gapValid = h.gapValid ∧ f.gap = h.gap ∧
      f.ready = false
    (egrDiscards s n = true ∨ p.held = [] ∨ building ∨ 2 ≤ used → exec (.frameBuild n) s = .next s) ∧
    (egrDiscards s n = false → ¬building → used < 2 → p.group.pending = false → ∀ h rest, p.held = h :: rest →
      (∀ F, h.fmax = some F → ∃ f, exec (.frameBuild n) s = becomes { p with frames := p.frames ++ [f] } ∧ frameFor f h F) ∧
      (h.fmax = none →
        let F := clsFmax g.cls[h.cls.val]
        let trig := h.trig + BitVec.ofNat 32 h.line
        let plain := { h with fmax := some F, gapValid := false, gap := 0 }
        (trackerOf g h.ring = none → ∃ f, exec (.frameBuild n) s = becomes { p with
          held := plain :: rest, frames := p.frames ++ [f] } ∧ frameFor f plain F) ∧
        (∀ i, trackerOf g h.ring = some i → p.gapLast[i.val] = none → ∃ f, exec (.frameBuild n) s = becomes { p with
          held := plain :: rest, frames := p.frames ++ [f], gapLast := upd p.gapLast i fun _ => some trig } ∧ frameFor f plain F) ∧
        (∀ i last, trackerOf g h.ring = some i → p.gapLast[i.val] = some last →
          let d := sInt (trig - last)
          let gapped := if 1 ≤ d then { plain with gapValid := true, gap := BitVec.ofNat 16 (min (d - 1).toNat 0xFFFF) } else plain
          ∃ f, exec (.frameBuild n) s = becomes { p with
            held := gapped :: rest, frames := p.frames ++ [f], gapLast := upd p.gapLast i fun _ => some trig
            cntOrder := if 1 ≤ d then p.cntOrder else p.cntOrder + 1 } ∧ frameFor f gapped F))) ∧
    (p.held = [] ∨ ¬building → exec (.payloadReadDone n eccs) s = .next s) ∧
    (building → ∀ h rest, p.held = h :: rest →
      let e := s.pw.map[h.handle.val]
      let off := objOffset e (h.firstLine + h.line) (h.offset + h.frag)
      let len := min (h.fmax.getD 0) (h.length - h.frag)
      let words := objWords e off len eccs
      let lastOfLine := h.length ≤ h.frag + len
      let built := p.frames.map fun f => if f.ready then f else { f with data := objRead s e off len, ready := true }
      ((∃ w ∈ words, isBad s w = true) → ∃ t, exec (.payloadReadDone n eccs) s = .next t ∧ Only [.pw, .qe, .egr, .dm] s t ∧
        findTaken t h.ring h.idx = none ∧ t.egr[n.val].frames = p.frames.filter (·.ready)) ∧
      ((∀ w ∈ words, eccFound s w.1 w.2 = .clean) → off + len ≤ objSize e →
        (lastOfLine → h.nlines ≤ h.line + 1 → ∃ t, exec (.payloadReadDone n eccs) s = .next t ∧ Only [.pw, .qe, .egr, .dm] s t ∧
          findTaken t h.ring h.idx = none ∧ t.egr[n.val].frames = built) ∧
        (lastOfLine → h.line + 1 < h.nlines → exec (.payloadReadDone n eccs) s = becomes { p with
          held := { h with line := h.line + 1, frag := 0, fmax := none } :: rest, frames := built }) ∧
        (¬lastOfLine → exec (.payloadReadDone n eccs) s = becomes { p with
          held := { h with frag := h.frag + len } :: rest, frames := built }))) ∧
    (egrDiscards s n = true ∨ p.wire.isSome = true ∨ p.frames = [] → exec (.frameSend n) s = .next s) ∧
    (egrDiscards s n = false → p.wire = none → ∀ f rest, p.frames = f :: rest →
      (f.ready = false → exec (.frameSend n) s = .next s) ∧
      (f.ready = true → exec (.frameSend n) s = becomes { p with
        pseq := upd p.pseq f.cls (· + 1), frames := rest, wire := some (f, frameBytes f p.pseq[f.cls.val] s.time) })) ∧
    (p.wire = none → exec (.frameSent n) s = .next s) ∧
    (∀ f bytes, p.wire = some (f, bytes) → exec (.frameSent n) s = becomes { p with
      wire := none, sent := some bytes, txBytes := p.txBytes + BitVec.ofNat 64 bytes.length, txFrames := p.txFrames + 1
      txLines := if f.last then p.txLines + 1 else p.txLines }) ∧
    (egrDiscards s n = false ∨ p.wire.isSome = true ∨ (p.frames = [] ∧ p.held = []) → exec (.frameDiscard n) s = .next s) ∧
    (egrDiscards s n = true → p.wire = none →
      (∀ f rest, p.frames = f :: rest → f.ready = true → exec (.frameDiscard n) s = becomes { spent f.cls with frames := rest }) ∧
      -- a fragment not yet built, the one under construction first
      (∀ h rest F, p.held = h :: rest → h.fmax = some F →
        (p.frames = [] ∧ p.group.pending = false) ∨ (∃ f more, p.frames = f :: more ∧ f.ready = false) →
        (h.frag + F < h.length → exec (.frameDiscard n) s = becomes { spent h.cls with
          held := { h with frag := h.frag + F } :: rest, frames := p.frames.tail }) ∧
        (h.length ≤ h.frag + F → h.nlines ≤ h.line + 1 → ∃ t, exec (.frameDiscard n) s = .next t ∧
          Only [.pw, .qe, .egr, .dm] s t ∧ findTaken t h.ring h.idx = none ∧ t.egr[n.val].frames = p.frames.tail ∧
          t.egr[n.val].pseq = upd p.pseq h.cls (· + 1) ∧ t.egr[n.val].discFrames = p.discFrames + 1))) ∧
    (egrUp s n = false → exec (.receiveFrame n b) s = .next s) ∧
    (egrUp s n = true →
      let type := ofBe ((b.drop 12).take 2)
      let mine := b.take 6 = macOf g.srcMacHi g.srcMacLo ∨ b.take 6 ∈ ptpMacs
      let r := parseFrame (b.take (b.length - 4))
      (type = 0x8808 → exec (.receiveFrame n b) s = becomes { p with cntPause := p.cntPause + 1, flags := p.flags.set 3 }) ∧
      (type ≠ 0x8808 → fcsOk b = false → exec (.receiveFrame n b) s = dropped 1) ∧
      (type ≠ 0x8808 → fcsOk b = true → (b.length < 64 ∨ 9600 < b.length → exec (.receiveFrame n b) s = dropped 2) ∧
        (64 ≤ b.length → b.length ≤ 9600 → (¬ mine → exec (.receiveFrame n b) s = dropped 4) ∧
          (mine → (ptpMessage r = none → exec (.receiveFrame n b) s = dropped 4) ∧
            (∀ tr ip m, ptpMessage r = some (tr, ip, m) → m = [] ∨ 3 < (byteAt m 0).toNat % 16 →
              exec (.receiveFrame n b) s = dropped 4) ∧
            (∀ tr ip m, ptpMessage r = some (tr, ip, m) → m ≠ [] → (byteAt m 0).toNat % 16 ≤ 3 →
              (p.rxPi - p.rxCi = 16 → exec (.receiveFrame n b) s =
                becomes { p with rxDrop := upd p.rxDrop 5 (· + 1), flags := p.flags.set 5 }) ∧
              (p.rxPi - p.rxCi ≠ 16 → exec (.receiveFrame n b) s = becomes { p with
                rxRing := upd p.rxRing (Fin.ofNat 16 p.rxPi.toNat) fun _ => rxEntry s.time b r tr ip m
                rxPi := p.rxPi + 1, cntRxPtp := p.cntRxPtp + 1, flags := p.flags.set 4 }))))))

/-- R337, R339, R340, R345, R355 to R357: the training of a port, PROBE and ECHO, good and bad slots with the error counter, the port's
fault, transient or permanent, with the herds whose messages crossed it, REVIVE of a port, and the TIME messages due and received. -/
def Obligations.HerdLinkPorts : Prop :=
  ∀ (s : State) (p : Fin 2) (ta : BitVec 16) (slot : HlSlot) (head : HlHead) (value r : Tick), Clocked s →
    let q := s.hl.ports[p.val]
    let becomes := fun q' : HlPort => Host.Outcome.next { s with hl := { s.hl with ports := upd s.hl.ports p fun _ => q' } }
    let on := s.sys.hlLock = true ∧ pinsLive s = true
    let training := fun q : HlPort =>
      { q with st := .train, probesLeft := 16, probeAt := [], trips := [], goodRun := 0, fwd := [], timeDue := false, readyDue := 0 }
    let bad := { q with cntBad := q.cntBad + 1, err := min (q.err + 8) 255 }
    let enabled := bit s.hl.group.active.cfg (8 + p.val) = true
    (enabled → q.st = .down → on → exec (.trainStart p) s = becomes (training q)) ∧
    (¬enabled ∨ q.st ≠ .down ∨ ¬on → exec (.trainStart p) s = .next s) ∧
    (q.st = .failed ∨ q.st = .long → exec (.portRevive p) s = becomes (training { q with err := 0, good := 0, fault := none })) ∧
    (q.st = .disabled → q.kept ≠ .down → exec (.portRevive p) s = becomes { q with err := 0, good := 0, fault := none, kept := .down }) ∧
    (q.st ≠ .failed → q.st ≠ .long → q.st ≠ .disabled ∨ q.kept = .down → exec (.portRevive p) s = .next s) ∧
    (q.trips.length < 16 → measuredL q.trips = none) ∧
    (q.st = .train → (measuredL q.trips = none → exec (.trainComplete p) s = .next s) ∧ (∀ l, measuredL q.trips = some l →
      (24 < l → exec (.trainComplete p) s = becomes { q with st := .long }) ∧
      (l ≤ 24 → 16 ≤ q.goodRun → exec (.trainComplete p) s = becomes { q with st := .up }) ∧
      (l ≤ 24 → q.goodRun < 16 → exec (.trainComplete p) s = .next s))) ∧
    (q.st ≠ .train → exec (.trainComplete p) s = .next s) ∧
    -- a bad slot: a missing one on an UP port, and one whose code groups spell no good message
    (slotBad s p .missing = decide (q.st = .up)) ∧
    (∀ g, slotBad s p (.groups g) = true ↔ on ∧ ∀ m, slotMessage g = some m → messageGood m = false) ∧
    (∀ m, messageGood m = true ↔ (crc16 (m.take 14)).toNat = ofBe (m.drop 14) ∧
      fld (byteAt m 0) 7 4 ∈ [0, 1, 2, 3, 4, 5, 8, 9, 10, 11] ∧ fld (byteAt m 0) 1 0 = 0 ∧ fld (byteAt m 1) 1 0 = 0 ∧
      (fld (byteAt m 0) 7 4 = 4 → fld (byteAt m 12) 7 4 = 0)) ∧
    (slotBad s p slot = false → exec (.badMessage p slot) s = .next s) ∧
    (¬on → exec (.idleMessage p) s = .next s ∧ exec (.probe p) s = .next s ∧ exec (.echo p ta) s = .next s) ∧
    (q.st = .train → slotBad s p slot = true →
      exec (.badMessage p slot) s = becomes { q with cntBad := q.cntBad + 1, goodRun := 0 }) ∧
    (on → q.st = .train → exec (.idleMessage p) s = becomes { q with goodRun := q.goodRun + 1 } ∧
      exec (.probe p) s = becomes { q with goodRun := q.goodRun + 1, echoes := q.echoes ++ [s.clock] } ∧
      (q.probeAt = [] → exec (.echo p ta) s = becomes { q with goodRun := q.goodRun + 1 }) ∧
      (∀ sent rest, q.probeAt = sent :: rest →
        let trips := q.trips ++ [(s.clock - sent, ta.toNat)]
        (q.trips.length < 15 → exec (.echo p ta) s = becomes { q with goodRun := q.goodRun + 1, probeAt := rest, trips := trips }) ∧
        (15 ≤ q.trips.length → ∃ t, exec (.echo p ta) s = .next t ∧ Only [.hl, .free] s t ∧ t.hl.ports[p.val].trips = trips ∧
          ∀ l, measuredL trips = some l → l < 128 → t.hl.ports[p.val].l = BitVec.ofNat 7 l))) ∧
    (on → q.st = .up →
      (q.err = 0 → exec (.idleMessage p) s = .next s ∧ exec (.probe p) s = becomes { q with echoes := q.echoes ++ [s.clock] } ∧
        (q.probeAt = [] → exec (.echo p ta) s = .next s)) ∧
      (0 < q.err → q.good + 1 < 256 → exec (.idleMessage p) s = becomes { q with good := q.good + 1 }) ∧
      (0 < q.err → 256 ≤ q.good + 1 → q.fault = none ∨ q.err ≠ 1 →
        exec (.idleMessage p) s = becomes { q with good := 0, err := q.err - 1 }) ∧
      (∀ f, q.err = 1 → 256 ≤ q.good + 1 → q.fault = some f → ∃ t, exec (.idleMessage p) s = .next t ∧ Only [.hl, .qe, .dm] s t ∧
        t.hl = { s.hl with
          flags := s.hl.flags.set 7
          ports := upd s.hl.ports p fun _ => { q with good := 0, err := 0, fault := none, faultSeq := s.qe.seq } })) ∧
    (q.st = .up → slotBad s p slot = true →
      (q.fault = none → q.err + 8 < 96 → exec (.badMessage p slot) s = becomes { bad with fault := none }) ∧
      (q.fault = none → 96 ≤ q.err + 8 → q.err + 8 < 255 → exec (.badMessage p slot) s = .next { s with
        hl := { s.hl with flags := s.hl.flags.set 0
                          ports := upd s.hl.ports p fun _ => { bad with fault := some ⟨q.err + 8, 1⟩ } } }) ∧
      (∀ f, q.fault = some f → q.err + 8 < 255 → exec (.badMessage p slot) s =
        becomes { bad with fault := some ⟨max f.high (q.err + 8), f.bad + 1⟩ }) ∧
      (∀ f, q.fault = some f → 255 ≤ q.err + 8 → ∃ t, exec (.badMessage p slot) s = .next t ∧ Only [.hl, .qe, .dm] s t ∧
        t.hl.flags = (s.hl.flags.set 1).set 7 ∧ t.hl.ports = upd s.hl.ports p (fun _ =>
          { bad with st := .failed, fault := none, faultSeq := s.qe.seq, timeDue := false, readyDue := 0 }) ∧
        t.hl.herds = s.hl.herds ∧ ∃ more, t.hl.out0 = s.hl.out0 ++ more ∧ more.map (·.herd) = herdsAcross s p ∧
          ∀ o ∈ more, o.ev = .retire ∧ o.delta = 448 ∧ o.seq = s.qe.seq)) ∧
    (q.st ≠ .train → q.st ≠ .up → exec (.idleMessage p) s = .next s ∧ exec (.badMessage p slot) s = .next s ∧
      (q.probeAt = [] → exec (.echo p ta) s = .next s) ∧ (q.st ≠ .long → exec (.probe p) s = .next s)) ∧
    (let due := s.hl.timeSentAt = none ∨ ∃ at_, s.hl.timeSentAt = some at_ ∧ at_ + 4096 ≤ s.clock
     let up := ∃ k : Fin 2, s.hl.ports[k.val].st = .up
     (isTimeLead s = false ∨ ¬up ∨ ¬due → exec .timeOriginate s = .next s) ∧
     (isTimeLead s = true → up → due → exec .timeOriginate s = .next { s with
       hl := { s.hl with timeSentAt := some s.clock
                         ports := s.hl.ports.map fun q => if q.st = .up then { q with timeDue := true } else q } })) ∧
    -- a TIME message: on a port that is not UP it only counts as good; a follower takes its lead's
    (let q := s.hl.ports[head.port.val]
     let run := exec (.timeMessage head value r) s
     let moves := fun (t : State) (ps : List Part) => run = .next t ∧ Only ([.hl, .qe, .dm] ++ ps) s t
     let e := ((value + BitVec.ofNat 64 (64 * head.hops.val)) - (r - q.l.setWidth 64)).toInt
     (¬on ∨ q.st ≠ .up → run = exec (.idleMessage head.port) s) ∧
     (on → q.st = .up →
       (head.origin ≠ hlTimeDev s → ∃ t, moves t [] ∧ t.hl.cntForeign = s.hl.cntForeign + 1) ∧
       (head.origin = hlTimeDev s → isTimeLead s = true → ∃ t, moves t [] ∧ t.hl.cntForeign = s.hl.cntForeign) ∧
       (head.origin = hlTimeDev s → isTimeLead s = false →
         (-1 ≤ e → e ≤ 1 → ∃ t, moves t [.time, .free] ∧ t.time = s.time + BitVec.ofInt 64 e ∧
           t.hl.goodTimes = s.hl.goodTimes + 1 ∧ t.hl.aligned = (s.hl.aligned || decide (4 ≤ s.hl.goodTimes + 1)) ∧
           t.hl.lastErr = BitVec.ofInt 8 e) ∧
         (e < -1 ∨ 1 < e → anyHerdLive s = false → ∃ t, moves t [.time, .free] ∧ t.time = s.time + BitVec.ofInt 64 e ∧
           t.hl.aligned = false ∧ t.hl.goodTimes = 0 ∧ t.hl.flags.on 6 = true ∧ t.hl.steps = satInc s.hl.steps) ∧
         -- where a herd runs it is taken as bad (DESIGN CHOICE, log entry 39)
         (e < -1 ∨ 1 < e → anyHerdLive s = true → ∃ t, moves t [.free] ∧ t.hl.goodTimes = 0 ∧
           t.hl.ports[head.port.val].cntBad = q.cntBad + 1))))

/-- R336, R344, R351 to R354, R362 to R365: the lead's START, STOP and REVIVE of a herd, T_EFF fixed by the first slot of a class-0
message, such a message received for the first time or again, and what happens to the herd in the tick T_EFF. -/
def Obligations.HerdCommands : Prop :=
  ∀ (s : State) (h : Fin 4) (ev : HerdEvent) (head : HlHead) (c : HlCmd) (o : HlOut), Clocked s →
    let d := s.hl.herds[h.val]
    -- a class-0 message of herd h that waits for its first slot, three copies for each port
    let waits := fun (ev : HerdEvent) (delta : Nat) =>
      ({ ev := ev, herd := h, delta := delta, reason := 0, seq := 0, serial := s.hl.serial, since := s.clock, tEff := none,
         left := Vector.replicate 2 3 } : HlOut)
    let sends := fun (herds : Vector Herd 4) (ev : HerdEvent) (delta : Nat) => Host.Outcome.next { s with
      hl := { s.hl with herds := herds, serial := s.hl.serial + 1, out0 := s.hl.out0 ++ [waits ev delta] } }
    let message := match ev with
      | .start => Instr.startMessage head c
      | .stop => .stopMessage head c
      | .retire => .retireMessage head c
      | .revive => .reviveMessage head c
    let due := fun ev : HerdEvent => ∃ e ∈ d.sched, e.ev = ev ∧ e.tEff ≤ now s
    -- the effects of that kind leave the schedule and nothing else happens
    let gone := fun ev : HerdEvent => Host.Outcome.next { s with hl := { s.hl with herds := upd s.hl.herds h fun d =>
      { d with sched := d.sched.filter fun e => !(e.ev == ev && decide (e.tEff ≤ now s)) } } }
    let low := (s.hl.haltOut = true ∧ pinsLive s = true) ∨ s.hl.haltExt = true
    (isLead s h = false → exec (.herdStart h) s = .next s ∧ exec (.herdStop h) s = .next s ∧ exec (.herdRevive h) s = .next s) ∧
    (isLead s h = true →
      (d.st = .idle → srcValid s (8 + h.val) = true → allReady s h = true →
        exec (.herdStart h) s = sends (upd s.hl.herds h fun d => { d with st := .starting, cross := 0 }) .start 640) ∧
      (d.st ≠ .idle ∨ srcValid s (8 + h.val) = false ∨ allReady s h = false →
        exec (.herdStart h) s = .next { s with hl := { s.hl with flags := s.hl.flags.set 5 } }) ∧
      (d.st = .started → exec (.herdStop h) s = sends s.hl.herds .stop 640) ∧
      (d.st ≠ .started → exec (.herdStop h) s = .next s) ∧
      (d.st = .retired → ¬low → exec (.herdRevive h) s = sends s.hl.herds .revive 448) ∧
      (d.st ≠ .retired ∨ low → exec (.herdRevive h) s = .next s)) ∧
    -- the first slot of a message starts in the present tick, X: T_EFF = X + delta, and this device will act in it
    (o.tEff = none → o.herd = h → o.ev ≠ .start ∨ d.st = .starting →
      (fixOut0 s o).2.tEff = some (now s + o.delta) ∧ (fixOut0 s o).1.hl.herds[h.val].sched =
        d.sched ++ [{ ev := o.ev, tEff := now s + o.delta, origin := hlDev s, seq := o.seq, localFault := true }]) ∧
    -- a message received: on a port that is not UP it only counts as good
    (hlOn s = false ∨ portUp s head.port = false → exec message s = exec (.idleMessage head.port) s) ∧
    (hlOn s = true → portUp s head.port = true → head.herd = h → ∃ t, exec message s = .next t ∧ Only [.hl, .qe, .dm] s t ∧
      let d' := t.hl.herds[h.val]
      ((head.origin, c.serial) ∉ s.hl.seen → (head.origin, c.serial) ∈ t.hl.seen ∧
        (isMember s h = true →
          d'.st = (if ev = .start ∧ d.st = .idle then .starting else d.st) ∧
          d'.sched = if ev = .start ∧ d.st ≠ .idle ∧ d.st ≠ .starting then d.sched
            else d.sched ++ [{ ev := ev, tEff := extend48 s c.tEff, origin := head.origin, seq := c.seq, localFault := false }])) ∧
      ((head.origin, c.serial) ∈ s.hl.seen → t.hl.seen = s.hl.seen) ∧
      ((head.origin, c.serial) ∈ s.hl.seen ∨ isMember s h = false → d'.sched = d.sched ∧ d'.st = d.st)) ∧
    (¬ due .start → exec (.herdStarted h) s = .next s) ∧
    (¬ due .stop → exec (.herdStopped h) s = .next s) ∧
    (¬ due .retire → exec (.herdRetired h) s = .next s) ∧
    (¬ due .revive → exec (.herdRevived h) s = .next s) ∧
    (due .start → isMember s h = false ∨ due .retire ∨ d.st ≠ .starting → exec (.herdStarted h) s = gone .start) ∧
    (due .stop → isMember s h = false ∨ d.st ≠ .started → exec (.herdStopped h) s = gone .stop) ∧
    (due .retire → isMember s h = false ∨ d.st = .retired → exec (.herdRetired h) s = gone .retire) ∧
    (due .revive → isMember s h = false ∨ d.st ≠ .retired → exec (.herdRevived h) s = gone .revive) ∧
    (isMember s h = true →
      (due .start → ¬ due .retire → d.st = .starting → ∃ t, exec (.herdStarted h) s = .next t ∧ Only [.tsq, .hl] s t ∧
        t.hl.herds[h.val].st = .started ∧ t.hl.flags.on 4 = true) ∧
      (due .stop → d.st = .started → ∃ t, exec (.herdStopped h) s = .next t ∧ Only [.tsq, .pw, .hl] s t ∧
        t.hl.herds[h.val].st = .idle) ∧
      (due .retire → d.st ≠ .retired → ∃ t, exec (.herdRetired h) s = .next t ∧ Only [.cap, .tsq, .pw, .qe, .hl, .dm] s t ∧
        t.hl.herds[h.val].st = .retired ∧ t.hl.flags.on 2 = true ∧
        ∃ e ∈ d.sched, e.ev = .retire ∧ e.tEff ≤ now s ∧ t.hl.herds[h.val].originDev = BitVec.ofNat 3 e.origin.val ∧
          t.hl.herds[h.val].originSeq = e.seq ∧ t.hl.herds[h.val].cause = (if e.localFault then 1 else 2) ∧
          ∀ e' ∈ d.sched, e'.ev = .retire → e'.tEff ≤ now s →
            e.tEff < e'.tEff ∨ (e.tEff = e'.tEff ∧ e.origin.val ≤ e'.origin.val)) ∧
      (due .revive → d.st = .retired → ∃ t, exec (.herdRevived h) s = .next t ∧ Only [.cap, .tsq, .hl] s t ∧
        t.hl.herds[h.val].st = .idle))

/-- R347, R348, R350, R358, R359, R361: a POSITION of the lead and of its followers, the READY events, HERD_HALT_N driven, released
and accepted low, the clearing of the counters, and the commit of the herd-link group. -/
def Obligations.HerdState : Prop :=
  ∀ (s : State) (h : Fin 4) (d : Fin 8) (head : HlHead) (b : HlPos) (low : Bool) (w : PosDue), Clocked s →
    let g := s.hl.herds[h.val]
    let r := s.tbe.rem[h.val]
    let src := 8 + h.val
    let becomes := fun l : Hl => Host.Outcome.next { s with hl := l }
    let frame := fun (c : Instr) (t : State) (ps : List Part) => exec c s = .next t ∧ Only ([.hl, .qe, .dm] ++ ps) s t
    let changed := g.sentAt = none ∨ gatePos s src ≠ g.sentPos ∨ remFlags s h ≠ g.sentFlags ∨
      ∃ at_, g.sentAt = some at_ ∧ at_ + 2048 ≤ s.clock + 9
    (isLead s h = false ∨ ¬changed → exec (.positionDue h) s = .next s) ∧
    (isLead s h = true → changed → exec (.positionDue h) s = becomes { s.hl with herds := upd s.hl.herds h fun g => { g with
      due := some ⟨gatePos s src, (srcStamp s src).toNat, remFlags s h, upPortBits s, false⟩ } }) ∧
    -- its first slot starts in the present tick, X: the lead enters it in its own view in E = S + max(640, X − S + 448)
    (w.sent = false → (positionSent s h w).tbe.rem[h.val].waiting =
      r.waiting ++ [{ pos := w.pos, stamp := w.stamp, at_ := w.stamp + max 640 (now s - w.stamp + 448) }]) ∧
    -- a position or a READY received: on a port that is not UP it only counts as good
    (hlOn s = false ∨ portUp s head.port = false → exec (.positionMessage head b) s = exec (.idleMessage head.port) s ∧
      exec (.eventReady head) s = exec (.idleMessage head.port) s) ∧
    (hlOn s = true → portUp s head.port = true → head.herd = h →
      (head.origin = herdLeadDev s h → isMember s h = true → isLead s h = false →
        ∃ t, frame (.positionMessage head b) t [.tbe, .tsq, .pw] ∧ t.hl.herds[h.val].st = g.st ∧
          t.hl.herds[h.val].leadPort = some head.port ∧
          let x := now s - 64 * (head.hops.val + 1)
          let stamp := extend48 s b.stamp
          t.tbe = { s.tbe with rem := upd s.tbe.rem h fun _ => { r with
            pos := b.pos, stamp := BitVec.ofNat 64 stamp, valid := b.valid, rev := b.rev, suspect := b.suspect,
            failed := b.failed,
            waiting := r.waiting ++ [{ pos := b.pos, stamp := stamp, at_ := stamp + max 640 (x - stamp + 448) }] } }) ∧
      (head.origin = herdLeadDev s h → isMember s h = false ∨ isLead s h = true →
        ∃ t, frame (.positionMessage head b) t [] ∧ t.hl.cntForeign = s.hl.cntForeign) ∧
      (head.origin ≠ herdLeadDev s h → ∃ t, frame (.positionMessage head b) t [] ∧
        t.hl.cntForeign = s.hl.cntForeign + 1 ∧ t.hl.herds[h.val].st = g.st) ∧
      (isLead s h = true → ∃ t, frame (.eventReady head) t [] ∧
        t.hl.herds[h.val].readySeen = setBit g.readySeen head.origin.val ∧
        t.hl.herds[h.val].readyAt = upd g.readyAt head.origin fun _ => s.clock) ∧
      (isLead s h = false → ∃ t, frame (.eventReady head) t [] ∧ t.hl.herds[h.val].readySeen = g.readySeen)) ∧
    (let ready := isMember s h = true ∧ isLead s h = false ∧ s.hl.aligned = true ∧ g.st ≠ .retired ∧
        (∃ p, g.leadPort = some p ∧ portUp s p = true) ∧
        (g.readySentAt = none ∨ ∃ at_, g.readySentAt = some at_ ∧ at_ + 4096 ≤ s.clock)
     (ready → exec (.readyOriginate h) s = becomes { s.hl with
       ports := s.hl.ports.map fun q => if q.st = .up then { q with readyDue := setBit q.readyDue h.val } else q
       herds := upd s.hl.herds h fun g => { g with readySentAt := some s.clock } }) ∧
     (¬ready → exec (.readyOriginate h) s = .next s)) ∧
    (bit g.readySeen d.val = true → g.readyAt[d.val] + 8192 ≤ s.clock → exec (.readySeenExpiry h d) s =
      becomes { s.hl with herds := upd s.hl.herds h fun g => { g with readySeen := assignBit g.readySeen d.val false } }) ∧
    (bit g.readySeen d.val = false ∨ s.clock < g.readyAt[d.val] + 8192 → exec (.readySeenExpiry h d) s = .next s) ∧
    -- HERD_HALT_N: driven by this device, by another one, and since when the wire is low
    (let wire := fun own ext : Bool => (own && pinsLive s) || ext
     let since := fun low : Bool => if low then (if s.hl.haltSince.isSome then s.hl.haltSince else some s.clock) else none
     let accepted := bit s.hl.group.active.cfg 10 = true ∧ wire s.hl.haltOut low = true ∧ s.hl.haltIn = false ∧
       ∃ at_, s.hl.haltSince = some at_ ∧ at_ + 3 ≤ s.clock
     exec .halt s = becomes { s.hl with haltOut := true, haltSince := since (wire true s.hl.haltExt) } ∧
     exec .haltRelease s = becomes { s.hl with haltOut := false, haltSince := since (wire false s.hl.haltExt) } ∧
     exec .herdHaltNHigh s = becomes { s.hl with
       haltExt := false, haltSince := since (wire s.hl.haltOut false), haltIn := s.hl.haltIn && wire s.hl.haltOut false } ∧
     (¬accepted → exec (.herdHaltAccept low) s = becomes { s.hl with haltExt := low, haltSince := since (wire s.hl.haltOut low) }) ∧
     (accepted → ∃ t, exec (.herdHaltAccept low) s = .next t ∧ Only [.free, .tsq, .cap, .pw, .qe, .hl, .dm] s t ∧
       t.hl.haltIn = true ∧ t.hl.flags.on 3 = true ∧
       ∀ k : Fin 4, (isMember s k = true → s.hl.herds[k.val].st ≠ .retired →
           t.hl.herds[k.val].st = .retired ∧ t.hl.herds[k.val].cause = 3 ∧ t.hl.herds[k.val].originSeq = 0) ∧
         (isMember s k = false ∨ s.hl.herds[k.val].st = .retired → t.hl.herds[k.val] = s.hl.herds[k.val]))) ∧
    exec .hlCntClear s = becomes { s.hl with
      cntForeign := 0, steps := 0, ports := s.hl.ports.map fun q => { q with cntBad := 0 } } ∧
    (s.hl.group.pending = false ∨ anyHerdLive s = true → exec .hlCommitApply s = .next s) ∧
    (s.hl.group.pending = true → anyHerdLive s = false → ∃ t, exec .hlCommitApply s = .next t ∧ Only [.tbe, .tsq, .hl] s t ∧
      let G := s.hl.group
      let new := G.shadow
      t.hl.group = { G with active := new, pending := G.again, again := false, wait := 0, count := G.count + 1 } ∧
      -- FAILED and LONG outlast a port's EN, RETIRED a herd's
      (∀ p : Fin 2, t.hl.ports[p.val].st = (
        let q := s.hl.ports[p.val]
        if bit new.cfg (8 + p.val) then (if q.st = .disabled then q.kept else q.st) else .disabled) ∧
        (bit new.cfg (8 + p.val) = false → s.hl.ports[p.val].st = .failed → t.hl.ports[p.val].kept = .failed)) ∧
      (∀ k : Fin 4, t.hl.herds[k.val].st = (
        let g := s.hl.herds[k.val]
        if bit new.herd[k.val] 0 then (if g.st = .off then (if g.kept then .retired else .idle) else g.st) else .off) ∧
        (bit new.herd[k.val] 0 = false → s.hl.herds[k.val].st = .retired → t.hl.herds[k.val].kept = true) ∧
        (remKept s t k = true → t.tbe.rem[k.val] = s.tbe.rem[k.val])))

/-- R251, R252, R255, R259, R269, R270, R372, R374 to R377, R380: the commands of a fabric streaming port, each with its answer: a port
that does not operate does nothing; the reference table, the objects the port allocated, the beats read and written, entries taken,
posted and completed. What waits in the Page Warden before an operation is served before it. That a full table keeps an entry offered
and refuses a SEAL is the model's choice (log entry 102). -/
def Obligations.StreamingPorts : Prop :=
  ∀ (s : State) (p : Fin 8) (r : Fin 1024) (i : BitVec 16) (n o beats : Nat) (stride : BitVec 9) (h : Fin 2048) (gen : BitVec 7)
    (ecc : List Ecc) (data entry : List Byte) (status : Byte), Clocked s →
    let f := s.fsp[p.val]
    let e := s.pw.map[h.val]
    let g := s.qe.rings[r.val]
    let hg := (h, gen)
    let operates := released s = true ∧ f.used = true ∧ fspClkBad s p = false ∧ fspIsolated s p = false
    -- one answer on RESP, with what it did to the port's own state; an answer other than OK is counted
    let answered := fun (s' : State) (f' : Fsp) (a : FspAnswer) =>
      Host.Outcome.next { s' with fsp := upd s.fsp p fun _ =>
        ({ f' with resp := some (a, none), cntRefuse := if a = .ok then f'.cntRefuse else f'.cntRefuse + 1 } : Fsp) }
    let live := fun e : MapEntry => e.st ≠ .free ∧ e.gen = gen
    let own := fun e : MapEntry => e.cls = .fabric ∧ e.owner.val = p.val
    let object := fun (s : State) (e' : MapEntry) => { s with pw := { s.pw with map := upd s.pw.map h fun _ => e' } }
    let staled := fun s : State => { s with pw := { s.pw with cntStale := s.pw.cntStale + 1, flags := s.pw.flags.set 3 } }
    let refused := fun s : State => { s with
      pw := { s.pw with cntRefuse := upd s.pw.cntRefuse (clsNo .fabric) (· + 1), flags := s.pw.flags.set 2 } }
    let burst := 1 ≤ beats ∧ beats ≤ 256 ∧ o % 32 = 0
    -- the state in which the Page Warden serves an operation of the port that arrives now
    let sa := pwTurn s (.addref (.fabric p) h gen)
    let ss := pwTurn s (.seal (.fabric p) h gen)
    let sn := pwTurn s (.alloc (.fabric p) .fabric (Fin.ofNat 16 p.val) n stride)
    (s.pw.waiting = [] → sa = s ∧ ss = s ∧ sn = s) ∧
    (¬ operates → exec (.fspTake p r i) s = .next s ∧ exec (.fspAlloc p n stride) s = .next s ∧
      exec (.fspAddref p h gen) s = .next s ∧ exec (.fspRelease p h gen) s = .next s ∧ exec (.fspSeal p h gen) s = .next s ∧
      exec (.fspAbandon p h gen) s = .next s ∧ exec (.fspRead p h gen o beats ecc) s = .next s ∧
      exec (.fspWrite p h gen o beats data) s = .next s ∧ exec (.fspPost p r entry) s = .next s ∧
      exec (.fspComplete p r i status) s = .next s) ∧
    (¬ burst → exec (.fspRead p h gen o beats ecc) s = .next s ∧ exec (.fspWrite p h gen o beats data) s = .next s) ∧
    (operates →
      (∀ t, findTaken s r i = some t → t.cons = .fabric p → t.offered = true → t.verdict = 0 →
        let took := { s.qe with taken := s.qe.taken.map fun u => if u.ring = r ∧ u.idx = i then { u with offered := false } else u }
        (t.ref = none → exec (.fspTake p r i) s = .next { s with qe := took }) ∧
        (∀ ref, t.ref = some ref → f.refs.length < 512 → exec (.fspTake p r i) s = .next { s with
          qe := took, fsp := upd s.fsp p fun f => { f with refs := f.refs ++ [ref] } }) ∧
        (t.ref ≠ none → 512 ≤ f.refs.length → exec (.fspTake p r i) s = .next s)) ∧
      ((∀ t, findTaken s r i = some t → t.cons ≠ .fabric p ∨ t.offered = false ∨ t.verdict ≠ 0) →
        exec (.fspTake p r i) s = .next s) ∧
      (tagFree s (.fabric p) = false → exec (.fspAlloc p n stride) s = answered s f .tags) ∧
      (tagFree s (.fabric p) = true →
        (grantPages sn .fabric (Fin.ofNat 16 p.val) n = false ∨ grantHandle sn .fabric = false →
          exec (.fspAlloc p n stride) s = answered (refused sn) f .refused) ∧
        (grantPages sn .fabric (Fin.ofNat 16 p.val) n = true → grantHandle sn .fabric = true →
          ∃ t x, exec (.fspAlloc p n stride) s = .next t ∧ Only [.free, .pw, .qe, .fsp] sn t ∧
            t.fsp[p.val] = { f with allocTags := f.allocTags ++ [x], resp := some (.ok, some x) })) ∧
      (hg ∉ f.refs → exec (.fspAddref p h gen) s = answered s f .noref ∧ exec (.fspRelease p h gen) s = answered s f .noref ∧
        (burst → exec (.fspRead p h gen o beats ecc) s = answered s f .noref)) ∧
      (hg ∈ f.refs →
        (512 ≤ f.refs.length → exec (.fspAddref p h gen) s = answered s f .limit) ∧
        (f.refs.length < 512 →
          let e := sa.pw.map[h.val]
          (¬live e → exec (.fspAddref p h gen) s = answered (staled sa) f .stale) ∧
          (live e → e.poison = true → exec (.fspAddref p h gen) s = answered sa f .poison) ∧
          (live e → e.poison = false → 3 ≤ e.refs → exec (.fspAddref p h gen) s =
            answered { sa with pw := { sa.pw with cntRefFull := sa.pw.cntRefFull + 1 } } f .refFull) ∧
          (live e → e.poison = false → e.refs < 3 → exec (.fspAddref p h gen) s =
            answered (object sa { e with refs := e.refs + 1 }) { f with refs := f.refs ++ [hg] } .ok)) ∧
        (live e → 1 < e.refs → exec (.fspRelease p h gen) s =
          answered (object s { e with refs := e.refs - 1 }) { f with refs := f.refs.erase hg } .ok) ∧
        (live e → e.refs = 1 → e.st = .sealed_ → ∃ t, exec (.fspRelease p h gen) s = .next t ∧ Only [.pw, .fsp] s t ∧
          t.pw.map[h.val].st = .free ∧ t.fsp[p.val] = { f with refs := f.refs.erase hg, resp := some (.ok, none) }) ∧
        (¬ live e → exec (.fspRelease p h gen) s = answered (staled s) f .stale ∧
          (burst → exec (.fspRead p h gen o beats ecc) s = answered (staled s) f .stale)) ∧
        (live e → burst → ∃ t, exec (.fspRead p h gen o beats ecc) s = .next t ∧ Only [.fsp, .pw, .qe, .dm] s t ∧
          t.fsp[p.val].refs = f.refs ∧ t.fsp[p.val].resp = some (.ok, none) ∧ t.fsp[p.val].rdata.length = beats ∧
          t.fsp[p.val].cntBeats = f.cntBeats + BitVec.ofNat 32 beats ∧
          -- one beat: RANGE with zeros beyond the object, POISON when a code word ends uncorrectable
          (beats = 1 → objAddr e o = none → t.fsp[p.val].rdata = [(.range, List.replicate 32 0)] ∧
            t.pw = { s.pw with cntRange := s.pw.cntRange + 1 }) ∧
          (beats = 1 → objAddr e o ≠ none →
            let words := objWords e o 32 ecc
            t.fsp[p.val].rdata = [(if words.any (isBad s) then .poison else .ok, words.flatMap fun w => codeBytes s w.1 w.2)]))) ∧
      (let e := ss.pw.map[h.val]
       (¬live e → exec (.fspSeal p h gen) s = answered (staled ss) f .stale) ∧
       (live e → ¬own e → exec (.fspSeal p h gen) s = answered ss f .notown) ∧
       (live e → own e → 512 ≤ f.refs.length → exec (.fspSeal p h gen) s = answered ss f .refused) ∧
       (live e → own e → f.refs.length < 512 → e.st = .sealed_ → exec (.fspSeal p h gen) s = answered (refused ss) f .refused) ∧
       (live e → own e → f.refs.length < 512 → e.st = .writing → exec (.fspSeal p h gen) s =
         answered (object ss { e with st := .sealed_, refs := 1 }) { f with refs := f.refs ++ [hg] } .ok)) ∧
      (¬ live e → exec (.fspAbandon p h gen) s = answered (staled s) f .stale ∧
        (burst → exec (.fspWrite p h gen o beats data) s = answered (staled s) f .stale)) ∧
      (live e → ¬ own e → exec (.fspAbandon p h gen) s = answered s f .notown ∧
        (burst → exec (.fspWrite p h gen o beats data) s = answered s f .notown)) ∧
      (live e → own e → e.st = .sealed_ → exec (.fspAbandon p h gen) s = answered (refused s) f .refused ∧
        (burst → exec (.fspWrite p h gen o beats data) s = answered s f .notown)) ∧
      (live e → own e → e.st = .writing →
        (∃ t, exec (.fspAbandon p h gen) s = .next t ∧ Only [.pw, .qe, .fsp] s t ∧ t.pw.map[h.val].st = .free ∧
          t.fsp[p.val] = { f with allocTags := f.allocTags.erase hg, resp := some (.ok, none) }) ∧
        (burst → ∃ t, exec (.fspWrite p h gen o beats data) s = .next t ∧ Only [.fs, .pw, .fsp] s t ∧ t.pw.map = s.pw.map ∧
          t.fsp[p.val] = { f with cntBeats := f.cntBeats + BitVec.ofNat 32 beats, resp := some (.ok, none) } ∧
          (beats = 1 → objAddr e o = none → t.fs = s.fs ∧ t.pw.cntRange = s.pw.cntRange + 1) ∧
          (∀ a, beats = 1 → objAddr e o = some a → data.length = 32 → MemInv s →
            SameOutside s.fs t.fs a 32 ∧ ∀ k, k < 32 → memRead t.fs (a + k) = data.getD k 0))) ∧
      (ringProdKind r g.group.active ≠ 4 ∨ ringProdInst r g.group.active ≠ p.val →
        exec (.fspPost p r entry) s = answered s f .notring) ∧
      (ringProdKind r g.group.active = 4 → ringProdInst r g.group.active = p.val → entry.length = 32 →
        let ref := entryRef r (isMgmtRing g.group.active) entry
        (∀ x, ref = some x → x ∉ f.refs → exec (.fspPost p r entry) s = answered s f .noref) ∧
        ((∀ x, ref = some x → x ∈ f.refs) →
          (ringOn g = false ∨ ringFull g = true → exec (.fspPost p r entry) s =
            answered { s with qe := { s.qe with rings := upd s.qe.rings r fun g => { g with full := g.full + 1 } } } f .full) ∧
          (ringOn g = true → ringFull g = false → ∃ t, exec (.fspPost p r entry) s = .next t ∧ Only [.qe, .dm, .fsp] s t ∧
            t.qe.rings[r.val].pi = g.pi + 1 ∧ t.dm = memWriteBytes s.dm (entryAt g g.pi) entry ∧
            t.fsp[p.val].refs = (match ref with | some x => f.refs.erase x | none => f.refs) ∧
            t.fsp[p.val].resp = some (.ok, none)))) ∧
      ((∀ t, findTaken s r i = some t → t.cons ≠ .fabric p ∨ t.offered = true) → exec (.fspComplete p r i status) s =
        answered { s with qe := { s.qe with cntLate := s.qe.cntLate + 1, flags := s.qe.flags.set 4 } } f .late) ∧
      (∀ t, findTaken s r i = some t → t.cons = .fabric p → t.offered = false → ∃ u, exec (.fspComplete p r i status) s = .next u ∧
        Only [.qe, .egr, .dm, .fsp] s u ∧ findTaken u r i = none ∧ u.dm = memWriteBytes s.dm (t.addr + 1) [status] ∧
        u.fsp[p.val] = { f with resp := some (.ok, none) }))

/-- R421, R423, R428 to R433, R437, R438, R448, R457: OPEN, ABORT and RESTORE of a swap zone, two commands of one tick, the words of a
zone stream with the check of every frame and the two load buffers, and the ends of VERIFYING and of RESTORING. That a pass reload in
the zone is not carried on, and how long a load buffer is held, are DEDUCED (log entry 104). -/
def Obligations.SwapZones : Prop :=
  ∀ (s : State) (z : Fin 8) (w : Word), Clocked s →
    let x := s.scb.zones[z.val]
    let quiet := fun x' : Zone => Host.Outcome.next { s with scb := { s.scb with zones := upd s.scb.zones z fun _ => x' } }
    -- a change of the zone's state, which ends its comparison in this pass
    let moved := fun (x' : Zone) (flags : Flags 6) => Host.Outcome.next { s with
      scb := { s.scb with zones := upd s.scb.zones z fun _ => x', changed := z :: s.scb.changed, flags := flags } }
    -- an accepted OPEN or RESTORE, beside which one of this tick for a zone of a lower number would be accepted instead
    let taken := fun x' : Zone => Host.Outcome.next { s with
      moment := { s.moment with zoneWas := some (z, x) }
      scb := { s.scb with
        zones := upd s.scb.zones z fun _ => x', changed := z :: s.scb.changed
        reload := s.scb.reload.filter fun r => zoneOf s (faColumn r.frame) != some z } }
    let idle := fun y : Zone => y.st ≠ .loading ∧ y.st ≠ .verifying ∧ y.st ≠ .restoring
    let free := released s = true ∧ x.st ≠ .none ∧ ∀ j : Fin 8, idle s.scb.zones[j.val]
    let first := frameAddr 0 x.first.toNat 0
    let good := (∀ f ∈ zoneConfigFrames x, frameOk (latchFrame s f) = true) ∧ zoneSignature s x = x.sigWords
    ((∀ y was, s.moment.zoneWas = some (y, was) → y.val ≤ z.val) →
      (free → exec (.zoneOpen z) s = taken { x with
          st := .loading, reason := 0, result := 1, next := some first, received := 0, words := [], sigWords := [] } ∧
        exec (.zoneRestore z) s = taken { x with
          st := .restoring, result := 1, next := none, restoreFrom := some first, restoreFails := 0 }) ∧
      (¬ free → exec (.zoneOpen z) s = quiet { x with result := 2 } ∧ exec (.zoneRestore z) s = quiet { x with result := 2 })) ∧
    (∀ y was, s.moment.zoneWas = some (y, was) → z.val < y.val → released s = true → x.st ≠ .none → idle was →
      (∀ j : Fin 8, j ≠ y → idle s.scb.zones[j.val]) →
      (∃ t, exec (.zoneOpen z) s = .next t ∧ Only [.moment, .scb] s t ∧ t.scb.zones[z.val].st = .loading ∧
        t.scb.zones[z.val].result = 1 ∧ t.scb.zones[y.val] = { was with result := 2 }) ∧
      (∃ t, exec (.zoneRestore z) s = .next t ∧ Only [.moment, .scb] s t ∧ t.scb.zones[z.val].st = .restoring ∧
        t.scb.zones[z.val].result = 1 ∧ t.scb.zones[y.val] = { was with result := 2 })) ∧
    (released s = true → x.st = .loading ∨ x.st = .verifying → exec (.zoneAbort z) s =
      moved { x with st := .failed, reason := 3, next := none, result := 1 } (s.scb.flags.set 2)) ∧
    (released s = false ∨ (x.st ≠ .loading ∧ x.st ≠ .verifying) → exec (.zoneAbort z) s = .next s) ∧
    ((∀ j : Fin 8, s.scb.zones[j.val].st ≠ .loading) → exec (.zdataWrite w) s = .next s) ∧
    (x.st = .loading → (∀ j : Fin 8, j ≠ z → s.scb.zones[j.val].st ≠ .loading) →
      let held := s.scb.loadBusy.filter fun t => decide (s.clock < t)
      (∀ f, x.next = some f →
        let fr : CfgFrame := { addr := f, words := x.words ++ [w] }
        (x.words = [] → 2 ≤ held.length → exec (.zdataWrite w) s =
          moved { x with st := .failed, reason := 4, next := none } (s.scb.flags.set 2)) ∧
        (x.words.length < 96 → x.words ≠ [] ∨ held.length < 2 → exec (.zdataWrite w) s = quiet { x with words := x.words ++ [w] }) ∧
        (96 ≤ x.words.length → frameOk fr = false → exec (.zdataWrite w) s =
          moved { x with words := [], st := .failed, reason := 1, next := none } (s.scb.flags.set 2)) ∧
        (96 ≤ x.words.length → frameOk fr = true → exec (.zdataWrite w) s = .next { s with
          cfg := { s.cfg with latches := fr :: s.cfg.latches.filter fun y => y.addr != f }
          scb := { s.scb with
            loadBusy := held ++ [max s.clock (held.foldl max 0) + 194]
            zones := upd s.scb.zones z fun _ =>
              { x with words := [], received := x.received + 1, next := nextFrameIn x.first.toNat x.last.toNat f } } })) ∧
      (x.next = none →
        (x.sigWords.length < 7 → exec (.zdataWrite w) s = quiet { x with sigWords := x.sigWords ++ [w] }) ∧
        (7 ≤ x.sigWords.length → exec (.zdataWrite w) s =
          moved { x with sigWords := x.sigWords ++ [w], st := .verifying } s.scb.flags))) ∧
    (released s = false ∨ x.st ≠ .verifying → exec (.zoneVerifyDone z) s = .next s) ∧
    (released s = true → x.st = .verifying →
      (good → exec (.zoneVerifyDone z) s = moved { x with st := .loaded, sig := eight x.sigWords } (s.scb.flags.set 4)) ∧
      (¬ good → exec (.zoneVerifyDone z) s = moved { x with st := .failed, reason := 2, next := none } (s.scb.flags.set 2))) ∧
    (released s = false ∨ x.st ≠ .restoring → exec (.zoneRestoreDone z) s = .next s) ∧
    (released s = true → x.st = .restoring →
      -- the frames still to be reloaded, in address order
      let frames := fun k : Nat => Nat.repeat (fun o : Option Word => o.bind (nextFrameIn x.first.toNat x.last.toNat)) k x.restoreFrom
      ∃ t, exec (.zoneRestoreDone z) s = .next t ∧ Only [.cfg, .scb, .qe, .dm] s t ∧ t.cfg.slots = s.cfg.slots ∧
        z ∈ t.scb.changed ∧ Others z s.scb.zones t.scb.zones ∧
        ((∀ k f, k < 10680 → frames k = some f → slotFrameOk s f = true) →
          t.scb.zones[z.val] = { x with st := .boot, restoreFrom := none, restoreFails := 0 } ∧ t.scb.flags.on 4 = true ∧
          ∀ k f y, k < 10680 → frames k = some f → bootedFrame s f = some y → latchFrame t f = y) ∧
        (∀ f, x.restoreFrom = some f → slotFrameOk s f = false →
          t.scb.zones[z.val].st = .damaged ∧ t.scb.flags.on 3 = true ∧ t.scb.flags.on 0 = true))

/-- R434 to R441, R443 to R445, R448, R454, R455: the start and the end of a pass of the scrubber, the visit of a frame, a reload
attempt, the correction of a copy, and SAVE. -/
def Obligations.FrameScrubber : Prop :=
  ∀ (s : State) (flips : List Nat) (ok : Bool) (what : VoteTarget) (j : Fin 8), Clocked s →
    let b := s.scb
    let becomes := fun b' : Scb => Host.Outcome.next { s with scb := b' }
    let hd := (headerCfg s).1
    let started := { b with
      cfgA := hd, cfgB := hd, cfgC := hd, hdrDefault := (headerCfg s).2, passBusy := true, reloadPass := b.sigFault.isSome,
      passNext := some 0, changed := [], imgBytes := [], zoneBytes := [], reload := none, passFrom := s.clock }
    -- one fault record of the scrubber beside the change
    let recorded := fun (t : State) (b' : Scb) => t.scb = { b' with flags := b'.flags.set 0 } ∧ t.qe.seq = nextSeq s.qe.seq
    let due := ∀ at_, b.lastPassEnd = some at_ → at_ + max 2 (400000 * (scrubCfg s).1.toNat) ≤ s.clock
    (released s = false ∨ b.passBusy = true ∨ ¬due → exec .passStart s = .next s) ∧
    (released s = true → b.passBusy = false → due →
      (hd = scrubCfg s → exec .passStart s = becomes started) ∧
      (hd ≠ scrubCfg s → ∃ t, exec .passStart s = .next t ∧ Only [.scb, .qe, .dm] s t ∧
        recorded t { started with cntVote := b.cntVote + 1 })) ∧
    (let pass := released s = true ∧ b.passBusy = true ∧ b.reload = none ∧ ∀ k : Fin 8, b.zones[k.val].st ≠ .verifying
     (b.passNext = none ∨ ¬pass → exec (.frameScrub flips) s = .next s) ∧
     (∀ f, pass → b.passNext = some f →
       let x := flips.foldl flipBit (latchFrame s f)
       let zone := zoneOf s (faColumn f)
       let bytes := cfgFrameBytes (latchFrame s f)
       let visit := fun b' : Scb => Host.Outcome.next { s with moment := { s.moment with scrub := none }, scb := b' }
       let repairs := visited s f = true ∧ (b.reloadPass = false ∨ zone ≠ none)
       -- the visit of a zone's frame stands at the end of its tick
       (zone ≠ none → s.moment.late = false →
         (s.moment.scrub = none → exec (.frameScrub flips) s = .next { s with moment := { s.moment with scrub := some flips } }) ∧
         (s.moment.scrub ≠ none → exec (.frameScrub flips) s = .next s)) ∧
       (zone = none ∨ s.moment.late = true →
         (visited s f = false → exec (.frameScrub []) s = visit { b with
           cntSkipped := b.cntSkipped + 1, passNext := nextConfigFrame f, reload := none }) ∧
         (b.reloadPass = true → zone = none → exec (.frameScrub []) s = visit { b with reload := some ⟨f, 0⟩ }) ∧
         (repairs → frameOk (latchFrame s f) = true →
           (zone = none → exec (.frameScrub []) s = visit { b with
             imgBytes := b.imgBytes ++ bytes, passNext := nextConfigFrame f, reload := none }) ∧
           (zone = some j → b.zones[j.val].st = .boot → exec (.frameScrub []) s = visit { b with
             passNext := nextConfigFrame f, reload := none }) ∧
           (zone = some j → b.zones[j.val].st = .loaded → exec (.frameScrub []) s = visit { b with
             zoneBytes := b.zoneBytes ++ [(j, bytes)], passNext := nextConfigFrame f, reload := none })) ∧
         (∀ i, repairs → frameOk x = false → singleBit x = some i →
           ∃ t, exec (.frameScrub flips) s = .next t ∧ Only [.moment, .cfg, .scb, .qe, .dm] s t ∧ latchFrame t x.addr = flipBit x i ∧
             t.scb.cntCorrected = b.cntCorrected + 1 ∧ t.scb.lastFrame = f ∧ t.scb.passNext = nextConfigFrame f ∧
             t.scb.flags.on 0 = true ∧ t.qe.seq = nextSeq s.qe.seq) ∧
         (repairs → frameOk (latchFrame s f) = false → singleBit (latchFrame s f) = none →
           (zone = none ∨ (zone = some j ∧ b.zones[j.val].st = .boot) →
             exec (.frameScrub []) s = visit { b with reload := some ⟨f, 0⟩ }) ∧
           (zone = some j → b.zones[j.val].st = .loaded → ∃ t, exec (.frameScrub []) s = .next t ∧
             Only [.moment, .scb, .qe, .dm] s t ∧ t.scb.zones[j.val].st = .damaged ∧ t.scb.flags.on 3 = true ∧
             t.scb.passNext = nextConfigFrame f ∧ t.qe.seq = nextSeq s.qe.seq))))) ∧
    (b.reload = none → (∀ k : Fin 8, b.zones[k.val].st ≠ .restoring) → exec (.reloadAttempt ok) s = .next s) ∧
    (∀ r, b.reload = some r →
      let verified := ok = true ∧ slotFrameOk s r.frame = true
      (verified → ∃ t, exec (.reloadAttempt ok) s = .next t ∧ Only [.cfg, .scb, .qe, .dm] s t ∧ t.scb.reload = none ∧
        t.scb.passNext = nextConfigFrame r.frame ∧ t.scb.cntReloaded = b.cntReloaded + 1 ∧
        ∀ y, bootedFrame s r.frame = some y → latchFrame t r.frame = y) ∧
      (¬verified → r.failures < 2 →
        exec (.reloadAttempt ok) s = becomes { b with reload := some { r with failures := r.failures + 1 } }) ∧
      (¬verified → 2 ≤ r.failures → ∃ t, exec (.reloadAttempt ok) s = .next t ∧ Only [.sys, .scb, .qe, .dm] s t ∧
        t.scb.reload = none ∧ t.scb.passNext = nextConfigFrame r.frame ∧
        (zoneOf s (faColumn r.frame) = none → t.scb.flags.on 1 = true ∧ t.qe.seq = nextSeq s.qe.seq ∧
          t.sys.reconfReq = (s.sys.reconfReq || (scrubCfg s).2)) ∧
        (zoneOf s (faColumn r.frame) = some j → t.scb.zones[j.val].st = .damaged ∧ t.scb.flags.on 3 = true ∧
          t.qe.seq = nextSeq (nextSeq s.qe.seq) ∧ t.sys = s.sys))) ∧
    -- with no reload of the pass, an attempt for the zone in RESTORING
    (∀ f, b.reload = none → b.zones[j.val].st = .restoring → (∀ k : Fin 8, k ≠ j → b.zones[k.val].st ≠ .restoring) →
      b.zones[j.val].restoreFrom = some f → ok = false ∨ slotFrameOk s f = false → b.zones[j.val].restoreFails < 2 →
      exec (.reloadAttempt ok) s = becomes { b with
        zones := upd b.zones j fun x => { x with restoreFails := x.restoreFails + 1 } }) ∧
    (released s = false ∨ b.passBusy = false ∨ b.passNext ≠ none ∨ b.reload ≠ none → exec .passEnd s = .next s) ∧
    (released s = true → b.passBusy = true → b.passNext = none → b.reload = none → ∃ t, exec .passEnd s = .next t ∧
      Only [.sys, .scb, .qe, .dm] s t ∧ t.scb.passBusy = false ∧ t.scb.passCount = b.passCount + 1 ∧
      t.scb.passTime = BitVec.ofNat 20 (min ((s.clock - b.passFrom) / 400) 0xFFFFF) ∧ t.scb.lastPassEnd = some s.clock ∧
      ∀ k, bootedSlot s = some k → b.sigFault = none →
        (beWords (sha256 b.imgBytes) = s.cfg.views[k.val].hdr.sig.toList → t.scb.sigFault = none) ∧
        (beWords (sha256 b.imgBytes) ≠ s.cfg.views[k.val].hdr.sig.toList → t.scb.sigFault = some (b.passCount + 1))) ∧
    (∃ t, exec (.voteCorrection what) s = .next t ∧ Only [.scb, .qe, .dm] s t ∧ scrubCfg t = scrubCfg s ∧
      t.scb.cntVote = b.cntVote + 1 ∧ t.scb.flags.on 0 = true ∧ t.qe.seq = nextSeq s.qe.seq) ∧
    (scrapped s = true → exec .save s = .next s) ∧
    (scrapped s = false → b.saving = none → exec .save s = becomes { b with saving := some (b.stageInterval, b.stageReconf) }) ∧
    (scrapped s = false → b.saving ≠ none → exec .save s =
      .next { s with moment := { s.moment with retry := s.moment.retry ++ [.save] } }) ∧
    (b.saving = none → exec .saveDone s = .next s) ∧
    -- a SAVE written in the tick in which one completes starts
    (∀ v, b.saving = some v → exec .saveDone s = .next { s with
      moment := { s.moment with header := some (s.cfg.scrubCopyA, s.cfg.scrubCopyB) }
      scb := { b with
        flags := b.flags.set 5
        saving := if s.moment.retry.contains .save ∧ scrapped s = false then some (b.stageInterval, b.stageReconf) else none }
      cfg := { s.cfg with scrubCopyA := some v, scrubCopyB := some v } })

/-- R460, R471, R475, R477, R478, R481, R483, R484: what software does to a UART through its FIFOs, its counters, its BREAK bit, its
QUIET, its routing and its group. A character written into a full TX FIFO is lost and counted, unless the transmitter can take one in
that tick; a change of routing or of settings ends the characters in progress, one being sent counted TX_LOST and one being received
DISCARD; an invalid group is applied with CFG_BAD. -/
def Obligations.UartSoftware : Prop :=
  ∀ (s : State) (n : Fin 18) (c : BitVec 9) (v pins loop : Bool), Clocked s →
    let u := s.ua[n.val]
    let g := u.group.active
    let becomes := fun u' : Ua => Host.Outcome.next { s with ua := upd s.ua n fun _ => u' }
    let period := 4 * max (fld g.div 15 0) 1
    let sending := ∃ f, u.frame = some f ∧ s.clock < f.end_
    let assembling := ∃ k bits prev, u.arm = .assembling k bits prev
    let canSend := uaLive s n = true ∧ u.brk = false ∧ ¬sending ∧ u.gapUntil ≤ s.clock
    -- what a change of settings or of the connection leaves of the characters in progress
    let cut := { u with
      flags := u.flags.setIf (decide sending) 7
      tally := (u.tally.bumpIf (decide sending) 6).bumpIf (inAssembly u) 5
      arm := .waitMark, pulses := [], frame := none, before := none }
    let applied := { cut with
      group := { u.group with
        active := u.group.shadow, pending := u.group.again, again := false, wait := 0, count := u.group.count + 1 }
      quiet := false }
    (inAssembly u = true ↔ assembling) ∧
    (u.tx.length < 16 → exec (.uaTxdataWrite n c) s = becomes { u with tx := u.tx ++ [c] }) ∧
    (16 ≤ u.tx.length → ¬canSend → exec (.uaTxdataWrite n c) s =
      becomes { u with flags := u.flags.set 7, tally := u.tally.bump 6 }) ∧
    (∀ first rest, u.tx = first :: rest → rest.length = 15 → canSend → ∃ t, exec (.uaTxdataWrite n c) s = .next t ∧
      Only [.ua] s t ∧ Others n s.ua t.ua ∧ t.ua[n.val].tx = rest ++ [c] ∧ t.ua[n.val].flags = u.flags ∧
      ∃ f, t.ua[n.val].frame = some f ∧ f.from_ = s.clock ∧ f.bits = framed g first) ∧
    exec (.uaRxFlush n) s = becomes { u with rx := [] } ∧
    exec (.uaTxFlush n) s = becomes { u with tx := [] } ∧
    exec (.uaCntClear n) s = becomes { u with tally := u.tally.clear } ∧
    (u.brk = v → exec (.break_ n v) s = .next s) ∧
    (u.brk = false → exec (.break_ n true) s = becomes { u with brk := true, brkFrom := s.clock }) ∧
    (u.brk = true → exec (.break_ n false) s = becomes { u with
      brk := false, gapUntil := (match u.frame with | some f => max s.clock f.end_ | none => s.clock) + 16 * period }) ∧
    (u.quietFrom + 16 * period ≤ s.clock → exec (.quietExit n) s = becomes { u with quiet := false }) ∧
    (s.clock < u.quietFrom + 16 * period → exec (.quietExit n) s = .next s) ∧
    (u.pins = pins → u.loop = loop → exec (.uaRouteWrite n pins loop) s = .next s) ∧
    (u.pins ≠ pins ∨ u.loop ≠ loop → exec (.uaRouteWrite n pins loop) s = becomes { cut with pins := pins, loop := loop }) ∧
    (u.group.pending = false → exec (.uaCommitApply n) s = .next s) ∧
    (u.group.pending = true → uaInvalid u.group.shadow = false →
      exec (.uaCommitApply n) s = becomes { applied with cfgBad := false }) ∧
    (u.group.pending = true → uaInvalid u.group.shadow = true →
      exec (.uaCommitApply n) s = becomes { applied with cfgBad := true, flags := cut.flags.set 8 })

/-- R458, R460, R463 to R467, R470, R472, R474 to R477, R480: the levels that a receiver samples are those of the line it listens to,
or with LOOP its own; from 1 to 0 a character starts; a start sample of 1 is noise, discarded; the data, parity and stop samples at
period 16k + 8 give the character stored, with a framing error when the stop sample is 0, a break when every sample is, and an early end
at a change to 0 in the stop bit. The oldest character of the TX FIFO goes on the line when the UART is live, no BREAK is set and
nothing is being sent. An accepted pulse is framed level 0, unless the UART's own light blinds it or it is QUIET. That the stop bit is
watched from period 16N on is the model's reading (log entry 105). -/
def Obligations.UartCharacters : Prop :=
  ∀ (s : State) (n : Fin 18) (rx : UaSamples) (level prev early : Bool) (k : Nat) (bits : List Bool) (c : RxChar), Clocked s →
    let u := s.ua[n.val]
    let g := u.group.active
    let becomes := fun u' : Ua => Host.Outcome.next { s with ua := upd s.ua n fun _ => u' }
    let N := 1 + uaBits g + uaParBits g
    let period := 4 * max (fld g.div 15 0) 1
    let ir := bit g.cfg 13
    let step := rxStep g (.assembling k bits prev) level
    let result := unframe g ((bits.drop 1).take (uaBits g + uaParBits g))
    -- what is sampled
    (u.loop = true → rxLevels s n rx = some (if ir then List.replicate rx.levels.length true
      else pastLevels s n rx.levels.length (framedAt u))) ∧
    (∀ l, uaSource s n = .line l → ir = false →
      rxLevels s n rx = if l = rx.line then some (rx.levels.map fun b => b != bit g.cfg 12) else none) ∧
    (∀ l, uaSource s n = .line l → ir = true → rxLevels s n rx = some (pastLevels s n rx.levels.length fun t =>
      decide (∀ p ∈ u.pulses, t < p ∨ p + 16 * period ≤ t))) ∧
    (uaSource s n = .idle → rxLevels s n rx = some (List.replicate rx.levels.length (ir || !bit g.cfg 12))) ∧
    (∀ p, u.loop = false → u.pins = true → sigPin s (sigRxd n) = some p → uaSource s n = .line (.pin p)) ∧
    (∀ ch, u.loop = false → u.pins = false → pinsLive s = true → uaChannel s n = some ch → uaSource s n = .line (.serTfg ch)) ∧
    -- one sample period
    (rxStep g (.armed true) false = (.assembling 0 [] false, .none)) ∧
    (rxStep g .waitMark false = (.waitMark, .none) ∧ rxStep g .waitMark true = (.armed true, .none)) ∧
    (k = 7 → step = if level then (.armed true, .discard) else (.assembling 8 (bits ++ [false]) false, .none)) ∧
    (k + 1 < 16 * N → (k + 1) % 16 = 8 → k ≠ 7 → step = (.assembling (k + 1) (bits ++ [level]) level, .none)) ∧
    (k + 1 < 16 * N → (k + 1) % 16 ≠ 8 → step = (.assembling (k + 1) bits level, .none)) ∧
    (16 * N ≤ k + 1 → k + 1 < 16 * N + 9 → prev = true → level = false →
      step = (.assembling 0 [] false, .store (rxChar g bits true))) ∧
    (k + 1 = 16 * N + 8 → prev = false ∨ level = true → step = (.assembling (k + 1) (bits ++ [level]) level, .none)) ∧
    (k + 1 = 16 * N + 9 → step.2 = .store (rxChar g bits false)) ∧
    (early = true ∨ true ∈ bits →
      rxChar g bits early = { data := result.1, fe := early || !bits.getLastD true, pe := result.2, brk := false, ovr := false }) ∧
    (early = false → true ∉ bits → rxChar g bits early = { data := 0, fe := true, pe := false, brk := true, ovr := false }) ∧
    (u.rxHeld = none →
      let stored := { u with
        flags := ((u.flags.setIf c.fe 2).setIf c.pe 3).setIf c.brk 5
        tally := ((u.tally.bumpIf c.fe 0).bumpIf c.pe 1).bumpIf c.brk 3 }
      uaPush c u = if u.rx.length < 16 then { stored with rx := u.rx ++ [c] } else { stored with rxHeld := some c }) ∧
    -- the command
    (uaLive s n = false ∨ u.quiet = true ∨ rxLevels s n rx = none → exec (.characterReceive n rx) s = .next s) ∧
    (uaLive s n = true → u.quiet = false → rxLevels s n rx = some [level] → exec (.characterReceive n rx) s =
      let r := rxStep g u.arm level
      becomes (match r.2 with
        | .none => { u with arm := r.1 }
        | .store c => uaPush c { u with arm := r.1 }
        | .discard => { u with arm := r.1, tally := u.tally.bump 5 })) ∧
    (∀ ls, uaLive s n = true → u.quiet = false → rxLevels s n rx = some ls →
      ∃ t, exec (.characterReceive n rx) s = .next t ∧ Only [.ua] s t ∧ Others n s.ua t.ua) ∧
    (let sending := ∃ f, u.frame = some f ∧ s.clock < f.end_
     let canSend := uaLive s n = true ∧ u.brk = false ∧ ¬sending ∧ u.gapUntil ≤ s.clock
     let discards := ir && inAssembly u
     (¬canSend ∨ u.tx = [] → exec (.characterTransmit n) s = .next s) ∧
     (∀ first rest, canSend → u.tx = first :: rest → exec (.characterTransmit n) s = becomes { u with
       tx := rest, before := u.frame
       frame := some ⟨s.clock, 16 * period, s.clock + period * (16 * N + stopPeriods g), framed g first⟩
       tally := u.tally.bumpIf discards 5, arm := if discards then .waitMark else u.arm })) ∧
    (let blind := ∃ f, u.frame = some f ∧ s.clock < f.end_ + f.unit
     let sees := uaLive s n = true ∧ ir = true ∧ ¬blind ∧ ∃ l, uaSource s n = .line l
     (¬sees ∨ u.quiet = true → exec (.irPulseAccept n) s = .next s) ∧
     (sees → u.quiet = false → exec (.irPulseAccept n) s = becomes { u with
       pulses := s.clock :: u.pulses.filter fun p => decide (s.clock < p + 16 * 16 * period) }) ∧
     (¬sees → exec (.irFlood n) s = .next s) ∧
     (sees → exec (.irFlood n) s = becomes { u with
       quiet := true, quietFrom := s.clock, arm := .waitMark, pulses := [], flags := u.flags.set 6, tally := u.tally.bump 4 }))

/-- R458, R459, R461: the receive pipeline undoes the transmit pipeline for every character that fits the length in force, with every
setting of length and parity. -/
def Obligations.UartFramingRoundTrip : Prop :=
  ∀ (g : UaGroup) (c : BitVec 9), c.toNat < 2 ^ uaBits g → unframe g ((framed g c).drop 1).dropLast = (c, false)

/-- R487, R490, R496, R498, R503 to R507, R510, R512, R515: what software does to a controller through its queue, its FIFOs, its
counters and its actions; a commit, which waits while a frame is open; and a mode fault, which empties queue and TX FIFO and
halts the master, also when a command would complete in its tick. -/
def Obligations.SpcSoftware : Prop :=
  ∀ (s : State) (m : Fin 2) (b : Byte) (w : Word), Clocked s →
    let u := s.spc[m.val]
    let g := u.group.active
    let becomes := fun u' : Spc => Host.Outcome.next { s with spc := upd s.spc m fun _ => u' }
    let lost := becomes { u with tally := u.tally.bump 6, flags := u.flags.set 9 }
    let slave := bit g.cfg 1 = true
    let enabled := bit g.cfg 0 = true
    -- the command in progress abandoned, the frame closed, the queue and the TX FIFO emptied
    let emptied := { u with run := none, queue := [], tx := [], frameOpen := false, chain := false, contWait := false,
                            stalled := false, wordPos := 0 }
    let claimed := inputLevel s (sigSs m 0) = bit g.cfg 12
    let contends := enabled ∧ ¬slave ∧ bit g.cfg 7 = true ∧ u.cfgBad = false ∧ sigPin s (sigSs m 0) ≠ none
    let open_ := enabled ∧ if slave then u.slaveFrame = true else u.frameOpen = true ∨ u.chain = true
    let applied := { u with group := { u.group with
      active := u.group.shadow, pending := u.group.again, again := false, wait := 0, count := u.group.count + 1 } }
    (u.tx.length < 64 → exec (.spcTxdataWrite m b) s = becomes { u with tx := u.tx ++ [(b, s.clock)] }) ∧
    (64 ≤ u.tx.length → exec (.spcTxdataWrite m b) s = lost) ∧
    (u.tx.length ≤ 60 → exec (.spcTxdata4Write m w) s =
      becomes { u with tx := u.tx ++ (leBytes 4 w.toNat).map fun x => (x, s.clock) }) ∧
    (60 < u.tx.length → exec (.spcTxdata4Write m w) s = lost) ∧
    (slave → exec (.spcCmdWrite m w) s = becomes { u with tally := u.tally.bump 5, flags := u.flags.set 8 }) ∧
    (¬slave → 32 ≤ u.queue.length → exec (.spcCmdWrite m w) s = becomes { u with tally := u.tally.bump 7 }) ∧
    (¬slave → u.queue.length < 32 → exec (.spcCmdWrite m w) s = becomes { u with queue := u.queue ++ [w], contWait := false }) ∧
    exec (.spcAbort m) s = becomes emptied ∧
    (¬claimed → exec (.resume m) s = becomes { u with halted := false }) ∧
    (claimed → exec (.resume m) s = .next s) ∧
    exec (.spcRxFlush m) s = becomes { u with rx := [], rxHeld := none, slaveFlushed := u.slaveFlushed || u.slaveFrame } ∧
    exec (.spcTxFlush m) s = becomes { u with tx := [] } ∧
    exec (.spcCntClear m) s = becomes { u with tally := u.tally.clear, doneCmds := 0, doneFrames := 0 } ∧
    (u.group.pending = false ∨ open_ → exec (.spcCommitApply m) s = .next s) ∧
    (u.group.pending = true → ¬open_ → spcInvalid u.group.shadow = false →
      exec (.spcCommitApply m) s = becomes { applied with cfgBad := false }) ∧
    (u.group.pending = true → ¬open_ → spcInvalid u.group.shadow = true →
      exec (.spcCommitApply m) s = becomes { applied with cfgBad := true, flags := u.flags.set 10 }) ∧
    (contends → exec (.modeFault m) s =
      becomes { emptied with halted := true, doneNow := 0, tally := u.tally.bump 0, flags := u.flags.set 3 }) ∧
    (¬contends → exec (.modeFault m) s = .next s)

/-- R486 to R489, R491, R492, R495, R515: the bits of a byte by clock mode and order; the command at the head of the queue starts under
its own kind alone, or is rejected by its count; a byte waits for its FIFOs, moves, and the last one completes the command, counted at
the end of its tick. That DELAY leaves the selects as they stand is the model's reading (log entry 106). -/
def Obligations.SpcMasterCommands : Prop :=
  ∀ (s : State) (m : Fin 2) (miso x : SpiBits), Clocked s →
    let u := s.spc[m.val]
    let g := u.group.active
    let becomes := fun u' : Spc => Host.Outcome.next { s with spc := upd s.spc m fun _ => u' }
    let live := spcMasterLive s m = true
    -- the end of a command, with CONT or with the frame closed
    let ended := fun (u : Spc) (cont : Bool) =>
      if cont then { u with run := none, stalled := false, contWait := u.queue.isEmpty }
      else { u with run := none, stalled := false, frameOpen := false, chain := false, contWait := false, wordPos := 0 }
    let head := fun (w : Word) (rest : List Word) =>
      { u with queue := rest, contWait := false, chain := true, sel := if u.chain then u.sel else BitVec.ofNat 4 (fld w 15 12)
               wordPos := if u.chain then u.wordPos else 0 }
    let rejected := fun w : Word => cmdKind w ≠ 3 ∧ (bit g.cfg 5 = true ∨ bit g.cfg 8 = true) ∧ cmdCount w % (fld g.cfg 10 9 + 1) ≠ 0
    let starts := fun (c : Instr) (w : Word) (rest : List Word) =>
      (rejected w → exec c s = becomes (ended { head w rest with tally := u.tally.bump 5, flags := u.flags.set 8 } (bit w 16))) ∧
      (¬rejected w → exec c s = becomes { head w rest with
        frameOpen := u.frameOpen || decide (cmdKind w ≠ 3)
        run := some ⟨cmdKind w, cmdCount w, bit w 16, s.clock + cmdCount w * (8 * (fld g.clk 11 0 + 1))⟩ })
    (∀ i, i < 8 → bit (wireByte g (sampled g x)) i =
      bit (if bit g.cfg 2 = bit g.cfg 3 then x.rise else x.fall) (if bit g.cfg 4 then i else 7 - i)) ∧
    (live → spcOut s m 0 = some (bit g.cfg 2)) ∧
    (¬live ∨ u.run ≠ none ∨ u.queue = [] → exec (.duplex m) s = .next s ∧ exec (.tx m) s = .next s ∧
      exec (.rx m) s = .next s ∧ exec (.delay m) s = .next s) ∧
    (∀ w rest, live → u.run = none → u.queue = w :: rest →
      (cmdKind w = 0 → starts (.duplex m) w rest) ∧ (cmdKind w = 1 → starts (.tx m) w rest) ∧
      (cmdKind w = 2 → starts (.rx m) w rest) ∧ (cmdKind w = 3 → starts (.delay m) w rest) ∧
      (cmdKind w ≠ 0 → exec (.duplex m) s = .next s) ∧ (cmdKind w ≠ 1 → exec (.tx m) s = .next s) ∧
      (cmdKind w ≠ 2 → exec (.rx m) s = .next s) ∧ (cmdKind w ≠ 3 → exec (.delay m) s = .next s)) ∧
    (¬live ∨ u.run = none → exec (.masterByte m miso) s = .next s) ∧
    (∀ r, live → u.run = some r →
      let sends := r.kind = 0 ∨ r.kind = 1
      let stores := r.kind = 0 ∨ r.kind = 2
      let waits := (sends ∧ u.tx = []) ∨ (stores ∧ 64 ≤ u.rx.length)
      let got := if sigPin s (sigMiso m) = none then 0 else wireByte g (sampled g miso)
      let word := u.wordPos + 1 = fld g.cfg 10 9 + 1
      let moved := { u with
        tx := if sends then u.tx.tail else u.tx, rx := if stores then u.rx ++ [⟨got, false, true⟩] else u.rx
        lastMosi := some (if sends then (u.tx.map (·.1)).headD 0 else g.fill.setWidth 8), stalled := false
        wordPos := if word then 0 else u.wordPos + 1, frameOpen := !(bit g.cfg 5 && decide word)
        run := some { r with left := r.left - 1 } }
      (r.kind = 3 ∨ waits → exec (.masterByte m miso) s = .next s) ∧
      (r.kind ≠ 3 → ¬waits → 2 ≤ r.left → exec (.masterByte m miso) s = becomes moved) ∧
      (r.kind ≠ 3 → ¬waits → r.left ≤ 1 →
        exec (.masterByte m miso) s = becomes (ended { moved with doneNow := u.doneNow + 1 } r.cont)))

/-- R486, R498 to R502, R511, R515: the start of a frame, a byte received, the end of a frame with a partial byte, a frame accepted or
rejected under WFRAME, and the byte the slave chooses to send: the oldest of the TX FIFO when it was written early enough, else BUSY;
whether a younger byte is taken is a free value. -/
def Obligations.SpcSlaveFrames : Prop :=
  ∀ (s : State) (m : Fin 2) (mosi : SpiBits) (bits : Nat), Clocked s →
    let u := s.spc[m.val]
    let g := u.group.active
    let put := fun (s : State) (u' : Spc) => { s with spc := upd s.spc m fun _ => u' }
    -- a byte held over the full RX FIFO enters it when a read has made room, and is discarded else
    let v := spcSettle u
    let begun := { u with slaveFrame := true, slaveBytes := 0, slaveLost := false, slaveFlushed := false }
    let got := if sigPin s (sigMosi m) = none then 0 else wireByte g (sampled g mosi)
    let c : SpcRx := ⟨got, false, !bit g.cfg 8⟩
    let stored :=
      if v.rx.length < 64 then { v with slaveBytes := v.slaveBytes + 1, rx := v.rx ++ [c] }
      else { v with slaveBytes := v.slaveBytes + 1, rxHeld := some c }
    let cut := decide (bits ≠ 0)
    let ended := { v with
      slaveFrame := false, framesNow := v.framesNow + 1, slaveNext := none
      tally := (v.tally.bumpIf cut 3).bumpIf (cut && v.slaveNext.isSome) 9
      flags := v.flags.setIf cut 6
      tx := if bits = 0 then (v.slaveNext.toList.map fun b => (b, 0)) ++ v.tx else v.tx }
    let whole := v.slaveBytes % (fld g.cfg 10 9 + 1) = 0 ∧ bits = 0 ∧ v.slaveLost = false ∧ v.slaveFlushed = false
    let starts := spcSlaveLive s m = true ∧ u.slaveFrame = false ∧ sigPin s (sigSs m 0) ≠ none
    let clocks := u.slaveFrame = true ∧ sigPin s (sigSck m) ≠ none
    (u.rxHeld = none → v = u) ∧
    (∀ c, u.rxHeld = some c → v = if u.rx.length < 64 then { u with rx := u.rx ++ [c], rxHeld := none }
      else { u with rxHeld := none, slaveLost := true, tally := u.tally.bump 1, flags := u.flags.set 4 }) ∧
    (¬starts → exec (.slaveFrameStart m) s = .next s) ∧
    (starts → exec (.slaveFrameStart m) s = .next (slaveChoose (put s begun) m)) ∧
    (¬clocks → exec (.slaveByte m mosi) s = .next s) ∧
    (clocks → exec (.slaveByte m mosi) s = .next (slaveChoose (put s stored) m)) ∧
    (u.slaveFrame = false → exec (.slaveFrameEnd m bits) s = .next s) ∧
    (u.slaveFrame = true →
      (bit g.cfg 8 = false → exec (.slaveFrameEnd m bits) s = .next (put s ended)) ∧
      (bit g.cfg 8 = true → whole → exec (.slaveFrameEnd m bits) s = .next (put s { ended with rx := acceptFrame v.rx })) ∧
      (bit g.cfg 8 = true → ¬whole → exec (.slaveFrameEnd m bits) s = .next (put s { ended with
        rx := v.rx.filter (·.committed), tally := ended.tally.bump 4, flags := ended.flags.set 7 }))) ∧
    ∀ c : State,
      let v := c.spc[m.val]
      let busy := { v with
        slaveNext := none, slaveOut := (v.group.active.fill >>> 8).setWidth 8, tally := v.tally.bump 2, flags := v.flags.set 5 }
      (v.tx = [] → slaveChoose c m = put c busy) ∧
      ∀ b t rest, v.tx = (b, t) :: rest →
        let taken := { v with slaveNext := some b, slaveOut := b, tx := rest }
        (t + 40 ≤ c.clock → slaveChoose c m = put c taken) ∧
        (c.clock < t + 40 → freeValue c % 2 = 0 → slaveChoose c m = put { c with freeCtr := c.freeCtr + 1 } taken) ∧
        (c.clock < t + 40 → freeValue c % 2 ≠ 0 → slaveChoose c m = put { c with freeCtr := c.freeCtr + 1 } busy)

/-- R513 to R517, R521 to R524, R530, R532 to R534: masked writes to a bank; what a pin drives by its function and its signal, and the
pin an input signal is taken from; the level at a line's synchronizer, accepted at the end of a tick after F + 1 samples, as an active
edge or not; the clear of the counters; and a new configuration of a line, which reports no edge. -/
def Obligations.PinCommands : Prop :=
  ∀ (s : State) (b : Fin 6) (m : BitVec 16) (k : Fin 16) (level : Bool) (w : Word) (p : Fin 96) (sig : Nat), Clocked s →
    let l := s.pio.pil[k.val]
    let becomes := fun l' : Pil => Host.Outcome.next { s with pio := { s.pio with pil := upd s.pio.pil k fun _ => l' } }
    let v := w &&& 0x0001FF77
    let pin := s.pio.pin[p.val]
    -- what the synchronizer shows: the device's own level where it drives the pin or its input is off
    let shown := (ownLevel s (pilPin k l.cfg)).getD level
    let seen := if shown = l.raw then l else { l with raw := shown, agree := 0 }
    let samples := s.clock % 4 = 0 ∧ (bit l.cfg 16 = false ∨ now s % 400 < 4)
    let ripe := samples ∧ shown ≠ l.level ∧ fld l.cfg 15 8 ≤ seen.agree
    let off := 6 ≤ fld l.cfg 2 0 ∨ fld l.cfg 6 4 = 0
    let moved := (fld l.cfg 2 0 ≠ fld v 2 0 ∨ fld l.cfg 15 8 ≠ fld v 15 8) ∧ fld v 2 0 < 6
    let new := if fld l.cfg 2 0 = fld v 2 0 then l.raw else pinLevel s (pilPin k v)
    exec (.pioOutSet b m) s = .next { s with pio := { s.pio with out := upd s.pio.out b fun o => o ||| m } } ∧
    exec (.pioOutClr b m) s = .next { s with pio := { s.pio with out := upd s.pio.out b fun o => o &&& ~~~m } } ∧
    exec .pioCntClear s =
      .next { s with pio := { s.pio with pil := s.pio.pil.map fun l => { l with edges := 0, missed := 0 } } } ∧
    (extestDrive s p.val = none →
      (released s = false → pinDrive s p = none) ∧
      (released s = true →
        (pinFunc pin = 0 → bit s.pio.oe[pinBank p] (p.val % 16) = false → pinDrive s p = none) ∧
        (pinFunc pin = 0 → bit s.pio.oe[pinBank p] (p.val % 16) = true → bit pin 15 = false →
          pinDrive s p = some (bit s.pio.out[pinBank p] (p.val % 16))) ∧
        (pinFunc pin = 2 → fld pin 9 4 < 18 → bit pin 15 = false → pinDrive s p = some (uaTxd s (Fin.ofNat 18 (fld pin 9 4)))) ∧
        (pinFunc pin = 2 → 18 ≤ fld pin 9 4 → fld pin 9 4 < 36 ∨ 50 ≤ fld pin 9 4 → pinDrive s p = none) ∧
        (pinFunc pin = 3 → pinDrive s p = none ∧ pinLevel s p = false) ∧
        (bit pin 15 = true → pinDrive s p ≠ some true))) ∧
    (sigPin s sig = some p → carries s sig p = true ∧ inputLevel s sig = padLevel s p ∧
      ∀ q : Fin 96, q < p → carries s sig q = false) ∧
    (sigPin s sig = none → inputLevel s sig = fixedLevel s sig ∧ ∀ q : Fin 96, carries s sig q = false) ∧
    (off → exec (.pilActiveEdge k level) s = .next s) ∧
    (¬off → (s.moment.late = false ∨ ¬ripe → exec (.pilActiveEdge k level) s = becomes seen) ∧
      (s.moment.late = true → ripe →
        (pilActive (fld l.cfg 6 4) shown = false →
          exec (.pilActiveEdge k level) s = becomes { seen with level := shown, agree := 0 }) ∧
        (pilActive (fld l.cfg 6 4) shown = true → exec (.pilActiveEdge k level) s = .next { s with pio := { s.pio with
          flags := s.pio.flags.set k.val
          pil := upd s.pio.pil k fun _ => { seen with
            level := shown, agree := 0, edges := l.edges + 1, stamp := s.time
            missed := if s.pio.flags.on k.val then satInc l.missed else l.missed } } }))) ∧
    (moved → exec (.pilCfgWrite k w) s = becomes { l with cfg := v, raw := new, level := new, agree := 0 }) ∧
    (¬moved → exec (.pilCfgWrite k w) s = becomes { l with cfg := v })

/-- R9, R526 to R529, R535, R536: starts of a scan, one channel's result at the end of its conversions with its average and its limits,
the next scan, and a commit. -/
def Obligations.AdcScans : Prop :=
  ∀ (s : State) (codes : List (BitVec 12)), Clocked s →
    let a := s.adc
    let g := a.group.active
    let n := 2 ^ min (fld g.cfg 6 4) 4
    let enabled := fun g : AdcGroup => bit g.cfg 0 = true
    let goesOn := fun g : AdcGroup => bit g.cfg 1 = true
    let period := 400 * fld g.cfg 31 16
    let due := enabled g ∧ goesOn g ∧ a.lastStart + period ≤ s.clock
    let ripe := a.scanning = true ∧ a.channelFrom + 400 * n ≤ s.clock
    let value : BitVec 12 := if a.skip then 0 else BitVec.ofNat 12 (((codes.take n).map (·.toNat)).sum / n)
    let outside := a.skip = false ∧
      (value.toNat < fld g.lim[a.channel.val] 11 0 ∨ fld g.lim[a.channel.val] 27 16 < value.toNat)
    let stored := { s with adc := { a with
      res := upd a.res a.channel fun _ => ⟨value, true, a.skip, a.scanCount.setWidth 8⟩
      flags := if outside then a.flags.set a.channel.val else a.flags } }
    let after := adcChannel stored (a.channel.val + 1)
    let again := a.due = true ∨ (goesOn g ∧ period = 0) ∨ Retry.hkadc ∈ s.moment.retry
    let applied := { s with adc := { a with scanning := false, group := { a.group with
      active := a.group.shadow, pending := a.group.again, again := false, wait := 0, count := a.group.count + 1 } } }
    let g' := a.group.shadow
    (¬enabled g → exec .hkadcStart s = .next s) ∧
    (enabled g → a.scanning = false → exec .hkadcStart s = .next (adcStart s)) ∧
    (enabled g → a.scanning = true → exec .hkadcStart s =
      .next { s with moment := { s.moment with retry := s.moment.retry ++ [.hkadc] } }) ∧
    (¬due → exec .scanPeriod s = .next s) ∧
    (due → a.scanning = true → exec .scanPeriod s = .next { s with adc := { a with due := true } }) ∧
    (due → a.scanning = false → exec .scanPeriod s = .next (adcStart s)) ∧
    (∀ c : State,
      adcStart c = adcChannel { c with adc := { c.adc with due := false, lastStart := c.clock } } 0) ∧
    (∀ (c : State) (i : Nat),
      (∀ k, adcNext c.adc.group.active i = some k → adcChannel c i = { c with adc := { c.adc with
        scanning := true, channel := k, skip := adcSkips c k, channelFrom := c.clock } }) ∧
      (adcNext c.adc.group.active i = none →
        adcChannel c i = { c with adc := { c.adc with
          scanning := false, scanCount := c.adc.scanCount + 1, flags := c.adc.flags.set 20 } })) ∧
    (¬ripe ∨ (a.skip = false ∧ codes.length < n) → exec (.channelResult codes) s = .next s) ∧
    (ripe → (a.skip = true ∨ n ≤ codes.length) →
      (after.adc.scanning = true ∨ ¬again → exec (.channelResult codes) s = .next after) ∧
      (after.adc.scanning = false → again → exec (.channelResult codes) s = .next (adcStart after))) ∧
    (a.group.pending = false → exec .hkadcCommitApply s = .next s) ∧
    (a.group.pending = true →
      (¬enabled g' → exec .hkadcCommitApply s = .next { applied with adc := { applied.adc with due := false } }) ∧
      (enabled g' → a.scanning = true → exec .hkadcCommitApply s = .next (adcChannel applied 0)) ∧
      (enabled g' → a.scanning = false → ¬enabled g → goesOn g' → exec .hkadcCommitApply s = .next (adcStart applied)) ∧
      (enabled g' → a.scanning = false → enabled g ∨ ¬goesOn g' → exec .hkadcCommitApply s = .next applied))
end

