-- ==== Sys2Proof/Laws/Bytes.lean ====
section
/-! SUPPORT. Words as big-endian bytes of the stream and back: what reading back a written word gives. -/

namespace Sys2Proof.Machine

theorem beBytes_four (v : Nat) : beBytes 4 v = [BitVec.ofNat 8 (v / 16777216), BitVec.ofNat 8 (v / 65536), BitVec.ofNat 8 (v / 256), BitVec.ofNat 8 v] := by
  simp [beBytes, leBytes, Nat.div_div_eq_div_mul]

theorem ofBe_beBytes_four (w : Word) : BitVec.ofNat 32 (ofBe (beBytes 4 w.toNat)) = w := by
  rw [beBytes_four]
  apply BitVec.eq_of_toNat_eq
  have := w.isLt
  simp only [ofBe, List.reverse_cons, List.reverse_nil, List.nil_append, List.cons_append, ofLe, BitVec.toNat_ofNat]
  omega

theorem beBytes_four_length (v : Nat) : (beBytes 4 v).length = 4 := by rw [beBytes_four]; rfl

theorem beWords_cons (w : Word) (r : List Byte) : beWords (beBytes 4 w.toNat ++ r) = w :: beWords r := by
  have h := ofBe_beBytes_four w
  rw [beBytes_four] at h ⊢
  simp only [List.cons_append, List.nil_append, beWords, h]

theorem beWords_flatMap_beBytes (ws : List Word) : beWords (ws.flatMap fun w => beBytes 4 w.toNat) = ws := by
  induction ws with
  | nil => rfl
  | cons w r ih => rw [List.flatMap_cons, beWords_cons, ih]

theorem flatMap_beBytes_length (ws : List Word) : (ws.flatMap fun w => beBytes 4 w.toNat).length = 4 * ws.length := by
  induction ws with
  | nil => rfl
  | cons w r ih => rw [List.flatMap_cons, List.length_append, ih, beBytes_four_length, List.length_cons]; omega

end Sys2Proof.Machine
end

