-- ==== Sys2Proof/Laws/Memory.lean ====
section
/-! SUPPORT. The laws of the two memories: every operation keeps the canonical form, a read after a write to the same address
gives the byte written, and a write leaves every other address alone. -/

namespace Sys2Proof.Machine

/-- Every listed address is above a bound and no listed byte is 0. -/
def Above (lo : Nat) (m : List Host.Cell) : Prop := ∀ c ∈ m, lo < c.1

theorem wf_tail {c : Host.Cell} {m : List Host.Cell} (h : Memory.wf (c :: m) = true) : Memory.wf m = true := by
  cases m with
  | nil => rfl
  | cons d r =>
    simp only [Memory.wf, Bool.and_eq_true] at h
    exact h.2

theorem wf_head {c : Host.Cell} {m : List Host.Cell} (h : Memory.wf (c :: m) = true) : c.2 ≠ 0 := by
  cases m with
  | nil => simpa [Memory.wf] using h
  | cons d r =>
    simp only [Memory.wf, Bool.and_eq_true, bne_iff_ne] at h
    exact h.1.1

theorem wf_above {c : Host.Cell} {m : List Host.Cell} (h : Memory.wf (c :: m) = true) : Above c.1 m := by
  induction m generalizing c with
  | nil => intro x hx; cases hx
  | cons d r ih =>
    have hd : c.1 < d.1 := by
      simp only [Memory.wf, Bool.and_eq_true, decide_eq_true_eq] at h
      exact h.1.2
    intro x hx
    rcases List.mem_cons.mp hx with e | hx
    · rw [e]; exact hd
    · exact Nat.lt_trans hd (ih (wf_tail h) x hx)

theorem wf_cons {c : Host.Cell} {m : List Host.Cell} (h0 : c.2 ≠ 0) (ha : Above c.1 m) (h : Memory.wf m = true) :
    Memory.wf (c :: m) = true := by
  cases m with
  | nil => simpa [Memory.wf] using h0
  | cons d r =>
    simp only [Memory.wf, Bool.and_eq_true, bne_iff_ne, decide_eq_true_eq]
    exact ⟨⟨h0, ha d (List.mem_cons_self ..)⟩, h⟩

theorem above_memWrite {lo a : Nat} {b : Byte} {m : List Host.Cell} (h : Above lo m) (ha : lo < a) :
    Above lo (memWrite m a b) := by
  induction m with
  | nil =>
    unfold memWrite
    split
    · exact h
    · intro x hx; rw [List.mem_singleton.mp hx]; exact ha
  | cons c r ih =>
    have hr : Above lo r := fun x hx => h x (List.mem_cons_of_mem _ hx)
    have hc : lo < c.1 := h c (List.mem_cons_self ..)
    unfold memWrite
    split
    · split
      · exact h
      · intro x hx
        rcases List.mem_cons.mp hx with e | hx
        · rw [e]; exact ha
        · exact h x hx
    · split
      · split
        · exact hr
        · intro x hx
          rcases List.mem_cons.mp hx with e | hx
          · rw [e]; exact ha
          · exact hr x hx
      · intro x hx
        rcases List.mem_cons.mp hx with e | hx
        · rw [e]; exact hc
        · exact ih hr x hx

/-- One byte written keeps the canonical form. -/
theorem memWrite_wf {m : List Host.Cell} (a : Nat) (b : Byte) (h : Memory.wf m = true) : Memory.wf (memWrite m a b) = true := by
  induction m with
  | nil =>
    unfold memWrite
    split
    · rfl
    · simpa [Memory.wf] using ‹¬b = 0›
  | cons c r ih =>
    have hr := wf_tail h
    have ha := wf_above h
    unfold memWrite
    split
    · rename_i hlt
      split
      · exact h
      · refine wf_cons ‹¬b = 0› (fun x hx => ?_) h
        rcases List.mem_cons.mp hx with e | hx
        · rw [e]; exact hlt
        · exact Nat.lt_trans hlt (ha x hx)
    · split
      · rename_i heq
        split
        · exact hr
        · exact wf_cons ‹¬b = 0› (heq ▸ ha) hr
      · exact wf_cons (wf_head h) (above_memWrite ha (by omega)) (ih hr)

theorem memWriteBytes_wf (bs : List Byte) {m : List Host.Cell} (a : Nat) (h : Memory.wf m = true) :
    Memory.wf (memWriteBytes m a bs) = true := by
  induction bs generalizing m a with
  | nil => exact h
  | cons b r ih => exact ih (a + 1) (memWrite_wf a b h)

theorem memWrite32_wf {m : List Host.Cell} (a : Nat) (w : Word) (h : Memory.wf m = true) :
    Memory.wf (memWrite32 m a w) = true := memWriteBytes_wf _ a h

theorem filter_wf {m : List Host.Cell} (p : Host.Cell → Bool) (h : Memory.wf m = true) : Memory.wf (m.filter p) = true := by
  induction m with
  | nil => rfl
  | cons c r ih =>
    have hr := ih (wf_tail h)
    by_cases hp : p c = true
    · rw [List.filter_cons_of_pos hp]
      exact wf_cons (wf_head h) (fun x hx => wf_above h x (List.mem_filter.mp hx).1) hr
    · rw [List.filter_cons_of_neg hp]; exact hr

theorem memZero_wf {m : List Host.Cell} (lo n : Nat) (h : Memory.wf m = true) : Memory.wf (memZero m lo n) = true :=
  filter_wf _ h

/-- An address below every listed one reads 0. -/
theorem memRead_above {m : List Host.Cell} {a lo : Nat} (h : Above lo m) (ha : a ≤ lo) : memRead m a = 0 := by
  cases m with
  | nil => rfl
  | cons c r =>
    have := h c (List.mem_cons_self ..)
    simp [memRead, show c.1 ≠ a by omega, show a < c.1 by omega]

/-- A read after a write to the same address gives the byte written. -/
theorem memRead_memWrite_same {m : List Host.Cell} (a : Nat) (b : Byte) (h : Memory.wf m = true) :
    memRead (memWrite m a b) a = b := by
  induction m with
  | nil =>
    unfold memWrite
    split
    · rename_i e; rw [e]; rfl
    · simp [memRead]
  | cons c r ih =>
    unfold memWrite
    split
    · rename_i hlt
      split
      · rename_i e
        rw [e]
        simp [memRead, show c.1 ≠ a by omega, hlt]
      · simp [memRead]
    · split
      · rename_i heq
        split
        · rename_i e
          rw [e]
          exact memRead_above (wf_above h) (by omega)
        · simp [memRead]
      · rename_i h1 h2
        simp only [memRead, h2, if_false, show ¬a < c.1 from h1]
        exact ih (wf_tail h)

/-- A write leaves every other address alone. -/
theorem memRead_memWrite_other {m : List Host.Cell} (a x : Nat) (b : Byte) (h : Memory.wf m = true) (hx : x ≠ a) :
    memRead (memWrite m a b) x = memRead m x := by
  induction m with
  | nil =>
    unfold memWrite
    split
    · rfl
    · simp only [memRead, show a ≠ x from fun e => hx e.symm, if_false]
      split <;> rfl
  | cons c r ih =>
    unfold memWrite
    split
    · rename_i hlt
      split
      · rfl
      · simp only [memRead, show a ≠ x from fun e => hx e.symm, if_false]
        split
        · simp [show c.1 ≠ x by omega, show x < c.1 by omega]
        · rfl
    · split
      · rename_i heq
        split
        · simp only [memRead, heq, show a ≠ x from fun e => hx e.symm, if_false]
          split
          · exact memRead_above (wf_above h) (by omega)
          · rfl
        · simp [memRead, heq, show ¬a = x from fun e => hx e.symm]
      · simp only [memRead, ih (wf_tail h)]

theorem memRead_memWriteBytes_outside (bs : List Byte) {m : List Host.Cell} (a x : Nat) (h : Memory.wf m = true)
    (hx : x < a ∨ a + bs.length ≤ x) : memRead (memWriteBytes m a bs) x = memRead m x := by
  induction bs generalizing m a with
  | nil => rfl
  | cons b r ih =>
    simp only [List.length_cons] at hx
    show memRead (memWriteBytes (memWrite m a b) (a + 1) r) x = _
    rw [ih (a + 1) (memWrite_wf a b h) (by omega), memRead_memWrite_other a x b h (by omega)]

theorem memRead_memWriteBytes_inside (bs : List Byte) {m : List Host.Cell} (a i : Nat) (h : Memory.wf m = true)
    (hi : i < bs.length) : memRead (memWriteBytes m a bs) (a + i) = bs[i] := by
  induction bs generalizing m a i with
  | nil => simp at hi
  | cons b r ih =>
    show memRead (memWriteBytes (memWrite m a b) (a + 1) r) (a + i) = _
    cases i with
    | zero =>
      rw [memRead_memWriteBytes_outside r (a + 1) (a + 0) (memWrite_wf a b h) (by omega)]
      exact memRead_memWrite_same a b h
    | succ i =>
      have := ih (a + 1) i (memWrite_wf a b h) (by simpa using hi)
      rw [show a + (i + 1) = a + 1 + i by omega]
      simpa using this

/-- Zero data in a range of a canonical memory, and nothing else changed. -/
theorem memRead_memZero {m : List Host.Cell} (lo n x : Nat) (h : Memory.wf m = true) :
    memRead (memZero m lo n) x = if lo ≤ x ∧ x < lo + n then 0 else memRead m x := by
  unfold memZero
  induction m with
  | nil => simp [memRead]
  | cons c r ih =>
    have ha := wf_above h
    have ih := ih (wf_tail h)
    by_cases hp : c.1 < lo ∨ lo + n ≤ c.1
    · rw [List.filter_cons_of_pos (by simpa using hp)]
      simp only [memRead]
      by_cases h1 : c.1 = x
      · simp [h1, show ¬(lo ≤ x ∧ x < lo + n) by omega]
      · simp only [h1, if_false]
        by_cases h2 : x < c.1
        · simp [h2]
        · simp only [h2, if_false]; exact ih
    · rw [List.filter_cons_of_neg (by simpa using hp), ih]
      simp only [not_or, Nat.not_lt, Nat.not_le] at hp
      split
      · rfl
      · rename_i h3
        have h1 : c.1 ≠ x := by rintro rfl; exact h3 ⟨hp.1, hp.2⟩
        simp only [memRead, h1, if_false]
        split
        · exact memRead_above ha (by omega)
        · rfl

end Sys2Proof.Machine
end

