-- ==== Sys2Proof/Laws/State.lean ====
section
/-! SUPPORT. What each update of the state leaves as it is and what it sets, so that no later proof unfolds a record update. -/

namespace Sys2Proof.Machine

@[simp] theorem State.freeStep_fields (s : State) :
    s.freeStep.pending = s.pending ∧
    s.freeStep.moment = s.moment ∧
    s.freeStep.freeCtr = s.freeCtr + 1 ∧
    s.freeStep.undef = s.undef ∧
    s.freeStep.time = s.time ∧
    s.freeStep.clock = s.clock ∧
    s.freeStep.sys = s.sys ∧
    s.freeStep.mp = s.mp ∧
    s.freeStep.bus = s.bus ∧
    s.freeStep.acc = s.acc ∧
    s.freeStep.lcs = s.lcs ∧
    s.freeStep.jtag = s.jtag ∧
    s.freeStep.tbe = s.tbe ∧
    s.freeStep.tsq = s.tsq ∧
    s.freeStep.cap = s.cap ∧
    s.freeStep.tagBase = s.tagBase ∧
    s.freeStep.pw = s.pw ∧
    s.freeStep.qe = s.qe ∧
    s.freeStep.egr = s.egr ∧
    s.freeStep.hl = s.hl ∧
    s.freeStep.fsp = s.fsp ∧
    s.freeStep.fab = s.fab ∧
    s.freeStep.cfg = s.cfg ∧
    s.freeStep.scb = s.scb ∧
    s.freeStep.ua = s.ua ∧
    s.freeStep.spc = s.spc ∧
    s.freeStep.pio = s.pio ∧
    s.freeStep.adc = s.adc ∧
    s.freeStep.bkp = s.bkp ∧
    s.freeStep.dm = s.dm ∧
    s.freeStep.fs = s.fs := by
  refine ⟨rfl, rfl, rfl, rfl, rfl, rfl, rfl, rfl, rfl, rfl, rfl, rfl, rfl, rfl, rfl, rfl, rfl, rfl, rfl, rfl, rfl, rfl, rfl, rfl, rfl, rfl, rfl, rfl, rfl, rfl, rfl⟩

@[simp] theorem State.modSys_fields (s : State) (f : Sys → Sys) :
    (s.modSys f).pending = s.pending ∧
    (s.modSys f).moment = s.moment ∧
    (s.modSys f).freeCtr = s.freeCtr ∧
    (s.modSys f).undef = s.undef ∧
    (s.modSys f).time = s.time ∧
    (s.modSys f).clock = s.clock ∧
    (s.modSys f).sys = f s.sys ∧
    (s.modSys f).mp = s.mp ∧
    (s.modSys f).bus = s.bus ∧
    (s.modSys f).acc = s.acc ∧
    (s.modSys f).lcs = s.lcs ∧
    (s.modSys f).jtag = s.jtag ∧
    (s.modSys f).tbe = s.tbe ∧
    (s.modSys f).tsq = s.tsq ∧
    (s.modSys f).cap = s.cap ∧
    (s.modSys f).tagBase = s.tagBase ∧
    (s.modSys f).pw = s.pw ∧
    (s.modSys f).qe = s.qe ∧
    (s.modSys f).egr = s.egr ∧
    (s.modSys f).hl = s.hl ∧
    (s.modSys f).fsp = s.fsp ∧
    (s.modSys f).fab = s.fab ∧
    (s.modSys f).cfg = s.cfg ∧
    (s.modSys f).scb = s.scb ∧
    (s.modSys f).ua = s.ua ∧
    (s.modSys f).spc = s.spc ∧
    (s.modSys f).pio = s.pio ∧
    (s.modSys f).adc = s.adc ∧
    (s.modSys f).bkp = s.bkp ∧
    (s.modSys f).dm = s.dm ∧
    (s.modSys f).fs = s.fs := by
  refine ⟨rfl, rfl, rfl, rfl, rfl, rfl, rfl, rfl, rfl, rfl, rfl, rfl, rfl, rfl, rfl, rfl, rfl, rfl, rfl, rfl, rfl, rfl, rfl, rfl, rfl, rfl, rfl, rfl, rfl, rfl, rfl⟩

@[simp] theorem State.modMp_fields (s : State) (f : Mp → Mp) :
    (s.modMp f).pending = s.pending ∧
    (s.modMp f).moment = s.moment ∧
    (s.modMp f).freeCtr = s.freeCtr ∧
    (s.modMp f).undef = s.undef ∧
    (s.modMp f).time = s.time ∧
    (s.modMp f).clock = s.clock ∧
    (s.modMp f).sys = s.sys ∧
    (s.modMp f).mp = f s.mp ∧
    (s.modMp f).bus = s.bus ∧
    (s.modMp f).acc = s.acc ∧
    (s.modMp f).lcs = s.lcs ∧
    (s.modMp f).jtag = s.jtag ∧
    (s.modMp f).tbe = s.tbe ∧
    (s.modMp f).tsq = s.tsq ∧
    (s.modMp f).cap = s.cap ∧
    (s.modMp f).tagBase = s.tagBase ∧
    (s.modMp f).pw = s.pw ∧
    (s.modMp f).qe = s.qe ∧
    (s.modMp f).egr = s.egr ∧
    (s.modMp f).hl = s.hl ∧
    (s.modMp f).fsp = s.fsp ∧
    (s.modMp f).fab = s.fab ∧
    (s.modMp f).cfg = s.cfg ∧
    (s.modMp f).scb = s.scb ∧
    (s.modMp f).ua = s.ua ∧
    (s.modMp f).spc = s.spc ∧
    (s.modMp f).pio = s.pio ∧
    (s.modMp f).adc = s.adc ∧
    (s.modMp f).bkp = s.bkp ∧
    (s.modMp f).dm = s.dm ∧
    (s.modMp f).fs = s.fs := by
  refine ⟨rfl, rfl, rfl, rfl, rfl, rfl, rfl, rfl, rfl, rfl, rfl, rfl, rfl, rfl, rfl, rfl, rfl, rfl, rfl, rfl, rfl, rfl, rfl, rfl, rfl, rfl, rfl, rfl, rfl, rfl, rfl⟩

@[simp] theorem State.modBus_fields (s : State) (f : Bus → Bus) :
    (s.modBus f).pending = s.pending ∧
    (s.modBus f).moment = s.moment ∧
    (s.modBus f).freeCtr = s.freeCtr ∧
    (s.modBus f).undef = s.undef ∧
    (s.modBus f).time = s.time ∧
    (s.modBus f).clock = s.clock ∧
    (s.modBus f).sys = s.sys ∧
    (s.modBus f).mp = s.mp ∧
    (s.modBus f).bus = f s.bus ∧
    (s.modBus f).acc = s.acc ∧
    (s.modBus f).lcs = s.lcs ∧
    (s.modBus f).jtag = s.jtag ∧
    (s.modBus f).tbe = s.tbe ∧
    (s.modBus f).tsq = s.tsq ∧
    (s.modBus f).cap = s.cap ∧
    (s.modBus f).tagBase = s.tagBase ∧
    (s.modBus f).pw = s.pw ∧
    (s.modBus f).qe = s.qe ∧
    (s.modBus f).egr = s.egr ∧
    (s.modBus f).hl = s.hl ∧
    (s.modBus f).fsp = s.fsp ∧
    (s.modBus f).fab = s.fab ∧
    (s.modBus f).cfg = s.cfg ∧
    (s.modBus f).scb = s.scb ∧
    (s.modBus f).ua = s.ua ∧
    (s.modBus f).spc = s.spc ∧
    (s.modBus f).pio = s.pio ∧
    (s.modBus f).adc = s.adc ∧
    (s.modBus f).bkp = s.bkp ∧
    (s.modBus f).dm = s.dm ∧
    (s.modBus f).fs = s.fs := by
  refine ⟨rfl, rfl, rfl, rfl, rfl, rfl, rfl, rfl, rfl, rfl, rfl, rfl, rfl, rfl, rfl, rfl, rfl, rfl, rfl, rfl, rfl, rfl, rfl, rfl, rfl, rfl, rfl, rfl, rfl, rfl, rfl⟩

@[simp] theorem State.modAcc_fields (s : State) (f : Acc → Acc) :
    (s.modAcc f).pending = s.pending ∧
    (s.modAcc f).moment = s.moment ∧
    (s.modAcc f).freeCtr = s.freeCtr ∧
    (s.modAcc f).undef = s.undef ∧
    (s.modAcc f).time = s.time ∧
    (s.modAcc f).clock = s.clock ∧
    (s.modAcc f).sys = s.sys ∧
    (s.modAcc f).mp = s.mp ∧
    (s.modAcc f).bus = s.bus ∧
    (s.modAcc f).acc = f s.acc ∧
    (s.modAcc f).lcs = s.lcs ∧
    (s.modAcc f).jtag = s.jtag ∧
    (s.modAcc f).tbe = s.tbe ∧
    (s.modAcc f).tsq = s.tsq ∧
    (s.modAcc f).cap = s.cap ∧
    (s.modAcc f).tagBase = s.tagBase ∧
    (s.modAcc f).pw = s.pw ∧
    (s.modAcc f).qe = s.qe ∧
    (s.modAcc f).egr = s.egr ∧
    (s.modAcc f).hl = s.hl ∧
    (s.modAcc f).fsp = s.fsp ∧
    (s.modAcc f).fab = s.fab ∧
    (s.modAcc f).cfg = s.cfg ∧
    (s.modAcc f).scb = s.scb ∧
    (s.modAcc f).ua = s.ua ∧
    (s.modAcc f).spc = s.spc ∧
    (s.modAcc f).pio = s.pio ∧
    (s.modAcc f).adc = s.adc ∧
    (s.modAcc f).bkp = s.bkp ∧
    (s.modAcc f).dm = s.dm ∧
    (s.modAcc f).fs = s.fs := by
  refine ⟨rfl, rfl, rfl, rfl, rfl, rfl, rfl, rfl, rfl, rfl, rfl, rfl, rfl, rfl, rfl, rfl, rfl, rfl, rfl, rfl, rfl, rfl, rfl, rfl, rfl, rfl, rfl, rfl, rfl, rfl, rfl⟩

@[simp] theorem State.modLcs_fields (s : State) (f : Lcs → Lcs) :
    (s.modLcs f).pending = s.pending ∧
    (s.modLcs f).moment = s.moment ∧
    (s.modLcs f).freeCtr = s.freeCtr ∧
    (s.modLcs f).undef = s.undef ∧
    (s.modLcs f).time = s.time ∧
    (s.modLcs f).clock = s.clock ∧
    (s.modLcs f).sys = s.sys ∧
    (s.modLcs f).mp = s.mp ∧
    (s.modLcs f).bus = s.bus ∧
    (s.modLcs f).acc = s.acc ∧
    (s.modLcs f).lcs = f s.lcs ∧
    (s.modLcs f).jtag = s.jtag ∧
    (s.modLcs f).tbe = s.tbe ∧
    (s.modLcs f).tsq = s.tsq ∧
    (s.modLcs f).cap = s.cap ∧
    (s.modLcs f).tagBase = s.tagBase ∧
    (s.modLcs f).pw = s.pw ∧
    (s.modLcs f).qe = s.qe ∧
    (s.modLcs f).egr = s.egr ∧
    (s.modLcs f).hl = s.hl ∧
    (s.modLcs f).fsp = s.fsp ∧
    (s.modLcs f).fab = s.fab ∧
    (s.modLcs f).cfg = s.cfg ∧
    (s.modLcs f).scb = s.scb ∧
    (s.modLcs f).ua = s.ua ∧
    (s.modLcs f).spc = s.spc ∧
    (s.modLcs f).pio = s.pio ∧
    (s.modLcs f).adc = s.adc ∧
    (s.modLcs f).bkp = s.bkp ∧
    (s.modLcs f).dm = s.dm ∧
    (s.modLcs f).fs = s.fs := by
  refine ⟨rfl, rfl, rfl, rfl, rfl, rfl, rfl, rfl, rfl, rfl, rfl, rfl, rfl, rfl, rfl, rfl, rfl, rfl, rfl, rfl, rfl, rfl, rfl, rfl, rfl, rfl, rfl, rfl, rfl, rfl, rfl⟩

@[simp] theorem State.modJtag_fields (s : State) (f : Jtag → Jtag) :
    (s.modJtag f).pending = s.pending ∧
    (s.modJtag f).moment = s.moment ∧
    (s.modJtag f).freeCtr = s.freeCtr ∧
    (s.modJtag f).undef = s.undef ∧
    (s.modJtag f).time = s.time ∧
    (s.modJtag f).clock = s.clock ∧
    (s.modJtag f).sys = s.sys ∧
    (s.modJtag f).mp = s.mp ∧
    (s.modJtag f).bus = s.bus ∧
    (s.modJtag f).acc = s.acc ∧
    (s.modJtag f).lcs = s.lcs ∧
    (s.modJtag f).jtag = f s.jtag ∧
    (s.modJtag f).tbe = s.tbe ∧
    (s.modJtag f).tsq = s.tsq ∧
    (s.modJtag f).cap = s.cap ∧
    (s.modJtag f).tagBase = s.tagBase ∧
    (s.modJtag f).pw = s.pw ∧
    (s.modJtag f).qe = s.qe ∧
    (s.modJtag f).egr = s.egr ∧
    (s.modJtag f).hl = s.hl ∧
    (s.modJtag f).fsp = s.fsp ∧
    (s.modJtag f).fab = s.fab ∧
    (s.modJtag f).cfg = s.cfg ∧
    (s.modJtag f).scb = s.scb ∧
    (s.modJtag f).ua = s.ua ∧
    (s.modJtag f).spc = s.spc ∧
    (s.modJtag f).pio = s.pio ∧
    (s.modJtag f).adc = s.adc ∧
    (s.modJtag f).bkp = s.bkp ∧
    (s.modJtag f).dm = s.dm ∧
    (s.modJtag f).fs = s.fs := by
  refine ⟨rfl, rfl, rfl, rfl, rfl, rfl, rfl, rfl, rfl, rfl, rfl, rfl, rfl, rfl, rfl, rfl, rfl, rfl, rfl, rfl, rfl, rfl, rfl, rfl, rfl, rfl, rfl, rfl, rfl, rfl, rfl⟩

@[simp] theorem State.modTbe_fields (s : State) (f : Tbe → Tbe) :
    (s.modTbe f).pending = s.pending ∧
    (s.modTbe f).moment = s.moment ∧
    (s.modTbe f).freeCtr = s.freeCtr ∧
    (s.modTbe f).undef = s.undef ∧
    (s.modTbe f).time = s.time ∧
    (s.modTbe f).clock = s.clock ∧
    (s.modTbe f).sys = s.sys ∧
    (s.modTbe f).mp = s.mp ∧
    (s.modTbe f).bus = s.bus ∧
    (s.modTbe f).acc = s.acc ∧
    (s.modTbe f).lcs = s.lcs ∧
    (s.modTbe f).jtag = s.jtag ∧
    (s.modTbe f).tbe = f s.tbe ∧
    (s.modTbe f).tsq = s.tsq ∧
    (s.modTbe f).cap = s.cap ∧
    (s.modTbe f).tagBase = s.tagBase ∧
    (s.modTbe f).pw = s.pw ∧
    (s.modTbe f).qe = s.qe ∧
    (s.modTbe f).egr = s.egr ∧
    (s.modTbe f).hl = s.hl ∧
    (s.modTbe f).fsp = s.fsp ∧
    (s.modTbe f).fab = s.fab ∧
    (s.modTbe f).cfg = s.cfg ∧
    (s.modTbe f).scb = s.scb ∧
    (s.modTbe f).ua = s.ua ∧
    (s.modTbe f).spc = s.spc ∧
    (s.modTbe f).pio = s.pio ∧
    (s.modTbe f).adc = s.adc ∧
    (s.modTbe f).bkp = s.bkp ∧
    (s.modTbe f).dm = s.dm ∧
    (s.modTbe f).fs = s.fs := by
  refine ⟨rfl, rfl, rfl, rfl, rfl, rfl, rfl, rfl, rfl, rfl, rfl, rfl, rfl, rfl, rfl, rfl, rfl, rfl, rfl, rfl, rfl, rfl, rfl, rfl, rfl, rfl, rfl, rfl, rfl, rfl, rfl⟩

@[simp] theorem State.modEnc_fields (s : State) (n : Fin 8) (f : Enc → Enc) :
    (s.modEnc n f).pending = s.pending ∧
    (s.modEnc n f).moment = s.moment ∧
    (s.modEnc n f).freeCtr = s.freeCtr ∧
    (s.modEnc n f).undef = s.undef ∧
    (s.modEnc n f).time = s.time ∧
    (s.modEnc n f).clock = s.clock ∧
    (s.modEnc n f).sys = s.sys ∧
    (s.modEnc n f).mp = s.mp ∧
    (s.modEnc n f).bus = s.bus ∧
    (s.modEnc n f).acc = s.acc ∧
    (s.modEnc n f).lcs = s.lcs ∧
    (s.modEnc n f).jtag = s.jtag ∧
    (s.modEnc n f).tbe = { s.tbe with enc := upd s.tbe.enc n f } ∧
    (s.modEnc n f).tsq = s.tsq ∧
    (s.modEnc n f).cap = s.cap ∧
    (s.modEnc n f).tagBase = s.tagBase ∧
    (s.modEnc n f).pw = s.pw ∧
    (s.modEnc n f).qe = s.qe ∧
    (s.modEnc n f).egr = s.egr ∧
    (s.modEnc n f).hl = s.hl ∧
    (s.modEnc n f).fsp = s.fsp ∧
    (s.modEnc n f).fab = s.fab ∧
    (s.modEnc n f).cfg = s.cfg ∧
    (s.modEnc n f).scb = s.scb ∧
    (s.modEnc n f).ua = s.ua ∧
    (s.modEnc n f).spc = s.spc ∧
    (s.modEnc n f).pio = s.pio ∧
    (s.modEnc n f).adc = s.adc ∧
    (s.modEnc n f).bkp = s.bkp ∧
    (s.modEnc n f).dm = s.dm ∧
    (s.modEnc n f).fs = s.fs := by
  refine ⟨rfl, rfl, rfl, rfl, rfl, rfl, rfl, rfl, rfl, rfl, rfl, rfl, rfl, rfl, rfl, rfl, rfl, rfl, rfl, rfl, rfl, rfl, rfl, rfl, rfl, rfl, rfl, rfl, rfl, rfl, rfl⟩

@[simp] theorem State.modRem_fields (s : State) (h : Fin 4) (f : Rem → Rem) :
    (s.modRem h f).pending = s.pending ∧
    (s.modRem h f).moment = s.moment ∧
    (s.modRem h f).freeCtr = s.freeCtr ∧
    (s.modRem h f).undef = s.undef ∧
    (s.modRem h f).time = s.time ∧
    (s.modRem h f).clock = s.clock ∧
    (s.modRem h f).sys = s.sys ∧
    (s.modRem h f).mp = s.mp ∧
    (s.modRem h f).bus = s.bus ∧
    (s.modRem h f).acc = s.acc ∧
    (s.modRem h f).lcs = s.lcs ∧
    (s.modRem h f).jtag = s.jtag ∧
    (s.modRem h f).tbe = { s.tbe with rem := upd s.tbe.rem h f } ∧
    (s.modRem h f).tsq = s.tsq ∧
    (s.modRem h f).cap = s.cap ∧
    (s.modRem h f).tagBase = s.tagBase ∧
    (s.modRem h f).pw = s.pw ∧
    (s.modRem h f).qe = s.qe ∧
    (s.modRem h f).egr = s.egr ∧
    (s.modRem h f).hl = s.hl ∧
    (s.modRem h f).fsp = s.fsp ∧
    (s.modRem h f).fab = s.fab ∧
    (s.modRem h f).cfg = s.cfg ∧
    (s.modRem h f).scb = s.scb ∧
    (s.modRem h f).ua = s.ua ∧
    (s.modRem h f).spc = s.spc ∧
    (s.modRem h f).pio = s.pio ∧
    (s.modRem h f).adc = s.adc ∧
    (s.modRem h f).bkp = s.bkp ∧
    (s.modRem h f).dm = s.dm ∧
    (s.modRem h f).fs = s.fs := by
  refine ⟨rfl, rfl, rfl, rfl, rfl, rfl, rfl, rfl, rfl, rfl, rfl, rfl, rfl, rfl, rfl, rfl, rfl, rfl, rfl, rfl, rfl, rfl, rfl, rfl, rfl, rfl, rfl, rfl, rfl, rfl, rfl⟩

@[simp] theorem State.modTsq_fields (s : State) (n : Fin 16) (f : Tsq → Tsq) :
    (s.modTsq n f).pending = s.pending ∧
    (s.modTsq n f).moment = s.moment ∧
    (s.modTsq n f).freeCtr = s.freeCtr ∧
    (s.modTsq n f).undef = s.undef ∧
    (s.modTsq n f).time = s.time ∧
    (s.modTsq n f).clock = s.clock ∧
    (s.modTsq n f).sys = s.sys ∧
    (s.modTsq n f).mp = s.mp ∧
    (s.modTsq n f).bus = s.bus ∧
    (s.modTsq n f).acc = s.acc ∧
    (s.modTsq n f).lcs = s.lcs ∧
    (s.modTsq n f).jtag = s.jtag ∧
    (s.modTsq n f).tbe = s.tbe ∧
    (s.modTsq n f).tsq = upd s.tsq n f ∧
    (s.modTsq n f).cap = s.cap ∧
    (s.modTsq n f).tagBase = s.tagBase ∧
    (s.modTsq n f).pw = s.pw ∧
    (s.modTsq n f).qe = s.qe ∧
    (s.modTsq n f).egr = s.egr ∧
    (s.modTsq n f).hl = s.hl ∧
    (s.modTsq n f).fsp = s.fsp ∧
    (s.modTsq n f).fab = s.fab ∧
    (s.modTsq n f).cfg = s.cfg ∧
    (s.modTsq n f).scb = s.scb ∧
    (s.modTsq n f).ua = s.ua ∧
    (s.modTsq n f).spc = s.spc ∧
    (s.modTsq n f).pio = s.pio ∧
    (s.modTsq n f).adc = s.adc ∧
    (s.modTsq n f).bkp = s.bkp ∧
    (s.modTsq n f).dm = s.dm ∧
    (s.modTsq n f).fs = s.fs := by
  refine ⟨rfl, rfl, rfl, rfl, rfl, rfl, rfl, rfl, rfl, rfl, rfl, rfl, rfl, rfl, rfl, rfl, rfl, rfl, rfl, rfl, rfl, rfl, rfl, rfl, rfl, rfl, rfl, rfl, rfl, rfl, rfl⟩

@[simp] theorem State.modCap_fields (s : State) (n : Fin 16) (f : Cap → Cap) :
    (s.modCap n f).pending = s.pending ∧
    (s.modCap n f).moment = s.moment ∧
    (s.modCap n f).freeCtr = s.freeCtr ∧
    (s.modCap n f).undef = s.undef ∧
    (s.modCap n f).time = s.time ∧
    (s.modCap n f).clock = s.clock ∧
    (s.modCap n f).sys = s.sys ∧
    (s.modCap n f).mp = s.mp ∧
    (s.modCap n f).bus = s.bus ∧
    (s.modCap n f).acc = s.acc ∧
    (s.modCap n f).lcs = s.lcs ∧
    (s.modCap n f).jtag = s.jtag ∧
    (s.modCap n f).tbe = s.tbe ∧
    (s.modCap n f).tsq = s.tsq ∧
    (s.modCap n f).cap = upd s.cap n f ∧
    (s.modCap n f).tagBase = s.tagBase ∧
    (s.modCap n f).pw = s.pw ∧
    (s.modCap n f).qe = s.qe ∧
    (s.modCap n f).egr = s.egr ∧
    (s.modCap n f).hl = s.hl ∧
    (s.modCap n f).fsp = s.fsp ∧
    (s.modCap n f).fab = s.fab ∧
    (s.modCap n f).cfg = s.cfg ∧
    (s.modCap n f).scb = s.scb ∧
    (s.modCap n f).ua = s.ua ∧
    (s.modCap n f).spc = s.spc ∧
    (s.modCap n f).pio = s.pio ∧
    (s.modCap n f).adc = s.adc ∧
    (s.modCap n f).bkp = s.bkp ∧
    (s.modCap n f).dm = s.dm ∧
    (s.modCap n f).fs = s.fs := by
  refine ⟨rfl, rfl, rfl, rfl, rfl, rfl, rfl, rfl, rfl, rfl, rfl, rfl, rfl, rfl, rfl, rfl, rfl, rfl, rfl, rfl, rfl, rfl, rfl, rfl, rfl, rfl, rfl, rfl, rfl, rfl, rfl⟩

@[simp] theorem State.modPw_fields (s : State) (f : Pw → Pw) :
    (s.modPw f).pending = s.pending ∧
    (s.modPw f).moment = s.moment ∧
    (s.modPw f).freeCtr = s.freeCtr ∧
    (s.modPw f).undef = s.undef ∧
    (s.modPw f).time = s.time ∧
    (s.modPw f).clock = s.clock ∧
    (s.modPw f).sys = s.sys ∧
    (s.modPw f).mp = s.mp ∧
    (s.modPw f).bus = s.bus ∧
    (s.modPw f).acc = s.acc ∧
    (s.modPw f).lcs = s.lcs ∧
    (s.modPw f).jtag = s.jtag ∧
    (s.modPw f).tbe = s.tbe ∧
    (s.modPw f).tsq = s.tsq ∧
    (s.modPw f).cap = s.cap ∧
    (s.modPw f).tagBase = s.tagBase ∧
    (s.modPw f).pw = f s.pw ∧
    (s.modPw f).qe = s.qe ∧
    (s.modPw f).egr = s.egr ∧
    (s.modPw f).hl = s.hl ∧
    (s.modPw f).fsp = s.fsp ∧
    (s.modPw f).fab = s.fab ∧
    (s.modPw f).cfg = s.cfg ∧
    (s.modPw f).scb = s.scb ∧
    (s.modPw f).ua = s.ua ∧
    (s.modPw f).spc = s.spc ∧
    (s.modPw f).pio = s.pio ∧
    (s.modPw f).adc = s.adc ∧
    (s.modPw f).bkp = s.bkp ∧
    (s.modPw f).dm = s.dm ∧
    (s.modPw f).fs = s.fs := by
  refine ⟨rfl, rfl, rfl, rfl, rfl, rfl, rfl, rfl, rfl, rfl, rfl, rfl, rfl, rfl, rfl, rfl, rfl, rfl, rfl, rfl, rfl, rfl, rfl, rfl, rfl, rfl, rfl, rfl, rfl, rfl, rfl⟩

@[simp] theorem State.modQe_fields (s : State) (f : Qe → Qe) :
    (s.modQe f).pending = s.pending ∧
    (s.modQe f).moment = s.moment ∧
    (s.modQe f).freeCtr = s.freeCtr ∧
    (s.modQe f).undef = s.undef ∧
    (s.modQe f).time = s.time ∧
    (s.modQe f).clock = s.clock ∧
    (s.modQe f).sys = s.sys ∧
    (s.modQe f).mp = s.mp ∧
    (s.modQe f).bus = s.bus ∧
    (s.modQe f).acc = s.acc ∧
    (s.modQe f).lcs = s.lcs ∧
    (s.modQe f).jtag = s.jtag ∧
    (s.modQe f).tbe = s.tbe ∧
    (s.modQe f).tsq = s.tsq ∧
    (s.modQe f).cap = s.cap ∧
    (s.modQe f).tagBase = s.tagBase ∧
    (s.modQe f).pw = s.pw ∧
    (s.modQe f).qe = f s.qe ∧
    (s.modQe f).egr = s.egr ∧
    (s.modQe f).hl = s.hl ∧
    (s.modQe f).fsp = s.fsp ∧
    (s.modQe f).fab = s.fab ∧
    (s.modQe f).cfg = s.cfg ∧
    (s.modQe f).scb = s.scb ∧
    (s.modQe f).ua = s.ua ∧
    (s.modQe f).spc = s.spc ∧
    (s.modQe f).pio = s.pio ∧
    (s.modQe f).adc = s.adc ∧
    (s.modQe f).bkp = s.bkp ∧
    (s.modQe f).dm = s.dm ∧
    (s.modQe f).fs = s.fs := by
  refine ⟨rfl, rfl, rfl, rfl, rfl, rfl, rfl, rfl, rfl, rfl, rfl, rfl, rfl, rfl, rfl, rfl, rfl, rfl, rfl, rfl, rfl, rfl, rfl, rfl, rfl, rfl, rfl, rfl, rfl, rfl, rfl⟩

@[simp] theorem State.modRing_fields (s : State) (r : Fin 1024) (f : Ring → Ring) :
    (s.modRing r f).pending = s.pending ∧
    (s.modRing r f).moment = s.moment ∧
    (s.modRing r f).freeCtr = s.freeCtr ∧
    (s.modRing r f).undef = s.undef ∧
    (s.modRing r f).time = s.time ∧
    (s.modRing r f).clock = s.clock ∧
    (s.modRing r f).sys = s.sys ∧
    (s.modRing r f).mp = s.mp ∧
    (s.modRing r f).bus = s.bus ∧
    (s.modRing r f).acc = s.acc ∧
    (s.modRing r f).lcs = s.lcs ∧
    (s.modRing r f).jtag = s.jtag ∧
    (s.modRing r f).tbe = s.tbe ∧
    (s.modRing r f).tsq = s.tsq ∧
    (s.modRing r f).cap = s.cap ∧
    (s.modRing r f).tagBase = s.tagBase ∧
    (s.modRing r f).pw = s.pw ∧
    (s.modRing r f).qe = { s.qe with rings := upd s.qe.rings r f } ∧
    (s.modRing r f).egr = s.egr ∧
    (s.modRing r f).hl = s.hl ∧
    (s.modRing r f).fsp = s.fsp ∧
    (s.modRing r f).fab = s.fab ∧
    (s.modRing r f).cfg = s.cfg ∧
    (s.modRing r f).scb = s.scb ∧
    (s.modRing r f).ua = s.ua ∧
    (s.modRing r f).spc = s.spc ∧
    (s.modRing r f).pio = s.pio ∧
    (s.modRing r f).adc = s.adc ∧
    (s.modRing r f).bkp = s.bkp ∧
    (s.modRing r f).dm = s.dm ∧
    (s.modRing r f).fs = s.fs := by
  refine ⟨rfl, rfl, rfl, rfl, rfl, rfl, rfl, rfl, rfl, rfl, rfl, rfl, rfl, rfl, rfl, rfl, rfl, rfl, rfl, rfl, rfl, rfl, rfl, rfl, rfl, rfl, rfl, rfl, rfl, rfl, rfl⟩

@[simp] theorem State.modEgr_fields (s : State) (n : Fin 4) (f : Egr → Egr) :
    (s.modEgr n f).pending = s.pending ∧
    (s.modEgr n f).moment = s.moment ∧
    (s.modEgr n f).freeCtr = s.freeCtr ∧
    (s.modEgr n f).undef = s.undef ∧
    (s.modEgr n f).time = s.time ∧
    (s.modEgr n f).clock = s.clock ∧
    (s.modEgr n f).sys = s.sys ∧
    (s.modEgr n f).mp = s.mp ∧
    (s.modEgr n f).bus = s.bus ∧
    (s.modEgr n f).acc = s.acc ∧
    (s.modEgr n f).lcs = s.lcs ∧
    (s.modEgr n f).jtag = s.jtag ∧
    (s.modEgr n f).tbe = s.tbe ∧
    (s.modEgr n f).tsq = s.tsq ∧
    (s.modEgr n f).cap = s.cap ∧
    (s.modEgr n f).tagBase = s.tagBase ∧
    (s.modEgr n f).pw = s.pw ∧
    (s.modEgr n f).qe = s.qe ∧
    (s.modEgr n f).egr = upd s.egr n f ∧
    (s.modEgr n f).hl = s.hl ∧
    (s.modEgr n f).fsp = s.fsp ∧
    (s.modEgr n f).fab = s.fab ∧
    (s.modEgr n f).cfg = s.cfg ∧
    (s.modEgr n f).scb = s.scb ∧
    (s.modEgr n f).ua = s.ua ∧
    (s.modEgr n f).spc = s.spc ∧
    (s.modEgr n f).pio = s.pio ∧
    (s.modEgr n f).adc = s.adc ∧
    (s.modEgr n f).bkp = s.bkp ∧
    (s.modEgr n f).dm = s.dm ∧
    (s.modEgr n f).fs = s.fs := by
  refine ⟨rfl, rfl, rfl, rfl, rfl, rfl, rfl, rfl, rfl, rfl, rfl, rfl, rfl, rfl, rfl, rfl, rfl, rfl, rfl, rfl, rfl, rfl, rfl, rfl, rfl, rfl, rfl, rfl, rfl, rfl, rfl⟩

@[simp] theorem State.modHl_fields (s : State) (f : Hl → Hl) :
    (s.modHl f).pending = s.pending ∧
    (s.modHl f).moment = s.moment ∧
    (s.modHl f).freeCtr = s.freeCtr ∧
    (s.modHl f).undef = s.undef ∧
    (s.modHl f).time = s.time ∧
    (s.modHl f).clock = s.clock ∧
    (s.modHl f).sys = s.sys ∧
    (s.modHl f).mp = s.mp ∧
    (s.modHl f).bus = s.bus ∧
    (s.modHl f).acc = s.acc ∧
    (s.modHl f).lcs = s.lcs ∧
    (s.modHl f).jtag = s.jtag ∧
    (s.modHl f).tbe = s.tbe ∧
    (s.modHl f).tsq = s.tsq ∧
    (s.modHl f).cap = s.cap ∧
    (s.modHl f).tagBase = s.tagBase ∧
    (s.modHl f).pw = s.pw ∧
    (s.modHl f).qe = s.qe ∧
    (s.modHl f).egr = s.egr ∧
    (s.modHl f).hl = f s.hl ∧
    (s.modHl f).fsp = s.fsp ∧
    (s.modHl f).fab = s.fab ∧
    (s.modHl f).cfg = s.cfg ∧
    (s.modHl f).scb = s.scb ∧
    (s.modHl f).ua = s.ua ∧
    (s.modHl f).spc = s.spc ∧
    (s.modHl f).pio = s.pio ∧
    (s.modHl f).adc = s.adc ∧
    (s.modHl f).bkp = s.bkp ∧
    (s.modHl f).dm = s.dm ∧
    (s.modHl f).fs = s.fs := by
  refine ⟨rfl, rfl, rfl, rfl, rfl, rfl, rfl, rfl, rfl, rfl, rfl, rfl, rfl, rfl, rfl, rfl, rfl, rfl, rfl, rfl, rfl, rfl, rfl, rfl, rfl, rfl, rfl, rfl, rfl, rfl, rfl⟩

@[simp] theorem State.modPort_fields (s : State) (p : Fin 2) (f : HlPort → HlPort) :
    (s.modPort p f).pending = s.pending ∧
    (s.modPort p f).moment = s.moment ∧
    (s.modPort p f).freeCtr = s.freeCtr ∧
    (s.modPort p f).undef = s.undef ∧
    (s.modPort p f).time = s.time ∧
    (s.modPort p f).clock = s.clock ∧
    (s.modPort p f).sys = s.sys ∧
    (s.modPort p f).mp = s.mp ∧
    (s.modPort p f).bus = s.bus ∧
    (s.modPort p f).acc = s.acc ∧
    (s.modPort p f).lcs = s.lcs ∧
    (s.modPort p f).jtag = s.jtag ∧
    (s.modPort p f).tbe = s.tbe ∧
    (s.modPort p f).tsq = s.tsq ∧
    (s.modPort p f).cap = s.cap ∧
    (s.modPort p f).tagBase = s.tagBase ∧
    (s.modPort p f).pw = s.pw ∧
    (s.modPort p f).qe = s.qe ∧
    (s.modPort p f).egr = s.egr ∧
    (s.modPort p f).hl = { s.hl with ports := upd s.hl.ports p f } ∧
    (s.modPort p f).fsp = s.fsp ∧
    (s.modPort p f).fab = s.fab ∧
    (s.modPort p f).cfg = s.cfg ∧
    (s.modPort p f).scb = s.scb ∧
    (s.modPort p f).ua = s.ua ∧
    (s.modPort p f).spc = s.spc ∧
    (s.modPort p f).pio = s.pio ∧
    (s.modPort p f).adc = s.adc ∧
    (s.modPort p f).bkp = s.bkp ∧
    (s.modPort p f).dm = s.dm ∧
    (s.modPort p f).fs = s.fs := by
  refine ⟨rfl, rfl, rfl, rfl, rfl, rfl, rfl, rfl, rfl, rfl, rfl, rfl, rfl, rfl, rfl, rfl, rfl, rfl, rfl, rfl, rfl, rfl, rfl, rfl, rfl, rfl, rfl, rfl, rfl, rfl, rfl⟩

@[simp] theorem State.modHerd_fields (s : State) (h : Fin 4) (f : Herd → Herd) :
    (s.modHerd h f).pending = s.pending ∧
    (s.modHerd h f).moment = s.moment ∧
    (s.modHerd h f).freeCtr = s.freeCtr ∧
    (s.modHerd h f).undef = s.undef ∧
    (s.modHerd h f).time = s.time ∧
    (s.modHerd h f).clock = s.clock ∧
    (s.modHerd h f).sys = s.sys ∧
    (s.modHerd h f).mp = s.mp ∧
    (s.modHerd h f).bus = s.bus ∧
    (s.modHerd h f).acc = s.acc ∧
    (s.modHerd h f).lcs = s.lcs ∧
    (s.modHerd h f).jtag = s.jtag ∧
    (s.modHerd h f).tbe = s.tbe ∧
    (s.modHerd h f).tsq = s.tsq ∧
    (s.modHerd h f).cap = s.cap ∧
    (s.modHerd h f).tagBase = s.tagBase ∧
    (s.modHerd h f).pw = s.pw ∧
    (s.modHerd h f).qe = s.qe ∧
    (s.modHerd h f).egr = s.egr ∧
    (s.modHerd h f).hl = { s.hl with herds := upd s.hl.herds h f } ∧
    (s.modHerd h f).fsp = s.fsp ∧
    (s.modHerd h f).fab = s.fab ∧
    (s.modHerd h f).cfg = s.cfg ∧
    (s.modHerd h f).scb = s.scb ∧
    (s.modHerd h f).ua = s.ua ∧
    (s.modHerd h f).spc = s.spc ∧
    (s.modHerd h f).pio = s.pio ∧
    (s.modHerd h f).adc = s.adc ∧
    (s.modHerd h f).bkp = s.bkp ∧
    (s.modHerd h f).dm = s.dm ∧
    (s.modHerd h f).fs = s.fs := by
  refine ⟨rfl, rfl, rfl, rfl, rfl, rfl, rfl, rfl, rfl, rfl, rfl, rfl, rfl, rfl, rfl, rfl, rfl, rfl, rfl, rfl, rfl, rfl, rfl, rfl, rfl, rfl, rfl, rfl, rfl, rfl, rfl⟩

@[simp] theorem State.modFsp_fields (s : State) (p : Fin 8) (f : Fsp → Fsp) :
    (s.modFsp p f).pending = s.pending ∧
    (s.modFsp p f).moment = s.moment ∧
    (s.modFsp p f).freeCtr = s.freeCtr ∧
    (s.modFsp p f).undef = s.undef ∧
    (s.modFsp p f).time = s.time ∧
    (s.modFsp p f).clock = s.clock ∧
    (s.modFsp p f).sys = s.sys ∧
    (s.modFsp p f).mp = s.mp ∧
    (s.modFsp p f).bus = s.bus ∧
    (s.modFsp p f).acc = s.acc ∧
    (s.modFsp p f).lcs = s.lcs ∧
    (s.modFsp p f).jtag = s.jtag ∧
    (s.modFsp p f).tbe = s.tbe ∧
    (s.modFsp p f).tsq = s.tsq ∧
    (s.modFsp p f).cap = s.cap ∧
    (s.modFsp p f).tagBase = s.tagBase ∧
    (s.modFsp p f).pw = s.pw ∧
    (s.modFsp p f).qe = s.qe ∧
    (s.modFsp p f).egr = s.egr ∧
    (s.modFsp p f).hl = s.hl ∧
    (s.modFsp p f).fsp = upd s.fsp p f ∧
    (s.modFsp p f).fab = s.fab ∧
    (s.modFsp p f).cfg = s.cfg ∧
    (s.modFsp p f).scb = s.scb ∧
    (s.modFsp p f).ua = s.ua ∧
    (s.modFsp p f).spc = s.spc ∧
    (s.modFsp p f).pio = s.pio ∧
    (s.modFsp p f).adc = s.adc ∧
    (s.modFsp p f).bkp = s.bkp ∧
    (s.modFsp p f).dm = s.dm ∧
    (s.modFsp p f).fs = s.fs := by
  refine ⟨rfl, rfl, rfl, rfl, rfl, rfl, rfl, rfl, rfl, rfl, rfl, rfl, rfl, rfl, rfl, rfl, rfl, rfl, rfl, rfl, rfl, rfl, rfl, rfl, rfl, rfl, rfl, rfl, rfl, rfl, rfl⟩

@[simp] theorem State.modCfg_fields (s : State) (f : Cfg → Cfg) :
    (s.modCfg f).pending = s.pending ∧
    (s.modCfg f).moment = s.moment ∧
    (s.modCfg f).freeCtr = s.freeCtr ∧
    (s.modCfg f).undef = s.undef ∧
    (s.modCfg f).time = s.time ∧
    (s.modCfg f).clock = s.clock ∧
    (s.modCfg f).sys = s.sys ∧
    (s.modCfg f).mp = s.mp ∧
    (s.modCfg f).bus = s.bus ∧
    (s.modCfg f).acc = s.acc ∧
    (s.modCfg f).lcs = s.lcs ∧
    (s.modCfg f).jtag = s.jtag ∧
    (s.modCfg f).tbe = s.tbe ∧
    (s.modCfg f).tsq = s.tsq ∧
    (s.modCfg f).cap = s.cap ∧
    (s.modCfg f).tagBase = s.tagBase ∧
    (s.modCfg f).pw = s.pw ∧
    (s.modCfg f).qe = s.qe ∧
    (s.modCfg f).egr = s.egr ∧
    (s.modCfg f).hl = s.hl ∧
    (s.modCfg f).fsp = s.fsp ∧
    (s.modCfg f).fab = s.fab ∧
    (s.modCfg f).cfg = f s.cfg ∧
    (s.modCfg f).scb = s.scb ∧
    (s.modCfg f).ua = s.ua ∧
    (s.modCfg f).spc = s.spc ∧
    (s.modCfg f).pio = s.pio ∧
    (s.modCfg f).adc = s.adc ∧
    (s.modCfg f).bkp = s.bkp ∧
    (s.modCfg f).dm = s.dm ∧
    (s.modCfg f).fs = s.fs := by
  refine ⟨rfl, rfl, rfl, rfl, rfl, rfl, rfl, rfl, rfl, rfl, rfl, rfl, rfl, rfl, rfl, rfl, rfl, rfl, rfl, rfl, rfl, rfl, rfl, rfl, rfl, rfl, rfl, rfl, rfl, rfl, rfl⟩

@[simp] theorem State.modScb_fields (s : State) (f : Scb → Scb) :
    (s.modScb f).pending = s.pending ∧
    (s.modScb f).moment = s.moment ∧
    (s.modScb f).freeCtr = s.freeCtr ∧
    (s.modScb f).undef = s.undef ∧
    (s.modScb f).time = s.time ∧
    (s.modScb f).clock = s.clock ∧
    (s.modScb f).sys = s.sys ∧
    (s.modScb f).mp = s.mp ∧
    (s.modScb f).bus = s.bus ∧
    (s.modScb f).acc = s.acc ∧
    (s.modScb f).lcs = s.lcs ∧
    (s.modScb f).jtag = s.jtag ∧
    (s.modScb f).tbe = s.tbe ∧
    (s.modScb f).tsq = s.tsq ∧
    (s.modScb f).cap = s.cap ∧
    (s.modScb f).tagBase = s.tagBase ∧
    (s.modScb f).pw = s.pw ∧
    (s.modScb f).qe = s.qe ∧
    (s.modScb f).egr = s.egr ∧
    (s.modScb f).hl = s.hl ∧
    (s.modScb f).fsp = s.fsp ∧
    (s.modScb f).fab = s.fab ∧
    (s.modScb f).cfg = s.cfg ∧
    (s.modScb f).scb = f s.scb ∧
    (s.modScb f).ua = s.ua ∧
    (s.modScb f).spc = s.spc ∧
    (s.modScb f).pio = s.pio ∧
    (s.modScb f).adc = s.adc ∧
    (s.modScb f).bkp = s.bkp ∧
    (s.modScb f).dm = s.dm ∧
    (s.modScb f).fs = s.fs := by
  refine ⟨rfl, rfl, rfl, rfl, rfl, rfl, rfl, rfl, rfl, rfl, rfl, rfl, rfl, rfl, rfl, rfl, rfl, rfl, rfl, rfl, rfl, rfl, rfl, rfl, rfl, rfl, rfl, rfl, rfl, rfl, rfl⟩

@[simp] theorem State.modZone_fields (s : State) (z : Fin 8) (f : Zone → Zone) :
    (s.modZone z f).pending = s.pending ∧
    (s.modZone z f).moment = s.moment ∧
    (s.modZone z f).freeCtr = s.freeCtr ∧
    (s.modZone z f).undef = s.undef ∧
    (s.modZone z f).time = s.time ∧
    (s.modZone z f).clock = s.clock ∧
    (s.modZone z f).sys = s.sys ∧
    (s.modZone z f).mp = s.mp ∧
    (s.modZone z f).bus = s.bus ∧
    (s.modZone z f).acc = s.acc ∧
    (s.modZone z f).lcs = s.lcs ∧
    (s.modZone z f).jtag = s.jtag ∧
    (s.modZone z f).tbe = s.tbe ∧
    (s.modZone z f).tsq = s.tsq ∧
    (s.modZone z f).cap = s.cap ∧
    (s.modZone z f).tagBase = s.tagBase ∧
    (s.modZone z f).pw = s.pw ∧
    (s.modZone z f).qe = s.qe ∧
    (s.modZone z f).egr = s.egr ∧
    (s.modZone z f).hl = s.hl ∧
    (s.modZone z f).fsp = s.fsp ∧
    (s.modZone z f).fab = s.fab ∧
    (s.modZone z f).cfg = s.cfg ∧
    (s.modZone z f).scb = { s.scb with zones := upd s.scb.zones z f } ∧
    (s.modZone z f).ua = s.ua ∧
    (s.modZone z f).spc = s.spc ∧
    (s.modZone z f).pio = s.pio ∧
    (s.modZone z f).adc = s.adc ∧
    (s.modZone z f).bkp = s.bkp ∧
    (s.modZone z f).dm = s.dm ∧
    (s.modZone z f).fs = s.fs := by
  refine ⟨rfl, rfl, rfl, rfl, rfl, rfl, rfl, rfl, rfl, rfl, rfl, rfl, rfl, rfl, rfl, rfl, rfl, rfl, rfl, rfl, rfl, rfl, rfl, rfl, rfl, rfl, rfl, rfl, rfl, rfl, rfl⟩

@[simp] theorem State.modUa_fields (s : State) (n : Fin 18) (f : Ua → Ua) :
    (s.modUa n f).pending = s.pending ∧
    (s.modUa n f).moment = s.moment ∧
    (s.modUa n f).freeCtr = s.freeCtr ∧
    (s.modUa n f).undef = s.undef ∧
    (s.modUa n f).time = s.time ∧
    (s.modUa n f).clock = s.clock ∧
    (s.modUa n f).sys = s.sys ∧
    (s.modUa n f).mp = s.mp ∧
    (s.modUa n f).bus = s.bus ∧
    (s.modUa n f).acc = s.acc ∧
    (s.modUa n f).lcs = s.lcs ∧
    (s.modUa n f).jtag = s.jtag ∧
    (s.modUa n f).tbe = s.tbe ∧
    (s.modUa n f).tsq = s.tsq ∧
    (s.modUa n f).cap = s.cap ∧
    (s.modUa n f).tagBase = s.tagBase ∧
    (s.modUa n f).pw = s.pw ∧
    (s.modUa n f).qe = s.qe ∧
    (s.modUa n f).egr = s.egr ∧
    (s.modUa n f).hl = s.hl ∧
    (s.modUa n f).fsp = s.fsp ∧
    (s.modUa n f).fab = s.fab ∧
    (s.modUa n f).cfg = s.cfg ∧
    (s.modUa n f).scb = s.scb ∧
    (s.modUa n f).ua = upd s.ua n f ∧
    (s.modUa n f).spc = s.spc ∧
    (s.modUa n f).pio = s.pio ∧
    (s.modUa n f).adc = s.adc ∧
    (s.modUa n f).bkp = s.bkp ∧
    (s.modUa n f).dm = s.dm ∧
    (s.modUa n f).fs = s.fs := by
  refine ⟨rfl, rfl, rfl, rfl, rfl, rfl, rfl, rfl, rfl, rfl, rfl, rfl, rfl, rfl, rfl, rfl, rfl, rfl, rfl, rfl, rfl, rfl, rfl, rfl, rfl, rfl, rfl, rfl, rfl, rfl, rfl⟩

@[simp] theorem State.modSpc_fields (s : State) (m : Fin 2) (f : Spc → Spc) :
    (s.modSpc m f).pending = s.pending ∧
    (s.modSpc m f).moment = s.moment ∧
    (s.modSpc m f).freeCtr = s.freeCtr ∧
    (s.modSpc m f).undef = s.undef ∧
    (s.modSpc m f).time = s.time ∧
    (s.modSpc m f).clock = s.clock ∧
    (s.modSpc m f).sys = s.sys ∧
    (s.modSpc m f).mp = s.mp ∧
    (s.modSpc m f).bus = s.bus ∧
    (s.modSpc m f).acc = s.acc ∧
    (s.modSpc m f).lcs = s.lcs ∧
    (s.modSpc m f).jtag = s.jtag ∧
    (s.modSpc m f).tbe = s.tbe ∧
    (s.modSpc m f).tsq = s.tsq ∧
    (s.modSpc m f).cap = s.cap ∧
    (s.modSpc m f).tagBase = s.tagBase ∧
    (s.modSpc m f).pw = s.pw ∧
    (s.modSpc m f).qe = s.qe ∧
    (s.modSpc m f).egr = s.egr ∧
    (s.modSpc m f).hl = s.hl ∧
    (s.modSpc m f).fsp = s.fsp ∧
    (s.modSpc m f).fab = s.fab ∧
    (s.modSpc m f).cfg = s.cfg ∧
    (s.modSpc m f).scb = s.scb ∧
    (s.modSpc m f).ua = s.ua ∧
    (s.modSpc m f).spc = upd s.spc m f ∧
    (s.modSpc m f).pio = s.pio ∧
    (s.modSpc m f).adc = s.adc ∧
    (s.modSpc m f).bkp = s.bkp ∧
    (s.modSpc m f).dm = s.dm ∧
    (s.modSpc m f).fs = s.fs := by
  refine ⟨rfl, rfl, rfl, rfl, rfl, rfl, rfl, rfl, rfl, rfl, rfl, rfl, rfl, rfl, rfl, rfl, rfl, rfl, rfl, rfl, rfl, rfl, rfl, rfl, rfl, rfl, rfl, rfl, rfl, rfl, rfl⟩

@[simp] theorem State.modPio_fields (s : State) (f : Pio → Pio) :
    (s.modPio f).pending = s.pending ∧
    (s.modPio f).moment = s.moment ∧
    (s.modPio f).freeCtr = s.freeCtr ∧
    (s.modPio f).undef = s.undef ∧
    (s.modPio f).time = s.time ∧
    (s.modPio f).clock = s.clock ∧
    (s.modPio f).sys = s.sys ∧
    (s.modPio f).mp = s.mp ∧
    (s.modPio f).bus = s.bus ∧
    (s.modPio f).acc = s.acc ∧
    (s.modPio f).lcs = s.lcs ∧
    (s.modPio f).jtag = s.jtag ∧
    (s.modPio f).tbe = s.tbe ∧
    (s.modPio f).tsq = s.tsq ∧
    (s.modPio f).cap = s.cap ∧
    (s.modPio f).tagBase = s.tagBase ∧
    (s.modPio f).pw = s.pw ∧
    (s.modPio f).qe = s.qe ∧
    (s.modPio f).egr = s.egr ∧
    (s.modPio f).hl = s.hl ∧
    (s.modPio f).fsp = s.fsp ∧
    (s.modPio f).fab = s.fab ∧
    (s.modPio f).cfg = s.cfg ∧
    (s.modPio f).scb = s.scb ∧
    (s.modPio f).ua = s.ua ∧
    (s.modPio f).spc = s.spc ∧
    (s.modPio f).pio = f s.pio ∧
    (s.modPio f).adc = s.adc ∧
    (s.modPio f).bkp = s.bkp ∧
    (s.modPio f).dm = s.dm ∧
    (s.modPio f).fs = s.fs := by
  refine ⟨rfl, rfl, rfl, rfl, rfl, rfl, rfl, rfl, rfl, rfl, rfl, rfl, rfl, rfl, rfl, rfl, rfl, rfl, rfl, rfl, rfl, rfl, rfl, rfl, rfl, rfl, rfl, rfl, rfl, rfl, rfl⟩

@[simp] theorem State.modPil_fields (s : State) (k : Fin 16) (f : Pil → Pil) :
    (s.modPil k f).pending = s.pending ∧
    (s.modPil k f).moment = s.moment ∧
    (s.modPil k f).freeCtr = s.freeCtr ∧
    (s.modPil k f).undef = s.undef ∧
    (s.modPil k f).time = s.time ∧
    (s.modPil k f).clock = s.clock ∧
    (s.modPil k f).sys = s.sys ∧
    (s.modPil k f).mp = s.mp ∧
    (s.modPil k f).bus = s.bus ∧
    (s.modPil k f).acc = s.acc ∧
    (s.modPil k f).lcs = s.lcs ∧
    (s.modPil k f).jtag = s.jtag ∧
    (s.modPil k f).tbe = s.tbe ∧
    (s.modPil k f).tsq = s.tsq ∧
    (s.modPil k f).cap = s.cap ∧
    (s.modPil k f).tagBase = s.tagBase ∧
    (s.modPil k f).pw = s.pw ∧
    (s.modPil k f).qe = s.qe ∧
    (s.modPil k f).egr = s.egr ∧
    (s.modPil k f).hl = s.hl ∧
    (s.modPil k f).fsp = s.fsp ∧
    (s.modPil k f).fab = s.fab ∧
    (s.modPil k f).cfg = s.cfg ∧
    (s.modPil k f).scb = s.scb ∧
    (s.modPil k f).ua = s.ua ∧
    (s.modPil k f).spc = s.spc ∧
    (s.modPil k f).pio = { s.pio with pil := upd s.pio.pil k f } ∧
    (s.modPil k f).adc = s.adc ∧
    (s.modPil k f).bkp = s.bkp ∧
    (s.modPil k f).dm = s.dm ∧
    (s.modPil k f).fs = s.fs := by
  refine ⟨rfl, rfl, rfl, rfl, rfl, rfl, rfl, rfl, rfl, rfl, rfl, rfl, rfl, rfl, rfl, rfl, rfl, rfl, rfl, rfl, rfl, rfl, rfl, rfl, rfl, rfl, rfl, rfl, rfl, rfl, rfl⟩

@[simp] theorem State.modAdc_fields (s : State) (f : Adc → Adc) :
    (s.modAdc f).pending = s.pending ∧
    (s.modAdc f).moment = s.moment ∧
    (s.modAdc f).freeCtr = s.freeCtr ∧
    (s.modAdc f).undef = s.undef ∧
    (s.modAdc f).time = s.time ∧
    (s.modAdc f).clock = s.clock ∧
    (s.modAdc f).sys = s.sys ∧
    (s.modAdc f).mp = s.mp ∧
    (s.modAdc f).bus = s.bus ∧
    (s.modAdc f).acc = s.acc ∧
    (s.modAdc f).lcs = s.lcs ∧
    (s.modAdc f).jtag = s.jtag ∧
    (s.modAdc f).tbe = s.tbe ∧
    (s.modAdc f).tsq = s.tsq ∧
    (s.modAdc f).cap = s.cap ∧
    (s.modAdc f).tagBase = s.tagBase ∧
    (s.modAdc f).pw = s.pw ∧
    (s.modAdc f).qe = s.qe ∧
    (s.modAdc f).egr = s.egr ∧
    (s.modAdc f).hl = s.hl ∧
    (s.modAdc f).fsp = s.fsp ∧
    (s.modAdc f).fab = s.fab ∧
    (s.modAdc f).cfg = s.cfg ∧
    (s.modAdc f).scb = s.scb ∧
    (s.modAdc f).ua = s.ua ∧
    (s.modAdc f).spc = s.spc ∧
    (s.modAdc f).pio = s.pio ∧
    (s.modAdc f).adc = f s.adc ∧
    (s.modAdc f).bkp = s.bkp ∧
    (s.modAdc f).dm = s.dm ∧
    (s.modAdc f).fs = s.fs := by
  refine ⟨rfl, rfl, rfl, rfl, rfl, rfl, rfl, rfl, rfl, rfl, rfl, rfl, rfl, rfl, rfl, rfl, rfl, rfl, rfl, rfl, rfl, rfl, rfl, rfl, rfl, rfl, rfl, rfl, rfl, rfl, rfl⟩

@[simp] theorem State.modBkp_fields (s : State) (f : Bkp → Bkp) :
    (s.modBkp f).pending = s.pending ∧
    (s.modBkp f).moment = s.moment ∧
    (s.modBkp f).freeCtr = s.freeCtr ∧
    (s.modBkp f).undef = s.undef ∧
    (s.modBkp f).time = s.time ∧
    (s.modBkp f).clock = s.clock ∧
    (s.modBkp f).sys = s.sys ∧
    (s.modBkp f).mp = s.mp ∧
    (s.modBkp f).bus = s.bus ∧
    (s.modBkp f).acc = s.acc ∧
    (s.modBkp f).lcs = s.lcs ∧
    (s.modBkp f).jtag = s.jtag ∧
    (s.modBkp f).tbe = s.tbe ∧
    (s.modBkp f).tsq = s.tsq ∧
    (s.modBkp f).cap = s.cap ∧
    (s.modBkp f).tagBase = s.tagBase ∧
    (s.modBkp f).pw = s.pw ∧
    (s.modBkp f).qe = s.qe ∧
    (s.modBkp f).egr = s.egr ∧
    (s.modBkp f).hl = s.hl ∧
    (s.modBkp f).fsp = s.fsp ∧
    (s.modBkp f).fab = s.fab ∧
    (s.modBkp f).cfg = s.cfg ∧
    (s.modBkp f).scb = s.scb ∧
    (s.modBkp f).ua = s.ua ∧
    (s.modBkp f).spc = s.spc ∧
    (s.modBkp f).pio = s.pio ∧
    (s.modBkp f).adc = s.adc ∧
    (s.modBkp f).bkp = f s.bkp ∧
    (s.modBkp f).dm = s.dm ∧
    (s.modBkp f).fs = s.fs := by
  refine ⟨rfl, rfl, rfl, rfl, rfl, rfl, rfl, rfl, rfl, rfl, rfl, rfl, rfl, rfl, rfl, rfl, rfl, rfl, rfl, rfl, rfl, rfl, rfl, rfl, rfl, rfl, rfl, rfl, rfl, rfl, rfl⟩

@[simp] theorem State.freeSteps_fields (s : State) (n : Nat) :
    (s.freeSteps n).pending = s.pending ∧
    (s.freeSteps n).moment = s.moment ∧
    (s.freeSteps n).freeCtr = s.freeCtr + n ∧
    (s.freeSteps n).undef = s.undef ∧
    (s.freeSteps n).time = s.time ∧
    (s.freeSteps n).clock = s.clock ∧
    (s.freeSteps n).sys = s.sys ∧
    (s.freeSteps n).mp = s.mp ∧
    (s.freeSteps n).bus = s.bus ∧
    (s.freeSteps n).acc = s.acc ∧
    (s.freeSteps n).lcs = s.lcs ∧
    (s.freeSteps n).jtag = s.jtag ∧
    (s.freeSteps n).tbe = s.tbe ∧
    (s.freeSteps n).tsq = s.tsq ∧
    (s.freeSteps n).cap = s.cap ∧
    (s.freeSteps n).tagBase = s.tagBase ∧
    (s.freeSteps n).pw = s.pw ∧
    (s.freeSteps n).qe = s.qe ∧
    (s.freeSteps n).egr = s.egr ∧
    (s.freeSteps n).hl = s.hl ∧
    (s.freeSteps n).fsp = s.fsp ∧
    (s.freeSteps n).fab = s.fab ∧
    (s.freeSteps n).cfg = s.cfg ∧
    (s.freeSteps n).scb = s.scb ∧
    (s.freeSteps n).ua = s.ua ∧
    (s.freeSteps n).spc = s.spc ∧
    (s.freeSteps n).pio = s.pio ∧
    (s.freeSteps n).adc = s.adc ∧
    (s.freeSteps n).bkp = s.bkp ∧
    (s.freeSteps n).dm = s.dm ∧
    (s.freeSteps n).fs = s.fs := by
  refine ⟨rfl, rfl, rfl, rfl, rfl, rfl, rfl, rfl, rfl, rfl, rfl, rfl, rfl, rfl, rfl, rfl, rfl, rfl, rfl, rfl, rfl, rfl, rfl, rfl, rfl, rfl, rfl, rfl, rfl, rfl, rfl⟩

@[simp] theorem State.modMoment_fields (s : State) (f : Moment → Moment) :
    (s.modMoment f).pending = s.pending ∧
    (s.modMoment f).moment = f s.moment ∧
    (s.modMoment f).freeCtr = s.freeCtr ∧
    (s.modMoment f).undef = s.undef ∧
    (s.modMoment f).time = s.time ∧
    (s.modMoment f).clock = s.clock ∧
    (s.modMoment f).sys = s.sys ∧
    (s.modMoment f).mp = s.mp ∧
    (s.modMoment f).bus = s.bus ∧
    (s.modMoment f).acc = s.acc ∧
    (s.modMoment f).lcs = s.lcs ∧
    (s.modMoment f).jtag = s.jtag ∧
    (s.modMoment f).tbe = s.tbe ∧
    (s.modMoment f).tsq = s.tsq ∧
    (s.modMoment f).cap = s.cap ∧
    (s.modMoment f).tagBase = s.tagBase ∧
    (s.modMoment f).pw = s.pw ∧
    (s.modMoment f).qe = s.qe ∧
    (s.modMoment f).egr = s.egr ∧
    (s.modMoment f).hl = s.hl ∧
    (s.modMoment f).fsp = s.fsp ∧
    (s.modMoment f).fab = s.fab ∧
    (s.modMoment f).cfg = s.cfg ∧
    (s.modMoment f).scb = s.scb ∧
    (s.modMoment f).ua = s.ua ∧
    (s.modMoment f).spc = s.spc ∧
    (s.modMoment f).pio = s.pio ∧
    (s.modMoment f).adc = s.adc ∧
    (s.modMoment f).bkp = s.bkp ∧
    (s.modMoment f).dm = s.dm ∧
    (s.modMoment f).fs = s.fs := by
  refine ⟨rfl, rfl, rfl, rfl, rfl, rfl, rfl, rfl, rfl, rfl, rfl, rfl, rfl, rfl, rfl, rfl, rfl, rfl, rfl, rfl, rfl, rfl, rfl, rfl, rfl, rfl, rfl, rfl, rfl, rfl, rfl⟩

@[simp] theorem State.setUndef_fields (s : State) (u : Option UndefCause) :
    (s.setUndef u).pending = s.pending ∧
    (s.setUndef u).moment = s.moment ∧
    (s.setUndef u).freeCtr = s.freeCtr ∧
    (s.setUndef u).undef = u ∧
    (s.setUndef u).time = s.time ∧
    (s.setUndef u).clock = s.clock ∧
    (s.setUndef u).sys = s.sys ∧
    (s.setUndef u).mp = s.mp ∧
    (s.setUndef u).bus = s.bus ∧
    (s.setUndef u).acc = s.acc ∧
    (s.setUndef u).lcs = s.lcs ∧
    (s.setUndef u).jtag = s.jtag ∧
    (s.setUndef u).tbe = s.tbe ∧
    (s.setUndef u).tsq = s.tsq ∧
    (s.setUndef u).cap = s.cap ∧
    (s.setUndef u).tagBase = s.tagBase ∧
    (s.setUndef u).pw = s.pw ∧
    (s.setUndef u).qe = s.qe ∧
    (s.setUndef u).egr = s.egr ∧
    (s.setUndef u).hl = s.hl ∧
    (s.setUndef u).fsp = s.fsp ∧
    (s.setUndef u).fab = s.fab ∧
    (s.setUndef u).cfg = s.cfg ∧
    (s.setUndef u).scb = s.scb ∧
    (s.setUndef u).ua = s.ua ∧
    (s.setUndef u).spc = s.spc ∧
    (s.setUndef u).pio = s.pio ∧
    (s.setUndef u).adc = s.adc ∧
    (s.setUndef u).bkp = s.bkp ∧
    (s.setUndef u).dm = s.dm ∧
    (s.setUndef u).fs = s.fs := by
  refine ⟨rfl, rfl, rfl, rfl, rfl, rfl, rfl, rfl, rfl, rfl, rfl, rfl, rfl, rfl, rfl, rfl, rfl, rfl, rfl, rfl, rfl, rfl, rfl, rfl, rfl, rfl, rfl, rfl, rfl, rfl, rfl⟩

@[simp] theorem State.setTime_fields (s : State) (t : Tick) :
    (s.setTime t).pending = s.pending ∧
    (s.setTime t).moment = s.moment ∧
    (s.setTime t).freeCtr = s.freeCtr ∧
    (s.setTime t).undef = s.undef ∧
    (s.setTime t).time = t ∧
    (s.setTime t).clock = s.clock ∧
    (s.setTime t).sys = s.sys ∧
    (s.setTime t).mp = s.mp ∧
    (s.setTime t).bus = s.bus ∧
    (s.setTime t).acc = s.acc ∧
    (s.setTime t).lcs = s.lcs ∧
    (s.setTime t).jtag = s.jtag ∧
    (s.setTime t).tbe = s.tbe ∧
    (s.setTime t).tsq = s.tsq ∧
    (s.setTime t).cap = s.cap ∧
    (s.setTime t).tagBase = s.tagBase ∧
    (s.setTime t).pw = s.pw ∧
    (s.setTime t).qe = s.qe ∧
    (s.setTime t).egr = s.egr ∧
    (s.setTime t).hl = s.hl ∧
    (s.setTime t).fsp = s.fsp ∧
    (s.setTime t).fab = s.fab ∧
    (s.setTime t).cfg = s.cfg ∧
    (s.setTime t).scb = s.scb ∧
    (s.setTime t).ua = s.ua ∧
    (s.setTime t).spc = s.spc ∧
    (s.setTime t).pio = s.pio ∧
    (s.setTime t).adc = s.adc ∧
    (s.setTime t).bkp = s.bkp ∧
    (s.setTime t).dm = s.dm ∧
    (s.setTime t).fs = s.fs := by
  refine ⟨rfl, rfl, rfl, rfl, rfl, rfl, rfl, rfl, rfl, rfl, rfl, rfl, rfl, rfl, rfl, rfl, rfl, rfl, rfl, rfl, rfl, rfl, rfl, rfl, rfl, rfl, rfl, rfl, rfl, rfl, rfl⟩

@[simp] theorem State.setClock_fields (s : State) (t : Nat) :
    (s.setClock t).pending = s.pending ∧
    (s.setClock t).moment = s.moment ∧
    (s.setClock t).freeCtr = s.freeCtr ∧
    (s.setClock t).undef = s.undef ∧
    (s.setClock t).time = s.time ∧
    (s.setClock t).clock = t ∧
    (s.setClock t).sys = s.sys ∧
    (s.setClock t).mp = s.mp ∧
    (s.setClock t).bus = s.bus ∧
    (s.setClock t).acc = s.acc ∧
    (s.setClock t).lcs = s.lcs ∧
    (s.setClock t).jtag = s.jtag ∧
    (s.setClock t).tbe = s.tbe ∧
    (s.setClock t).tsq = s.tsq ∧
    (s.setClock t).cap = s.cap ∧
    (s.setClock t).tagBase = s.tagBase ∧
    (s.setClock t).pw = s.pw ∧
    (s.setClock t).qe = s.qe ∧
    (s.setClock t).egr = s.egr ∧
    (s.setClock t).hl = s.hl ∧
    (s.setClock t).fsp = s.fsp ∧
    (s.setClock t).fab = s.fab ∧
    (s.setClock t).cfg = s.cfg ∧
    (s.setClock t).scb = s.scb ∧
    (s.setClock t).ua = s.ua ∧
    (s.setClock t).spc = s.spc ∧
    (s.setClock t).pio = s.pio ∧
    (s.setClock t).adc = s.adc ∧
    (s.setClock t).bkp = s.bkp ∧
    (s.setClock t).dm = s.dm ∧
    (s.setClock t).fs = s.fs := by
  refine ⟨rfl, rfl, rfl, rfl, rfl, rfl, rfl, rfl, rfl, rfl, rfl, rfl, rfl, rfl, rfl, rfl, rfl, rfl, rfl, rfl, rfl, rfl, rfl, rfl, rfl, rfl, rfl, rfl, rfl, rfl, rfl⟩

@[simp] theorem State.modFab_fields (s : State) (f : Fab → Fab) :
    (s.modFab f).pending = s.pending ∧
    (s.modFab f).moment = s.moment ∧
    (s.modFab f).freeCtr = s.freeCtr ∧
    (s.modFab f).undef = s.undef ∧
    (s.modFab f).time = s.time ∧
    (s.modFab f).clock = s.clock ∧
    (s.modFab f).sys = s.sys ∧
    (s.modFab f).mp = s.mp ∧
    (s.modFab f).bus = s.bus ∧
    (s.modFab f).acc = s.acc ∧
    (s.modFab f).lcs = s.lcs ∧
    (s.modFab f).jtag = s.jtag ∧
    (s.modFab f).tbe = s.tbe ∧
    (s.modFab f).tsq = s.tsq ∧
    (s.modFab f).cap = s.cap ∧
    (s.modFab f).tagBase = s.tagBase ∧
    (s.modFab f).pw = s.pw ∧
    (s.modFab f).qe = s.qe ∧
    (s.modFab f).egr = s.egr ∧
    (s.modFab f).hl = s.hl ∧
    (s.modFab f).fsp = s.fsp ∧
    (s.modFab f).fab = f s.fab ∧
    (s.modFab f).cfg = s.cfg ∧
    (s.modFab f).scb = s.scb ∧
    (s.modFab f).ua = s.ua ∧
    (s.modFab f).spc = s.spc ∧
    (s.modFab f).pio = s.pio ∧
    (s.modFab f).adc = s.adc ∧
    (s.modFab f).bkp = s.bkp ∧
    (s.modFab f).dm = s.dm ∧
    (s.modFab f).fs = s.fs := by
  refine ⟨rfl, rfl, rfl, rfl, rfl, rfl, rfl, rfl, rfl, rfl, rfl, rfl, rfl, rfl, rfl, rfl, rfl, rfl, rfl, rfl, rfl, rfl, rfl, rfl, rfl, rfl, rfl, rfl, rfl, rfl, rfl⟩

end Sys2Proof.Machine
end

