-- ==== Sys2Proof/Laws/Frames.lean ====
section
/-! SUPPORT. The laws of frames: `Moves ps s t` says what a piece of a command may do on the way from s to t, and how the frame of a
command is put together from those of the updates it makes. -/

namespace Sys2Proof.Machine

theorem Only.refl (ps : List Part) (s : State) : Only ps s s := by
  intro p _; cases p <;> rfl

theorem Only.trans {ps : List Part} {s t u : State} (h : Only ps s t) (k : Only ps t u) : Only ps s u := by
  intro p hp
  have a := h p hp
  have b := k p hp
  cases p <;> exact Eq.trans b a

theorem Only.weaken {ps qs : List Part} {s t : State} (h : Only ps s t) (k : ∀ p ∈ ps, p ∈ qs) : Only qs s t :=
  fun p hp => h p fun hq => hp (k p hq)

theorem within {ps qs rs : List Part} (m : ∀ p ∈ qs, p ∈ ps) (k : ∀ p ∈ rs, p ∈ qs) : ∀ p ∈ rs, p ∈ ps :=
  fun p hp => m p (k p hp)

/-- Every part outside the list is as it was, and both memories keep their canonical form. -/
structure Moves (ps : List Part) (s t : State) : Prop where
  only : Only ps s t
  mem : MemInv s → MemInv t

theorem Moves.refl (ps : List Part) (s : State) : Moves ps s s := ⟨Only.refl ps s, id⟩

theorem Moves.trans {ps : List Part} {s t u : State} (h : Moves ps s t) (k : Moves ps t u) : Moves ps s u :=
  ⟨h.only.trans k.only, fun m => k.mem (h.mem m)⟩

theorem Moves.step {ps qs : List Part} {s t u : State} (h : Moves ps s t) (m : ∀ p ∈ qs, p ∈ ps) (k : Moves qs t u) :
    Moves ps s u := h.trans ⟨k.only.weaken m, k.mem⟩

theorem Moves.snd {ps : List Part} {s t : State} {α : Type} {x : α × State} {a : α} (e : x = (a, t)) (h : Moves ps s x.2) :
    Moves ps s t := by subst e; exact h

theorem Moves.fst {ps : List Part} {s t : State} {α : Type} {x : State × α} {a : α} (e : x = (t, a)) (h : Moves ps s x.1) :
    Moves ps s t := by subst e; exact h

theorem Moves.ite {ps : List Part} {s a b : State} {c : Prop} [Decidable c] (h : Moves ps s a) (k : Moves ps s b) :
    Moves ps s (if c then a else b) := by split <;> assumption

/-- A loop keeps a frame when its body does. -/
theorem Moves.each {ps : List Part} {s t : State} {β : Type} {l : List β} {f : β → State → State} (h : Moves ps s t)
    (hf : ∀ i u, Moves ps s u → Moves ps s (f i u)) : Moves ps s (Machine.forEach l f t) := by
  unfold Machine.forEach
  induction l generalizing t with
  | nil => exact h
  | cons x r ih => exact ih (hf x t h)

theorem Moves.set_pending {ps : List Part} {s t : State} (h : Moves ps s t) (m : Part.queue ∈ ps) (x : _) :
    Moves ps s { t with pending := x } := by
  refine h.trans ⟨fun p hp => ?_, fun h => h⟩
  cases p <;> first | rfl | exact absurd m hp

theorem Moves.set_moment {ps : List Part} {s t : State} (h : Moves ps s t) (m : Part.moment ∈ ps) (x : _) :
    Moves ps s { t with moment := x } := by
  refine h.trans ⟨fun p hp => ?_, fun h => h⟩
  cases p <;> first | rfl | exact absurd m hp

theorem Moves.set_freeCtr {ps : List Part} {s t : State} (h : Moves ps s t) (m : Part.free ∈ ps) (x : _) :
    Moves ps s { t with freeCtr := x } := by
  refine h.trans ⟨fun p hp => ?_, fun h => h⟩
  cases p <;> first | rfl | exact absurd m hp

theorem Moves.set_undef {ps : List Part} {s t : State} (h : Moves ps s t) (m : Part.undef ∈ ps) (x : _) :
    Moves ps s { t with undef := x } := by
  refine h.trans ⟨fun p hp => ?_, fun h => h⟩
  cases p <;> first | rfl | exact absurd m hp

theorem Moves.set_time {ps : List Part} {s t : State} (h : Moves ps s t) (m : Part.time ∈ ps) (x : _) :
    Moves ps s { t with time := x } := by
  refine h.trans ⟨fun p hp => ?_, fun h => h⟩
  cases p <;> first | rfl | exact absurd m hp

theorem Moves.set_clock {ps : List Part} {s t : State} (h : Moves ps s t) (m : Part.clock ∈ ps) (x : _) :
    Moves ps s { t with clock := x } := by
  refine h.trans ⟨fun p hp => ?_, fun h => h⟩
  cases p <;> first | rfl | exact absurd m hp

theorem Moves.set_sys {ps : List Part} {s t : State} (h : Moves ps s t) (m : Part.sys ∈ ps) (x : _) :
    Moves ps s { t with sys := x } := by
  refine h.trans ⟨fun p hp => ?_, fun h => h⟩
  cases p <;> first | rfl | exact absurd m hp

theorem Moves.set_mp {ps : List Part} {s t : State} (h : Moves ps s t) (m : Part.mp ∈ ps) (x : _) :
    Moves ps s { t with mp := x } := by
  refine h.trans ⟨fun p hp => ?_, fun h => h⟩
  cases p <;> first | rfl | exact absurd m hp

theorem Moves.set_bus {ps : List Part} {s t : State} (h : Moves ps s t) (m : Part.bus ∈ ps) (x : _) :
    Moves ps s { t with bus := x } := by
  refine h.trans ⟨fun p hp => ?_, fun h => h⟩
  cases p <;> first | rfl | exact absurd m hp

theorem Moves.set_acc {ps : List Part} {s t : State} (h : Moves ps s t) (m : Part.acc ∈ ps) (x : _) :
    Moves ps s { t with acc := x } := by
  refine h.trans ⟨fun p hp => ?_, fun h => h⟩
  cases p <;> first | rfl | exact absurd m hp

theorem Moves.set_lcs {ps : List Part} {s t : State} (h : Moves ps s t) (m : Part.lcs ∈ ps) (x : _) :
    Moves ps s { t with lcs := x } := by
  refine h.trans ⟨fun p hp => ?_, fun h => h⟩
  cases p <;> first | rfl | exact absurd m hp

theorem Moves.set_jtag {ps : List Part} {s t : State} (h : Moves ps s t) (m : Part.jtag ∈ ps) (x : _) :
    Moves ps s { t with jtag := x } := by
  refine h.trans ⟨fun p hp => ?_, fun h => h⟩
  cases p <;> first | rfl | exact absurd m hp

theorem Moves.set_tbe {ps : List Part} {s t : State} (h : Moves ps s t) (m : Part.tbe ∈ ps) (x : _) :
    Moves ps s { t with tbe := x } := by
  refine h.trans ⟨fun p hp => ?_, fun h => h⟩
  cases p <;> first | rfl | exact absurd m hp

theorem Moves.set_tsq {ps : List Part} {s t : State} (h : Moves ps s t) (m : Part.tsq ∈ ps) (x : _) :
    Moves ps s { t with tsq := x } := by
  refine h.trans ⟨fun p hp => ?_, fun h => h⟩
  cases p <;> first | rfl | exact absurd m hp

theorem Moves.set_cap {ps : List Part} {s t : State} (h : Moves ps s t) (m : Part.cap ∈ ps) (x : _) :
    Moves ps s { t with cap := x } := by
  refine h.trans ⟨fun p hp => ?_, fun h => h⟩
  cases p <;> first | rfl | exact absurd m hp

theorem Moves.set_tagBase {ps : List Part} {s t : State} (h : Moves ps s t) (m : Part.tagBase ∈ ps) (x : _) :
    Moves ps s { t with tagBase := x } := by
  refine h.trans ⟨fun p hp => ?_, fun h => h⟩
  cases p <;> first | rfl | exact absurd m hp

theorem Moves.set_pw {ps : List Part} {s t : State} (h : Moves ps s t) (m : Part.pw ∈ ps) (x : _) :
    Moves ps s { t with pw := x } := by
  refine h.trans ⟨fun p hp => ?_, fun h => h⟩
  cases p <;> first | rfl | exact absurd m hp

theorem Moves.set_qe {ps : List Part} {s t : State} (h : Moves ps s t) (m : Part.qe ∈ ps) (x : _) :
    Moves ps s { t with qe := x } := by
  refine h.trans ⟨fun p hp => ?_, fun h => h⟩
  cases p <;> first | rfl | exact absurd m hp

theorem Moves.set_egr {ps : List Part} {s t : State} (h : Moves ps s t) (m : Part.egr ∈ ps) (x : _) :
    Moves ps s { t with egr := x } := by
  refine h.trans ⟨fun p hp => ?_, fun h => h⟩
  cases p <;> first | rfl | exact absurd m hp

theorem Moves.set_hl {ps : List Part} {s t : State} (h : Moves ps s t) (m : Part.hl ∈ ps) (x : _) :
    Moves ps s { t with hl := x } := by
  refine h.trans ⟨fun p hp => ?_, fun h => h⟩
  cases p <;> first | rfl | exact absurd m hp

theorem Moves.set_fsp {ps : List Part} {s t : State} (h : Moves ps s t) (m : Part.fsp ∈ ps) (x : _) :
    Moves ps s { t with fsp := x } := by
  refine h.trans ⟨fun p hp => ?_, fun h => h⟩
  cases p <;> first | rfl | exact absurd m hp

theorem Moves.set_fab {ps : List Part} {s t : State} (h : Moves ps s t) (m : Part.fab ∈ ps) (x : _) :
    Moves ps s { t with fab := x } := by
  refine h.trans ⟨fun p hp => ?_, fun h => h⟩
  cases p <;> first | rfl | exact absurd m hp

theorem Moves.set_cfg {ps : List Part} {s t : State} (h : Moves ps s t) (m : Part.cfg ∈ ps) (x : _) :
    Moves ps s { t with cfg := x } := by
  refine h.trans ⟨fun p hp => ?_, fun h => h⟩
  cases p <;> first | rfl | exact absurd m hp

theorem Moves.set_scb {ps : List Part} {s t : State} (h : Moves ps s t) (m : Part.scb ∈ ps) (x : _) :
    Moves ps s { t with scb := x } := by
  refine h.trans ⟨fun p hp => ?_, fun h => h⟩
  cases p <;> first | rfl | exact absurd m hp

theorem Moves.set_ua {ps : List Part} {s t : State} (h : Moves ps s t) (m : Part.ua ∈ ps) (x : _) :
    Moves ps s { t with ua := x } := by
  refine h.trans ⟨fun p hp => ?_, fun h => h⟩
  cases p <;> first | rfl | exact absurd m hp

theorem Moves.set_spc {ps : List Part} {s t : State} (h : Moves ps s t) (m : Part.spc ∈ ps) (x : _) :
    Moves ps s { t with spc := x } := by
  refine h.trans ⟨fun p hp => ?_, fun h => h⟩
  cases p <;> first | rfl | exact absurd m hp

theorem Moves.set_pio {ps : List Part} {s t : State} (h : Moves ps s t) (m : Part.pio ∈ ps) (x : _) :
    Moves ps s { t with pio := x } := by
  refine h.trans ⟨fun p hp => ?_, fun h => h⟩
  cases p <;> first | rfl | exact absurd m hp

theorem Moves.set_adc {ps : List Part} {s t : State} (h : Moves ps s t) (m : Part.adc ∈ ps) (x : _) :
    Moves ps s { t with adc := x } := by
  refine h.trans ⟨fun p hp => ?_, fun h => h⟩
  cases p <;> first | rfl | exact absurd m hp

theorem Moves.set_bkp {ps : List Part} {s t : State} (h : Moves ps s t) (m : Part.bkp ∈ ps) (x : _) :
    Moves ps s { t with bkp := x } := by
  refine h.trans ⟨fun p hp => ?_, fun h => h⟩
  cases p <;> first | rfl | exact absurd m hp

theorem Moves.set_dm {ps : List Part} {s t : State} {x : _} (h : Moves ps s t) (m : Part.dm ∈ ps)
    (k : MemInv t → Memory.wf x = true) : Moves ps s { t with dm := x } := by
  refine h.trans ⟨fun p hp => ?_, fun h => ⟨k h, h.2⟩⟩
  cases p <;> first | rfl | exact absurd m hp

theorem Moves.set_fs {ps : List Part} {s t : State} {x : _} (h : Moves ps s t) (m : Part.fs ∈ ps)
    (k : MemInv t → Memory.wf x = true) : Moves ps s { t with fs := x } := by
  refine h.trans ⟨fun p hp => ?_, fun h => ⟨h.1, k h⟩⟩
  cases p <;> first | rfl | exact absurd m hp

theorem Moves.modSys {ps : List Part} {s t : State} (h : Moves ps s t) (m : Part.sys ∈ ps) (f : Sys → Sys) :
    Moves ps s (t.modSys f) := h.set_sys m _

theorem Moves.modMp {ps : List Part} {s t : State} (h : Moves ps s t) (m : Part.mp ∈ ps) (f : Mp → Mp) :
    Moves ps s (t.modMp f) := h.set_mp m _

theorem Moves.modBus {ps : List Part} {s t : State} (h : Moves ps s t) (m : Part.bus ∈ ps) (f : Bus → Bus) :
    Moves ps s (t.modBus f) := h.set_bus m _

theorem Moves.modAcc {ps : List Part} {s t : State} (h : Moves ps s t) (m : Part.acc ∈ ps) (f : Acc → Acc) :
    Moves ps s (t.modAcc f) := h.set_acc m _

theorem Moves.modLcs {ps : List Part} {s t : State} (h : Moves ps s t) (m : Part.lcs ∈ ps) (f : Lcs → Lcs) :
    Moves ps s (t.modLcs f) := h.set_lcs m _

theorem Moves.modJtag {ps : List Part} {s t : State} (h : Moves ps s t) (m : Part.jtag ∈ ps) (f : Jtag → Jtag) :
    Moves ps s (t.modJtag f) := h.set_jtag m _

theorem Moves.modTbe {ps : List Part} {s t : State} (h : Moves ps s t) (m : Part.tbe ∈ ps) (f : Tbe → Tbe) :
    Moves ps s (t.modTbe f) := h.set_tbe m _

theorem Moves.modEnc {ps : List Part} {s t : State} (h : Moves ps s t) (m : Part.tbe ∈ ps) (n : Fin 8) (f : Enc → Enc) :
    Moves ps s (t.modEnc n f) := h.set_tbe m _

theorem Moves.modRem {ps : List Part} {s t : State} (h : Moves ps s t) (m : Part.tbe ∈ ps) (k : Fin 4) (f : Rem → Rem) :
    Moves ps s (t.modRem k f) := h.set_tbe m _

theorem Moves.modTsq {ps : List Part} {s t : State} (h : Moves ps s t) (m : Part.tsq ∈ ps) (n : Fin 16) (f : Tsq → Tsq) :
    Moves ps s (t.modTsq n f) := h.set_tsq m _

theorem Moves.modCap {ps : List Part} {s t : State} (h : Moves ps s t) (m : Part.cap ∈ ps) (n : Fin 16) (f : Cap → Cap) :
    Moves ps s (t.modCap n f) := h.set_cap m _

theorem Moves.modPw {ps : List Part} {s t : State} (h : Moves ps s t) (m : Part.pw ∈ ps) (f : Pw → Pw) :
    Moves ps s (t.modPw f) := h.set_pw m _

theorem Moves.modQe {ps : List Part} {s t : State} (h : Moves ps s t) (m : Part.qe ∈ ps) (f : Qe → Qe) :
    Moves ps s (t.modQe f) := h.set_qe m _

theorem Moves.modRing {ps : List Part} {s t : State} (h : Moves ps s t) (m : Part.qe ∈ ps) (r : Fin 1024) (f : Ring → Ring) :
    Moves ps s (t.modRing r f) := h.set_qe m _

theorem Moves.modEgr {ps : List Part} {s t : State} (h : Moves ps s t) (m : Part.egr ∈ ps) (n : Fin 4) (f : Egr → Egr) :
    Moves ps s (t.modEgr n f) := h.set_egr m _

theorem Moves.modHl {ps : List Part} {s t : State} (h : Moves ps s t) (m : Part.hl ∈ ps) (f : Hl → Hl) :
    Moves ps s (t.modHl f) := h.set_hl m _

theorem Moves.modPort {ps : List Part} {s t : State} (h : Moves ps s t) (m : Part.hl ∈ ps) (p : Fin 2) (f : HlPort → HlPort) :
    Moves ps s (t.modPort p f) := h.set_hl m _

theorem Moves.modHerd {ps : List Part} {s t : State} (h : Moves ps s t) (m : Part.hl ∈ ps) (k : Fin 4) (f : Herd → Herd) :
    Moves ps s (t.modHerd k f) := h.set_hl m _

theorem Moves.modFsp {ps : List Part} {s t : State} (h : Moves ps s t) (m : Part.fsp ∈ ps) (p : Fin 8) (f : Fsp → Fsp) :
    Moves ps s (t.modFsp p f) := h.set_fsp m _

theorem Moves.modCfg {ps : List Part} {s t : State} (h : Moves ps s t) (m : Part.cfg ∈ ps) (f : Cfg → Cfg) :
    Moves ps s (t.modCfg f) := h.set_cfg m _

theorem Moves.modScb {ps : List Part} {s t : State} (h : Moves ps s t) (m : Part.scb ∈ ps) (f : Scb → Scb) :
    Moves ps s (t.modScb f) := h.set_scb m _

theorem Moves.modZone {ps : List Part} {s t : State} (h : Moves ps s t) (m : Part.scb ∈ ps) (z : Fin 8) (f : Zone → Zone) :
    Moves ps s (t.modZone z f) := h.set_scb m _

theorem Moves.modUa {ps : List Part} {s t : State} (h : Moves ps s t) (m : Part.ua ∈ ps) (n : Fin 18) (f : Ua → Ua) :
    Moves ps s (t.modUa n f) := h.set_ua m _

theorem Moves.modSpc {ps : List Part} {s t : State} (h : Moves ps s t) (m : Part.spc ∈ ps) (n : Fin 2) (f : Spc → Spc) :
    Moves ps s (t.modSpc n f) := h.set_spc m _

theorem Moves.modPio {ps : List Part} {s t : State} (h : Moves ps s t) (m : Part.pio ∈ ps) (f : Pio → Pio) :
    Moves ps s (t.modPio f) := h.set_pio m _

theorem Moves.modPil {ps : List Part} {s t : State} (h : Moves ps s t) (m : Part.pio ∈ ps) (k : Fin 16) (f : Pil → Pil) :
    Moves ps s (t.modPil k f) := h.set_pio m _

theorem Moves.modAdc {ps : List Part} {s t : State} (h : Moves ps s t) (m : Part.adc ∈ ps) (f : Adc → Adc) :
    Moves ps s (t.modAdc f) := h.set_adc m _

theorem Moves.modBkp {ps : List Part} {s t : State} (h : Moves ps s t) (m : Part.bkp ∈ ps) (f : Bkp → Bkp) :
    Moves ps s (t.modBkp f) := h.set_bkp m _

theorem Moves.modMoment {ps : List Part} {s t : State} (h : Moves ps s t) (m : Part.moment ∈ ps) (f : Moment → Moment) :
    Moves ps s (t.modMoment f) := h.set_moment m _

theorem Moves.modFab {ps : List Part} {s t : State} (h : Moves ps s t) (m : Part.fab ∈ ps) (f : Fab → Fab) :
    Moves ps s (t.modFab f) := h.set_fab m _

theorem Moves.freeStep {ps : List Part} {s t : State} (h : Moves ps s t) (m : Part.free ∈ ps) : Moves ps s t.freeStep :=
  h.set_freeCtr m _

theorem Moves.freeSteps {ps : List Part} {s t : State} (h : Moves ps s t) (m : Part.free ∈ ps) (n : Nat) :
    Moves ps s (t.freeSteps n) := h.set_freeCtr m _

theorem Moves.setUndef {ps : List Part} {s t : State} (h : Moves ps s t) (m : Part.undef ∈ ps) (u : Option UndefCause) :
    Moves ps s (t.setUndef u) := h.set_undef m _

theorem Moves.setTime {ps : List Part} {s t : State} (h : Moves ps s t) (m : Part.time ∈ ps) (v : Tick) :
    Moves ps s (t.setTime v) := h.set_time m _

theorem Moves.setClock {ps : List Part} {s t : State} (h : Moves ps s t) (m : Part.clock ∈ ps) (n : Nat) :
    Moves ps s (t.setClock n) := h.set_clock m _

end Sys2Proof.Machine
end

