-- ==== Sys2Proof/Laws/Commands.lean ====
section
/-! SUPPORT. When a command answers a next state: one law for each of the three ways a meaning is guarded. -/

namespace Sys2Proof.Machine

theorem onAny_powered {s : State} (h : Powered s) (f : State → State) : onAny s f = .next (f s) := by
  unfold onAny
  obtain ⟨h1, h2⟩ := h
  split
  · exact absurd ‹_› h1
  · exact absurd ‹_› h2
  · rfl

theorem onSys_clocked {s : State} (h : Clocked s) (f : State → State) : onSys s f = .next (f s) := by
  simp [onSys, h.1, h.2]

theorem clocked_powered {s : State} (h : Clocked s) : Powered s := by simp [Powered, h.1]

theorem onPort_defined {s : State} (h : s.undef = none) (r : Bool) (f : State → State) : onPort s r f = .next (f s) := by
  simp [onPort, onAny, h]

/-- The port commands that reach no logic of PLL_SYS stay defined after its loss. -/
theorem onPort_short {s : State} (h : Powered s) (f : State → State) : onPort s false f = .next (f s) := by
  unfold onPort
  split <;> simp [onAny_powered h]

/-- Before the first lock of PLL_SYS its blocks do nothing. -/
theorem onSys_unclocked {s : State} (h : s.undef = none) (k : s.sys.sysLock = false) (f : State → State) :
    onSys s f = .next s := by simp [onSys, h, k]

/-- What an answer of onSys can be. -/
theorem onSys_next {s t : State} {f : State → State} (h : onSys s f = .next t) :
    s.undef = none ∧ t = if s.sys.sysLock then f s else s := by
  unfold onSys at h
  split at h
  · cases h
  · cases h; exact ⟨‹_›, rfl⟩

/-- What an answer of onAny can be. -/
theorem onAny_next {s t : State} {f : State → State} (h : onAny s f = .next t) : Powered s ∧ t = f s := by
  unfold onAny at h
  split at h
  · cases h
  · cases h
  · cases h; exact ⟨⟨by simp_all, by simp_all⟩, rfl⟩

/-- What an answer of onPort can be. -/
theorem onPort_next {s t : State} {r : Bool} {f : State → State} (h : onPort s r f = .next t) : Powered s ∧ t = f s := by
  unfold onPort at h
  split at h
  · split at h
    · cases h
    · exact onAny_next h
  · exact onAny_next h

/-- A next state of a command keeps the frame of its effect, and the canonical form of the memories. -/
theorem onSys_moves {ps : List Part} {s t : State} {f : State → State} (h : onSys s f = .next t) (k : Moves ps s (f s)) :
    Moves ps s t := by
  rw [(onSys_next h).2]
  exact k.ite (Moves.refl ps s)

theorem onAny_moves {ps : List Part} {s t : State} {f : State → State} (h : onAny s f = .next t) (k : Moves ps s (f s)) :
    Moves ps s t := (onAny_next h).2 ▸ k

theorem onPort_moves {ps : List Part} {s t : State} {r : Bool} {f : State → State} (h : onPort s r f = .next t)
    (k : Moves ps s (f s)) : Moves ps s t := (onPort_next h).2 ▸ k

end Sys2Proof.Machine
end

