-- ==== Sys2Proof/Laws/MovesBasic.lean ====
section
/-! SUPPORT. One law for each function of rings, records, links, pins and the backup domain: which parts of the state it may change, and
that both memories keep their canonical form. -/

namespace Sys2Proof.Machine

variable {ps : List Part} {s₀ : State}

/-! ### Ops -/

theorem noteRetry_moves (r : Retry) (s : State) (hO : Moves ps s₀ s)
    (mO : ∀ p ∈ [Part.moment], p ∈ ps) : Moves ps s₀ (noteRetry r s) := by
  refine hO.step mO ?_
  clear hO mO
  unfold noteRetry
  repeat' first
    | with_reducible exact Moves.refl _ _ | with_reducible apply Moves.modMoment | with_reducible decide

/-! ### Geometry -/

theorem fabLoadImage_moves (s : State) (hO : Moves ps s₀ s)
    (mO : ∀ p ∈ [Part.fab], p ∈ ps) : Moves ps s₀ (fabLoadImage s) := by
  refine hO.step mO ?_
  clear hO mO
  unfold fabLoadImage
  repeat' first
    | with_reducible exact Moves.refl _ _ | with_reducible apply Moves.modFab | with_reducible decide

/-! ### Backup -/

theorem oscEdge_moves (s : State) (hO : Moves ps s₀ s)
    (mO : ∀ p ∈ [Part.bkp], p ∈ ps) : Moves ps s₀ (oscEdge s) := by
  refine hO.step mO ?_
  clear hO mO
  unfold oscEdge
  repeat' first
    | with_reducible exact Moves.refl _ _ | with_reducible apply Moves.modBkp | with_reducible decide

theorem kcEdgeEffect_moves (ch : Fin 2) (pin : KcPin) (level inLimits : Bool) (s : State) (hO : Moves ps s₀ s)
    (mO : ∀ p ∈ [Part.free, .bkp], p ∈ ps) : Moves ps s₀ (kcEdgeEffect ch pin level inLimits s) := by
  refine hO.step mO ?_
  clear hO mO
  unfold kcEdgeEffect
  repeat' first
    | with_reducible exact Moves.refl _ _ | with_reducible apply Moves.freeStep | with_reducible apply Moves.modBkp
    | with_reducible decide | with_reducible apply Moves.ite

theorem logAlarm_moves (s : State) (n : Fin 4) (hO : Moves ps s₀ s)
    (mO : ∀ p ∈ [Part.bkp], p ∈ ps) : Moves ps s₀ (logAlarm s n) := by
  refine hO.step mO ?_
  clear hO mO
  unfold logAlarm
  repeat' first
    | with_reducible exact Moves.refl _ _ | with_reducible apply Moves.modBkp | with_reducible decide

theorem alarmEffect_moves (n : Fin 4) (level : Bool) (s : State) (hO : Moves ps s₀ s)
    (mO : ∀ p ∈ [Part.bkp], p ∈ ps) : Moves ps s₀ (alarmEffect n level s) := by
  refine hO.step mO ?_
  clear hO mO
  unfold alarmEffect
  repeat' first
    | with_reducible exact Moves.refl _ _ | with_reducible apply Moves.modBkp | with_reducible apply logAlarm_moves
    | with_reducible decide | with_reducible apply Moves.ite

theorem logClearEffect_moves (s : State) (hO : Moves ps s₀ s)
    (mO : ∀ p ∈ [Part.bkp], p ∈ ps) : Moves ps s₀ (logClearEffect s) := by
  refine hO.step mO ?_
  clear hO mO
  unfold logClearEffect
  repeat' first
    | with_reducible exact Moves.refl _ _ | with_reducible apply Moves.modBkp | with_reducible decide

theorem bcLoadEffect_moves (s : State) (hO : Moves ps s₀ s)
    (mO : ∀ p ∈ [Part.bkp], p ∈ ps) : Moves ps s₀ (bcLoadEffect s) := by
  refine hO.step mO ?_
  clear hO mO
  unfold bcLoadEffect
  repeat' first
    | with_reducible exact Moves.refl _ _ | with_reducible apply Moves.modBkp | with_reducible decide

theorem kcClearEffect_moves (ch : Fin 2) (s : State) (hO : Moves ps s₀ s)
    (mO : ∀ p ∈ [Part.bkp], p ∈ ps) : Moves ps s₀ (kcClearEffect ch s) := by
  refine hO.step mO ?_
  clear hO mO
  unfold kcClearEffect
  repeat' first
    | with_reducible exact Moves.refl _ _ | with_reducible apply Moves.modBkp | with_reducible decide

theorem bkpCaptureEffect_moves (s : State) (hO : Moves ps s₀ s)
    (mO : ∀ p ∈ [Part.bkp], p ∈ ps) : Moves ps s₀ (bkpCaptureEffect s) := by
  refine hO.step mO ?_
  clear hO mO
  unfold bkpCaptureEffect
  repeat' first
    | with_reducible exact Moves.refl _ _ | with_reducible apply Moves.modBkp | with_reducible decide

theorem pairTakeEffect_moves (s : State) (hO : Moves ps s₀ s)
    (mO : ∀ p ∈ [Part.free, .bkp], p ∈ ps) : Moves ps s₀ (pairTakeEffect s) := by
  refine hO.step mO ?_
  clear hO mO
  unfold pairTakeEffect
  repeat' first
    | with_reducible exact Moves.refl _ _ | with_reducible apply Moves.freeStep | with_reducible apply Moves.modBkp
    | with_reducible decide | with_reducible apply Moves.ite

theorem pairClear_moves (s : State) (hO : Moves ps s₀ s)
    (mO : ∀ p ∈ [Part.bkp], p ∈ ps) : Moves ps s₀ (pairClear s) := by
  refine hO.step mO ?_
  clear hO mO
  unfold pairClear
  repeat' first
    | with_reducible exact Moves.refl _ _ | with_reducible apply Moves.modBkp | with_reducible decide

theorem oscEffect_moves (on : Bool) (s : State) (hO : Moves ps s₀ s)
    (mO : ∀ p ∈ [Part.bkp], p ∈ ps) : Moves ps s₀ (oscEffect on s) := by
  refine hO.step mO ?_
  clear hO mO
  unfold oscEffect
  repeat' first
    | with_reducible exact Moves.refl _ _ | with_reducible apply Moves.modBkp | with_reducible decide

theorem bkpWrite_moves (off : Nat) (w : Word) (s : State) (hO : Moves ps s₀ s)
    (mO : ∀ p ∈ [Part.bkp], p ∈ ps) : Moves ps s₀ (bkpWrite off w s) := by
  refine hO.step mO ?_
  clear hO mO
  unfold bkpWrite
  repeat' first
    | with_reducible exact Moves.refl _ _ | with_reducible apply Moves.modBkp | with_reducible apply bcLoadEffect_moves
    | with_reducible apply bkpCaptureEffect_moves | with_reducible apply kcClearEffect_moves
    | with_reducible apply logClearEffect_moves | with_reducible decide | with_reducible apply Moves.ite

/-! ### QeRings -/

theorem dmWrite_moves (s : State) (a : Nat) (bs : List Byte) (hO : Moves ps s₀ s)
    (mO : ∀ p ∈ [Part.dm], p ∈ ps) : Moves ps s₀ (dmWrite s a bs) :=
  hO.step mO ((Moves.refl _ s).set_dm (by decide) fun m => memWriteBytes_wf bs a m.1)

theorem setTurn_moves (s : State) (c : Consumer) (cls : Fin 4) (rs : List (Fin 1024)) (hO : Moves ps s₀ s)
    (mO : ∀ p ∈ [Part.qe], p ∈ ps) : Moves ps s₀ (setTurn s c cls rs) := by
  refine hO.step mO ?_
  clear hO mO
  unfold setTurn
  repeat' first
    | with_reducible exact Moves.refl _ _ | with_reducible apply Moves.modQe | with_reducible decide

theorem joinTurn_moves (s : State) (r : Fin 1024) (hO : Moves ps s₀ s)
    (mO : ∀ p ∈ [Part.qe], p ∈ ps) : Moves ps s₀ (joinTurn s r) := by
  refine hO.step mO ?_
  clear hO mO
  unfold joinTurn
  repeat' first
    | with_reducible exact Moves.refl _ _ | with_reducible apply Moves.modRing | with_reducible apply setTurn_moves
    | with_reducible decide | with_reducible apply Moves.ite | split | dsimp only

theorem leaveTurn_moves (s : State) (r : Fin 1024) (hO : Moves ps s₀ s)
    (mO : ∀ p ∈ [Part.qe], p ∈ ps) : Moves ps s₀ (leaveTurn s r) := by
  refine hO.step mO ?_
  clear hO mO
  unfold leaveTurn
  repeat' first
    | with_reducible exact Moves.refl _ _ | with_reducible apply Moves.modQe | with_reducible apply Moves.modRing
    | with_reducible decide

theorem clearTurns_moves (s : State) (c : Consumer) (hO : Moves ps s₀ s)
    (mO : ∀ p ∈ [Part.qe], p ∈ ps) : Moves ps s₀ (clearTurns s c) := by
  refine hO.step mO ?_
  clear hO mO
  unfold clearTurns
  repeat' first
    | with_reducible exact Moves.refl _ _ | with_reducible apply leaveTurn_moves | with_reducible apply Moves.each
    | with_reducible decide | dsimp only | intro _ _ _ | with_reducible assumption

theorem refillTurns_moves (s : State) (c : Consumer) (hO : Moves ps s₀ s)
    (mO : ∀ p ∈ [Part.qe], p ∈ ps) : Moves ps s₀ (refillTurns s c) := by
  refine hO.step mO ?_
  clear hO mO
  unfold refillTurns
  repeat' first
    | with_reducible exact Moves.refl _ _ | with_reducible apply joinTurn_moves | with_reducible apply Moves.each
    | with_reducible decide | dsimp only | intro _ _ _ | with_reducible assumption

theorem afterTagFreed_moves (before s : State) (c : Consumer) (hO : Moves ps s₀ s)
    (mO : ∀ p ∈ [Part.qe], p ∈ ps) : Moves ps s₀ (afterTagFreed before s c) := by
  refine hO.step mO ?_
  clear hO mO
  unfold afterTagFreed
  repeat' first
    | with_reducible exact Moves.refl _ _ | with_reducible apply refillTurns_moves | with_reducible decide
    | with_reducible apply Moves.ite

theorem ringPost_moves (s : State) (r : Fin 1024) (bytes : List Byte) (hO : Moves ps s₀ s)
    (mO : ∀ p ∈ [Part.qe, .dm], p ∈ ps) : Moves ps s₀ (ringPost s r bytes).2 := by
  refine hO.step mO ?_
  clear hO mO
  unfold ringPost
  repeat' first
    | with_reducible exact Moves.refl _ _ | with_reducible apply Moves.modRing | with_reducible apply dmWrite_moves
    | with_reducible apply joinTurn_moves | with_reducible decide | with_reducible apply Moves.ite | split | dsimp only

theorem recordFault_moves (s : State) (f : FaultRec) (hO : Moves ps s₀ s)
    (mO : ∀ p ∈ [Part.qe, .dm], p ∈ ps) : Moves ps s₀ (recordFault s f) := by
  refine hO.step mO ?_
  clear hO mO
  unfold recordFault
  repeat' first
    | with_reducible exact Moves.refl _ _ | with_reducible refine Moves.snd (by assumption) ?_
    | with_reducible apply Moves.modQe | with_reducible apply ringPost_moves | with_reducible decide

/-! ### Access -/

theorem logRefusal_moves (s : State) (r : Req) (write : Bool) (addr : Word) (why : BitVec 4) (hO : Moves ps s₀ s)
    (mO : ∀ p ∈ [Part.acc], p ∈ ps) : Moves ps s₀ (logRefusal s r write addr why) := by
  refine hO.step mO ?_
  clear hO mO
  unfold logRefusal
  repeat' first
    | with_reducible exact Moves.refl _ _ | with_reducible apply Moves.modAcc | with_reducible decide

theorem noteFence_moves (before s : State) (hO : Moves ps s₀ s)
    (mO : ∀ p ∈ [Part.acc], p ∈ ps) : Moves ps s₀ (noteFence before s) := by
  refine hO.step mO ?_
  clear hO mO
  unfold noteFence
  repeat' first
    | with_reducible exact Moves.refl _ _ | with_reducible apply Moves.modAcc | with_reducible decide
    | with_reducible apply Moves.ite

theorem accCommitEffect_moves (s : State) (hO : Moves ps s₀ s)
    (mO : ∀ p ∈ [Part.bus, .acc], p ∈ ps) : Moves ps s₀ (accCommitEffect s) := by
  refine hO.step mO ?_
  clear hO mO
  unfold accCommitEffect
  repeat' first
    | with_reducible exact Moves.refl _ _ | with_reducible apply Moves.modAcc | with_reducible apply Moves.modBus
    | with_reducible decide | with_reducible apply Moves.ite

theorem postWrite_moves (s : State) (r : Req) (addr data : Word) (hO : Moves ps s₀ s)
    (mO : ∀ p ∈ [Part.bus], p ∈ ps) : Moves ps s₀ (postWrite s r addr data) := by
  refine hO.step mO ?_
  clear hO mO
  unfold postWrite
  repeat' first
    | with_reducible exact Moves.refl _ _ | with_reducible apply Moves.modBus | with_reducible decide

theorem postBkp_moves (s : State) (r : Req) (addr data : Word) (hO : Moves ps s₀ s)
    (mO : ∀ p ∈ [Part.bus], p ∈ ps) : Moves ps s₀ (postBkp s r addr data) := by
  refine hO.step mO ?_
  clear hO mO
  unfold postBkp
  repeat' first
    | with_reducible exact Moves.refl _ _ | with_reducible apply Moves.modBus | with_reducible decide

theorem issueWrite_moves (s : State) (r : Req) (addr data : Word) (hO : Moves ps s₀ s)
    (mO : ∀ p ∈ [Part.bus, .acc], p ∈ ps) : Moves ps s₀ (issueWrite s r addr data).2 := by
  refine hO.step mO ?_
  clear hO mO
  unfold issueWrite
  repeat' first
    | with_reducible exact Moves.refl _ _ | with_reducible apply logRefusal_moves | with_reducible apply postBkp_moves
    | with_reducible apply postWrite_moves | with_reducible decide | with_reducible apply Moves.ite | split

theorem accWrite_moves (off : Nat) (w : Word) (s : State) (hO : Moves ps s₀ s)
    (mO : ∀ p ∈ [Part.acc], p ∈ ps) : Moves ps s₀ (accWrite off w s) := by
  refine hO.step mO ?_
  clear hO mO
  unfold accWrite
  repeat' first
    | with_reducible exact Moves.refl _ _ | with_reducible apply Moves.modAcc | with_reducible decide
    | with_reducible apply Moves.ite

end Sys2Proof.Machine
end

