-- ==== Sys2Proof/Laws/MovesStore.lean ====
section
/-! SUPPORT. One law for each function of the Page Warden and what capture asks of it: which parts of the state it may change, and
that both memories keep their canonical form. -/

namespace Sys2Proof.Machine

variable {ps : List Part} {s₀ : State}

/-! ### Pw -/

theorem pwRefuse_moves (s : State) (c : PwClass) (hO : Moves ps s₀ s)
    (mO : ∀ p ∈ [Part.pw], p ∈ ps) : Moves ps s₀ (pwRefuse s c) := by
  refine hO.step mO ?_
  clear hO mO
  unfold pwRefuse
  repeat' first
    | with_reducible exact Moves.refl _ _ | with_reducible apply Moves.modPw | with_reducible decide

theorem pwStale_moves (s : State) (hO : Moves ps s₀ s)
    (mO : ∀ p ∈ [Part.pw], p ∈ ps) : Moves ps s₀ (pwStale s) := by
  refine hO.step mO ?_
  clear hO mO
  unfold pwStale
  repeat' first
    | with_reducible exact Moves.refl _ _ | with_reducible apply Moves.modPw | with_reducible decide

theorem modObj_moves (s : State) (h : Fin 2048) (f : MapEntry → MapEntry) (hO : Moves ps s₀ s)
    (mO : ∀ p ∈ [Part.pw], p ∈ ps) : Moves ps s₀ (modObj s h f) := by
  refine hO.step mO ?_
  clear hO mO
  unfold modObj
  repeat' first
    | with_reducible exact Moves.refl _ _ | with_reducible apply Moves.modPw | with_reducible decide

theorem pwReserve_moves (s : State) (c : PwClass) (owner : Fin 16) (n : Nat) (hO : Moves ps s₀ s)
    (mO : ∀ p ∈ [Part.free, .pw], p ∈ ps) : Moves ps s₀ (pwReserve s c owner n).2 := by
  refine hO.step mO ?_
  clear hO mO
  unfold pwReserve
  repeat' first
    | with_reducible exact Moves.refl _ _ | with_reducible apply Moves.freeSteps | with_reducible apply Moves.modPw
    | with_reducible apply pwRefuse_moves | with_reducible decide | with_reducible apply Moves.ite | split

theorem pwReturn_moves (s : State) (res : Nat) (hO : Moves ps s₀ s)
    (mO : ∀ p ∈ [Part.pw], p ∈ ps) : Moves ps s₀ (pwReturn s res) := by
  refine hO.step mO ?_
  clear hO mO
  unfold pwReturn
  repeat' first
    | with_reducible exact Moves.refl _ _ | with_reducible apply Moves.modPw | with_reducible decide

theorem pwTakeHandle_moves (s : State) (c : PwClass) (owner : Fin 16) (stride : BitVec 9) (pages : List (BitVec 12))
      (hO : Moves ps s₀ s)
    (mO : ∀ p ∈ [Part.free, .pw], p ∈ ps) : Moves ps s₀ (pwTakeHandle s c owner stride pages).2 := by
  refine hO.step mO ?_
  clear hO mO
  unfold pwTakeHandle
  repeat' first
    | with_reducible exact Moves.refl _ _ | with_reducible apply Moves.freeStep | with_reducible apply modObj_moves
    | with_reducible decide

theorem pwMap_moves (s : State) (res : Nat) (stride : BitVec 9) (hO : Moves ps s₀ s)
    (mO : ∀ p ∈ [Part.free, .pw], p ∈ ps) : Moves ps s₀ (pwMap s res stride).2 := by
  refine hO.step mO ?_
  clear hO mO
  unfold pwMap
  repeat' first
    | with_reducible exact Moves.refl _ _ | with_reducible refine Moves.snd (by assumption) ?_
    | with_reducible apply pwRefuse_moves | with_reducible apply pwReturn_moves
    | with_reducible apply pwTakeHandle_moves | with_reducible decide | with_reducible apply Moves.ite | split

theorem pwAlloc_moves (s : State) (c : PwClass) (owner : Fin 16) (n : Nat) (stride : BitVec 9) (hO : Moves ps s₀ s)
    (mO : ∀ p ∈ [Part.free, .pw], p ∈ ps) : Moves ps s₀ (pwAlloc s c owner n stride).2 := by
  refine hO.step mO ?_
  clear hO mO
  unfold pwAlloc
  repeat' first
    | with_reducible exact Moves.refl _ _ | with_reducible refine Moves.snd (by assumption) ?_
    | with_reducible apply Moves.freeSteps | with_reducible apply pwRefuse_moves
    | with_reducible apply pwTakeHandle_moves | with_reducible decide | with_reducible apply Moves.ite | split

theorem freeObjPages_moves (s : State) (e : MapEntry) (pages : List (BitVec 12)) (hO : Moves ps s₀ s)
    (mO : ∀ p ∈ [Part.pw], p ∈ ps) : Moves ps s₀ (freeObjPages s e pages) := by
  refine hO.step mO ?_
  clear hO mO
  unfold freeObjPages
  repeat' first
    | with_reducible exact Moves.refl _ _ | with_reducible apply Moves.modPw | with_reducible decide
    | with_reducible apply Moves.ite

theorem pwReclaim_moves (s : State) (h : Fin 2048) (hO : Moves ps s₀ s)
    (mO : ∀ p ∈ [Part.pw], p ∈ ps) : Moves ps s₀ (pwReclaim s h) := by
  refine hO.step mO ?_
  clear hO mO
  unfold pwReclaim
  repeat' first
    | with_reducible exact Moves.refl _ _ | with_reducible apply freeObjPages_moves | with_reducible apply modObj_moves
    | with_reducible decide

theorem pwTrim_moves (s : State) (h : Fin 2048) (gen : BitVec 7) (n : Nat) (hO : Moves ps s₀ s)
    (mO : ∀ p ∈ [Part.pw], p ∈ ps) : Moves ps s₀ (pwTrim s h gen n) := by
  refine hO.step mO ?_
  clear hO mO
  unfold pwTrim
  repeat' first
    | with_reducible exact Moves.refl _ _ | with_reducible apply freeObjPages_moves | with_reducible apply modObj_moves
    | with_reducible apply pwStale_moves | with_reducible decide | split

theorem pwSeal_moves (s : State) (h : Fin 2048) (gen : BitVec 7) (hO : Moves ps s₀ s)
    (mO : ∀ p ∈ [Part.pw], p ∈ ps) : Moves ps s₀ (pwSeal s h gen).2 := by
  refine hO.step mO ?_
  clear hO mO
  unfold pwSeal
  repeat' first
    | with_reducible exact Moves.refl _ _ | with_reducible apply modObj_moves | with_reducible apply pwRefuse_moves
    | with_reducible apply pwStale_moves | with_reducible decide | with_reducible apply Moves.ite | split

theorem pwAddref_moves (s : State) (h : Fin 2048) (gen : BitVec 7) (hO : Moves ps s₀ s)
    (mO : ∀ p ∈ [Part.pw], p ∈ ps) : Moves ps s₀ (pwAddref s h gen).2 := by
  refine hO.step mO ?_
  clear hO mO
  unfold pwAddref
  repeat' first
    | with_reducible exact Moves.refl _ _ | with_reducible apply Moves.modPw | with_reducible apply modObj_moves
    | with_reducible apply pwStale_moves | with_reducible decide | with_reducible apply Moves.ite | split

theorem pwRelease_moves (s : State) (h : Fin 2048) (gen : BitVec 7) (hO : Moves ps s₀ s)
    (mO : ∀ p ∈ [Part.pw], p ∈ ps) : Moves ps s₀ (pwRelease s h gen).2 := by
  refine hO.step mO ?_
  clear hO mO
  unfold pwRelease
  repeat' first
    | with_reducible exact Moves.refl _ _ | with_reducible apply modObj_moves | with_reducible apply pwReclaim_moves
    | with_reducible apply pwRefuse_moves | with_reducible apply pwStale_moves | with_reducible decide
    | with_reducible apply Moves.ite | split

theorem pwAbandon_moves (s : State) (h : Fin 2048) (gen : BitVec 7) (hO : Moves ps s₀ s)
    (mO : ∀ p ∈ [Part.pw], p ∈ ps) : Moves ps s₀ (pwAbandon s h gen).2 := by
  refine hO.step mO ?_
  clear hO mO
  unfold pwAbandon
  repeat' first
    | with_reducible exact Moves.refl _ _ | with_reducible apply pwReclaim_moves | with_reducible apply pwRefuse_moves
    | with_reducible apply pwStale_moves | with_reducible decide | with_reducible apply Moves.ite | split

theorem pwReleaseRef_moves (s : State) (ref : Option (Fin 2048 × BitVec 7)) (hO : Moves ps s₀ s)
    (mO : ∀ p ∈ [Part.pw], p ∈ ps) : Moves ps s₀ (pwReleaseRef s ref) := by
  refine hO.step mO ?_
  clear hO mO
  unfold pwReleaseRef
  repeat' first
    | with_reducible exact Moves.refl _ _ | with_reducible refine Moves.snd (by assumption) ?_
    | with_reducible apply pwRelease_moves | with_reducible decide | split

theorem pwAsk_moves (s : State) (q : PwReq) (hO : Moves ps s₀ s)
    (mO : ∀ p ∈ [Part.pw], p ∈ ps) : Moves ps s₀ (pwAsk s q) := by
  refine hO.step mO ?_
  clear hO mO
  unfold pwAsk
  repeat' first
    | with_reducible exact Moves.refl _ _ | with_reducible apply Moves.modPw | with_reducible decide

theorem pwServed_moves (s : State) (q : PwReq) (hO : Moves ps s₀ s)
    (mO : ∀ p ∈ [Part.pw], p ∈ ps) : Moves ps s₀ (pwServed s q) := by
  refine hO.step mO ?_
  clear hO mO
  unfold pwServed
  repeat' first
    | with_reducible exact Moves.refl _ _ | with_reducible apply Moves.modPw | with_reducible decide

theorem clearBad_moves (s : State) (a n : Nat) (hO : Moves ps s₀ s)
    (mO : ∀ p ∈ [Part.pw], p ∈ ps) : Moves ps s₀ (clearBad s a n) := by
  refine hO.step mO ?_
  clear hO mO
  unfold clearBad
  repeat' first
    | with_reducible exact Moves.refl _ _ | with_reducible apply Moves.modPw | with_reducible decide

theorem objWrite_moves (s : State) (e : MapEntry) (o : Nat) (bs : List Byte) (hO : Moves ps s₀ s)
    (mO : ∀ p ∈ [Part.pw, .fs], p ∈ ps) : Moves ps s₀ (objWrite s e o bs) := by
  induction bs generalizing s o with
  | nil => exact hO
  | cons b r ih =>
    unfold objWrite
    refine ih _ _ ?_
    split
    · exact clearBad_moves _ _ _ (hO.set_fs (mO _ (by decide)) fun m => memWrite_wf _ _ m.2) (within mO (by decide))
    · exact hO

theorem pwRange_moves (s : State) (hO : Moves ps s₀ s)
    (mO : ∀ p ∈ [Part.pw], p ∈ ps) : Moves ps s₀ (pwRange s) := by
  refine hO.step mO ?_
  clear hO mO
  unfold pwRange
  repeat' first
    | with_reducible exact Moves.refl _ _ | with_reducible apply Moves.modPw | with_reducible decide

theorem markPoison_moves (s : State) (a : Nat) (hO : Moves ps s₀ s)
    (mO : ∀ p ∈ [Part.pw], p ∈ ps) : Moves ps s₀ (markPoison s a) := by
  refine hO.step mO ?_
  clear hO mO
  unfold markPoison
  repeat' first
    | with_reducible exact Moves.refl _ _ | with_reducible apply modObj_moves | with_reducible decide | split

theorem noteCorrected_moves (s : State) (a : Nat) (hO : Moves ps s₀ s)
    (mO : ∀ p ∈ [Part.pw], p ∈ ps) : Moves ps s₀ (noteCorrected s a) := by
  refine hO.step mO ?_
  clear hO mO
  unfold noteCorrected
  repeat' first
    | with_reducible exact Moves.refl _ _ | with_reducible apply Moves.modPw | with_reducible decide

theorem eccCorrected_moves (s : State) (a : Nat) (hO : Moves ps s₀ s)
    (mO : ∀ p ∈ [Part.pw, .qe, .dm], p ∈ ps) : Moves ps s₀ (eccCorrected s a) := by
  refine hO.step mO ?_
  clear hO mO
  unfold eccCorrected
  repeat' first
    | with_reducible exact Moves.refl _ _ | with_reducible apply noteCorrected_moves
    | with_reducible apply recordFault_moves | with_reducible decide

theorem ueEffects_moves (s : State) (a : Nat) (entry : Option (Fin 1024 × BitVec 16)) (hO : Moves ps s₀ s)
    (mO : ∀ p ∈ [Part.pw, .qe, .dm], p ∈ ps) : Moves ps s₀ (ueEffects s a entry) := by
  refine hO.step mO ?_
  clear hO mO
  unfold ueEffects
  repeat' first
    | with_reducible exact Moves.refl _ _ | with_reducible apply Moves.modPw | with_reducible apply markPoison_moves
    | with_reducible apply recordFault_moves | with_reducible decide | split | dsimp only

theorem eccUncorrectable_moves (s : State) (a : Nat) (entry : Option (Fin 1024 × BitVec 16)) (hO : Moves ps s₀ s)
    (mO : ∀ p ∈ [Part.pw, .qe, .dm], p ∈ ps) : Moves ps s₀ (eccUncorrectable s a entry) := by
  refine hO.step mO ?_
  clear hO mO
  unfold eccUncorrectable
  repeat' first
    | with_reducible exact Moves.refl _ _ | with_reducible apply Moves.modPw | with_reducible apply ueEffects_moves
    | with_reducible decide | with_reducible apply Moves.ite

theorem eccRead_moves (s : State) (a : Nat) (entry : Option (Fin 1024 × BitVec 16)) (e : Ecc) (hO : Moves ps s₀ s)
    (mO : ∀ p ∈ [Part.pw, .qe, .dm], p ∈ ps) : Moves ps s₀ (eccRead s a entry e) := by
  refine hO.step mO ?_
  clear hO mO
  unfold eccRead
  repeat' first
    | with_reducible exact Moves.refl _ _ | with_reducible apply eccCorrected_moves
    | with_reducible apply eccUncorrectable_moves | with_reducible decide | split

theorem eccReads_moves (entry : Option (Fin 1024 × BitVec 16)) (ws : List (Nat × Ecc)) (s : State) (hO : Moves ps s₀ s)
    (mO : ∀ p ∈ [Part.pw, .qe, .dm], p ∈ ps) : Moves ps s₀ (eccReads entry ws s) := by
  refine hO.step mO ?_
  clear hO mO
  unfold eccReads
  repeat' first
    | with_reducible exact Moves.refl _ _ | with_reducible apply eccRead_moves | with_reducible apply Moves.each
    | with_reducible decide | dsimp only | intro _ _ _ | with_reducible assumption

theorem eccReadsUntil_moves (entry : Option (Fin 1024 × BitVec 16)) (ws : List (Nat × Ecc)) (s : State) (hO : Moves
      ps s₀ s)
    (mO : ∀ p ∈ [Part.pw, .qe, .dm], p ∈ ps) : Moves ps s₀ (eccReadsUntil entry ws s) := by
  refine hO.step mO ?_
  clear hO mO
  unfold eccReadsUntil
  repeat' first
    | with_reducible exact Moves.refl _ _ | with_reducible apply eccReads_moves | with_reducible decide

theorem fsWrite32_moves (s : State) (a : Nat) (w : Word) (e : Ecc) (hO : Moves ps s₀ s)
    (mO : ∀ p ∈ [Part.pw, .qe, .dm, .fs], p ∈ ps) : Moves ps s₀ (fsWrite32 s a w e) := by
  have h := eccRead_moves s a none e hO (within mO (by decide))
  unfold fsWrite32
  dsimp only
  split
  · exact (h.set_fs (mO _ (by decide)) fun m => memWrite32_wf _ _ (memWriteBytes_wf _ _ m.2)).modPw (mO _ (by decide)) _
  · exact h.set_fs (mO _ (by decide)) fun m => memWrite32_wf _ _ m.2
  · exact h.set_fs (mO _ (by decide)) fun m => memWrite32_wf _ _ m.2

theorem restartTimeout_moves (s : State) (entry : Option (Fin 1024 × BitVec 16)) (hO : Moves ps s₀ s)
    (mO : ∀ p ∈ [Part.qe], p ∈ ps) : Moves ps s₀ (restartTimeout s entry) := by
  refine hO.step mO ?_
  clear hO mO
  unfold restartTimeout
  repeat' first
    | with_reducible exact Moves.refl _ _ | with_reducible apply Moves.modQe | with_reducible decide
    | with_reducible apply Moves.ite | split

theorem endRepeats_moves (s : State) (entry : Option (Fin 1024 × BitVec 16)) (hO : Moves ps s₀ s)
    (mO : ∀ p ∈ [Part.qe], p ∈ ps) : Moves ps s₀ (endRepeats s entry) := by
  refine hO.step mO ?_
  clear hO mO
  unfold endRepeats
  repeat' first
    | with_reducible exact Moves.refl _ _ | with_reducible apply Moves.modQe | with_reducible decide
    | with_reducible apply Moves.ite | split

theorem readRepeatEffect_moves (addr : BitVec 24) (entry : Option (Fin 1024 × BitVec 16)) (repeats : Nat) (found :
      Ecc) (s : State) (hO : Moves ps s₀ s)
    (mO : ∀ p ∈ [Part.pw, .qe, .dm], p ∈ ps) : Moves ps s₀ (readRepeatEffect addr entry repeats found s) := by
  refine hO.step mO ?_
  clear hO mO
  unfold readRepeatEffect
  repeat' first
    | with_reducible exact Moves.refl _ _ | with_reducible apply Moves.modPw | with_reducible apply endRepeats_moves
    | with_reducible apply noteCorrected_moves | with_reducible apply recordFault_moves
    | with_reducible apply restartTimeout_moves | with_reducible apply ueEffects_moves | with_reducible decide
    | with_reducible apply Moves.ite | split | dsimp only

theorem poisonRewriteEffect_moves (s : State) (hO : Moves ps s₀ s)
    (mO : ∀ p ∈ [Part.pw, .fs], p ∈ ps) : Moves ps s₀ (poisonRewriteEffect s) := by
  unfold poisonRewriteEffect
  split
  · exact hO
  · exact (hO.modPw (mO _ (by decide)) _).each fun p t h =>
      clearBad_moves _ _ _ (h.set_fs (mO _ (by decide)) fun m => memZero_wf _ _ m.2) (within mO (by decide))

theorem pwCommitEffect_moves (s : State) (hO : Moves ps s₀ s)
    (mO : ∀ p ∈ [Part.pw], p ∈ ps) : Moves ps s₀ (pwCommitEffect s) := by
  refine hO.step mO ?_
  clear hO mO
  unfold pwCommitEffect
  repeat' first
    | with_reducible exact Moves.refl _ _ | with_reducible apply Moves.modPw | with_reducible decide
    | with_reducible apply Moves.ite

theorem pwCntClearEffect_moves (s : State) (hO : Moves ps s₀ s)
    (mO : ∀ p ∈ [Part.pw], p ∈ ps) : Moves ps s₀ (pwCntClearEffect s) := by
  refine hO.step mO ?_
  clear hO mO
  unfold pwCntClearEffect
  repeat' first
    | with_reducible exact Moves.refl _ _ | with_reducible apply Moves.modPw | with_reducible decide

theorem pwWrite_moves (off : Nat) (w : Word) (s : State) (hO : Moves ps s₀ s)
    (mO : ∀ p ∈ [Part.pw], p ∈ ps) : Moves ps s₀ (pwWrite off w s) := by
  refine hO.step mO ?_
  clear hO mO
  unfold pwWrite
  repeat' first
    | with_reducible exact Moves.refl _ _ | with_reducible apply Moves.modPw
    | with_reducible apply pwCntClearEffect_moves | with_reducible decide | with_reducible apply Moves.ite

/-! ### CapBase -/

theorem countDrop_moves (s : State) (n : Fin 16) (r : Fin 13) (hO : Moves ps s₀ s)
    (mO : ∀ p ∈ [Part.cap], p ∈ ps) : Moves ps s₀ (countDrop s n r) := by
  refine hO.step mO ?_
  clear hO mO
  unfold countDrop
  repeat' first
    | with_reducible exact Moves.refl _ _ | with_reducible apply Moves.modCap | with_reducible decide

theorem disown_moves (s : State) (n : Fin 16) (d : PwDest) (hO : Moves ps s₀ s)
    (mO : ∀ p ∈ [Part.pw], p ∈ ps) : Moves ps s₀ (disown s n d) := by
  refine hO.step mO ?_
  clear hO mO
  unfold disown
  repeat' first
    | with_reducible exact Moves.refl _ _ | with_reducible apply Moves.modPw | with_reducible decide | split

theorem giveBack_moves (s : State) (n : Fin 16) (slot : Option (Fin 64)) (r : ResState) (hO : Moves ps s₀ s)
    (mO : ∀ p ∈ [Part.pw], p ∈ ps) : Moves ps s₀ (giveBack s n slot r) := by
  refine hO.step mO ?_
  clear hO mO
  unfold giveBack
  repeat' first
    | with_reducible exact Moves.refl _ _ | with_reducible apply disown_moves | with_reducible apply pwReturn_moves
    | with_reducible decide | split

theorem dropRelease_moves (s : State) (n : Fin 16) (r : Fin 13) (rel : Release) (hO : Moves ps s₀ s)
    (mO : ∀ p ∈ [Part.cap, .pw], p ∈ ps) : Moves ps s₀ (dropRelease s n r rel) := by
  refine hO.step mO ?_
  clear hO mO
  unfold dropRelease
  repeat' first
    | with_reducible exact Moves.refl _ _ | with_reducible apply countDrop_moves | with_reducible apply giveBack_moves
    | with_reducible decide

theorem dropPending_moves (s : State) (n : Fin 16) (r : Fin 13) (hO : Moves ps s₀ s)
    (mO : ∀ p ∈ [Part.cap, .pw], p ∈ ps) : Moves ps s₀ (dropPending s n r) := by
  refine hO.step mO ?_
  clear hO mO
  unfold dropPending
  repeat' first
    | with_reducible exact Moves.refl _ _ | with_reducible apply Moves.modCap | with_reducible apply dropRelease_moves
    | with_reducible apply Moves.each | with_reducible decide | dsimp only | intro _ _ _ | with_reducible assumption

theorem lineGiveBack_moves (s : State) (n : Fin 16) (l : Line) (hO : Moves ps s₀ s)
    (mO : ∀ p ∈ [Part.pw], p ∈ ps) : Moves ps s₀ (lineGiveBack s n l) := by
  have k : ∀ f r, Moves ps s₀ (giveBack (s.modPw f) n none r) := fun f r =>
    giveBack_moves _ _ _ _ (hO.modPw (mO _ (by decide)) f) mO
  unfold lineGiveBack
  generalize l.handle = a
  generalize l.rel.res = b
  cases a <;> cases b <;>
    first | exact pwAbandon_moves _ _ _ hO mO | exact k _ _ | exact giveBack_moves _ _ _ _ hO mO

theorem dropLine_moves (s : State) (n : Fin 16) (r : Fin 13) (hO : Moves ps s₀ s)
    (mO : ∀ p ∈ [Part.cap, .pw], p ∈ ps) : Moves ps s₀ (dropLine s n r) := by
  refine hO.step mO ?_
  clear hO mO
  unfold dropLine
  repeat' first
    | with_reducible exact Moves.refl _ _ | with_reducible apply Moves.modCap | with_reducible apply countDrop_moves
    | with_reducible apply lineGiveBack_moves | with_reducible decide | with_reducible apply Moves.ite | split

theorem endLine_moves (s : State) (n : Fin 16) (r : Fin 13) (hO : Moves ps s₀ s)
    (mO : ∀ p ∈ [Part.cap, .pw], p ∈ ps) : Moves ps s₀ (endLine s n r) := by
  refine hO.step mO ?_
  clear hO mO
  unfold endLine
  repeat' first
    | with_reducible exact Moves.refl _ _ | with_reducible apply Moves.modCap | with_reducible apply dropLine_moves
    | with_reducible decide

theorem dropEnding_moves (s : State) (n : Fin 16) (r : Fin 13) (hO : Moves ps s₀ s)
    (mO : ∀ p ∈ [Part.cap, .pw], p ∈ ps) : Moves ps s₀ (dropEnding s n r) := by
  refine hO.step mO ?_
  clear hO mO
  unfold dropEnding
  repeat' first
    | with_reducible exact Moves.refl _ _ | with_reducible apply Moves.modCap | with_reducible apply countDrop_moves
    | with_reducible apply lineGiveBack_moves | with_reducible apply Moves.each | with_reducible decide | dsimp only
    | intro _ _ _ | with_reducible assumption

theorem takeRelease_moves (s : State) (n : Fin 16) (rel : Release) (hO : Moves ps s₀ s)
    (mO : ∀ p ∈ [Part.cap, .pw], p ∈ ps) : Moves ps s₀ (takeRelease s n rel) := by
  refine hO.step mO ?_
  clear hO mO
  unfold takeRelease
  repeat' first
    | with_reducible exact Moves.refl _ _ | with_reducible apply Moves.modCap | with_reducible apply dropRelease_moves
    | with_reducible decide | split

end Sys2Proof.Machine
end

