-- ==== Sys2Proof/Laws/MovesImage.lean ====
section
/-! SUPPORT. One law for each function of images, life cycle, scrubbing, UARTs, SPI controllers and pins: which parts of the state it may change, and
that both memories keep their canonical form. -/

namespace Sys2Proof.Machine

variable {ps : List Part} {s₀ : State}

/-! ### CfgStream -/

theorem modSlotNv_moves (s : State) (b : Fin 3) (f : NvSlot → NvSlot) (hO : Moves ps s₀ s)
    (mO : ∀ p ∈ [Part.cfg], p ∈ ps) : Moves ps s₀ (modSlotNv s b f) := by
  refine hO.step mO ?_
  clear hO mO
  unfold modSlotNv
  repeat' first
    | with_reducible exact Moves.refl _ _ | with_reducible apply Moves.modCfg | with_reducible decide

theorem refreshView_moves (s : State) (b : Fin 3) (hO : Moves ps s₀ s)
    (mO : ∀ p ∈ [Part.cfg], p ∈ ps) : Moves ps s₀ (refreshView s b) := by
  refine hO.step mO ?_
  clear hO mO
  unfold refreshView
  repeat' first
    | with_reducible exact Moves.refl _ _ | with_reducible apply Moves.modCfg | with_reducible decide

theorem discardIdle_moves (s : State) (hO : Moves ps s₀ s)
    (mO : ∀ p ∈ [Part.mp, .cfg], p ∈ ps) : Moves ps s₀ (discardIdle s) := by
  refine hO.step mO ?_
  clear hO mO
  unfold discardIdle
  repeat' first
    | with_reducible exact Moves.refl _ _ | with_reducible apply Moves.modCfg | with_reducible apply Moves.modMp
    | with_reducible decide | with_reducible apply Moves.ite

theorem cfgFail_moves (s : State) (r : WReason) (hO : Moves ps s₀ s)
    (mO : ∀ p ∈ [Part.mp, .cfg], p ∈ ps) : Moves ps s₀ (cfgFail s r) := by
  refine hO.step mO ?_
  clear hO mO
  unfold cfgFail
  repeat' first
    | with_reducible exact Moves.refl _ _ | with_reducible apply Moves.modCfg | with_reducible apply discardIdle_moves
    | with_reducible apply refreshView_moves | with_reducible decide | with_reducible apply Moves.ite | split

theorem endEarly_moves (s : State) (hO : Moves ps s₀ s)
    (mO : ∀ p ∈ [Part.mp, .cfg], p ∈ ps) : Moves ps s₀ (endEarly s) := by
  refine hO.step mO ?_
  clear hO mO
  unfold endEarly
  repeat' first
    | with_reducible exact Moves.refl _ _ | with_reducible apply Moves.modCfg | with_reducible apply cfgFail_moves
    | with_reducible decide | with_reducible apply Moves.ite

theorem consume_moves (s : State) (n : Nat) (check : Bool) (hO : Moves ps s₀ s)
    (mO : ∀ p ∈ [Part.mp, .cfg], p ∈ ps) : Moves ps s₀ (consume s n check) := by
  refine hO.step mO ?_
  clear hO mO
  unfold consume
  repeat' first
    | with_reducible exact Moves.refl _ _ | with_reducible apply Moves.modCfg | with_reducible apply Moves.modMp
    | with_reducible decide | with_reducible apply Moves.ite

theorem lossCheck_moves (s : State) (hO : Moves ps s₀ s)
    (mO : ∀ p ∈ [Part.mp, .cfg], p ∈ ps) : Moves ps s₀ (lossCheck s) := by
  refine hO.step mO ?_
  clear hO mO
  unfold lossCheck
  repeat' first
    | with_reducible exact Moves.refl _ _ | with_reducible apply Moves.modMp | with_reducible apply endEarly_moves
    | with_reducible decide | with_reducible apply Moves.ite

theorem settle_moves (s : State) (hO : Moves ps s₀ s)
    (mO : ∀ p ∈ [Part.mp, .cfg], p ∈ ps) : Moves ps s₀ (settle s) := by
  refine hO.step mO ?_
  clear hO mO
  unfold settle
  repeat' first
    | with_reducible exact Moves.refl _ _ | with_reducible apply discardIdle_moves
    | with_reducible apply lossCheck_moves | with_reducible decide | with_reducible apply Moves.ite

theorem takePacket_moves (k : Pkt) (act : State → List Word → State) (s : State) (hO : Moves ps s₀ s)
    (mO : ∀ p ∈ [Part.mp, .cfg], p ∈ ps) (hf : ∀ t ws, Moves ps s₀ t → Moves ps s₀ (act t ws)) :
    Moves ps s₀ (takePacket k act s) := by
  have c : ∀ n b, Moves ps s₀ (consume s n b) := fun n b => consume_moves _ _ _ hO (within mO (by decide))
  unfold takePacket
  split
  · exact hO
  · split
    · exact cfgFail_moves _ _ (c _ _) (within mO (by decide))
    · dsimp only
      split
      · exact hO
      · exact lossCheck_moves _ (hf _ _ (c _ _)) (within mO (by decide))

theorem headerPacket_moves (stage : Nat) (f : Parse → List Word → Parse) (s : State) (ws : List Word) (hO : Moves ps
      s₀ s)
    (mO : ∀ p ∈ [Part.mp, .cfg], p ∈ ps) : Moves ps s₀ (headerPacket stage f s ws) := by
  refine hO.step mO ?_
  clear hO mO
  unfold headerPacket
  repeat' first
    | with_reducible exact Moves.refl _ _ | with_reducible apply Moves.modCfg | with_reducible apply cfgFail_moves
    | with_reducible decide | with_reducible apply Moves.ite

theorem syncWordEffect_moves (s : State) (hO : Moves ps s₀ s)
    (mO : ∀ p ∈ [Part.mp, .cfg], p ∈ ps) : Moves ps s₀ (syncWordEffect s) := by
  refine hO.step mO ?_
  clear hO mO
  unfold syncWordEffect
  repeat' first
    | with_reducible exact Moves.refl _ _ | with_reducible apply Moves.modCfg | with_reducible apply Moves.modMp
    | with_reducible apply lossCheck_moves | with_reducible apply settle_moves | with_reducible decide
    | with_reducible apply Moves.ite

theorem nopEffect_moves (s : State) (hO : Moves ps s₀ s)
    (mO : ∀ p ∈ [Part.mp, .cfg], p ∈ ps) : Moves ps s₀ (nopEffect s) := by
  refine hO.step mO ?_
  clear hO mO
  unfold nopEffect
  repeat' first
    | with_reducible exact Moves.refl _ _ | with_reducible apply takePacket_moves | with_reducible decide | dsimp only
    | intro _ _ _ | with_reducible assumption

theorem idcEffect_moves (s : State) (hO : Moves ps s₀ s)
    (mO : ∀ p ∈ [Part.mp, .cfg], p ∈ ps) : Moves ps s₀ (idcEffect s) := by
  refine hO.step mO ?_
  clear hO mO
  unfold idcEffect
  repeat' first
    | with_reducible exact Moves.refl _ _ | with_reducible apply headerPacket_moves
    | with_reducible apply takePacket_moves | with_reducible decide | dsimp only | intro _ _ _
    | with_reducible assumption

theorem seqEffect_moves (s : State) (hO : Moves ps s₀ s)
    (mO : ∀ p ∈ [Part.mp, .cfg], p ∈ ps) : Moves ps s₀ (seqEffect s) := by
  refine hO.step mO ?_
  clear hO mO
  unfold seqEffect
  repeat' first
    | with_reducible exact Moves.refl _ _ | with_reducible apply Moves.modCfg | with_reducible apply headerPacket_moves
    | with_reducible apply takePacket_moves | with_reducible decide | with_reducible apply Moves.ite | split
    | dsimp only | intro _ _ _ | with_reducible assumption

theorem lenEffect_moves (s : State) (hO : Moves ps s₀ s)
    (mO : ∀ p ∈ [Part.mp, .cfg], p ∈ ps) : Moves ps s₀ (lenEffect s) := by
  refine hO.step mO ?_
  clear hO mO
  unfold lenEffect
  repeat' first
    | with_reducible exact Moves.refl _ _ | with_reducible apply headerPacket_moves
    | with_reducible apply takePacket_moves | with_reducible decide | dsimp only | intro _ _ _
    | with_reducible assumption

theorem ztabEffect_moves (s : State) (hO : Moves ps s₀ s)
    (mO : ∀ p ∈ [Part.mp, .cfg], p ∈ ps) : Moves ps s₀ (ztabEffect s) := by
  refine hO.step mO ?_
  clear hO mO
  unfold ztabEffect
  repeat' first
    | with_reducible exact Moves.refl _ _ | with_reducible apply headerPacket_moves
    | with_reducible apply takePacket_moves | with_reducible decide | dsimp only | intro _ _ _
    | with_reducible assumption

theorem sigEffect_moves (s : State) (hO : Moves ps s₀ s)
    (mO : ∀ p ∈ [Part.mp, .cfg], p ∈ ps) : Moves ps s₀ (sigEffect s) := by
  refine hO.step mO ?_
  clear hO mO
  unfold sigEffect
  repeat' first
    | with_reducible exact Moves.refl _ _ | with_reducible apply headerPacket_moves
    | with_reducible apply takePacket_moves | with_reducible decide | dsimp only | intro _ _ _
    | with_reducible assumption

theorem takeCtl_moves (v : Nat) (act : State → State) (s : State) (hO : Moves ps s₀ s)
    (mO : ∀ p ∈ [Part.mp, .cfg], p ∈ ps) (hf : ∀ t, Moves ps s₀ t → Moves ps s₀ (act t)) : Moves ps s₀ (takeCtl v act
      s) := by
  unfold takeCtl
  dsimp only
  split
  · split
    · exact hO
    · refine takePacket_moves _ _ _ hO mO fun t ws h => ?_
      split
      · exact hf _ h
      · exact cfgFail_moves _ _ h (within mO (by decide))
  · exact hO

theorem beginEffect_moves (s : State) (hO : Moves ps s₀ s)
    (mO : ∀ p ∈ [Part.mp, .cfg], p ∈ ps) : Moves ps s₀ (beginEffect s) := by
  refine hO.step mO ?_
  clear hO mO
  unfold beginEffect
  repeat' first
    | with_reducible exact Moves.refl _ _ | with_reducible apply Moves.modCfg | with_reducible apply cfgFail_moves
    | with_reducible apply modSlotNv_moves | with_reducible apply takeCtl_moves | with_reducible decide
    | with_reducible apply Moves.ite | split | dsimp only | intro _ _ | with_reducible assumption

theorem ctlAbortEffect_moves (s : State) (hO : Moves ps s₀ s)
    (mO : ∀ p ∈ [Part.mp, .cfg], p ∈ ps) : Moves ps s₀ (ctlAbortEffect s) := by
  refine hO.step mO ?_
  clear hO mO
  unfold ctlAbortEffect
  repeat' first
    | with_reducible exact Moves.refl _ _ | with_reducible apply endEarly_moves | with_reducible apply takeCtl_moves
    | with_reducible decide | dsimp only | intro _ _ | with_reducible assumption

theorem ctlNopEffect_moves (s : State) (hO : Moves ps s₀ s)
    (mO : ∀ p ∈ [Part.mp, .cfg], p ∈ ps) : Moves ps s₀ (ctlNopEffect s) := takeCtl_moves _ _ _ hO mO fun _ h => h

theorem erasingDoneEffect_moves (ok : Bool) (s : State) (hO : Moves ps s₀ s)
    (mO : ∀ p ∈ [Part.free, .mp, .qe, .cfg, .dm], p ∈ ps) : Moves ps s₀ (erasingDoneEffect ok s) := by
  refine hO.step mO ?_
  clear hO mO
  unfold erasingDoneEffect
  repeat' first
    | with_reducible exact Moves.refl _ _ | with_reducible apply Moves.freeStep | with_reducible apply Moves.modCfg
    | with_reducible apply cfgFail_moves | with_reducible apply lossCheck_moves | with_reducible apply modSlotNv_moves
    | with_reducible apply recordFault_moves | with_reducible decide | with_reducible apply Moves.ite | split

theorem faddrEffect_moves (s : State) (hO : Moves ps s₀ s)
    (mO : ∀ p ∈ [Part.mp, .cfg], p ∈ ps) : Moves ps s₀ (faddrEffect s) := by
  refine hO.step mO ?_
  clear hO mO
  unfold faddrEffect
  repeat' first
    | with_reducible exact Moves.refl _ _ | with_reducible apply Moves.modCfg | with_reducible apply cfgFail_moves
    | with_reducible apply takePacket_moves | with_reducible decide | with_reducible apply Moves.ite | split
    | dsimp only | intro _ _ _ | with_reducible assumption

theorem fdataEffect_moves (s : State) (hO : Moves ps s₀ s)
    (mO : ∀ p ∈ [Part.mp, .cfg], p ∈ ps) : Moves ps s₀ (fdataEffect s) := by
  refine hO.step mO ?_
  clear hO mO
  unfold fdataEffect
  repeat' first
    | with_reducible exact Moves.refl _ _ | with_reducible apply Moves.modCfg | with_reducible apply cfgFail_moves
    | with_reducible apply takePacket_moves | with_reducible decide | with_reducible apply Moves.ite | split
    | dsimp only | intro _ _ _ | with_reducible assumption

theorem frameArrivalEffect_moves (s : State) (hO : Moves ps s₀ s)
    (mO : ∀ p ∈ [Part.mp, .cfg], p ∈ ps) : Moves ps s₀ (frameArrivalEffect s) := by
  refine hO.step mO ?_
  clear hO mO
  unfold frameArrivalEffect
  repeat' first
    | with_reducible exact Moves.refl _ _ | with_reducible apply Moves.modCfg | with_reducible apply cfgFail_moves
    | with_reducible apply consume_moves | with_reducible apply lossCheck_moves | with_reducible decide
    | with_reducible apply Moves.ite | split

theorem frameProgramDoneEffect_moves (ok : Bool) (s : State) (hO : Moves ps s₀ s)
    (mO : ∀ p ∈ [Part.mp, .qe, .cfg, .dm], p ∈ ps) : Moves ps s₀ (frameProgramDoneEffect ok s) := by
  refine hO.step mO ?_
  clear hO mO
  unfold frameProgramDoneEffect
  repeat' first
    | with_reducible exact Moves.refl _ _ | with_reducible apply Moves.modCfg | with_reducible apply cfgFail_moves
    | with_reducible apply lossCheck_moves | with_reducible apply modSlotNv_moves
    | with_reducible apply recordFault_moves | with_reducible decide | with_reducible apply Moves.ite | split

theorem endEffect_moves (s : State) (hO : Moves ps s₀ s)
    (mO : ∀ p ∈ [Part.mp, .cfg], p ∈ ps) : Moves ps s₀ (endEffect s) := by
  refine hO.step mO ?_
  clear hO mO
  unfold endEffect
  repeat' first
    | with_reducible exact Moves.refl _ _ | with_reducible apply Moves.modCfg | with_reducible apply cfgFail_moves
    | with_reducible apply takePacket_moves | with_reducible decide | with_reducible apply Moves.ite | split
    | dsimp only | intro _ _ _ | with_reducible assumption

theorem finishingDoneEffect_moves (s : State) (hO : Moves ps s₀ s)
    (mO : ∀ p ∈ [Part.mp, .cfg], p ∈ ps) : Moves ps s₀ (finishingDoneEffect s) := by
  refine hO.step mO ?_
  clear hO mO
  unfold finishingDoneEffect
  repeat' first
    | with_reducible exact Moves.refl _ _ | with_reducible apply Moves.modCfg | with_reducible apply cfgFail_moves
    | with_reducible apply modSlotNv_moves | with_reducible apply refreshView_moves | with_reducible apply settle_moves
    | with_reducible decide | with_reducible apply Moves.ite | split

theorem enterBytes_moves (s : State) (bs : List Byte) (free : Nat) (hO : Moves ps s₀ s)
    (mO : ∀ p ∈ [Part.mp, .cfg], p ∈ ps) : Moves ps s₀ (enterBytes s bs free) := by
  refine hO.step mO ?_
  clear hO mO
  unfold enterBytes
  repeat' first
    | with_reducible exact Moves.refl _ _ | with_reducible apply Moves.modMp | with_reducible apply settle_moves
    | with_reducible decide

theorem cutByte_moves (s : State) (hO : Moves ps s₀ s)
    (mO : ∀ p ∈ [Part.mp, .cfg], p ∈ ps) : Moves ps s₀ (cutByte s) := by
  refine hO.step mO ?_
  clear hO mO
  unfold cutByte
  repeat' first
    | with_reducible exact Moves.refl _ _ | with_reducible apply Moves.modMp | with_reducible apply settle_moves
    | with_reducible decide

theorem pcStbByteEffect_moves (b : Byte) (s : State) (hO : Moves ps s₀ s)
    (mO : ∀ p ∈ [Part.mp, .cfg], p ∈ ps) : Moves ps s₀ (pcStbByteEffect b s) := by
  refine hO.step mO ?_
  clear hO mO
  unfold pcStbByteEffect
  repeat' first
    | with_reducible exact Moves.refl _ _ | with_reducible apply enterBytes_moves | with_reducible decide
    | with_reducible apply Moves.ite

theorem pcpEnWriteEffect_moves (v : Bool) (s : State) (hO : Moves ps s₀ s)
    (mO : ∀ p ∈ [Part.mp, .cfg], p ∈ ps) : Moves ps s₀ (pcpEnWriteEffect v s) := by
  refine hO.step mO ?_
  clear hO mO
  unfold pcpEnWriteEffect
  repeat' first
    | with_reducible exact Moves.refl _ _ | with_reducible apply Moves.modCfg | with_reducible apply endEarly_moves
    | with_reducible decide | with_reducible apply Moves.ite

theorem endHalt_moves (s : State) (hO : Moves ps s₀ s)
    (mO : ∀ p ∈ [Part.cfg], p ∈ ps) : Moves ps s₀ (endHalt s) := by
  refine hO.step mO ?_
  clear hO mO
  unfold endHalt
  repeat' first
    | with_reducible exact Moves.refl _ _ | with_reducible apply Moves.modCfg | with_reducible decide
    | with_reducible apply Moves.ite

theorem streamAbortEffect_moves (s : State) (hO : Moves ps s₀ s)
    (mO : ∀ p ∈ [Part.mp, .cfg], p ∈ ps) : Moves ps s₀ (streamAbortEffect s) := by
  refine hO.step mO ?_
  clear hO mO
  unfold streamAbortEffect
  repeat' first
    | with_reducible exact Moves.refl _ _ | with_reducible apply Moves.modMp | with_reducible apply endEarly_moves
    | with_reducible apply endHalt_moves | with_reducible decide | with_reducible apply Moves.ite

theorem cmdUnmark_moves (s : State) (op : CfgOp) (n : BitVec 2) (hO : Moves ps s₀ s)
    (mO : ∀ p ∈ [Part.cfg], p ∈ ps) : Moves ps s₀ (cmdUnmark s op n) := by
  refine hO.step mO ?_
  clear hO mO
  unfold cmdUnmark
  repeat' first
    | with_reducible exact Moves.refl _ _ | with_reducible apply modSlotNv_moves | with_reducible decide | split

theorem cmdStart_moves (op : CfgOp) (n : BitVec 2) (s : State) (hO : Moves ps s₀ s)
    (mO : ∀ p ∈ [Part.moment, .cfg], p ∈ ps) : Moves ps s₀ (cmdStart op n s) := by
  refine hO.step mO ?_
  clear hO mO
  unfold cmdStart
  repeat' first
    | with_reducible exact Moves.refl _ _ | with_reducible apply Moves.modCfg | with_reducible apply cmdUnmark_moves
    | with_reducible apply noteRetry_moves | with_reducible decide | with_reducible apply Moves.ite

theorem cmdView_moves (s : State) (n : BitVec 2) (hO : Moves ps s₀ s)
    (mO : ∀ p ∈ [Part.cfg], p ∈ ps) : Moves ps s₀ (cmdView s n) := by
  refine hO.step mO ?_
  clear hO mO
  unfold cmdView
  repeat' first
    | with_reducible exact Moves.refl _ _ | with_reducible apply refreshView_moves | with_reducible decide | split

theorem cmdEnd_moves (op : CfgOp) (n : BitVec 2) (ok : Bool) (s : State) (hO : Moves ps s₀ s)
    (mO : ∀ p ∈ [Part.qe, .cfg, .dm], p ∈ ps) : Moves ps s₀ (cmdEnd op n ok s) := by
  refine hO.step mO ?_
  clear hO mO
  unfold cmdEnd
  repeat' first
    | with_reducible exact Moves.refl _ _ | with_reducible apply Moves.modCfg | with_reducible apply cmdView_moves
    | with_reducible apply endHalt_moves | with_reducible apply modSlotNv_moves | with_reducible apply recordFault_moves
    | with_reducible apply refreshView_moves | with_reducible decide | with_reducible apply Moves.ite | split

theorem cfgCmdDoneEffect_moves (ok : Bool) (s : State) (hO : Moves ps s₀ s)
    (mO : ∀ p ∈ [Part.moment, .qe, .cfg, .dm], p ∈ ps) : Moves ps s₀ (cfgCmdDoneEffect ok s) := by
  refine hO.step mO ?_
  clear hO mO
  unfold cfgCmdDoneEffect
  repeat' first
    | with_reducible exact Moves.refl _ _ | with_reducible apply cmdEnd_moves | with_reducible apply cmdStart_moves
    | with_reducible decide | split

theorem cfgCmdWrite_moves (w : Word) (s : State) (hO : Moves ps s₀ s)
    (mO : ∀ p ∈ [Part.moment, .cfg], p ∈ ps) : Moves ps s₀ (cfgCmdWrite w s) := by
  refine hO.step mO ?_
  clear hO mO
  unfold cfgCmdWrite
  repeat' first
    | with_reducible exact Moves.refl _ _ | with_reducible apply cmdStart_moves | with_reducible decide
    | with_reducible apply Moves.ite | split

theorem cfgWrite_moves (off : Nat) (w : Word) (s : State) (hO : Moves ps s₀ s)
    (mO : ∀ p ∈ [Part.moment, .mp, .cfg], p ∈ ps) : Moves ps s₀ (cfgWrite off w s) := by
  refine hO.step mO ?_
  clear hO mO
  unfold cfgWrite
  repeat' first
    | with_reducible exact Moves.refl _ _ | with_reducible apply Moves.modCfg | with_reducible apply cfgCmdWrite_moves
    | with_reducible apply pcpEnWriteEffect_moves | with_reducible decide | with_reducible apply Moves.ite

/-! ### Lcs -/

theorem lcsDoneEffect_moves (s : State) (hO : Moves ps s₀ s)
    (mO : ∀ p ∈ [Part.lcs], p ∈ ps) : Moves ps s₀ (lcsDoneEffect s) := by
  refine hO.step mO ?_
  clear hO mO
  unfold lcsDoneEffect
  repeat' first
    | with_reducible exact Moves.refl _ _ | with_reducible apply Moves.modLcs | with_reducible decide
    | with_reducible apply Moves.ite | split

theorem lcsStart_moves (r : Req) (op : LcsOp) (s : State) (hO : Moves ps s₀ s)
    (mO : ∀ p ∈ [Part.lcs], p ∈ ps) : Moves ps s₀ (lcsStart r op s) := by
  refine hO.step mO ?_
  clear hO mO
  unfold lcsStart
  repeat' first
    | with_reducible exact Moves.refl _ _ | with_reducible apply Moves.modLcs | with_reducible apply lcsDoneEffect_moves
    | with_reducible decide | with_reducible apply Moves.ite

theorem lcsInterrupt_moves (s : State) (hO : Moves ps s₀ s)
    (mO : ∀ p ∈ [Part.free, .lcs], p ∈ ps) : Moves ps s₀ (lcsInterrupt s) := by
  refine hO.step mO ?_
  clear hO mO
  unfold lcsInterrupt
  repeat' first
    | with_reducible exact Moves.refl _ _ | with_reducible apply Moves.freeSteps | with_reducible apply Moves.modLcs
    | with_reducible decide | with_reducible apply Moves.ite | split

theorem newChallengeEffect_moves (r : Req) (s : State) (hO : Moves ps s₀ s)
    (mO : ∀ p ∈ [Part.lcs], p ∈ ps) : Moves ps s₀ (newChallengeEffect r s) := by
  refine hO.step mO ?_
  clear hO mO
  unfold newChallengeEffect
  repeat' first
    | with_reducible exact Moves.refl _ _ | with_reducible apply Moves.modLcs | with_reducible decide
    | with_reducible apply Moves.ite

theorem challengeReadyEffect_moves (healthy : Bool) (s : State) (hO : Moves ps s₀ s)
    (mO : ∀ p ∈ [Part.free, .lcs, .qe, .dm], p ∈ ps) : Moves ps s₀ (challengeReadyEffect healthy s) := by
  refine hO.step mO ?_
  clear hO mO
  unfold challengeReadyEffect
  repeat' first
    | with_reducible exact Moves.refl _ _ | with_reducible apply Moves.freeSteps | with_reducible apply Moves.modLcs
    | with_reducible apply recordFault_moves | with_reducible decide | with_reducible apply Moves.ite

theorem verifyEffect_moves (r : Req) (s : State) (hO : Moves ps s₀ s)
    (mO : ∀ p ∈ [Part.lcs], p ∈ ps) : Moves ps s₀ (verifyEffect r s) := by
  refine hO.step mO ?_
  clear hO mO
  unfold verifyEffect
  repeat' first
    | with_reducible exact Moves.refl _ _ | with_reducible apply Moves.modLcs | with_reducible decide
    | with_reducible apply Moves.ite | split

theorem verdictEffect_moves (s : State) (hO : Moves ps s₀ s)
    (mO : ∀ p ∈ [Part.lcs], p ∈ ps) : Moves ps s₀ (verdictEffect s) := by
  refine hO.step mO ?_
  clear hO mO
  unfold verdictEffect
  repeat' first
    | with_reducible exact Moves.refl _ _ | with_reducible apply Moves.modLcs | with_reducible decide
    | with_reducible apply Moves.ite | split

theorem lockoutEndEffect_moves (s : State) (hO : Moves ps s₀ s)
    (mO : ∀ p ∈ [Part.lcs], p ∈ ps) : Moves ps s₀ (lockoutEndEffect s) := by
  refine hO.step mO ?_
  clear hO mO
  unfold lockoutEndEffect
  repeat' first
    | with_reducible exact Moves.refl _ _ | with_reducible apply Moves.modLcs | with_reducible decide
    | with_reducible apply Moves.ite

theorem lcsReset_moves (s : State) (hO : Moves ps s₀ s)
    (mO : ∀ p ∈ [Part.free, .lcs], p ∈ ps) : Moves ps s₀ (lcsReset s) := by
  refine hO.step mO ?_
  clear hO mO
  unfold lcsReset
  repeat' first
    | with_reducible exact Moves.refl _ _ | with_reducible apply Moves.modLcs | with_reducible apply lcsInterrupt_moves
    | with_reducible decide

theorem lcsReconf_moves (s : State) (hO : Moves ps s₀ s)
    (mO : ∀ p ∈ [Part.lcs], p ∈ ps) : Moves ps s₀ (lcsReconf s) := by
  refine hO.step mO ?_
  clear hO mO
  unfold lcsReconf
  repeat' first
    | with_reducible exact Moves.refl _ _ | with_reducible apply Moves.modLcs | with_reducible decide

theorem lcsLatch_moves (s : State) (hO : Moves ps s₀ s)
    (mO : ∀ p ∈ [Part.lcs], p ∈ ps) : Moves ps s₀ (lcsLatch s) := by
  refine hO.step mO ?_
  clear hO mO
  unfold lcsLatch
  repeat' first
    | with_reducible exact Moves.refl _ _ | with_reducible apply Moves.modLcs | with_reducible decide

theorem lcsTransWrite_moves (r : Req) (w : Word) (s : State) (hO : Moves ps s₀ s)
    (mO : ∀ p ∈ [Part.lcs], p ∈ ps) : Moves ps s₀ (lcsTransWrite r w s) := by
  refine hO.step mO ?_
  clear hO mO
  unfold lcsTransWrite
  repeat' first
    | with_reducible exact Moves.refl _ _ | with_reducible apply lcsStart_moves | with_reducible decide
    | with_reducible apply Moves.ite | split

theorem lcsWrite_moves (r : Req) (off : Nat) (w : Word) (s : State) (hO : Moves ps s₀ s)
    (mO : ∀ p ∈ [Part.lcs], p ∈ ps) : Moves ps s₀ (lcsWrite r off w s) := by
  refine hO.step mO ?_
  clear hO mO
  unfold lcsWrite
  repeat' first
    | with_reducible exact Moves.refl _ _ | with_reducible apply Moves.modLcs | with_reducible apply lcsTransWrite_moves
    | with_reducible apply newChallengeEffect_moves | with_reducible apply verifyEffect_moves | with_reducible decide
    | with_reducible apply Moves.ite

/-! ### Scrub -/

theorem writeLatch_moves (s : State) (x : CfgFrame) (hO : Moves ps s₀ s)
    (mO : ∀ p ∈ [Part.cfg], p ∈ ps) : Moves ps s₀ (writeLatch s x) := by
  refine hO.step mO ?_
  clear hO mO
  unfold writeLatch
  repeat' first
    | with_reducible exact Moves.refl _ _ | with_reducible apply Moves.modCfg | with_reducible decide

theorem reloadFrame_moves (s : State) (f : Word) (hO : Moves ps s₀ s)
    (mO : ∀ p ∈ [Part.cfg, .scb], p ∈ ps) : Moves ps s₀ (reloadFrame s f) := by
  refine hO.step mO ?_
  clear hO mO
  unfold reloadFrame
  repeat' first
    | with_reducible exact Moves.refl _ _ | with_reducible apply Moves.modScb | with_reducible apply writeLatch_moves
    | with_reducible decide | split

theorem scbRecord_moves (s : State) (f : FaultRec) (hO : Moves ps s₀ s)
    (mO : ∀ p ∈ [Part.qe, .scb, .dm], p ∈ ps) : Moves ps s₀ (scbRecord s f) := by
  refine hO.step mO ?_
  clear hO mO
  unfold scbRecord
  repeat' first
    | with_reducible exact Moves.refl _ _ | with_reducible apply Moves.modScb | with_reducible apply recordFault_moves
    | with_reducible decide

theorem setZone_moves (s : State) (z : Fin 8) (f : Zone → Zone) (hO : Moves ps s₀ s)
    (mO : ∀ p ∈ [Part.scb], p ∈ ps) : Moves ps s₀ (setZone s z f) := by
  refine hO.step mO ?_
  clear hO mO
  unfold setZone
  repeat' first
    | with_reducible exact Moves.refl _ _ | with_reducible apply Moves.modScb | with_reducible apply Moves.modZone
    | with_reducible decide

theorem zoneDamaged_moves (s : State) (z : Fin 8) (f : Word) (hO : Moves ps s₀ s)
    (mO : ∀ p ∈ [Part.qe, .scb, .dm], p ∈ ps) : Moves ps s₀ (zoneDamaged s z f) := by
  refine hO.step mO ?_
  clear hO mO
  unfold zoneDamaged
  repeat' first
    | with_reducible exact Moves.refl _ _ | with_reducible apply Moves.modScb | with_reducible apply scbRecord_moves
    | with_reducible apply setZone_moves | with_reducible decide

theorem staticBad_moves (s : State) (hO : Moves ps s₀ s)
    (mO : ∀ p ∈ [Part.sys, .scb], p ∈ ps) : Moves ps s₀ (staticBad s) := by
  refine hO.step mO ?_
  clear hO mO
  unfold staticBad
  repeat' first
    | with_reducible exact Moves.refl _ _ | with_reducible apply Moves.modScb | with_reducible apply Moves.modSys
    | with_reducible decide | with_reducible apply Moves.ite

theorem zoneYield_moves (z : Fin 8) (s : State) (hO : Moves ps s₀ s)
    (mO : ∀ p ∈ [Part.scb], p ∈ ps) : Moves ps s₀ (zoneYield z s) := by
  refine hO.step mO ?_
  clear hO mO
  unfold zoneYield
  repeat' first
    | with_reducible exact Moves.refl _ _ | with_reducible apply Moves.modZone | with_reducible decide
    | with_reducible apply Moves.ite | split

theorem zoneTake_moves (z : Fin 8) (f : Zone → Zone) (s : State) (hO : Moves ps s₀ s)
    (mO : ∀ p ∈ [Part.moment, .scb], p ∈ ps) : Moves ps s₀ (zoneTake z f s) := by
  refine hO.step mO ?_
  clear hO mO
  unfold zoneTake
  repeat' first
    | with_reducible exact Moves.refl _ _ | with_reducible apply Moves.modMoment | with_reducible apply Moves.modScb
    | with_reducible apply setZone_moves | with_reducible decide | with_reducible apply Moves.ite | split

theorem zoneCommand_moves (z : Fin 8) (f : Zone → Zone) (s : State) (hO : Moves ps s₀ s)
    (mO : ∀ p ∈ [Part.moment, .scb], p ∈ ps) : Moves ps s₀ (zoneCommand z f s) := by
  refine hO.step mO ?_
  clear hO mO
  unfold zoneCommand
  repeat' first
    | with_reducible exact Moves.refl _ _ | with_reducible apply Moves.modZone | with_reducible apply zoneTake_moves
    | with_reducible apply zoneYield_moves | with_reducible decide | with_reducible apply Moves.ite

theorem zoneOpenEffect_moves (z : Fin 8) (s : State) (hO : Moves ps s₀ s)
    (mO : ∀ p ∈ [Part.moment, .scb], p ∈ ps) : Moves ps s₀ (zoneOpenEffect z s) := by
  refine hO.step mO ?_
  clear hO mO
  unfold zoneOpenEffect
  repeat' first
    | with_reducible exact Moves.refl _ _ | with_reducible apply zoneCommand_moves | with_reducible decide

theorem zoneFail_moves (s : State) (z : Fin 8) (reason : BitVec 3) (hO : Moves ps s₀ s)
    (mO : ∀ p ∈ [Part.scb], p ∈ ps) : Moves ps s₀ (zoneFail s z reason) := by
  refine hO.step mO ?_
  clear hO mO
  unfold zoneFail
  repeat' first
    | with_reducible exact Moves.refl _ _ | with_reducible apply Moves.modScb | with_reducible apply setZone_moves
    | with_reducible decide

theorem zoneAbortEffect_moves (z : Fin 8) (s : State) (hO : Moves ps s₀ s)
    (mO : ∀ p ∈ [Part.scb], p ∈ ps) : Moves ps s₀ (zoneAbortEffect z s) := by
  refine hO.step mO ?_
  clear hO mO
  unfold zoneAbortEffect
  repeat' first
    | with_reducible exact Moves.refl _ _ | with_reducible apply Moves.modZone | with_reducible apply zoneFail_moves
    | with_reducible decide | with_reducible apply Moves.ite

theorem zoneRestoreEffect_moves (z : Fin 8) (s : State) (hO : Moves ps s₀ s)
    (mO : ∀ p ∈ [Part.moment, .scb], p ∈ ps) : Moves ps s₀ (zoneRestoreEffect z s) := by
  refine hO.step mO ?_
  clear hO mO
  unfold zoneRestoreEffect
  repeat' first
    | with_reducible exact Moves.refl _ _ | with_reducible apply zoneCommand_moves | with_reducible decide

theorem holdBuffer_moves (s : State) (hO : Moves ps s₀ s)
    (mO : ∀ p ∈ [Part.scb], p ∈ ps) : Moves ps s₀ (holdBuffer s) := by
  refine hO.step mO ?_
  clear hO mO
  unfold holdBuffer
  repeat' first
    | with_reducible exact Moves.refl _ _ | with_reducible apply Moves.modScb | with_reducible decide

theorem zoneFrame_moves (z : Fin 8) (fr : CfgFrame) (s : State) (hO : Moves ps s₀ s)
    (mO : ∀ p ∈ [Part.cfg, .scb], p ∈ ps) : Moves ps s₀ (zoneFrame z fr s) := by
  refine hO.step mO ?_
  clear hO mO
  unfold zoneFrame
  repeat' first
    | with_reducible exact Moves.refl _ _ | with_reducible apply Moves.modZone | with_reducible apply holdBuffer_moves
    | with_reducible apply writeLatch_moves | with_reducible apply zoneFail_moves | with_reducible decide
    | with_reducible apply Moves.ite

theorem zoneWord_moves (z : Fin 8) (w : Word) (s : State) (hO : Moves ps s₀ s)
    (mO : ∀ p ∈ [Part.cfg, .scb], p ∈ ps) : Moves ps s₀ (zoneWord z w s) := by
  refine hO.step mO ?_
  clear hO mO
  unfold zoneWord
  repeat' first
    | with_reducible exact Moves.refl _ _ | with_reducible apply Moves.modZone | with_reducible apply setZone_moves
    | with_reducible apply zoneFail_moves | with_reducible apply zoneFrame_moves | with_reducible decide
    | with_reducible apply Moves.ite | split | dsimp only

theorem zdataWriteEffect_moves (w : Word) (s : State) (hO : Moves ps s₀ s)
    (mO : ∀ p ∈ [Part.cfg, .scb], p ∈ ps) : Moves ps s₀ (zdataWriteEffect w s) := by
  refine hO.step mO ?_
  clear hO mO
  unfold zdataWriteEffect
  repeat' first
    | with_reducible exact Moves.refl _ _ | with_reducible apply zoneWord_moves | with_reducible decide | split

theorem zoneVerifyDoneEffect_moves (z : Fin 8) (s : State) (hO : Moves ps s₀ s)
    (mO : ∀ p ∈ [Part.scb], p ∈ ps) : Moves ps s₀ (zoneVerifyDoneEffect z s) := by
  refine hO.step mO ?_
  clear hO mO
  unfold zoneVerifyDoneEffect
  repeat' first
    | with_reducible exact Moves.refl _ _ | with_reducible apply Moves.modScb | with_reducible apply setZone_moves
    | with_reducible apply zoneFail_moves | with_reducible decide | with_reducible apply Moves.ite

theorem reloadRecord_moves (s : State) (z : Option (Fin 8)) (f : Word) (fails : Nat) (perm : Bool) (hO : Moves ps s₀ s)
    (mO : ∀ p ∈ [Part.qe, .scb, .dm], p ∈ ps) : Moves ps s₀ (reloadRecord s z f fails perm) := by
  refine hO.step mO ?_
  clear hO mO
  unfold reloadRecord
  repeat' first
    | with_reducible exact Moves.refl _ _ | with_reducible apply scbRecord_moves | with_reducible decide

theorem restoreAttempt_moves (s : State) (z : Fin 8) (ok : Bool) (hO : Moves ps s₀ s)
    (mO : ∀ p ∈ [Part.qe, .cfg, .scb, .dm], p ∈ ps) : Moves ps s₀ (restoreAttempt s z ok) := by
  refine hO.step mO ?_
  clear hO mO
  unfold restoreAttempt
  repeat' first
    | with_reducible exact Moves.refl _ _ | with_reducible apply Moves.modZone | with_reducible apply reloadFrame_moves
    | with_reducible apply reloadRecord_moves | with_reducible apply zoneDamaged_moves | with_reducible decide
    | with_reducible apply Moves.ite | split | dsimp only

theorem restoreRest_moves (z : Fin 8) (n : Nat) (s : State) (hO : Moves ps s₀ s)
    (mO : ∀ p ∈ [Part.qe, .cfg, .scb, .dm], p ∈ ps) : Moves ps s₀ (restoreRest z n s) := by
  induction n generalizing s with
  | zero => exact hO
  | succ n ih =>
    unfold restoreRest
    split
    · exact hO
    · split
      · exact ih _ (restoreAttempt_moves _ _ _ hO mO)
      · exact restoreAttempt_moves _ _ _ (hO.modZone (mO _ (by decide)) _ _) mO

theorem zoneRestoreDoneEffect_moves (z : Fin 8) (s : State) (hO : Moves ps s₀ s)
    (mO : ∀ p ∈ [Part.qe, .cfg, .scb, .dm], p ∈ ps) : Moves ps s₀ (zoneRestoreDoneEffect z s) := by
  refine hO.step mO ?_
  clear hO mO
  unfold zoneRestoreDoneEffect
  repeat' first
    | with_reducible exact Moves.refl _ _ | with_reducible apply Moves.modScb | with_reducible apply restoreRest_moves
    | with_reducible apply setZone_moves | with_reducible decide | with_reducible apply Moves.ite

theorem voteRecord_moves (s : State) (d0 : Word) (hO : Moves ps s₀ s)
    (mO : ∀ p ∈ [Part.qe, .scb, .dm], p ∈ ps) : Moves ps s₀ (voteRecord s d0) := by
  refine hO.step mO ?_
  clear hO mO
  unfold voteRecord
  repeat' first
    | with_reducible exact Moves.refl _ _ | with_reducible apply Moves.modScb | with_reducible apply scbRecord_moves
    | with_reducible decide

theorem passStartEffect_moves (s : State) (hO : Moves ps s₀ s)
    (mO : ∀ p ∈ [Part.qe, .scb, .dm], p ∈ ps) : Moves ps s₀ (passStartEffect s) := by
  refine hO.step mO ?_
  clear hO mO
  unfold passStartEffect
  repeat' first
    | with_reducible exact Moves.refl _ _ | with_reducible apply Moves.modScb | with_reducible apply voteRecord_moves
    | with_reducible decide | with_reducible apply Moves.ite

theorem passAdvance_moves (s : State) (f : Word) (hO : Moves ps s₀ s)
    (mO : ∀ p ∈ [Part.scb], p ∈ ps) : Moves ps s₀ (passAdvance s f) := by
  refine hO.step mO ?_
  clear hO mO
  unfold passAdvance
  repeat' first
    | with_reducible exact Moves.refl _ _ | with_reducible apply Moves.modScb | with_reducible decide

theorem passUpdate_moves (s : State) (f : Word) (hO : Moves ps s₀ s)
    (mO : ∀ p ∈ [Part.scb], p ∈ ps) : Moves ps s₀ (passUpdate s f) := by
  refine hO.step mO ?_
  clear hO mO
  unfold passUpdate
  repeat' first
    | with_reducible exact Moves.refl _ _ | with_reducible apply Moves.modScb | with_reducible decide
    | with_reducible apply Moves.ite | split

theorem scrubRepair_moves (s : State) (f : Word) (hO : Moves ps s₀ s)
    (mO : ∀ p ∈ [Part.qe, .scb, .dm], p ∈ ps) : Moves ps s₀ (scrubRepair s f) := by
  refine hO.step mO ?_
  clear hO mO
  unfold scrubRepair
  repeat' first
    | with_reducible exact Moves.refl _ _ | with_reducible apply Moves.modScb | with_reducible apply passAdvance_moves
    | with_reducible apply zoneDamaged_moves | with_reducible decide | with_reducible apply Moves.ite | split

theorem scrubFrame_moves (s : State) (f : Word) (flips : List Nat) (hO : Moves ps s₀ s)
    (mO : ∀ p ∈ [Part.qe, .cfg, .scb, .dm], p ∈ ps) : Moves ps s₀ (scrubFrame s f flips) := by
  refine hO.step mO ?_
  clear hO mO
  unfold scrubFrame
  repeat' first
    | with_reducible exact Moves.refl _ _ | with_reducible apply Moves.modScb | with_reducible apply passAdvance_moves
    | with_reducible apply passUpdate_moves | with_reducible apply scbRecord_moves
    | with_reducible apply scrubRepair_moves | with_reducible apply writeLatch_moves | with_reducible decide
    | with_reducible apply Moves.ite | split

theorem frameScrubEffect_moves (flips : List Nat) (s : State) (hO : Moves ps s₀ s)
    (mO : ∀ p ∈ [Part.moment, .qe, .cfg, .scb, .dm], p ∈ ps) : Moves ps s₀ (frameScrubEffect flips s) := by
  refine hO.step mO ?_
  clear hO mO
  unfold frameScrubEffect
  repeat' first
    | with_reducible exact Moves.refl _ _ | with_reducible apply Moves.modMoment | with_reducible apply scrubFrame_moves
    | with_reducible decide | with_reducible apply Moves.ite | split

theorem reloadVerified_moves (s : State) (r : Reload) (hO : Moves ps s₀ s)
    (mO : ∀ p ∈ [Part.qe, .cfg, .scb, .dm], p ∈ ps) : Moves ps s₀ (reloadVerified s r) := by
  refine hO.step mO ?_
  clear hO mO
  unfold reloadVerified
  repeat' first
    | with_reducible exact Moves.refl _ _ | with_reducible apply passAdvance_moves
    | with_reducible apply passUpdate_moves | with_reducible apply reloadFrame_moves
    | with_reducible apply reloadRecord_moves | with_reducible decide | with_reducible apply Moves.ite

theorem reloadLost_moves (s : State) (r : Reload) (hO : Moves ps s₀ s)
    (mO : ∀ p ∈ [Part.sys, .qe, .scb, .dm], p ∈ ps) : Moves ps s₀ (reloadLost s r) := by
  refine hO.step mO ?_
  clear hO mO
  unfold reloadLost
  repeat' first
    | with_reducible exact Moves.refl _ _ | with_reducible apply Moves.modScb | with_reducible apply passAdvance_moves
    | with_reducible apply passUpdate_moves | with_reducible apply reloadRecord_moves
    | with_reducible apply scbRecord_moves | with_reducible apply staticBad_moves
    | with_reducible apply zoneDamaged_moves | with_reducible decide | split

theorem reloadAttemptEffect_moves (ok : Bool) (s : State) (hO : Moves ps s₀ s)
    (mO : ∀ p ∈ [Part.sys, .qe, .cfg, .scb, .dm], p ∈ ps) : Moves ps s₀ (reloadAttemptEffect ok s) := by
  refine hO.step mO ?_
  clear hO mO
  unfold reloadAttemptEffect
  repeat' first
    | with_reducible exact Moves.refl _ _ | with_reducible apply Moves.modScb | with_reducible apply reloadLost_moves
    | with_reducible apply reloadVerified_moves | with_reducible apply restoreAttempt_moves | with_reducible decide
    | with_reducible apply Moves.ite | split

theorem checkImage_moves (s : State) (hO : Moves ps s₀ s)
    (mO : ∀ p ∈ [Part.sys, .qe, .scb, .dm], p ∈ ps) : Moves ps s₀ (checkImage s) := by
  refine hO.step mO ?_
  clear hO mO
  unfold checkImage
  repeat' first
    | with_reducible exact Moves.refl _ _ | with_reducible apply Moves.modScb | with_reducible apply scbRecord_moves
    | with_reducible apply staticBad_moves | with_reducible decide | with_reducible apply Moves.ite | split

theorem checkZone_moves (s : State) (z : Fin 8) (hO : Moves ps s₀ s)
    (mO : ∀ p ∈ [Part.qe, .scb, .dm], p ∈ ps) : Moves ps s₀ (checkZone s z) := by
  refine hO.step mO ?_
  clear hO mO
  unfold checkZone
  repeat' first
    | with_reducible exact Moves.refl _ _ | with_reducible apply Moves.modScb | with_reducible apply zoneDamaged_moves
    | with_reducible decide | with_reducible apply Moves.ite

theorem passEndEffect_moves (s : State) (hO : Moves ps s₀ s)
    (mO : ∀ p ∈ [Part.sys, .qe, .scb, .dm], p ∈ ps) : Moves ps s₀ (passEndEffect s) := by
  refine hO.step mO ?_
  clear hO mO
  unfold passEndEffect
  repeat' first
    | with_reducible exact Moves.refl _ _ | with_reducible apply Moves.modScb | with_reducible apply checkImage_moves
    | with_reducible apply checkZone_moves | with_reducible apply Moves.each | with_reducible decide
    | with_reducible apply Moves.ite | split | dsimp only | intro _ _ _ | with_reducible assumption

theorem voteCorrectionEffect_moves (what : VoteTarget) (s : State) (hO : Moves ps s₀ s)
    (mO : ∀ p ∈ [Part.qe, .scb, .dm], p ∈ ps) : Moves ps s₀ (voteCorrectionEffect what s) := by
  refine hO.step mO ?_
  clear hO mO
  unfold voteCorrectionEffect
  repeat' first
    | with_reducible exact Moves.refl _ _ | with_reducible apply Moves.modScb | with_reducible apply voteRecord_moves
    | with_reducible decide | split

theorem saveEffect_moves (s : State) (hO : Moves ps s₀ s)
    (mO : ∀ p ∈ [Part.moment, .scb], p ∈ ps) : Moves ps s₀ (saveEffect s) := by
  refine hO.step mO ?_
  clear hO mO
  unfold saveEffect
  repeat' first
    | with_reducible exact Moves.refl _ _ | with_reducible apply Moves.modScb | with_reducible apply noteRetry_moves
    | with_reducible decide | with_reducible apply Moves.ite

theorem saveDoneEffect_moves (s : State) (hO : Moves ps s₀ s)
    (mO : ∀ p ∈ [Part.moment, .cfg, .scb], p ∈ ps) : Moves ps s₀ (saveDoneEffect s) := by
  refine hO.step mO ?_
  clear hO mO
  unfold saveDoneEffect
  repeat' first
    | with_reducible exact Moves.refl _ _ | with_reducible apply Moves.modCfg | with_reducible apply Moves.modMoment
    | with_reducible apply Moves.modScb | with_reducible apply saveEffect_moves | with_reducible decide
    | with_reducible apply Moves.ite | split

theorem scrubIdle_moves (s : State) (hO : Moves ps s₀ s)
    (mO : ∀ p ∈ [Part.moment, .scb], p ∈ ps) : Moves ps s₀ (scrubIdle s) := by
  refine hO.step mO ?_
  clear hO mO
  unfold scrubIdle
  repeat' first
    | with_reducible exact Moves.refl _ _ | with_reducible apply Moves.modMoment | with_reducible apply Moves.modScb
    | with_reducible decide

theorem scrubHalt_moves (s : State) (hO : Moves ps s₀ s)
    (mO : ∀ p ∈ [Part.moment, .scb], p ∈ ps) : Moves ps s₀ (scrubHalt s) := by
  refine hO.step mO ?_
  clear hO mO
  unfold scrubHalt
  repeat' first
    | with_reducible exact Moves.refl _ _ | with_reducible apply Moves.modScb | with_reducible apply scrubIdle_moves
    | with_reducible decide

theorem scrubRelease_moves (s : State) (hO : Moves ps s₀ s)
    (mO : ∀ p ∈ [Part.moment, .scb], p ∈ ps) : Moves ps s₀ (scrubRelease s) := by
  refine hO.step mO ?_
  clear hO mO
  unfold scrubRelease
  repeat' first
    | with_reducible exact Moves.refl _ _ | with_reducible apply Moves.modScb | with_reducible apply scrubHalt_moves
    | with_reducible apply scrubIdle_moves | with_reducible decide | with_reducible apply Moves.ite | split

theorem zcmdWrite_moves (z : Fin 8) (w : Word) (s : State) (hO : Moves ps s₀ s)
    (mO : ∀ p ∈ [Part.moment, .scb], p ∈ ps) : Moves ps s₀ (zcmdWrite z w s) := by
  refine hO.step mO ?_
  clear hO mO
  unfold zcmdWrite
  repeat' first
    | with_reducible exact Moves.refl _ _ | with_reducible apply zoneAbortEffect_moves
    | with_reducible apply zoneOpenEffect_moves | with_reducible apply zoneRestoreEffect_moves | with_reducible decide
    | with_reducible apply Moves.ite | split

theorem scbWrite_moves (r : Req) (off : Nat) (w : Word) (s : State) (hO : Moves ps s₀ s)
    (mO : ∀ p ∈ [Part.moment, .cfg, .scb], p ∈ ps) : Moves ps s₀ (scbWrite r off w s) := by
  refine hO.step mO ?_
  clear hO mO
  unfold scbWrite
  repeat' first
    | with_reducible exact Moves.refl _ _ | with_reducible apply Moves.modScb | with_reducible apply saveEffect_moves
    | with_reducible apply zcmdWrite_moves | with_reducible apply zdataWriteEffect_moves | with_reducible decide
    | with_reducible apply Moves.ite

/-! ### Uart -/

theorem uaDiscard_moves (s : State) (n : Fin 18) (hO : Moves ps s₀ s)
    (mO : ∀ p ∈ [Part.ua], p ∈ ps) : Moves ps s₀ (uaDiscard s n) := by
  refine hO.step mO ?_
  clear hO mO
  unfold uaDiscard
  repeat' first
    | with_reducible exact Moves.refl _ _ | with_reducible apply Moves.modUa | with_reducible decide

theorem uaRxRead_moves (s : State) (n : Fin 18) (hO : Moves ps s₀ s)
    (mO : ∀ p ∈ [Part.ua], p ∈ ps) : Moves ps s₀ (uaRxRead s n).2 := by
  refine hO.step mO ?_
  clear hO mO
  unfold uaRxRead
  repeat' first
    | with_reducible exact Moves.refl _ _ | with_reducible apply Moves.modUa | with_reducible decide | split

theorem uaSample_moves (n : Fin 18) (level : Bool) (s : State) (hO : Moves ps s₀ s)
    (mO : ∀ p ∈ [Part.ua], p ∈ ps) : Moves ps s₀ (uaSample n level s) := by
  refine hO.step mO ?_
  clear hO mO
  unfold uaSample
  repeat' first
    | with_reducible exact Moves.refl _ _ | with_reducible apply Moves.modUa | with_reducible decide

theorem characterReceiveEffect_moves (n : Fin 18) (rx : UaSamples) (s : State) (hO : Moves ps s₀ s)
    (mO : ∀ p ∈ [Part.ua], p ∈ ps) : Moves ps s₀ (characterReceiveEffect n rx s) := by
  refine hO.step mO ?_
  clear hO mO
  unfold characterReceiveEffect
  repeat' first
    | with_reducible exact Moves.refl _ _ | with_reducible apply uaSample_moves | with_reducible apply Moves.each
    | with_reducible decide | with_reducible apply Moves.ite | split | dsimp only | intro _ _ _
    | with_reducible assumption

theorem characterTransmitEffect_moves (n : Fin 18) (s : State) (hO : Moves ps s₀ s)
    (mO : ∀ p ∈ [Part.ua], p ∈ ps) : Moves ps s₀ (characterTransmitEffect n s) := by
  refine hO.step mO ?_
  clear hO mO
  unfold characterTransmitEffect
  repeat' first
    | with_reducible exact Moves.refl _ _ | with_reducible apply Moves.modUa | with_reducible apply uaDiscard_moves
    | with_reducible decide | with_reducible apply Moves.ite

theorem uaTxWriteEffect_moves (n : Fin 18) (c : BitVec 9) (s : State) (hO : Moves ps s₀ s)
    (mO : ∀ p ∈ [Part.ua], p ∈ ps) : Moves ps s₀ (uaTxWriteEffect n c s) := by
  refine hO.step mO ?_
  clear hO mO
  unfold uaTxWriteEffect
  repeat' first
    | with_reducible exact Moves.refl _ _ | with_reducible apply Moves.modUa
    | with_reducible apply characterTransmitEffect_moves | with_reducible decide | with_reducible apply Moves.ite

theorem breakEffect_moves (n : Fin 18) (v : Bool) (s : State) (hO : Moves ps s₀ s)
    (mO : ∀ p ∈ [Part.ua], p ∈ ps) : Moves ps s₀ (breakEffect n v s) := by
  refine hO.step mO ?_
  clear hO mO
  unfold breakEffect
  repeat' first
    | with_reducible exact Moves.refl _ _ | with_reducible apply Moves.modUa | with_reducible decide

theorem irPulseEffect_moves (n : Fin 18) (s : State) (hO : Moves ps s₀ s)
    (mO : ∀ p ∈ [Part.ua], p ∈ ps) : Moves ps s₀ (irPulseEffect n s) := by
  refine hO.step mO ?_
  clear hO mO
  unfold irPulseEffect
  repeat' first
    | with_reducible exact Moves.refl _ _ | with_reducible apply Moves.modUa | with_reducible decide
    | with_reducible apply Moves.ite

theorem irFloodEffect_moves (n : Fin 18) (s : State) (hO : Moves ps s₀ s)
    (mO : ∀ p ∈ [Part.ua], p ∈ ps) : Moves ps s₀ (irFloodEffect n s) := by
  refine hO.step mO ?_
  clear hO mO
  unfold irFloodEffect
  repeat' first
    | with_reducible exact Moves.refl _ _ | with_reducible apply Moves.modUa | with_reducible decide
    | with_reducible apply Moves.ite

theorem quietExitEffect_moves (n : Fin 18) (s : State) (hO : Moves ps s₀ s)
    (mO : ∀ p ∈ [Part.ua], p ∈ ps) : Moves ps s₀ (quietExitEffect n s) := by
  refine hO.step mO ?_
  clear hO mO
  unfold quietExitEffect
  repeat' first
    | with_reducible exact Moves.refl _ _ | with_reducible apply Moves.modUa | with_reducible decide

theorem uaRxFlushEffect_moves (n : Fin 18) (s : State) (hO : Moves ps s₀ s)
    (mO : ∀ p ∈ [Part.ua], p ∈ ps) : Moves ps s₀ (uaRxFlushEffect n s) := by
  refine hO.step mO ?_
  clear hO mO
  unfold uaRxFlushEffect
  repeat' first
    | with_reducible exact Moves.refl _ _ | with_reducible apply Moves.modUa | with_reducible decide

theorem uaTxFlushEffect_moves (n : Fin 18) (s : State) (hO : Moves ps s₀ s)
    (mO : ∀ p ∈ [Part.ua], p ∈ ps) : Moves ps s₀ (uaTxFlushEffect n s) := by
  refine hO.step mO ?_
  clear hO mO
  unfold uaTxFlushEffect
  repeat' first
    | with_reducible exact Moves.refl _ _ | with_reducible apply Moves.modUa | with_reducible decide

theorem uaCntClearEffect_moves (n : Fin 18) (s : State) (hO : Moves ps s₀ s)
    (mO : ∀ p ∈ [Part.ua], p ∈ ps) : Moves ps s₀ (uaCntClearEffect n s) := by
  refine hO.step mO ?_
  clear hO mO
  unfold uaCntClearEffect
  repeat' first
    | with_reducible exact Moves.refl _ _ | with_reducible apply Moves.modUa | with_reducible decide

theorem uaCut_moves (s : State) (n : Fin 18) (hO : Moves ps s₀ s)
    (mO : ∀ p ∈ [Part.ua], p ∈ ps) : Moves ps s₀ (uaCut s n) := by
  refine hO.step mO ?_
  clear hO mO
  unfold uaCut
  repeat' first
    | with_reducible exact Moves.refl _ _ | with_reducible apply Moves.modUa | with_reducible apply uaDiscard_moves
    | with_reducible decide | with_reducible apply Moves.ite

theorem uaRouteEffect_moves (n : Fin 18) (pins loop : Bool) (s : State) (hO : Moves ps s₀ s)
    (mO : ∀ p ∈ [Part.ua], p ∈ ps) : Moves ps s₀ (uaRouteEffect n pins loop s) := by
  refine hO.step mO ?_
  clear hO mO
  unfold uaRouteEffect
  repeat' first
    | with_reducible exact Moves.refl _ _ | with_reducible apply Moves.modUa | with_reducible apply uaCut_moves
    | with_reducible decide | with_reducible apply Moves.ite

theorem capSerWrite_moves (c : Fin 16) (w : Word) (s : State) (hO : Moves ps s₀ s)
    (mO : ∀ p ∈ [Part.cap, .ua], p ∈ ps) : Moves ps s₀ (capSerWrite c w s) := by
  refine hO.step mO ?_
  clear hO mO
  unfold capSerWrite
  repeat' first
    | with_reducible exact Moves.refl _ _ | with_reducible apply Moves.modCap | with_reducible apply uaCut_moves
    | with_reducible apply Moves.each | with_reducible decide | dsimp only | intro _ _ _ | with_reducible assumption

theorem uaCommitEffect_moves (n : Fin 18) (s : State) (hO : Moves ps s₀ s)
    (mO : ∀ p ∈ [Part.ua], p ∈ ps) : Moves ps s₀ (uaCommitEffect n s) := by
  refine hO.step mO ?_
  clear hO mO
  unfold uaCommitEffect
  repeat' first
    | with_reducible exact Moves.refl _ _ | with_reducible apply Moves.modUa | with_reducible apply uaCut_moves
    | with_reducible decide | with_reducible apply Moves.ite

theorem uaWrite_moves (n : Fin 18) (off : Nat) (w : Word) (s : State) (hO : Moves ps s₀ s)
    (mO : ∀ p ∈ [Part.ua], p ∈ ps) : Moves ps s₀ (uaWrite n off w s) := by
  refine hO.step mO ?_
  clear hO mO
  unfold uaWrite
  repeat' first
    | with_reducible exact Moves.refl _ _ | with_reducible apply Moves.modUa | with_reducible apply breakEffect_moves
    | with_reducible apply uaCntClearEffect_moves | with_reducible apply uaRouteEffect_moves
    | with_reducible apply uaRxFlushEffect_moves | with_reducible apply uaTxFlushEffect_moves
    | with_reducible apply uaTxWriteEffect_moves | with_reducible decide | with_reducible apply Moves.ite | split

/-! ### Spi -/

theorem spcStartEffect_moves (k : BitVec 2) (m : Fin 2) (s : State) (hO : Moves ps s₀ s)
    (mO : ∀ p ∈ [Part.spc], p ∈ ps) : Moves ps s₀ (spcStartEffect k m s) := by
  refine hO.step mO ?_
  clear hO mO
  unfold spcStartEffect
  repeat' first
    | with_reducible exact Moves.refl _ _ | with_reducible apply Moves.modSpc | with_reducible decide
    | with_reducible apply Moves.ite | split

theorem masterByteEffect_moves (m : Fin 2) (miso : SpiBits) (s : State) (hO : Moves ps s₀ s)
    (mO : ∀ p ∈ [Part.spc], p ∈ ps) : Moves ps s₀ (masterByteEffect m miso s) := by
  refine hO.step mO ?_
  clear hO mO
  unfold masterByteEffect
  repeat' first
    | with_reducible exact Moves.refl _ _ | with_reducible apply Moves.modSpc | with_reducible decide

theorem spcCmdWriteEffect_moves (m : Fin 2) (w : Word) (s : State) (hO : Moves ps s₀ s)
    (mO : ∀ p ∈ [Part.spc], p ∈ ps) : Moves ps s₀ (spcCmdWriteEffect m w s) := by
  refine hO.step mO ?_
  clear hO mO
  unfold spcCmdWriteEffect
  repeat' first
    | with_reducible exact Moves.refl _ _ | with_reducible apply Moves.modSpc | with_reducible decide

theorem modeFaultEffect_moves (m : Fin 2) (s : State) (hO : Moves ps s₀ s)
    (mO : ∀ p ∈ [Part.spc], p ∈ ps) : Moves ps s₀ (modeFaultEffect m s) := by
  refine hO.step mO ?_
  clear hO mO
  unfold modeFaultEffect
  repeat' first
    | with_reducible exact Moves.refl _ _ | with_reducible apply Moves.modSpc | with_reducible decide
    | with_reducible apply Moves.ite

theorem spcAbortEffect_moves (m : Fin 2) (s : State) (hO : Moves ps s₀ s)
    (mO : ∀ p ∈ [Part.spc], p ∈ ps) : Moves ps s₀ (spcAbortEffect m s) := by
  refine hO.step mO ?_
  clear hO mO
  unfold spcAbortEffect
  repeat' first
    | with_reducible exact Moves.refl _ _ | with_reducible apply Moves.modSpc | with_reducible decide

theorem resumeEffect_moves (m : Fin 2) (s : State) (hO : Moves ps s₀ s)
    (mO : ∀ p ∈ [Part.spc], p ∈ ps) : Moves ps s₀ (resumeEffect m s) := by
  refine hO.step mO ?_
  clear hO mO
  unfold resumeEffect
  repeat' first
    | with_reducible exact Moves.refl _ _ | with_reducible apply Moves.modSpc | with_reducible decide
    | with_reducible apply Moves.ite

theorem slaveChoose_moves (s : State) (m : Fin 2) (hO : Moves ps s₀ s)
    (mO : ∀ p ∈ [Part.free, .spc], p ∈ ps) : Moves ps s₀ (slaveChoose s m) := by
  refine hO.step mO ?_
  clear hO mO
  unfold slaveChoose
  repeat' first
    | with_reducible exact Moves.refl _ _ | with_reducible apply Moves.freeStep | with_reducible apply Moves.modSpc
    | with_reducible decide | with_reducible apply Moves.ite | split | dsimp only

theorem slaveStartEffect_moves (m : Fin 2) (s : State) (hO : Moves ps s₀ s)
    (mO : ∀ p ∈ [Part.free, .spc], p ∈ ps) : Moves ps s₀ (slaveStartEffect m s) := by
  refine hO.step mO ?_
  clear hO mO
  unfold slaveStartEffect
  repeat' first
    | with_reducible exact Moves.refl _ _ | with_reducible apply Moves.modSpc | with_reducible apply slaveChoose_moves
    | with_reducible decide | with_reducible apply Moves.ite

theorem slaveByteEffect_moves (m : Fin 2) (mosi : SpiBits) (s : State) (hO : Moves ps s₀ s)
    (mO : ∀ p ∈ [Part.free, .spc], p ∈ ps) : Moves ps s₀ (slaveByteEffect m mosi s) := by
  refine hO.step mO ?_
  clear hO mO
  unfold slaveByteEffect
  repeat' first
    | with_reducible exact Moves.refl _ _ | with_reducible apply Moves.modSpc | with_reducible apply slaveChoose_moves
    | with_reducible decide | with_reducible apply Moves.ite

theorem slaveEndEffect_moves (m : Fin 2) (bits : Nat) (s : State) (hO : Moves ps s₀ s)
    (mO : ∀ p ∈ [Part.spc], p ∈ ps) : Moves ps s₀ (slaveEndEffect m bits s) := by
  refine hO.step mO ?_
  clear hO mO
  unfold slaveEndEffect
  repeat' first
    | with_reducible exact Moves.refl _ _ | with_reducible apply Moves.modSpc | with_reducible decide
    | with_reducible apply Moves.ite

theorem spcTxWrite_moves (m : Fin 2) (bs : List Byte) (s : State) (hO : Moves ps s₀ s)
    (mO : ∀ p ∈ [Part.spc], p ∈ ps) : Moves ps s₀ (spcTxWrite m bs s) := by
  refine hO.step mO ?_
  clear hO mO
  unfold spcTxWrite
  repeat' first
    | with_reducible exact Moves.refl _ _ | with_reducible apply Moves.modSpc | with_reducible decide

theorem spcRxRead_moves (s : State) (m : Fin 2) (hO : Moves ps s₀ s)
    (mO : ∀ p ∈ [Part.spc], p ∈ ps) : Moves ps s₀ (spcRxRead s m).2 := by
  refine hO.step mO ?_
  clear hO mO
  unfold spcRxRead
  repeat' first
    | with_reducible exact Moves.refl _ _ | with_reducible apply Moves.modSpc | with_reducible decide
    | with_reducible apply Moves.ite | split

theorem spcRxFlushEffect_moves (m : Fin 2) (s : State) (hO : Moves ps s₀ s)
    (mO : ∀ p ∈ [Part.spc], p ∈ ps) : Moves ps s₀ (spcRxFlushEffect m s) := by
  refine hO.step mO ?_
  clear hO mO
  unfold spcRxFlushEffect
  repeat' first
    | with_reducible exact Moves.refl _ _ | with_reducible apply Moves.modSpc | with_reducible decide

theorem spcTxFlushEffect_moves (m : Fin 2) (s : State) (hO : Moves ps s₀ s)
    (mO : ∀ p ∈ [Part.spc], p ∈ ps) : Moves ps s₀ (spcTxFlushEffect m s) := by
  refine hO.step mO ?_
  clear hO mO
  unfold spcTxFlushEffect
  repeat' first
    | with_reducible exact Moves.refl _ _ | with_reducible apply Moves.modSpc | with_reducible decide

theorem spcCntClearEffect_moves (m : Fin 2) (s : State) (hO : Moves ps s₀ s)
    (mO : ∀ p ∈ [Part.spc], p ∈ ps) : Moves ps s₀ (spcCntClearEffect m s) := by
  refine hO.step mO ?_
  clear hO mO
  unfold spcCntClearEffect
  repeat' first
    | with_reducible exact Moves.refl _ _ | with_reducible apply Moves.modSpc | with_reducible decide

theorem spcCommitEffect_moves (m : Fin 2) (s : State) (hO : Moves ps s₀ s)
    (mO : ∀ p ∈ [Part.spc], p ∈ ps) : Moves ps s₀ (spcCommitEffect m s) := by
  refine hO.step mO ?_
  clear hO mO
  unfold spcCommitEffect
  repeat' first
    | with_reducible exact Moves.refl _ _ | with_reducible apply Moves.modSpc | with_reducible decide
    | with_reducible apply Moves.ite

theorem spcWrite_moves (m : Fin 2) (off : Nat) (w : Word) (s : State) (hO : Moves ps s₀ s)
    (mO : ∀ p ∈ [Part.spc], p ∈ ps) : Moves ps s₀ (spcWrite m off w s) := by
  refine hO.step mO ?_
  clear hO mO
  unfold spcWrite
  repeat' first
    | with_reducible exact Moves.refl _ _ | with_reducible apply Moves.modSpc | with_reducible apply resumeEffect_moves
    | with_reducible apply spcAbortEffect_moves | with_reducible apply spcCmdWriteEffect_moves
    | with_reducible apply spcCntClearEffect_moves | with_reducible apply spcRxFlushEffect_moves
    | with_reducible apply spcTxFlushEffect_moves | with_reducible apply spcTxWrite_moves | with_reducible decide
    | with_reducible apply Moves.ite | split

/-! ### Pins -/

theorem pioPinWrite_moves (p : Fin 96) (w : Word) (s : State) (hO : Moves ps s₀ s)
    (mO : ∀ p ∈ [Part.pio], p ∈ ps) : Moves ps s₀ (pioPinWrite p w s) := by
  refine hO.step mO ?_
  clear hO mO
  unfold pioPinWrite
  repeat' first
    | with_reducible exact Moves.refl _ _ | with_reducible apply Moves.modPio | with_reducible decide

theorem pioSetEffect_moves (b : Fin 6) (m : BitVec 16) (s : State) (hO : Moves ps s₀ s)
    (mO : ∀ p ∈ [Part.pio], p ∈ ps) : Moves ps s₀ (pioSetEffect b m s) := by
  refine hO.step mO ?_
  clear hO mO
  unfold pioSetEffect
  repeat' first
    | with_reducible exact Moves.refl _ _ | with_reducible apply Moves.modPio | with_reducible decide

theorem pioClrEffect_moves (b : Fin 6) (m : BitVec 16) (s : State) (hO : Moves ps s₀ s)
    (mO : ∀ p ∈ [Part.pio], p ∈ ps) : Moves ps s₀ (pioClrEffect b m s) := by
  refine hO.step mO ?_
  clear hO mO
  unfold pioClrEffect
  repeat' first
    | with_reducible exact Moves.refl _ _ | with_reducible apply Moves.modPio | with_reducible decide

theorem pioRelease_moves (s : State) (hO : Moves ps s₀ s)
    (mO : ∀ p ∈ [Part.pio], p ∈ ps) : Moves ps s₀ (pioRelease s) := by
  refine hO.step mO ?_
  clear hO mO
  unfold pioRelease
  repeat' first
    | with_reducible exact Moves.refl _ _ | with_reducible apply Moves.modPio | with_reducible decide

theorem pilCfgEffect_moves (k : Fin 16) (v : Word) (s : State) (hO : Moves ps s₀ s)
    (mO : ∀ p ∈ [Part.pio], p ∈ ps) : Moves ps s₀ (pilCfgEffect k v s) := by
  refine hO.step mO ?_
  clear hO mO
  unfold pilCfgEffect
  repeat' first
    | with_reducible exact Moves.refl _ _ | with_reducible apply Moves.modPil | with_reducible decide

theorem pilInput_moves (k : Fin 16) (level : Bool) (s : State) (hO : Moves ps s₀ s)
    (mO : ∀ p ∈ [Part.pio], p ∈ ps) : Moves ps s₀ (pilInput k level s) := by
  refine hO.step mO ?_
  clear hO mO
  unfold pilInput
  repeat' first
    | with_reducible exact Moves.refl _ _ | with_reducible apply Moves.modPil | with_reducible decide
    | with_reducible apply Moves.ite

theorem pilAccept_moves (k : Fin 16) (s : State) (hO : Moves ps s₀ s)
    (mO : ∀ p ∈ [Part.pio], p ∈ ps) : Moves ps s₀ (pilAccept k s) := by
  refine hO.step mO ?_
  clear hO mO
  unfold pilAccept
  repeat' first
    | with_reducible exact Moves.refl _ _ | with_reducible apply Moves.modPil | with_reducible apply Moves.modPio
    | with_reducible decide | with_reducible apply Moves.ite

theorem pilEdgeEffect_moves (k : Fin 16) (level : Bool) (s : State) (hO : Moves ps s₀ s)
    (mO : ∀ p ∈ [Part.pio], p ∈ ps) : Moves ps s₀ (pilEdgeEffect k level s) := by
  refine hO.step mO ?_
  clear hO mO
  unfold pilEdgeEffect
  repeat' first
    | with_reducible exact Moves.refl _ _ | with_reducible apply pilAccept_moves | with_reducible apply pilInput_moves
    | with_reducible decide | with_reducible apply Moves.ite

theorem pilTickEnd_moves (s : State) (k : Fin 16) (hO : Moves ps s₀ s)
    (mO : ∀ p ∈ [Part.pio], p ∈ ps) : Moves ps s₀ (pilTickEnd s k) := by
  refine hO.step mO ?_
  clear hO mO
  unfold pilTickEnd
  repeat' first
    | with_reducible exact Moves.refl _ _ | with_reducible apply Moves.modPil | with_reducible apply pilInput_moves
    | with_reducible decide | with_reducible apply Moves.ite

theorem pioTickEnd_moves (s : State) (hO : Moves ps s₀ s)
    (mO : ∀ p ∈ [Part.pio], p ∈ ps) : Moves ps s₀ (pioTickEnd s) := by
  refine hO.step mO ?_
  clear hO mO
  unfold pioTickEnd
  repeat' first
    | with_reducible exact Moves.refl _ _ | with_reducible apply Moves.modPio | with_reducible apply pilTickEnd_moves
    | with_reducible apply Moves.each | with_reducible decide | with_reducible apply Moves.ite | split | dsimp only
    | intro _ _ _ | with_reducible assumption

theorem pioCntClearEffect_moves (s : State) (hO : Moves ps s₀ s)
    (mO : ∀ p ∈ [Part.pio], p ∈ ps) : Moves ps s₀ (pioCntClearEffect s) := by
  refine hO.step mO ?_
  clear hO mO
  unfold pioCntClearEffect
  repeat' first
    | with_reducible exact Moves.refl _ _ | with_reducible apply Moves.modPio | with_reducible decide

theorem pioWrite_moves (off : Nat) (w : Word) (s : State) (hO : Moves ps s₀ s)
    (mO : ∀ p ∈ [Part.pio], p ∈ ps) : Moves ps s₀ (pioWrite off w s) := by
  refine hO.step mO ?_
  clear hO mO
  unfold pioWrite
  repeat' first
    | with_reducible exact Moves.refl _ _ | with_reducible apply Moves.modPio | with_reducible apply pilCfgEffect_moves
    | with_reducible apply pioClrEffect_moves | with_reducible apply pioCntClearEffect_moves
    | with_reducible apply pioPinWrite_moves | with_reducible apply pioSetEffect_moves | with_reducible decide
    | with_reducible apply Moves.ite | split

theorem adcScanDone_moves (s : State) (hO : Moves ps s₀ s)
    (mO : ∀ p ∈ [Part.adc], p ∈ ps) : Moves ps s₀ (adcScanDone s) := by
  refine hO.step mO ?_
  clear hO mO
  unfold adcScanDone
  repeat' first
    | with_reducible exact Moves.refl _ _ | with_reducible apply Moves.modAdc | with_reducible decide

theorem adcChannel_moves (s : State) (c : Nat) (hO : Moves ps s₀ s)
    (mO : ∀ p ∈ [Part.adc], p ∈ ps) : Moves ps s₀ (adcChannel s c) := by
  refine hO.step mO ?_
  clear hO mO
  unfold adcChannel
  repeat' first
    | with_reducible exact Moves.refl _ _ | with_reducible apply Moves.modAdc | with_reducible apply adcScanDone_moves
    | with_reducible decide | split

theorem adcStart_moves (s : State) (hO : Moves ps s₀ s)
    (mO : ∀ p ∈ [Part.adc], p ∈ ps) : Moves ps s₀ (adcStart s) := by
  refine hO.step mO ?_
  clear hO mO
  unfold adcStart
  repeat' first
    | with_reducible exact Moves.refl _ _ | with_reducible apply Moves.modAdc | with_reducible apply adcChannel_moves
    | with_reducible decide

theorem hkadcStartEffect_moves (s : State) (hO : Moves ps s₀ s)
    (mO : ∀ p ∈ [Part.moment, .adc], p ∈ ps) : Moves ps s₀ (hkadcStartEffect s) := by
  refine hO.step mO ?_
  clear hO mO
  unfold hkadcStartEffect
  repeat' first
    | with_reducible exact Moves.refl _ _ | with_reducible apply adcStart_moves | with_reducible apply noteRetry_moves
    | with_reducible decide | with_reducible apply Moves.ite

theorem scanPeriodEffect_moves (s : State) (hO : Moves ps s₀ s)
    (mO : ∀ p ∈ [Part.adc], p ∈ ps) : Moves ps s₀ (scanPeriodEffect s) := by
  refine hO.step mO ?_
  clear hO mO
  unfold scanPeriodEffect
  repeat' first
    | with_reducible exact Moves.refl _ _ | with_reducible apply Moves.modAdc | with_reducible apply adcStart_moves
    | with_reducible decide | with_reducible apply Moves.ite

theorem adcNextScan_moves (s : State) (hO : Moves ps s₀ s)
    (mO : ∀ p ∈ [Part.adc], p ∈ ps) : Moves ps s₀ (adcNextScan s) := by
  refine hO.step mO ?_
  clear hO mO
  unfold adcNextScan
  repeat' first
    | with_reducible exact Moves.refl _ _ | with_reducible apply adcStart_moves | with_reducible decide
    | with_reducible apply Moves.ite

theorem channelResultEffect_moves (codes : List (BitVec 12)) (s : State) (hO : Moves ps s₀ s)
    (mO : ∀ p ∈ [Part.adc], p ∈ ps) : Moves ps s₀ (channelResultEffect codes s) := by
  refine hO.step mO ?_
  clear hO mO
  unfold channelResultEffect
  repeat' first
    | with_reducible exact Moves.refl _ _ | with_reducible apply Moves.modAdc | with_reducible apply adcChannel_moves
    | with_reducible apply adcNextScan_moves | with_reducible decide | with_reducible apply Moves.ite

theorem hkadcCommitEffect_moves (s : State) (hO : Moves ps s₀ s)
    (mO : ∀ p ∈ [Part.adc], p ∈ ps) : Moves ps s₀ (hkadcCommitEffect s) := by
  refine hO.step mO ?_
  clear hO mO
  unfold hkadcCommitEffect
  repeat' first
    | with_reducible exact Moves.refl _ _ | with_reducible apply Moves.modAdc | with_reducible apply adcChannel_moves
    | with_reducible apply adcStart_moves | with_reducible decide | with_reducible apply Moves.ite

theorem adcWrite_moves (off : Nat) (w : Word) (s : State) (hO : Moves ps s₀ s)
    (mO : ∀ p ∈ [Part.moment, .adc], p ∈ ps) : Moves ps s₀ (adcWrite off w s) := by
  refine hO.step mO ?_
  clear hO mO
  unfold adcWrite
  repeat' first
    | with_reducible exact Moves.refl _ _ | with_reducible apply Moves.modAdc
    | with_reducible apply hkadcStartEffect_moves | with_reducible decide | with_reducible apply Moves.ite

end Sys2Proof.Machine
end

