-- ==== Sys2Proof/Laws/MovesLine.lean ====
section
/-! SUPPORT. One law for each function of the herd link, the sequencers, the encoders and capture: which parts of the state it may change, and
that both memories keep their canonical form. -/

namespace Sys2Proof.Machine

variable {ps : List Part} {s₀ : State}

/-! ### HlBase -/

theorem crossPort_moves (s : State) (h : Fin 4) (p : Fin 2) (hO : Moves ps s₀ s)
    (mO : ∀ p ∈ [Part.hl], p ∈ ps) : Moves ps s₀ (crossPort s h p) := by
  refine hO.step mO ?_
  clear hO mO
  unfold crossPort
  repeat' first
    | with_reducible exact Moves.refl _ _ | with_reducible apply Moves.modHerd | with_reducible decide

theorem originate_moves (s : State) (ev : HerdEvent) (h : Fin 4) (delta reason : Nat) (seq : Word) (hO : Moves ps s₀ s)
    (mO : ∀ p ∈ [Part.hl], p ∈ ps) : Moves ps s₀ (originate s ev h delta reason seq) := by
  refine hO.step mO ?_
  clear hO mO
  unfold originate
  repeat' first
    | with_reducible exact Moves.refl _ _ | with_reducible apply Moves.modHl | with_reducible decide

/-! ### Tsq -/

theorem emptyHist_moves (s : State) (n : Fin 16) (hO : Moves ps s₀ s)
    (mO : ∀ p ∈ [Part.tsq], p ∈ ps) : Moves ps s₀ (emptyHist s n) := by
  refine hO.step mO ?_
  clear hO mO
  unfold emptyHist
  repeat' first
    | with_reducible exact Moves.refl _ _ | with_reducible apply Moves.modTsq | with_reducible decide

theorem predCount_moves (s : State) (n : Fin 16) (p : Word) (stamp : Nat) (hO : Moves ps s₀ s)
    (mO : ∀ p ∈ [Part.tsq], p ∈ ps) : Moves ps s₀ (predCount s n p stamp) := by
  refine hO.step mO ?_
  clear hO mO
  unfold predCount
  repeat' first
    | with_reducible exact Moves.refl _ _ | with_reducible apply Moves.modTsq | with_reducible decide
    | with_reducible apply Moves.ite

theorem modSlot_moves (s : State) (n : Fin 16) (i : Fin 64) (f : Slot → Slot) (hO : Moves ps s₀ s)
    (mO : ∀ p ∈ [Part.tsq], p ∈ ps) : Moves ps s₀ (modSlot s n i f) := by
  refine hO.step mO ?_
  clear hO mO
  unfold modSlot
  repeat' first
    | with_reducible exact Moves.refl _ _ | with_reducible apply Moves.modTsq | with_reducible decide

theorem freeSlotAt_moves (s : State) (n : Fin 16) (i : Fin 64) (hO : Moves ps s₀ s)
    (mO : ∀ p ∈ [Part.tsq], p ∈ ps) : Moves ps s₀ (freeSlotAt s n i) := by
  refine hO.step mO ?_
  clear hO mO
  unfold freeSlotAt
  repeat' first
    | with_reducible exact Moves.refl _ _ | with_reducible apply modSlot_moves | with_reducible decide

theorem squashSlot_moves (s : State) (n : Fin 16) (i : Fin 64) (hO : Moves ps s₀ s)
    (mO : ∀ p ∈ [Part.tsq, .pw], p ∈ ps) : Moves ps s₀ (squashSlot s n i) := by
  refine hO.step mO ?_
  clear hO mO
  unfold squashSlot
  repeat' first
    | with_reducible exact Moves.refl _ _ | with_reducible apply Moves.modTsq | with_reducible apply freeSlotAt_moves
    | with_reducible apply giveBack_moves | with_reducible decide

theorem squashList_moves (s : State) (n : Fin 16) (l : List (Fin 64)) (hO : Moves ps s₀ s)
    (mO : ∀ p ∈ [Part.tsq, .pw], p ∈ ps) : Moves ps s₀ (squashList s n l) := by
  refine hO.step mO ?_
  clear hO mO
  unfold squashList
  repeat' first
    | with_reducible exact Moves.refl _ _ | with_reducible apply Moves.modTsq | with_reducible apply squashSlot_moves
    | with_reducible apply Moves.each | with_reducible decide | split | dsimp only | intro _ _ _
    | with_reducible assumption

theorem squashAll_moves (s : State) (n : Fin 16) (hO : Moves ps s₀ s)
    (mO : ∀ p ∈ [Part.tsq, .pw], p ∈ ps) : Moves ps s₀ (squashAll s n) := by
  refine hO.step mO ?_
  clear hO mO
  unfold squashAll
  repeat' first
    | with_reducible exact Moves.refl _ _ | with_reducible apply emptyHist_moves | with_reducible apply squashList_moves
    | with_reducible decide

theorem riseEdge_moves (s : State) (n : Fin 16) (e : Edge) (hO : Moves ps s₀ s)
    (mO : ∀ p ∈ [Part.tsq], p ∈ ps) : Moves ps s₀ (riseEdge s n e) := by
  refine hO.step mO ?_
  clear hO mO
  unfold riseEdge
  repeat' first
    | with_reducible exact Moves.refl _ _ | with_reducible apply Moves.modTsq | with_reducible decide

theorem riseEdges_moves (s : State) (n : Fin 16) (p : Edge → Bool) (hO : Moves ps s₀ s)
    (mO : ∀ p ∈ [Part.tsq], p ∈ ps) : Moves ps s₀ (riseEdges s n p) := by
  refine hO.step mO ?_
  clear hO mO
  unfold riseEdges
  repeat' first
    | with_reducible exact Moves.refl _ _ | with_reducible apply Moves.modTsq | with_reducible apply riseEdge_moves
    | with_reducible apply Moves.each | with_reducible decide | dsimp only | intro _ _ _ | with_reducible assumption

theorem riseDue_moves (s : State) (n : Fin 16) (strobe : Bool) (hO : Moves ps s₀ s)
    (mO : ∀ p ∈ [Part.tsq], p ∈ ps) : Moves ps s₀ (riseDue s n strobe) := by
  refine hO.step mO ?_
  clear hO mO
  unfold riseDue
  repeat' first
    | with_reducible exact Moves.refl _ _ | with_reducible apply riseEdges_moves | with_reducible decide

theorem commitSlot_moves (s : State) (n : Fin 16) (i : Fin 64) (tExp : Int) (hO : Moves ps s₀ s)
    (mO : ∀ p ∈ [Part.tsq], p ∈ ps) : Moves ps s₀ (commitSlot s n i tExp) := by
  refine hO.step mO ?_
  clear hO mO
  unfold commitSlot
  repeat' first
    | with_reducible exact Moves.refl _ _ | with_reducible apply Moves.modTsq | with_reducible apply modSlot_moves
    | with_reducible apply riseDue_moves | with_reducible decide

theorem cancelSlot_moves (s : State) (n : Fin 16) (reason : Nat) (i : Fin 64) (hO : Moves ps s₀ s)
    (mO : ∀ p ∈ [Part.tsq, .pw, .qe, .dm], p ∈ ps) : Moves ps s₀ (cancelSlot s n reason i) := by
  refine hO.step mO ?_
  clear hO mO
  unfold cancelSlot
  repeat' first
    | with_reducible exact Moves.refl _ _ | with_reducible refine Moves.snd (by assumption) ?_
    | with_reducible apply Moves.modTsq | with_reducible apply freeSlotAt_moves | with_reducible apply giveBack_moves
    | with_reducible apply ringPost_moves | with_reducible decide

theorem cancelWhere_moves (s : State) (n : Fin 16) (reason : Nat) (p : Slot → Bool) (hO : Moves ps s₀ s)
    (mO : ∀ p ∈ [Part.tsq, .pw, .qe, .dm], p ∈ ps) : Moves ps s₀ (cancelWhere s n reason p) := by
  refine hO.step mO ?_
  clear hO mO
  unfold cancelWhere
  repeat' first
    | with_reducible exact Moves.refl _ _ | with_reducible apply cancelSlot_moves | with_reducible apply Moves.each
    | with_reducible decide | dsimp only | intro _ _ _ | with_reducible assumption

theorem releaseSlot_moves (s : State) (n : Fin 16) (i : Fin 64) (hO : Moves ps s₀ s)
    (mO : ∀ p ∈ [Part.tsq, .cap, .pw, .qe, .dm], p ∈ ps) : Moves ps s₀ (releaseSlot s n i) := by
  refine hO.step mO ?_
  clear hO mO
  unfold releaseSlot
  repeat' first
    | with_reducible exact Moves.refl _ _ | with_reducible apply Moves.modTsq | with_reducible apply cancelSlot_moves
    | with_reducible apply freeSlotAt_moves | with_reducible apply giveBack_moves | with_reducible apply riseEdges_moves
    | with_reducible apply takeRelease_moves | with_reducible decide | with_reducible apply Moves.ite

theorem gateSlot_moves (s : State) (n : Fin 16) (i : Fin 64) (hO : Moves ps s₀ s)
    (mO : ∀ p ∈ [Part.tsq, .cap, .pw, .qe, .dm], p ∈ ps) : Moves ps s₀ (gateSlot s n i) := by
  refine hO.step mO ?_
  clear hO mO
  unfold gateSlot
  repeat' first
    | with_reducible exact Moves.refl _ _ | with_reducible apply commitSlot_moves
    | with_reducible apply releaseSlot_moves | with_reducible decide | with_reducible apply Moves.ite | split
    | dsimp only

theorem gateCheck_moves (s : State) (n : Fin 16) (hO : Moves ps s₀ s)
    (mO : ∀ p ∈ [Part.tsq, .cap, .pw, .qe, .dm], p ∈ ps) : Moves ps s₀ (gateCheck s n) := by
  refine hO.step mO ?_
  clear hO mO
  unfold gateCheck
  repeat' first
    | with_reducible exact Moves.refl _ _ | with_reducible apply gateSlot_moves | with_reducible apply Moves.each
    | with_reducible decide | dsimp only | intro _ _ _ | with_reducible assumption

theorem anchorNow_moves (s : State) (n : Fin 16) (hO : Moves ps s₀ s)
    (mO : ∀ p ∈ [Part.tsq], p ∈ ps) : Moves ps s₀ (anchorNow s n) := by
  refine hO.step mO ?_
  clear hO mO
  unfold anchorNow
  repeat' first
    | with_reducible exact Moves.refl _ _ | with_reducible apply Moves.modTsq | with_reducible apply emptyHist_moves
    | with_reducible decide

theorem anchor_moves (s : State) (n : Fin 16) (hO : Moves ps s₀ s)
    (mO : ∀ p ∈ [Part.tsq], p ∈ ps) : Moves ps s₀ (anchor s n) := by
  refine hO.step mO ?_
  clear hO mO
  unfold anchor
  repeat' first
    | with_reducible exact Moves.refl _ _ | with_reducible apply Moves.modTsq | with_reducible apply anchorNow_moves
    | with_reducible apply emptyHist_moves | with_reducible decide | with_reducible apply Moves.ite

theorem enableTsq_moves (s : State) (n : Fin 16) (hO : Moves ps s₀ s)
    (mO : ∀ p ∈ [Part.tsq], p ∈ ps) : Moves ps s₀ (enableTsq s n) := by
  refine hO.step mO ?_
  clear hO mO
  unfold enableTsq
  repeat' first
    | with_reducible exact Moves.refl _ _ | with_reducible apply Moves.modTsq | with_reducible apply anchor_moves
    | with_reducible decide

theorem leaveSrcWait_moves (s : State) (n : Fin 16) (hO : Moves ps s₀ s)
    (mO : ∀ p ∈ [Part.tsq], p ∈ ps) : Moves ps s₀ (leaveSrcWait s n) := by
  refine hO.step mO ?_
  clear hO mO
  unfold leaveSrcWait
  repeat' first
    | with_reducible exact Moves.refl _ _ | with_reducible apply anchor_moves | with_reducible decide
    | with_reducible apply Moves.ite

theorem turnedAgainst_moves (s : State) (n : Fin 16) (hO : Moves ps s₀ s)
    (mO : ∀ p ∈ [Part.tsq, .pw], p ∈ ps) : Moves ps s₀ (turnedAgainst s n) := by
  refine hO.step mO ?_
  clear hO mO
  unfold turnedAgainst
  repeat' first
    | with_reducible exact Moves.refl _ _ | with_reducible apply squashAll_moves | with_reducible decide
    | with_reducible apply Moves.ite

theorem stepTsq_moves (s : State) (n : Fin 16) (e : Fin 8) (hO : Moves ps s₀ s)
    (mO : ∀ p ∈ [Part.tsq, .pw, .qe, .dm], p ∈ ps) : Moves ps s₀ (stepTsq s n e) := by
  refine hO.step mO ?_
  clear hO mO
  unfold stepTsq
  repeat' first
    | with_reducible exact Moves.refl _ _ | with_reducible apply anchor_moves | with_reducible apply cancelWhere_moves
    | with_reducible apply squashAll_moves | with_reducible decide | with_reducible apply Moves.ite

theorem settleSteps_moves (s : State) (n : Fin 16) (hO : Moves ps s₀ s)
    (mO : ∀ p ∈ [Part.tsq, .pw, .qe, .dm], p ∈ ps) : Moves ps s₀ (settleSteps s n) := by
  refine hO.step mO ?_
  clear hO mO
  unfold settleSteps
  repeat' first
    | with_reducible exact Moves.refl _ _ | with_reducible apply Moves.modTsq | with_reducible apply stepTsq_moves
    | with_reducible apply Moves.each | with_reducible decide | dsimp only | intro _ _ _ | with_reducible assumption

theorem retireTsq_moves (s : State) (n : Fin 16) (seq : Word) (hO : Moves ps s₀ s)
    (mO : ∀ p ∈ [Part.tsq, .pw, .qe, .dm], p ∈ ps) : Moves ps s₀ (retireTsq s n seq) := by
  refine hO.step mO ?_
  clear hO mO
  unfold retireTsq
  repeat' first
    | with_reducible exact Moves.refl _ _ | with_reducible apply Moves.modTsq | with_reducible apply cancelWhere_moves
    | with_reducible apply squashAll_moves | with_reducible decide | with_reducible apply Moves.ite

theorem reviveTsq_moves (s : State) (n : Fin 16) (hO : Moves ps s₀ s)
    (mO : ∀ p ∈ [Part.tsq], p ∈ ps) : Moves ps s₀ (reviveTsq s n) := by
  refine hO.step mO ?_
  clear hO mO
  unfold reviveTsq
  repeat' first
    | with_reducible exact Moves.refl _ _ | with_reducible apply Moves.modTsq | with_reducible apply anchor_moves
    | with_reducible decide | with_reducible apply Moves.ite

theorem trimDepth_moves (s : State) (n : Fin 16) (depth : Nat) (hO : Moves ps s₀ s)
    (mO : ∀ p ∈ [Part.tsq, .pw], p ∈ ps) : Moves ps s₀ (trimDepth s n depth) := by
  refine hO.step mO ?_
  clear hO mO
  unfold trimDepth
  repeat' first
    | with_reducible exact Moves.refl _ _ | with_reducible apply squashList_moves | with_reducible decide

theorem applyPols_moves (s : State) (n : Fin 16) (hO : Moves ps s₀ s)
    (mO : ∀ p ∈ [Part.tsq], p ∈ ps) : Moves ps s₀ (applyPols s n) := by
  refine hO.step mO ?_
  clear hO mO
  unfold applyPols
  repeat' first
    | with_reducible exact Moves.refl _ _ | with_reducible apply Moves.modTsq | with_reducible decide

theorem applyChanges_moves (s : State) (n : Fin 16) (old g : TsqGroup) (hO : Moves ps s₀ s)
    (mO : ∀ p ∈ [Part.tsq, .pw], p ∈ ps) : Moves ps s₀ (applyChanges s n old g) := by
  refine hO.step mO ?_
  clear hO mO
  unfold applyChanges
  repeat' first
    | with_reducible exact Moves.refl _ _ | with_reducible apply Moves.modTsq | with_reducible apply anchor_moves
    | with_reducible apply squashAll_moves | with_reducible apply trimDepth_moves | with_reducible decide
    | with_reducible apply Moves.ite | split | dsimp only

theorem tsqCommitEffect_moves (n : Fin 16) (s : State) (hO : Moves ps s₀ s)
    (mO : ∀ p ∈ [Part.tsq, .pw, .qe, .dm], p ∈ ps) : Moves ps s₀ (tsqCommitEffect n s) := by
  refine hO.step mO ?_
  clear hO mO
  unfold tsqCommitEffect
  repeat' first
    | with_reducible exact Moves.refl _ _ | with_reducible apply Moves.modTsq | with_reducible apply applyChanges_moves
    | with_reducible apply applyPols_moves | with_reducible apply enableTsq_moves
    | with_reducible apply settleSteps_moves | with_reducible apply squashAll_moves | with_reducible decide
    | with_reducible apply Moves.ite

theorem slotOpenEffect_moves (n : Fin 16) (s : State) (hO : Moves ps s₀ s)
    (mO : ∀ p ∈ [Part.tsq, .pw, .qe, .dm], p ∈ ps) : Moves ps s₀ (slotOpenEffect n s) := by
  refine hO.step mO ?_
  clear hO mO
  unfold slotOpenEffect
  repeat' first
    | with_reducible exact Moves.refl _ _ | with_reducible apply Moves.modTsq | with_reducible apply modSlot_moves
    | with_reducible apply pwAsk_moves | with_reducible apply settleSteps_moves | with_reducible decide
    | with_reducible apply Moves.ite | split

theorem slotCommitEffect_moves (n : Fin 16) (s : State) (hO : Moves ps s₀ s)
    (mO : ∀ p ∈ [Part.tsq, .cap, .pw, .qe, .dm], p ∈ ps) : Moves ps s₀ (slotCommitEffect n s) := by
  refine hO.step mO ?_
  clear hO mO
  unfold slotCommitEffect
  repeat' first
    | with_reducible exact Moves.refl _ _ | with_reducible apply commitSlot_moves | with_reducible apply gateCheck_moves
    | with_reducible apply settleSteps_moves | with_reducible apply Moves.each | with_reducible decide | split
    | dsimp only | intro _ _ _ | with_reducible assumption

theorem strobeRiseEffect_moves (n : Fin 16) (s : State) (hO : Moves ps s₀ s)
    (mO : ∀ p ∈ [Part.tsq], p ∈ ps) : Moves ps s₀ (strobeRiseEffect n s) := by
  refine hO.step mO ?_
  clear hO mO
  unfold strobeRiseEffect
  repeat' first
    | with_reducible exact Moves.refl _ _ | with_reducible apply riseDue_moves | with_reducible decide

theorem pretrigRiseEffect_moves (n : Fin 16) (s : State) (hO : Moves ps s₀ s)
    (mO : ∀ p ∈ [Part.tsq], p ∈ ps) : Moves ps s₀ (pretrigRiseEffect n s) := by
  refine hO.step mO ?_
  clear hO mO
  unfold pretrigRiseEffect
  repeat' first
    | with_reducible exact Moves.refl _ _ | with_reducible apply riseDue_moves | with_reducible decide

theorem pulseEndEffect_moves (n : Fin 16) (out : TsqOut) (s : State) (hO : Moves ps s₀ s)
    (mO : ∀ p ∈ [Part.tsq], p ∈ ps) : Moves ps s₀ (pulseEndEffect n out s) := by
  refine hO.step mO ?_
  clear hO mO
  unfold pulseEndEffect
  repeat' first
    | with_reducible exact Moves.refl _ _ | with_reducible apply Moves.modTsq | with_reducible decide

theorem gateCommitted_moves (s : State) (n : Fin 16) (hO : Moves ps s₀ s)
    (mO : ∀ p ∈ [Part.tsq, .cap, .pw, .qe, .dm], p ∈ ps) : Moves ps s₀ (gateCommitted s n) := by
  refine hO.step mO ?_
  clear hO mO
  unfold gateCommitted
  repeat' first
    | with_reducible exact Moves.refl _ _ | with_reducible apply gateSlot_moves | with_reducible apply Moves.each
    | with_reducible decide | dsimp only | intro _ _ _ | with_reducible assumption

theorem holdExpiryEffect_moves (n : Fin 16) (s : State) (hO : Moves ps s₀ s)
    (mO : ∀ p ∈ [Part.tsq, .cap, .pw, .qe, .dm], p ∈ ps) : Moves ps s₀ (holdExpiryEffect n s) := by
  refine hO.step mO ?_
  clear hO mO
  unfold holdExpiryEffect
  repeat' first
    | with_reducible exact Moves.refl _ _ | with_reducible apply cancelWhere_moves
    | with_reducible apply gateCommitted_moves | with_reducible apply settleSteps_moves | with_reducible decide

theorem stopExpiryEffect_moves (n : Fin 16) (s : State) (hO : Moves ps s₀ s)
    (mO : ∀ p ∈ [Part.tsq, .pw, .qe, .dm], p ∈ ps) : Moves ps s₀ (stopExpiryEffect n s) := by
  refine hO.step mO ?_
  clear hO mO
  unfold stopExpiryEffect
  repeat' first
    | with_reducible exact Moves.refl _ _ | with_reducible apply Moves.modTsq | with_reducible apply settleSteps_moves
    | with_reducible apply squashAll_moves | with_reducible decide | with_reducible apply Moves.ite

theorem tsqCntClearEffect_moves (n : Fin 16) (s : State) (hO : Moves ps s₀ s)
    (mO : ∀ p ∈ [Part.tsq], p ∈ ps) : Moves ps s₀ (tsqCntClearEffect n s) := by
  refine hO.step mO ?_
  clear hO mO
  unfold tsqCntClearEffect
  repeat' first
    | with_reducible exact Moves.refl _ _ | with_reducible apply Moves.modTsq | with_reducible decide

theorem predictorEntryEffect_moves (h : Fin 4) (s : State) (hO : Moves ps s₀ s)
    (mO : ∀ p ∈ [Part.tbe, .tsq], p ∈ ps) : Moves ps s₀ (predictorEntryEffect h s) := by
  refine hO.step mO ?_
  clear hO mO
  unfold predictorEntryEffect
  repeat' first
    | with_reducible exact Moves.refl _ _ | with_reducible apply Moves.modRem | with_reducible apply predCount_moves
    | with_reducible apply Moves.each | with_reducible decide | dsimp only | intro _ _ _ | with_reducible assumption

/-! ### Retire -/

theorem closeLink_moves (s : State) (n : Fin 16) (f : LinkFault) (perm retired : Bool) (hO : Moves ps s₀ s)
    (mO : ∀ p ∈ [Part.cap, .qe, .dm], p ∈ ps) : Moves ps s₀ (closeLink s n f perm retired) := by
  refine hO.step mO ?_
  clear hO mO
  unfold closeLink
  repeat' first
    | with_reducible exact Moves.refl _ _ | with_reducible apply Moves.modCap | with_reducible apply recordFault_moves
    | with_reducible decide

theorem classAtRetire_moves (s : State) (n : Fin 16) (hO : Moves ps s₀ s)
    (mO : ∀ p ∈ [Part.cap, .qe, .dm], p ∈ ps) : Moves ps s₀ (classAtRetire s n) := by
  refine hO.step mO ?_
  clear hO mO
  unfold classAtRetire
  repeat' first
    | with_reducible exact Moves.refl _ _ | with_reducible apply closeLink_moves | with_reducible decide | split

theorem retireCap_moves (s : State) (n : Fin 16) (seq : Word) (hO : Moves ps s₀ s)
    (mO : ∀ p ∈ [Part.cap, .pw, .qe, .dm], p ∈ ps) : Moves ps s₀ (retireCap s n seq) := by
  refine hO.step mO ?_
  clear hO mO
  unfold retireCap
  repeat' first
    | with_reducible exact Moves.refl _ _ | with_reducible apply Moves.modCap | with_reducible apply classAtRetire_moves
    | with_reducible apply dropEnding_moves | with_reducible apply dropLine_moves
    | with_reducible apply dropPending_moves | with_reducible decide | with_reducible apply Moves.ite

theorem retirePair_moves (s : State) (n : Fin 16) (seq : Word) (hO : Moves ps s₀ s)
    (mO : ∀ p ∈ [Part.tsq, .cap, .pw, .qe, .dm], p ∈ ps) : Moves ps s₀ (retirePair s n seq) := by
  refine hO.step mO ?_
  clear hO mO
  unfold retirePair
  repeat' first
    | with_reducible exact Moves.refl _ _ | with_reducible apply retireCap_moves | with_reducible apply retireTsq_moves
    | with_reducible decide

theorem retireList_moves (s : State) (l : List (Fin 16)) (seq : Word) (hO : Moves ps s₀ s)
    (mO : ∀ p ∈ [Part.tsq, .cap, .pw, .qe, .dm], p ∈ ps) : Moves ps s₀ (retireList s l seq) := by
  refine hO.step mO ?_
  clear hO mO
  unfold retireList
  repeat' first
    | with_reducible exact Moves.refl _ _ | with_reducible apply retirePair_moves | with_reducible apply Moves.each
    | with_reducible decide | dsimp only | intro _ _ _ | with_reducible assumption

theorem retireScope_moves (s : State) (n : Fin 16) (blk : Nat) (seq : Word) (hO : Moves ps s₀ s)
    (mO : ∀ p ∈ [Part.tsq, .cap, .pw, .qe, .hl, .dm], p ∈ ps) : Moves ps s₀ (retireScope s n blk seq) := by
  refine hO.step mO ?_
  clear hO mO
  unfold retireScope
  repeat' first
    | with_reducible exact Moves.refl _ _ | with_reducible apply originate_moves | with_reducible apply retireList_moves
    | with_reducible decide | with_reducible apply Moves.ite | split

theorem linkPermanent_moves (s : State) (n : Fin 16) (f : LinkFault) (hO : Moves ps s₀ s)
    (mO : ∀ p ∈ [Part.tsq, .cap, .pw, .qe, .hl, .dm], p ∈ ps) : Moves ps s₀ (linkPermanent s n f) := by
  refine hO.step mO ?_
  clear hO mO
  unfold linkPermanent
  repeat' first
    | with_reducible exact Moves.refl _ _ | with_reducible apply closeLink_moves
    | with_reducible apply retireScope_moves | with_reducible decide | with_reducible apply Moves.ite

theorem classAtStop_moves (s : State) (n : Fin 16) (hO : Moves ps s₀ s)
    (mO : ∀ p ∈ [Part.tsq, .cap, .pw, .qe, .hl, .dm], p ∈ ps) : Moves ps s₀ (classAtStop s n) := by
  refine hO.step mO ?_
  clear hO mO
  unfold classAtStop
  repeat' first
    | with_reducible exact Moves.refl _ _ | with_reducible apply closeLink_moves
    | with_reducible apply linkPermanent_moves | with_reducible decide | with_reducible apply Moves.ite | split

theorem retireSequencers_moves (s : State) (l : List (Fin 16)) (led : List (Fin 4)) (blk : Nat) (seq : Word) (hO :
      Moves ps s₀ s)
    (mO : ∀ p ∈ [Part.tsq, .cap, .pw, .qe, .hl, .dm], p ∈ ps) : Moves ps s₀ (retireSequencers s l led blk seq) := by
  refine hO.step mO ?_
  clear hO mO
  unfold retireSequencers
  repeat' first
    | with_reducible exact Moves.refl _ _ | with_reducible apply originate_moves | with_reducible apply retireList_moves
    | with_reducible apply Moves.each | with_reducible decide | split | dsimp only | intro _ _ _
    | with_reducible assumption

theorem reviveCap_moves (s : State) (n : Fin 16) (hO : Moves ps s₀ s)
    (mO : ∀ p ∈ [Part.cap], p ∈ ps) : Moves ps s₀ (reviveCap s n) := by
  refine hO.step mO ?_
  clear hO mO
  unfold reviveCap
  repeat' first
    | with_reducible exact Moves.refl _ _ | with_reducible apply Moves.modCap | with_reducible decide

theorem reviveUnit_moves (s : State) (l : List (Fin 16)) (hO : Moves ps s₀ s)
    (mO : ∀ p ∈ [Part.tsq, .cap], p ∈ ps) : Moves ps s₀ (reviveUnit s l) := by
  refine hO.step mO ?_
  clear hO mO
  unfold reviveUnit
  repeat' first
    | with_reducible exact Moves.refl _ _ | with_reducible apply reviveCap_moves | with_reducible apply reviveTsq_moves
    | with_reducible apply Moves.each | with_reducible decide | dsimp only | intro _ _ _ | with_reducible assumption

theorem capReviveEffect_moves (n : Fin 16) (s : State) (hO : Moves ps s₀ s)
    (mO : ∀ p ∈ [Part.tsq, .cap], p ∈ ps) : Moves ps s₀ (capReviveEffect n s) := by
  refine hO.step mO ?_
  clear hO mO
  unfold capReviveEffect
  repeat' first
    | with_reducible exact Moves.refl _ _ | with_reducible apply reviveUnit_moves | with_reducible decide
    | with_reducible apply Moves.ite | split

/-! ### Encoders -/

theorem encMoved_moves (s : State) (n : Fin 8) (turned : Bool) (hO : Moves ps s₀ s)
    (mO : ∀ p ∈ [Part.tsq, .pw], p ∈ ps) : Moves ps s₀ (encMoved s n turned) := by
  refine hO.step mO ?_
  clear hO mO
  unfold encMoved
  repeat' first
    | with_reducible exact Moves.refl _ _ | with_reducible apply predCount_moves
    | with_reducible apply turnedAgainst_moves | with_reducible apply Moves.each | with_reducible decide
    | with_reducible apply Moves.ite | split | dsimp only | intro _ _ _ | with_reducible assumption

theorem encStepped_moves (s : State) (n : Fin 8) (hO : Moves ps s₀ s)
    (mO : ∀ p ∈ [Part.tsq], p ∈ ps) : Moves ps s₀ (encStepped s n) := by
  refine hO.step mO ?_
  clear hO mO
  unfold encStepped
  repeat' first
    | with_reducible exact Moves.refl _ _ | with_reducible apply Moves.modTsq | with_reducible apply Moves.each
    | with_reducible decide | with_reducible apply Moves.ite | split | dsimp only | intro _ _ _
    | with_reducible assumption

theorem encDetect_moves (s : State) (n : Fin 8) (k : EncKind) (hO : Moves ps s₀ s)
    (mO : ∀ p ∈ [Part.tbe], p ∈ ps) : Moves ps s₀ (encDetect s n k) := by
  refine hO.step mO ?_
  clear hO mO
  unfold encDetect
  repeat' first
    | with_reducible exact Moves.refl _ _ | with_reducible apply Moves.modEnc | with_reducible decide

theorem encClose_moves (s : State) (n : Fin 8) (k : EncKind) (perm : Bool) (hO : Moves ps s₀ s)
    (mO : ∀ p ∈ [Part.tbe, .tsq, .cap, .pw, .qe, .hl, .dm], p ∈ ps) : Moves ps s₀ (encClose s n k perm) := by
  refine hO.step mO ?_
  clear hO mO
  unfold encClose
  repeat' first
    | with_reducible exact Moves.refl _ _ | with_reducible apply Moves.modEnc | with_reducible apply Moves.modTbe
    | with_reducible apply recordFault_moves | with_reducible apply retireSequencers_moves | with_reducible decide
    | with_reducible apply Moves.ite | split

theorem closeIllegal_moves (s : State) (n : Fin 8) (hO : Moves ps s₀ s)
    (mO : ∀ p ∈ [Part.tbe, .tsq, .cap, .pw, .qe, .hl, .dm], p ∈ ps) : Moves ps s₀ (closeIllegal s n) := by
  refine hO.step mO ?_
  clear hO mO
  unfold closeIllegal
  repeat' first
    | with_reducible exact Moves.refl _ _ | with_reducible apply encClose_moves | with_reducible decide
    | with_reducible apply Moves.ite | split

theorem encIllegal_moves (s : State) (n : Fin 8) (hO : Moves ps s₀ s)
    (mO : ∀ p ∈ [Part.tbe, .tsq, .cap, .pw, .qe, .hl, .dm], p ∈ ps) : Moves ps s₀ (encIllegal s n) := by
  refine hO.step mO ?_
  clear hO mO
  unfold encIllegal
  repeat' first
    | with_reducible exact Moves.refl _ _ | with_reducible apply Moves.modEnc | with_reducible apply closeIllegal_moves
    | with_reducible apply encClose_moves | with_reducible apply encDetect_moves | with_reducible decide
    | with_reducible apply Moves.ite | split | dsimp only

theorem encClassAtStop_moves (s : State) (n : Fin 8) (hO : Moves ps s₀ s)
    (mO : ∀ p ∈ [Part.tbe, .tsq, .cap, .pw, .qe, .hl, .dm], p ∈ ps) : Moves ps s₀ (encClassAtStop s n) := by
  refine hO.step mO ?_
  clear hO mO
  unfold encClassAtStop
  repeat' first
    | with_reducible exact Moves.refl _ _ | with_reducible apply encClose_moves | with_reducible apply encIllegal_moves
    | with_reducible decide

theorem acceptAB_moves (s : State) (n : Fin 8) (hO : Moves ps s₀ s)
    (mO : ∀ p ∈ [Part.tbe, .tsq, .pw], p ∈ ps) : Moves ps s₀ (acceptAB s n) := by
  refine hO.step mO ?_
  clear hO mO
  unfold acceptAB
  repeat' first
    | with_reducible exact Moves.refl _ _ | with_reducible apply Moves.modEnc | with_reducible apply encMoved_moves
    | with_reducible decide | with_reducible apply Moves.ite

theorem encoderTransitionEffect_moves (n : Fin 8) (a b : Bool) (s : State) (hO : Moves ps s₀ s)
    (mO : ∀ p ∈ [Part.tbe, .tsq, .pw], p ∈ ps) : Moves ps s₀ (encoderTransitionEffect n a b s) := by
  refine hO.step mO ?_
  clear hO mO
  unfold encoderTransitionEffect
  repeat' first
    | with_reducible exact Moves.refl _ _ | with_reducible apply Moves.modEnc | with_reducible apply acceptAB_moves
    | with_reducible decide | with_reducible apply Moves.ite

theorem acceptZ_moves (s : State) (n : Fin 8) (hO : Moves ps s₀ s)
    (mO : ∀ p ∈ [Part.tbe, .tsq], p ∈ ps) : Moves ps s₀ (acceptZ s n) := by
  refine hO.step mO ?_
  clear hO mO
  unfold acceptZ
  repeat' first
    | with_reducible exact Moves.refl _ _ | with_reducible apply Moves.modEnc | with_reducible apply Moves.modTbe
    | with_reducible apply encStepped_moves | with_reducible decide | with_reducible apply Moves.ite

theorem indexEffect_moves (n : Fin 8) (level : Bool) (s : State) (hO : Moves ps s₀ s)
    (mO : ∀ p ∈ [Part.tbe, .tsq], p ∈ ps) : Moves ps s₀ (indexEffect n level s) := by
  refine hO.step mO ?_
  clear hO mO
  unfold indexEffect
  repeat' first
    | with_reducible exact Moves.refl _ _ | with_reducible apply Moves.modEnc | with_reducible apply acceptZ_moves
    | with_reducible decide | with_reducible apply Moves.ite

theorem crossLos_moves (s : State) (n : Fin 8) (p : EncPin) (low : Bool) (hO : Moves ps s₀ s)
    (mO : ∀ p ∈ [Part.tbe], p ∈ ps) : Moves ps s₀ (crossLos s n p low) := by
  refine hO.step mO ?_
  clear hO mO
  unfold crossLos
  repeat' first
    | with_reducible exact Moves.refl _ _ | with_reducible apply Moves.modEnc | with_reducible decide

theorem losEntryEffect_moves (n : Fin 8) (p : EncPin) (s : State) (hO : Moves ps s₀ s)
    (mO : ∀ p ∈ [Part.tbe], p ∈ ps) : Moves ps s₀ (losEntryEffect n p s) := by
  refine hO.step mO ?_
  clear hO mO
  unfold losEntryEffect
  repeat' first
    | with_reducible exact Moves.refl _ _ | with_reducible apply Moves.modEnc | with_reducible apply crossLos_moves
    | with_reducible apply encDetect_moves | with_reducible decide | with_reducible apply Moves.ite | split

theorem losOver_moves (s : State) (n : Fin 8) (k : EncKind) (hO : Moves ps s₀ s)
    (mO : ∀ p ∈ [Part.tbe, .tsq, .cap, .pw, .qe, .hl, .dm], p ∈ ps) : Moves ps s₀ (losOver s n k) := by
  refine hO.step mO ?_
  clear hO mO
  unfold losOver
  repeat' first
    | with_reducible exact Moves.refl _ _ | with_reducible apply encClose_moves | with_reducible decide | split

theorem losExitEffect_moves (n : Fin 8) (p : EncPin) (s : State) (hO : Moves ps s₀ s)
    (mO : ∀ p ∈ [Part.tbe, .tsq, .cap, .pw, .qe, .hl, .dm], p ∈ ps) : Moves ps s₀ (losExitEffect n p s) := by
  refine hO.step mO ?_
  clear hO mO
  unfold losExitEffect
  repeat' first
    | with_reducible exact Moves.refl _ _ | with_reducible apply Moves.modEnc | with_reducible apply crossLos_moves
    | with_reducible apply losOver_moves | with_reducible decide | with_reducible apply Moves.ite | split

theorem illegalWindowEffect_moves (n : Fin 8) (s : State) (hO : Moves ps s₀ s)
    (mO : ∀ p ∈ [Part.tbe, .tsq, .cap, .pw, .qe, .hl, .dm], p ∈ ps) : Moves ps s₀ (illegalWindowEffect n s) := by
  refine hO.step mO ?_
  clear hO mO
  unfold illegalWindowEffect
  repeat' first
    | with_reducible exact Moves.refl _ _ | with_reducible apply closeIllegal_moves
    | with_reducible apply encIllegal_moves | with_reducible decide

theorem losLimitEffect_moves (n : Fin 8) (z : Bool) (s : State) (hO : Moves ps s₀ s)
    (mO : ∀ p ∈ [Part.tbe, .tsq, .cap, .pw, .qe, .hl, .dm], p ∈ ps) : Moves ps s₀ (losLimitEffect n z s) := by
  refine hO.step mO ?_
  clear hO mO
  unfold losLimitEffect
  repeat' first
    | with_reducible exact Moves.refl _ _ | with_reducible apply encClose_moves | with_reducible decide
    | with_reducible apply Moves.ite | split | dsimp only

theorem loadEffect_moves (n : Fin 8) (s : State) (hO : Moves ps s₀ s)
    (mO : ∀ p ∈ [Part.tbe, .tsq], p ∈ ps) : Moves ps s₀ (loadEffect n s) := by
  refine hO.step mO ?_
  clear hO mO
  unfold loadEffect
  repeat' first
    | with_reducible exact Moves.refl _ _ | with_reducible apply Moves.modEnc | with_reducible apply encStepped_moves
    | with_reducible decide

theorem zarmEffect_moves (n : Fin 8) (s : State) (hO : Moves ps s₀ s)
    (mO : ∀ p ∈ [Part.tbe], p ∈ ps) : Moves ps s₀ (zarmEffect n s) := by
  refine hO.step mO ?_
  clear hO mO
  unfold zarmEffect
  repeat' first
    | with_reducible exact Moves.refl _ _ | with_reducible apply Moves.modEnc | with_reducible decide

theorem restoreEffect_moves (n : Fin 8) (s : State) (hO : Moves ps s₀ s)
    (mO : ∀ p ∈ [Part.tbe, .tsq], p ∈ ps) : Moves ps s₀ (restoreEffect n s) := by
  refine hO.step mO ?_
  clear hO mO
  unfold restoreEffect
  repeat' first
    | with_reducible exact Moves.refl _ _ | with_reducible apply Moves.modEnc | with_reducible apply leaveSrcWait_moves
    | with_reducible apply Moves.each | with_reducible decide | dsimp only | intro _ _ _ | with_reducible assumption

theorem errClearEffect_moves (n : Fin 8) (s : State) (hO : Moves ps s₀ s)
    (mO : ∀ p ∈ [Part.tbe], p ∈ ps) : Moves ps s₀ (errClearEffect n s) := by
  refine hO.step mO ?_
  clear hO mO
  unfold errClearEffect
  repeat' first
    | with_reducible exact Moves.refl _ _ | with_reducible apply Moves.modEnc | with_reducible decide

theorem snapEffect_moves (s : State) (hO : Moves ps s₀ s)
    (mO : ∀ p ∈ [Part.tbe], p ∈ ps) : Moves ps s₀ (snapEffect s) := by
  refine hO.step mO ?_
  clear hO mO
  unfold snapEffect
  repeat' first
    | with_reducible exact Moves.refl _ _ | with_reducible apply Moves.modTbe | with_reducible decide

theorem encCommitEffect_moves (n : Fin 8) (s : State) (hO : Moves ps s₀ s)
    (mO : ∀ p ∈ [Part.tbe, .tsq, .cap, .pw, .qe, .hl, .dm], p ∈ ps) : Moves ps s₀ (encCommitEffect n s) := by
  refine hO.step mO ?_
  clear hO mO
  unfold encCommitEffect
  repeat' first
    | with_reducible exact Moves.refl _ _ | with_reducible apply Moves.modEnc
    | with_reducible apply encClassAtStop_moves | with_reducible apply encIllegal_moves
    | with_reducible apply leaveSrcWait_moves | with_reducible apply Moves.each | with_reducible decide
    | with_reducible apply Moves.ite | split | dsimp only | intro _ _ _ | with_reducible assumption

/-! ### Hl -/

theorem trainStartEffect_moves (p : Fin 2) (s : State) (hO : Moves ps s₀ s)
    (mO : ∀ p ∈ [Part.hl], p ∈ ps) : Moves ps s₀ (trainStartEffect p s) := by
  refine hO.step mO ?_
  clear hO mO
  unfold trainStartEffect
  repeat' first
    | with_reducible exact Moves.refl _ _ | with_reducible apply Moves.modPort | with_reducible decide
    | with_reducible apply Moves.ite

theorem goodMessage_moves (s : State) (p : Fin 2) (hO : Moves ps s₀ s)
    (mO : ∀ p ∈ [Part.qe, .hl, .dm], p ∈ ps) : Moves ps s₀ (goodMessage s p) := by
  refine hO.step mO ?_
  clear hO mO
  unfold goodMessage
  repeat' first
    | with_reducible exact Moves.refl _ _ | with_reducible apply Moves.modHl | with_reducible apply Moves.modPort
    | with_reducible apply recordFault_moves | with_reducible decide | with_reducible apply Moves.ite | split
    | dsimp only

theorem portFail_moves (s : State) (p : Fin 2) (f : HlErr) (hO : Moves ps s₀ s)
    (mO : ∀ p ∈ [Part.qe, .hl, .dm], p ∈ ps) : Moves ps s₀ (portFail s p f) := by
  refine hO.step mO ?_
  clear hO mO
  unfold portFail
  repeat' first
    | with_reducible exact Moves.refl _ _ | with_reducible apply Moves.modHl | with_reducible apply Moves.modPort
    | with_reducible apply originate_moves | with_reducible apply recordFault_moves | with_reducible apply Moves.each
    | with_reducible decide | dsimp only | intro _ _ _ | with_reducible assumption

theorem badMessage_moves (s : State) (p : Fin 2) (hO : Moves ps s₀ s)
    (mO : ∀ p ∈ [Part.qe, .hl, .dm], p ∈ ps) : Moves ps s₀ (badMessage s p) := by
  refine hO.step mO ?_
  clear hO mO
  unfold badMessage
  repeat' first
    | with_reducible exact Moves.refl _ _ | with_reducible apply Moves.modHl | with_reducible apply Moves.modPort
    | with_reducible apply portFail_moves | with_reducible decide | with_reducible apply Moves.ite | split | dsimp only

theorem badMessageEffect_moves (p : Fin 2) (slot : HlSlot) (s : State) (hO : Moves ps s₀ s)
    (mO : ∀ p ∈ [Part.qe, .hl, .dm], p ∈ ps) : Moves ps s₀ (badMessageEffect p slot s) := by
  refine hO.step mO ?_
  clear hO mO
  unfold badMessageEffect
  repeat' first
    | with_reducible exact Moves.refl _ _ | with_reducible apply badMessage_moves | with_reducible decide
    | with_reducible apply Moves.ite

theorem probeEffect_moves (p : Fin 2) (s : State) (hO : Moves ps s₀ s)
    (mO : ∀ p ∈ [Part.qe, .hl, .dm], p ∈ ps) : Moves ps s₀ (probeEffect p s) := by
  refine hO.step mO ?_
  clear hO mO
  unfold probeEffect
  repeat' first
    | with_reducible exact Moves.refl _ _ | with_reducible apply Moves.modPort | with_reducible apply goodMessage_moves
    | with_reducible decide | with_reducible apply Moves.ite

theorem echoEffect_moves (p : Fin 2) (ta : BitVec 16) (s : State) (hO : Moves ps s₀ s)
    (mO : ∀ p ∈ [Part.free, .qe, .hl, .dm], p ∈ ps) : Moves ps s₀ (echoEffect p ta s) := by
  refine hO.step mO ?_
  clear hO mO
  unfold echoEffect
  repeat' first
    | with_reducible exact Moves.refl _ _ | with_reducible apply Moves.freeStep | with_reducible apply Moves.modPort
    | with_reducible apply goodMessage_moves | with_reducible decide | with_reducible apply Moves.ite | split
    | dsimp only

theorem trainCompleteEffect_moves (p : Fin 2) (s : State) (hO : Moves ps s₀ s)
    (mO : ∀ p ∈ [Part.hl], p ∈ ps) : Moves ps s₀ (trainCompleteEffect p s) := by
  refine hO.step mO ?_
  clear hO mO
  unfold trainCompleteEffect
  repeat' first
    | with_reducible exact Moves.refl _ _ | with_reducible apply Moves.modPort | with_reducible decide
    | with_reducible apply Moves.ite | split

theorem portReviveEffect_moves (p : Fin 2) (s : State) (hO : Moves ps s₀ s)
    (mO : ∀ p ∈ [Part.hl], p ∈ ps) : Moves ps s₀ (portReviveEffect p s) := by
  refine hO.step mO ?_
  clear hO mO
  unfold portReviveEffect
  repeat' first
    | with_reducible exact Moves.refl _ _ | with_reducible apply Moves.modPort | with_reducible decide
    | with_reducible apply Moves.ite

theorem forward_moves (s : State) (head : HlHead) (type : Nat) (payload : List Byte) (hO : Moves ps s₀ s)
    (mO : ∀ p ∈ [Part.hl], p ∈ ps) : Moves ps s₀ (forward s head type payload) := by
  refine hO.step mO ?_
  clear hO mO
  unfold forward
  repeat' first
    | with_reducible exact Moves.refl _ _ | with_reducible apply Moves.modPort | with_reducible decide
    | with_reducible apply Moves.ite

theorem onUp_moves (s : State) (p : Fin 2) (f : State → State) (hO : Moves ps s₀ s)
    (mO : ∀ p ∈ [Part.qe, .hl, .dm], p ∈ ps) (hf : ∀ t, Moves ps s₀ t → Moves ps s₀ (f t)) : Moves ps s₀ (onUp s p f)
      := by
  unfold onUp
  split
  · exact hO
  · split
    · exact hf _ hO
    · exact goodMessage_moves _ _ hO mO

theorem receiveHerd_moves (s : State) (head : HlHead) (hO : Moves ps s₀ s)
    (mO : ∀ p ∈ [Part.qe, .hl, .dm], p ∈ ps) : Moves ps s₀ (receiveHerd s head) := by
  refine hO.step mO ?_
  clear hO mO
  unfold receiveHerd
  repeat' first
    | with_reducible exact Moves.refl _ _ | with_reducible apply crossPort_moves
    | with_reducible apply goodMessage_moves | with_reducible decide

theorem idleMessageEffect_moves (p : Fin 2) (s : State) (hO : Moves ps s₀ s)
    (mO : ∀ p ∈ [Part.qe, .hl, .dm], p ∈ ps) : Moves ps s₀ (idleMessageEffect p s) := by
  refine hO.step mO ?_
  clear hO mO
  unfold idleMessageEffect
  repeat' first
    | with_reducible exact Moves.refl _ _ | with_reducible apply goodMessage_moves | with_reducible decide
    | with_reducible apply Moves.ite

theorem markUp_moves (s : State) (f : HlPort → HlPort) (hO : Moves ps s₀ s)
    (mO : ∀ p ∈ [Part.hl], p ∈ ps) : Moves ps s₀ (markUp s f) := by
  refine hO.step mO ?_
  clear hO mO
  unfold markUp
  repeat' first
    | with_reducible exact Moves.refl _ _ | with_reducible apply Moves.modHl | with_reducible decide

theorem timeOriginateEffect_moves (s : State) (hO : Moves ps s₀ s)
    (mO : ∀ p ∈ [Part.hl], p ∈ ps) : Moves ps s₀ (timeOriginateEffect s) := by
  refine hO.step mO ?_
  clear hO mO
  unfold timeOriginateEffect
  repeat' first
    | with_reducible exact Moves.refl _ _ | with_reducible apply Moves.modHl | with_reducible apply markUp_moves
    | with_reducible decide | with_reducible apply Moves.ite

theorem adjustTime_moves (s : State) (e : Int) (hO : Moves ps s₀ s)
    (mO : ∀ p ∈ [Part.time], p ∈ ps) : Moves ps s₀ (adjustTime s e) := by
  refine hO.step mO ?_
  clear hO mO
  unfold adjustTime
  repeat' first
    | with_reducible exact Moves.refl _ _ | with_reducible apply Moves.setTime | with_reducible decide

theorem timeMessageEffect_moves (head : HlHead) (value r : Tick) (s : State) (hO : Moves ps s₀ s)
    (mO : ∀ p ∈ [Part.free, .time, .qe, .hl, .dm], p ∈ ps) : Moves ps s₀ (timeMessageEffect head value r s) := by
  refine hO.step mO ?_
  clear hO mO
  unfold timeMessageEffect
  repeat' first
    | with_reducible exact Moves.refl _ _ | with_reducible apply Moves.freeStep | with_reducible apply Moves.modHl
    | with_reducible apply adjustTime_moves | with_reducible apply badMessage_moves | with_reducible apply forward_moves
    | with_reducible apply goodMessage_moves | with_reducible apply onUp_moves | with_reducible decide
    | with_reducible apply Moves.ite | split | dsimp only | intro _ _ | with_reducible assumption

theorem positionDueEffect_moves (h : Fin 4) (s : State) (hO : Moves ps s₀ s)
    (mO : ∀ p ∈ [Part.hl], p ∈ ps) : Moves ps s₀ (positionDueEffect h s) := by
  refine hO.step mO ?_
  clear hO mO
  unfold positionDueEffect
  repeat' first
    | with_reducible exact Moves.refl _ _ | with_reducible apply Moves.modHerd | with_reducible decide
    | with_reducible apply Moves.ite

theorem positionSent_moves (s : State) (h : Fin 4) (d : PosDue) (hO : Moves ps s₀ s)
    (mO : ∀ p ∈ [Part.tbe, .hl], p ∈ ps) : Moves ps s₀ (positionSent s h d) := by
  refine hO.step mO ?_
  clear hO mO
  unfold positionSent
  repeat' first
    | with_reducible exact Moves.refl _ _ | with_reducible apply Moves.modHerd | with_reducible apply Moves.modRem
    | with_reducible decide | with_reducible apply Moves.ite

theorem remMoved_moves (s : State) (h : Fin 4) (turned : Bool) (hO : Moves ps s₀ s)
    (mO : ∀ p ∈ [Part.tsq, .pw], p ∈ ps) : Moves ps s₀ (remMoved s h turned) := by
  refine hO.step mO ?_
  clear hO mO
  unfold remMoved
  repeat' first
    | with_reducible exact Moves.refl _ _ | with_reducible apply leaveSrcWait_moves
    | with_reducible apply turnedAgainst_moves | with_reducible apply Moves.each | with_reducible decide
    | with_reducible apply Moves.ite | split | dsimp only | intro _ _ _ | with_reducible assumption

theorem positionMessageEffect_moves (head : HlHead) (b : HlPos) (s : State) (hO : Moves ps s₀ s)
    (mO : ∀ p ∈ [Part.tbe, .tsq, .pw, .qe, .hl, .dm], p ∈ ps) : Moves ps s₀ (positionMessageEffect head b s) := by
  refine hO.step mO ?_
  clear hO mO
  unfold positionMessageEffect
  repeat' first
    | with_reducible exact Moves.refl _ _ | with_reducible apply Moves.modHerd | with_reducible apply Moves.modHl
    | with_reducible apply Moves.modRem | with_reducible apply forward_moves | with_reducible apply onUp_moves
    | with_reducible apply receiveHerd_moves | with_reducible apply remMoved_moves | with_reducible decide
    | with_reducible apply Moves.ite | split | dsimp only | intro _ _ | with_reducible assumption

theorem readyOriginateEffect_moves (h : Fin 4) (s : State) (hO : Moves ps s₀ s)
    (mO : ∀ p ∈ [Part.hl], p ∈ ps) : Moves ps s₀ (readyOriginateEffect h s) := by
  refine hO.step mO ?_
  clear hO mO
  unfold readyOriginateEffect
  repeat' first
    | with_reducible exact Moves.refl _ _ | with_reducible apply Moves.modHerd | with_reducible apply markUp_moves
    | with_reducible decide | with_reducible apply Moves.ite

theorem eventReadyEffect_moves (head : HlHead) (s : State) (hO : Moves ps s₀ s)
    (mO : ∀ p ∈ [Part.qe, .hl, .dm], p ∈ ps) : Moves ps s₀ (eventReadyEffect head s) := by
  refine hO.step mO ?_
  clear hO mO
  unfold eventReadyEffect
  repeat' first
    | with_reducible exact Moves.refl _ _ | with_reducible apply Moves.modHerd | with_reducible apply forward_moves
    | with_reducible apply onUp_moves | with_reducible apply receiveHerd_moves | with_reducible decide
    | with_reducible apply Moves.ite | split | dsimp only | intro _ _ | with_reducible assumption

theorem readyExpiryEffect_moves (h : Fin 4) (d : Fin 8) (s : State) (hO : Moves ps s₀ s)
    (mO : ∀ p ∈ [Part.hl], p ∈ ps) : Moves ps s₀ (readyExpiryEffect h d s) := by
  refine hO.step mO ?_
  clear hO mO
  unfold readyExpiryEffect
  repeat' first
    | with_reducible exact Moves.refl _ _ | with_reducible apply Moves.modHerd | with_reducible decide
    | with_reducible apply Moves.ite

theorem markStarting_moves (s : State) (h : Fin 4) (hO : Moves ps s₀ s)
    (mO : ∀ p ∈ [Part.hl], p ∈ ps) : Moves ps s₀ (markStarting s h) := by
  refine hO.step mO ?_
  clear hO mO
  unfold markStarting
  repeat' first
    | with_reducible exact Moves.refl _ _ | with_reducible apply Moves.modHerd | with_reducible decide

theorem schedule_moves (s : State) (h : Fin 4) (e : Sched) (hO : Moves ps s₀ s)
    (mO : ∀ p ∈ [Part.hl], p ∈ ps) : Moves ps s₀ (schedule s h e) := by
  refine hO.step mO ?_
  clear hO mO
  unfold schedule
  repeat' first
    | with_reducible exact Moves.refl _ _ | with_reducible apply Moves.modHerd | with_reducible decide
    | with_reducible apply Moves.ite

theorem herdStartEffect_moves (h : Fin 4) (s : State) (hO : Moves ps s₀ s)
    (mO : ∀ p ∈ [Part.hl], p ∈ ps) : Moves ps s₀ (herdStartEffect h s) := by
  refine hO.step mO ?_
  clear hO mO
  unfold herdStartEffect
  repeat' first
    | with_reducible exact Moves.refl _ _ | with_reducible apply Moves.modHl | with_reducible apply markStarting_moves
    | with_reducible apply originate_moves | with_reducible decide | with_reducible apply Moves.ite

theorem herdStopEffect_moves (h : Fin 4) (s : State) (hO : Moves ps s₀ s)
    (mO : ∀ p ∈ [Part.hl], p ∈ ps) : Moves ps s₀ (herdStopEffect h s) := by
  refine hO.step mO ?_
  clear hO mO
  unfold herdStopEffect
  repeat' first
    | with_reducible exact Moves.refl _ _ | with_reducible apply originate_moves | with_reducible decide
    | with_reducible apply Moves.ite

theorem herdReviveEffect_moves (h : Fin 4) (s : State) (hO : Moves ps s₀ s)
    (mO : ∀ p ∈ [Part.hl], p ∈ ps) : Moves ps s₀ (herdReviveEffect h s) := by
  refine hO.step mO ?_
  clear hO mO
  unfold herdReviveEffect
  repeat' first
    | with_reducible exact Moves.refl _ _ | with_reducible apply originate_moves | with_reducible decide
    | with_reducible apply Moves.ite

theorem rememberSerial_moves (s : State) (o : Fin 8) (n : Byte) (hO : Moves ps s₀ s)
    (mO : ∀ p ∈ [Part.hl], p ∈ ps) : Moves ps s₀ (rememberSerial s o n) := by
  refine hO.step mO ?_
  clear hO mO
  unfold rememberSerial
  repeat' first
    | with_reducible exact Moves.refl _ _ | with_reducible apply Moves.modHl | with_reducible decide

theorem class0Effect_moves (ev : HerdEvent) (head : HlHead) (c : HlCmd) (s : State) (hO : Moves ps s₀ s)
    (mO : ∀ p ∈ [Part.qe, .hl, .dm], p ∈ ps) : Moves ps s₀ (class0Effect ev head c s) := by
  refine hO.step mO ?_
  clear hO mO
  unfold class0Effect
  repeat' first
    | with_reducible exact Moves.refl _ _ | with_reducible apply forward_moves | with_reducible apply markStarting_moves
    | with_reducible apply onUp_moves | with_reducible apply receiveHerd_moves
    | with_reducible apply rememberSerial_moves | with_reducible apply schedule_moves | with_reducible decide
    | with_reducible apply Moves.ite | split | dsimp only | intro _ _ | with_reducible assumption

theorem sendSlot_moves (s : State) (p : Fin 2) (msg : List Byte) (hO : Moves ps s₀ s)
    (mO : ∀ p ∈ [Part.hl], p ∈ ps) : Moves ps s₀ (sendSlot s p msg) := by
  refine hO.step mO ?_
  clear hO mO
  unfold sendSlot
  repeat' first
    | with_reducible exact Moves.refl _ _ | with_reducible apply Moves.modPort | with_reducible decide
    | with_reducible apply Moves.ite

theorem sendLocal_moves (s : State) (p : Fin 2) (type : Nat) (hO : Moves ps s₀ s)
    (mO : ∀ p ∈ [Part.hl], p ∈ ps) : Moves ps s₀ (sendLocal s p type) := by
  refine hO.step mO ?_
  clear hO mO
  unfold sendLocal
  repeat' first
    | with_reducible exact Moves.refl _ _ | with_reducible apply sendSlot_moves | with_reducible decide

theorem setOut0_moves (s : State) (o : HlOut) (hO : Moves ps s₀ s)
    (mO : ∀ p ∈ [Part.hl], p ∈ ps) : Moves ps s₀ (setOut0 s o) := by
  refine hO.step mO ?_
  clear hO mO
  unfold setOut0
  repeat' first
    | with_reducible exact Moves.refl _ _ | with_reducible apply Moves.modHl | with_reducible decide

theorem fixOut0_moves (s : State) (o : HlOut) (hO : Moves ps s₀ s)
    (mO : ∀ p ∈ [Part.hl], p ∈ ps) : Moves ps s₀ (fixOut0 s o).1 := by
  refine hO.step mO ?_
  clear hO mO
  unfold fixOut0
  repeat' first
    | with_reducible exact Moves.refl _ _ | with_reducible apply schedule_moves | with_reducible apply setOut0_moves
    | with_reducible decide | split

theorem useOut0_moves (s : State) (p : Fin 2) (o : HlOut) (failed : Bool) (hO : Moves ps s₀ s)
    (mO : ∀ p ∈ [Part.hl], p ∈ ps) : Moves ps s₀ (useOut0 s p o failed) := by
  refine hO.step mO ?_
  clear hO mO
  unfold useOut0
  repeat' first
    | with_reducible exact Moves.refl _ _ | with_reducible refine Moves.fst (by assumption) ?_
    | with_reducible apply Moves.modHl | with_reducible apply crossPort_moves | with_reducible apply fixOut0_moves
    | with_reducible apply sendLocal_moves | with_reducible apply sendSlot_moves | with_reducible apply setOut0_moves
    | with_reducible decide | with_reducible apply Moves.ite

theorem sendPosition_moves (s : State) (p : Fin 2) (h : Fin 4) (d : PosDue) (hO : Moves ps s₀ s)
    (mO : ∀ p ∈ [Part.tbe, .hl], p ∈ ps) : Moves ps s₀ (sendPosition s p h d) := by
  refine hO.step mO ?_
  clear hO mO
  unfold sendPosition
  repeat' first
    | with_reducible exact Moves.refl _ _ | with_reducible apply Moves.modHerd | with_reducible apply Moves.modPort
    | with_reducible apply crossPort_moves | with_reducible apply positionSent_moves
    | with_reducible apply sendSlot_moves | with_reducible decide

theorem sendEcho_moves (s : State) (p : Fin 2) (t : Nat) (hO : Moves ps s₀ s)
    (mO : ∀ p ∈ [Part.hl], p ∈ ps) : Moves ps s₀ (sendEcho s p t) := by
  refine hO.step mO ?_
  clear hO mO
  unfold sendEcho
  repeat' first
    | with_reducible exact Moves.refl _ _ | with_reducible apply Moves.modPort | with_reducible apply sendSlot_moves
    | with_reducible decide

theorem sendOwn_moves (s : State) (p : Fin 2) (hO : Moves ps s₀ s)
    (mO : ∀ p ∈ [Part.tbe, .hl], p ∈ ps) : Moves ps s₀ (sendOwn s p) := by
  refine hO.step mO ?_
  clear hO mO
  unfold sendOwn
  repeat' first
    | with_reducible exact Moves.refl _ _ | with_reducible apply Moves.modPort | with_reducible apply crossPort_moves
    | with_reducible apply sendLocal_moves | with_reducible apply sendPosition_moves
    | with_reducible apply sendSlot_moves | with_reducible apply useOut0_moves | with_reducible decide
    | with_reducible apply Moves.ite | split

theorem portSlot_moves (s : State) (p : Fin 2) (hO : Moves ps s₀ s)
    (mO : ∀ p ∈ [Part.tbe, .hl], p ∈ ps) : Moves ps s₀ (portSlot s p) := by
  refine hO.step mO ?_
  clear hO mO
  unfold portSlot
  repeat' first
    | with_reducible exact Moves.refl _ _ | with_reducible apply Moves.modHl | with_reducible apply Moves.modPort
    | with_reducible apply crossPort_moves | with_reducible apply sendEcho_moves | with_reducible apply sendLocal_moves
    | with_reducible apply sendOwn_moves | with_reducible apply sendSlot_moves | with_reducible apply useOut0_moves
    | with_reducible decide | with_reducible apply Moves.ite | split | dsimp only

theorem aloneSlot_moves (s : State) (hO : Moves ps s₀ s)
    (mO : ∀ p ∈ [Part.tbe, .hl], p ∈ ps) : Moves ps s₀ (aloneSlot s) := by
  refine hO.step mO ?_
  clear hO mO
  unfold aloneSlot
  repeat' first
    | with_reducible exact Moves.refl _ _ | with_reducible refine Moves.fst (by assumption) ?_
    | with_reducible apply Moves.modHerd | with_reducible apply fixOut0_moves | with_reducible apply positionSent_moves
    | with_reducible apply Moves.each | with_reducible decide | with_reducible apply Moves.ite | split | dsimp only
    | intro _ _ _ | with_reducible assumption

theorem clearOut0_moves (s : State) (hO : Moves ps s₀ s)
    (mO : ∀ p ∈ [Part.hl], p ∈ ps) : Moves ps s₀ (clearOut0 s) := by
  refine hO.step mO ?_
  clear hO mO
  unfold clearOut0
  repeat' first
    | with_reducible exact Moves.refl _ _ | with_reducible apply Moves.modHl | with_reducible decide

theorem slotTurn_moves (s : State) (hO : Moves ps s₀ s)
    (mO : ∀ p ∈ [Part.tbe, .hl], p ∈ ps) : Moves ps s₀ (slotTurn s) := by
  refine hO.step mO ?_
  clear hO mO
  unfold slotTurn
  repeat' first
    | with_reducible exact Moves.refl _ _ | with_reducible apply aloneSlot_moves | with_reducible apply clearOut0_moves
    | with_reducible apply portSlot_moves | with_reducible decide | with_reducible apply Moves.ite

theorem schedDone_moves (s : State) (h : Fin 4) (ev : HerdEvent) (hO : Moves ps s₀ s)
    (mO : ∀ p ∈ [Part.hl], p ∈ ps) : Moves ps s₀ (schedDone s h ev) := by
  refine hO.step mO ?_
  clear hO mO
  unfold schedDone
  repeat' first
    | with_reducible exact Moves.refl _ _ | with_reducible apply Moves.modHerd | with_reducible decide

theorem startTsq_moves (s : State) (h : Fin 4) (n : Fin 16) (hO : Moves ps s₀ s)
    (mO : ∀ p ∈ [Part.tsq], p ∈ ps) : Moves ps s₀ (startTsq s h n) := by
  refine hO.step mO ?_
  clear hO mO
  unfold startTsq
  repeat' first
    | with_reducible exact Moves.refl _ _ | with_reducible apply Moves.modTsq | with_reducible apply emptyHist_moves
    | with_reducible decide | with_reducible apply Moves.ite

theorem stopTsq_moves (s : State) (n : Fin 16) (hO : Moves ps s₀ s)
    (mO : ∀ p ∈ [Part.tsq, .pw], p ∈ ps) : Moves ps s₀ (stopTsq s n) := by
  refine hO.step mO ?_
  clear hO mO
  unfold stopTsq
  repeat' first
    | with_reducible exact Moves.refl _ _ | with_reducible apply Moves.modTsq | with_reducible apply squashAll_moves
    | with_reducible decide | with_reducible apply Moves.ite

theorem retireHerd_moves (s : State) (h : Fin 4) (cause : BitVec 3) (dev : BitVec 3) (seq pointer : Word) (hO : Moves
      ps s₀ s)
    (mO : ∀ p ∈ [Part.tsq, .cap, .pw, .qe, .hl, .dm], p ∈ ps) : Moves ps s₀ (retireHerd s h cause dev seq pointer) := by
  refine hO.step mO ?_
  clear hO mO
  unfold retireHerd
  repeat' first
    | with_reducible exact Moves.refl _ _ | with_reducible apply Moves.modHerd | with_reducible apply Moves.modHl
    | with_reducible apply retireList_moves | with_reducible decide

theorem herdRetiredEffect_moves (h : Fin 4) (s : State) (hO : Moves ps s₀ s)
    (mO : ∀ p ∈ [Part.tsq, .cap, .pw, .qe, .hl, .dm], p ∈ ps) : Moves ps s₀ (herdRetiredEffect h s) := by
  refine hO.step mO ?_
  clear hO mO
  unfold herdRetiredEffect
  repeat' first
    | with_reducible exact Moves.refl _ _ | with_reducible apply retireHerd_moves | with_reducible apply schedDone_moves
    | with_reducible decide | with_reducible apply Moves.ite | split

theorem herdStartedEffect_moves (h : Fin 4) (s : State) (hO : Moves ps s₀ s)
    (mO : ∀ p ∈ [Part.tsq, .hl], p ∈ ps) : Moves ps s₀ (herdStartedEffect h s) := by
  refine hO.step mO ?_
  clear hO mO
  unfold herdStartedEffect
  repeat' first
    | with_reducible exact Moves.refl _ _ | with_reducible apply Moves.modHerd | with_reducible apply Moves.modHl
    | with_reducible apply schedDone_moves | with_reducible apply startTsq_moves | with_reducible apply Moves.each
    | with_reducible decide | with_reducible apply Moves.ite | split | dsimp only | intro _ _ _
    | with_reducible assumption

theorem herdStoppedEffect_moves (h : Fin 4) (s : State) (hO : Moves ps s₀ s)
    (mO : ∀ p ∈ [Part.tsq, .pw, .hl], p ∈ ps) : Moves ps s₀ (herdStoppedEffect h s) := by
  refine hO.step mO ?_
  clear hO mO
  unfold herdStoppedEffect
  repeat' first
    | with_reducible exact Moves.refl _ _ | with_reducible apply Moves.modHerd | with_reducible apply schedDone_moves
    | with_reducible apply stopTsq_moves | with_reducible apply Moves.each | with_reducible decide
    | with_reducible apply Moves.ite | split | dsimp only | intro _ _ _ | with_reducible assumption

theorem herdRevivedEffect_moves (h : Fin 4) (s : State) (hO : Moves ps s₀ s)
    (mO : ∀ p ∈ [Part.tsq, .cap, .hl], p ∈ ps) : Moves ps s₀ (herdRevivedEffect h s) := by
  refine hO.step mO ?_
  clear hO mO
  unfold herdRevivedEffect
  repeat' first
    | with_reducible exact Moves.refl _ _ | with_reducible apply Moves.modHerd | with_reducible apply Moves.modTsq
    | with_reducible apply reviveUnit_moves | with_reducible apply schedDone_moves | with_reducible apply Moves.each
    | with_reducible decide | with_reducible apply Moves.ite | split | dsimp only | intro _ _ _
    | with_reducible assumption

theorem haltNoted_moves (s : State) (hO : Moves ps s₀ s)
    (mO : ∀ p ∈ [Part.hl], p ∈ ps) : Moves ps s₀ (haltNoted s) := by
  refine hO.step mO ?_
  clear hO mO
  unfold haltNoted
  repeat' first
    | with_reducible exact Moves.refl _ _ | with_reducible apply Moves.modHl | with_reducible decide

theorem haltEffect_moves (s : State) (hO : Moves ps s₀ s)
    (mO : ∀ p ∈ [Part.hl], p ∈ ps) : Moves ps s₀ (haltEffect s) := by
  refine hO.step mO ?_
  clear hO mO
  unfold haltEffect
  repeat' first
    | with_reducible exact Moves.refl _ _ | with_reducible apply Moves.modHl | with_reducible apply haltNoted_moves
    | with_reducible decide

theorem haltReleaseEffect_moves (s : State) (hO : Moves ps s₀ s)
    (mO : ∀ p ∈ [Part.hl], p ∈ ps) : Moves ps s₀ (haltReleaseEffect s) := by
  refine hO.step mO ?_
  clear hO mO
  unfold haltReleaseEffect
  repeat' first
    | with_reducible exact Moves.refl _ _ | with_reducible apply Moves.modHl | with_reducible apply haltNoted_moves
    | with_reducible decide

theorem haltAcceptEffect_moves (low : Bool) (s : State) (hO : Moves ps s₀ s)
    (mO : ∀ p ∈ [Part.free, .tsq, .cap, .pw, .qe, .hl, .dm], p ∈ ps) : Moves ps s₀ (haltAcceptEffect low s) := by
  refine hO.step mO ?_
  clear hO mO
  unfold haltAcceptEffect
  repeat' first
    | with_reducible exact Moves.refl _ _ | with_reducible apply Moves.freeStep | with_reducible apply Moves.modHl
    | with_reducible apply haltNoted_moves | with_reducible apply retireHerd_moves | with_reducible apply Moves.each
    | with_reducible decide | with_reducible apply Moves.ite | split | dsimp only | intro _ _ _
    | with_reducible assumption

theorem haltHighEffect_moves (s : State) (hO : Moves ps s₀ s)
    (mO : ∀ p ∈ [Part.hl], p ∈ ps) : Moves ps s₀ (haltHighEffect s) := by
  refine hO.step mO ?_
  clear hO mO
  unfold haltHighEffect
  repeat' first
    | with_reducible exact Moves.refl _ _ | with_reducible apply Moves.modHl | with_reducible apply haltNoted_moves
    | with_reducible decide | with_reducible apply Moves.ite

theorem hlCntClearEffect_moves (s : State) (hO : Moves ps s₀ s)
    (mO : ∀ p ∈ [Part.hl], p ∈ ps) : Moves ps s₀ (hlCntClearEffect s) := by
  refine hO.step mO ?_
  clear hO mO
  unfold hlCntClearEffect
  repeat' first
    | with_reducible exact Moves.refl _ _ | with_reducible apply Moves.modHl | with_reducible decide

theorem hlCommitEffect_moves (s : State) (hO : Moves ps s₀ s)
    (mO : ∀ p ∈ [Part.tbe, .tsq, .hl], p ∈ ps) : Moves ps s₀ (hlCommitEffect s) := by
  refine hO.step mO ?_
  clear hO mO
  unfold hlCommitEffect
  repeat' first
    | with_reducible exact Moves.refl _ _ | with_reducible apply Moves.modHl | with_reducible apply Moves.modRem
    | with_reducible apply leaveSrcWait_moves | with_reducible apply Moves.each | with_reducible decide
    | with_reducible apply Moves.ite | split | dsimp only | intro _ _ _ | with_reducible assumption

theorem hlWrite_moves (off : Nat) (w : Word) (s : State) (hO : Moves ps s₀ s)
    (mO : ∀ p ∈ [Part.hl], p ∈ ps) : Moves ps s₀ (hlWrite off w s) := by
  refine hO.step mO ?_
  clear hO mO
  unfold hlWrite
  repeat' first
    | with_reducible exact Moves.refl _ _ | with_reducible apply Moves.modHl | with_reducible apply haltEffect_moves
    | with_reducible apply haltReleaseEffect_moves | with_reducible apply herdReviveEffect_moves
    | with_reducible apply herdStartEffect_moves | with_reducible apply herdStopEffect_moves
    | with_reducible apply hlCntClearEffect_moves | with_reducible apply portReviveEffect_moves | with_reducible decide
    | with_reducible apply Moves.ite | split

/-! ### Capture -/

theorem completeLine_moves (s : State) (n : Fin 16) (l : Line) (h : Fin 2048) (gen : BitVec 7) (endTick : Nat) (hO :
      Moves ps s₀ s)
    (mO : ∀ p ∈ [Part.free, .cap, .pw, .qe, .dm, .fs], p ∈ ps) : Moves ps s₀ (completeLine s n l h gen endTick) := by
  refine hO.step mO ?_
  clear hO mO
  unfold completeLine
  repeat' first
    | with_reducible exact Moves.refl _ _ | with_reducible refine Moves.snd (by assumption) ?_
    | with_reducible apply Moves.freeStep | with_reducible apply Moves.modCap | with_reducible apply countDrop_moves
    | with_reducible apply dmWrite_moves | with_reducible apply lineGiveBack_moves | with_reducible apply objWrite_moves
    | with_reducible apply pwSeal_moves | with_reducible apply pwTrim_moves | with_reducible apply ringPost_moves
    | with_reducible decide | with_reducible apply Moves.ite

theorem finishLine_moves (s : State) (n : Fin 16) (l : Line) (endTick : Nat) (hO : Moves ps s₀ s)
    (mO : ∀ p ∈ [Part.free, .cap, .pw, .qe, .dm, .fs], p ∈ ps) : Moves ps s₀ (finishLine s n l endTick) := by
  refine hO.step mO ?_
  clear hO mO
  unfold finishLine
  repeat' first
    | with_reducible exact Moves.refl _ _ | with_reducible apply Moves.modCap | with_reducible apply completeLine_moves
    | with_reducible decide | split

theorem askHandle_moves (s : State) (n : Fin 16) (l : Line) (hO : Moves ps s₀ s)
    (mO : ∀ p ∈ [Part.pw], p ∈ ps) : Moves ps s₀ (askHandle s n l).1 := by
  refine hO.step mO ?_
  clear hO mO
  unfold askHandle
  repeat' first
    | with_reducible exact Moves.refl _ _ | with_reducible apply pwAsk_moves | with_reducible decide | split

theorem startDropped_moves (s : State) (n : Fin 16) (r : Fin 13) (l : Line) (hO : Moves ps s₀ s)
    (mO : ∀ p ∈ [Part.cap, .pw], p ∈ ps) : Moves ps s₀ (startDropped s n r l) := by
  refine hO.step mO ?_
  clear hO mO
  unfold startDropped
  repeat' first
    | with_reducible exact Moves.refl _ _ | with_reducible apply Moves.modCap | with_reducible apply dropLine_moves
    | with_reducible decide

theorem expirePending_moves (s : State) (n : Fin 16) (hO : Moves ps s₀ s)
    (mO : ∀ p ∈ [Part.cap, .pw], p ∈ ps) : Moves ps s₀ (expirePending s n) := by
  refine hO.step mO ?_
  clear hO mO
  unfold expirePending
  repeat' first
    | with_reducible exact Moves.refl _ _ | with_reducible apply Moves.modCap | with_reducible apply dropRelease_moves
    | with_reducible apply Moves.each | with_reducible decide | dsimp only | intro _ _ _ | with_reducible assumption

theorem startTriggered_moves (s : State) (n : Fin 16) (fval : Bool) (skew : Bool) (hO : Moves ps s₀ s)
    (mO : ∀ p ∈ [Part.cap, .pw], p ∈ ps) : Moves ps s₀ (startTriggered s n fval skew) := by
  refine hO.step mO ?_
  clear hO mO
  unfold startTriggered
  repeat' first
    | with_reducible exact Moves.refl _ _ | with_reducible refine Moves.fst (by assumption) ?_
    | with_reducible apply Moves.modCap | with_reducible apply askHandle_moves
    | with_reducible apply expirePending_moves | with_reducible apply startDropped_moves | with_reducible decide
    | with_reducible apply Moves.ite | split | dsimp only

theorem startFree_moves (s : State) (n : Fin 16) (fval : Bool) (skew : Bool) (hO : Moves ps s₀ s)
    (mO : ∀ p ∈ [Part.cap, .pw], p ∈ ps) : Moves ps s₀ (startFree s n fval skew) := by
  refine hO.step mO ?_
  clear hO mO
  unfold startFree
  repeat' first
    | with_reducible exact Moves.refl _ _ | with_reducible apply Moves.modCap | with_reducible apply pwAsk_moves
    | with_reducible apply startDropped_moves | with_reducible decide | with_reducible apply Moves.ite

theorem advanceFree_moves (s : State) (n : Fin 16) (hO : Moves ps s₀ s)
    (mO : ∀ p ∈ [Part.cap], p ∈ ps) : Moves ps s₀ (advanceFree s n) := by
  refine hO.step mO ?_
  clear hO mO
  unfold advanceFree
  repeat' first
    | with_reducible exact Moves.refl _ _ | with_reducible apply Moves.modCap | with_reducible decide

theorem lineStartEffect_moves (n : Fin 16) (fval : Bool) (skew : Nat) (s : State) (hO : Moves ps s₀ s)
    (mO : ∀ p ∈ [Part.cap, .pw], p ∈ ps) : Moves ps s₀ (lineStartEffect n fval skew s) := by
  refine hO.step mO ?_
  clear hO mO
  unfold lineStartEffect
  repeat' first
    | with_reducible exact Moves.refl _ _ | with_reducible apply advanceFree_moves
    | with_reducible apply countDrop_moves | with_reducible apply startDropped_moves
    | with_reducible apply startFree_moves | with_reducible apply startTriggered_moves | with_reducible decide
    | with_reducible apply Moves.ite

theorem lineTake_moves (s : State) (n : Fin 16) (l : Line) (stored : Nat) (hO : Moves ps s₀ s)
    (mO : ∀ p ∈ [Part.cap, .pw], p ∈ ps) : Moves ps s₀ (lineTake s n l stored) := by
  refine hO.step mO ?_
  clear hO mO
  unfold lineTake
  repeat' first
    | with_reducible exact Moves.refl _ _ | with_reducible apply Moves.modCap | with_reducible apply dropLine_moves
    | with_reducible decide | with_reducible apply Moves.ite

theorem lineEndEffect_moves (n : Fin 16) (ws : List CamWord) (stored : Nat) (falls : Bool) (s : State) (hO : Moves ps
      s₀ s)
    (mO : ∀ p ∈ [Part.free, .cap, .pw, .qe, .dm, .fs], p ∈ ps) : Moves ps s₀ (lineEndEffect n ws stored falls s) := by
  refine hO.step mO ?_
  clear hO mO
  unfold lineEndEffect
  repeat' first
    | with_reducible exact Moves.refl _ _ | with_reducible apply endLine_moves | with_reducible apply finishLine_moves
    | with_reducible apply lineTake_moves | with_reducible decide | with_reducible apply Moves.ite | split | dsimp only

theorem matchExpiryEffect_moves (n : Fin 16) (s : State) (hO : Moves ps s₀ s)
    (mO : ∀ p ∈ [Part.cap, .pw], p ∈ ps) : Moves ps s₀ (matchExpiryEffect n s) := by
  refine hO.step mO ?_
  clear hO mO
  unfold matchExpiryEffect
  repeat' first
    | with_reducible exact Moves.refl _ _ | with_reducible apply expirePending_moves | with_reducible decide

theorem startAttempt_moves (s : State) (n : Fin 16) (hO : Moves ps s₀ s)
    (mO : ∀ p ∈ [Part.cap], p ∈ ps) : Moves ps s₀ (startAttempt s n) := by
  refine hO.step mO ?_
  clear hO mO
  unfold startAttempt
  repeat' first
    | with_reducible exact Moves.refl _ _ | with_reducible apply Moves.modCap | with_reducible decide

theorem faultAttempt_moves (s : State) (h : Fin 16) (hO : Moves ps s₀ s)
    (mO : ∀ p ∈ [Part.tsq, .cap, .pw, .qe, .hl, .dm], p ∈ ps) : Moves ps s₀ (faultAttempt s h) := by
  refine hO.step mO ?_
  clear hO mO
  unfold faultAttempt
  repeat' first
    | with_reducible exact Moves.refl _ _ | with_reducible apply Moves.modCap | with_reducible apply linkPermanent_moves
    | with_reducible decide | with_reducible apply Moves.ite | split

theorem lossOfLockEffect_moves (n : Fin 16) (s : State) (hO : Moves ps s₀ s)
    (mO : ∀ p ∈ [Part.tsq, .cap, .pw, .qe, .hl, .dm], p ∈ ps) : Moves ps s₀ (lossOfLockEffect n s) := by
  refine hO.step mO ?_
  clear hO mO
  unfold lossOfLockEffect
  repeat' first
    | with_reducible exact Moves.refl _ _ | with_reducible apply Moves.modCap | with_reducible apply dropPending_moves
    | with_reducible apply endLine_moves | with_reducible apply faultAttempt_moves
    | with_reducible apply startAttempt_moves | with_reducible decide | with_reducible apply Moves.ite | split

theorem pclkEffect_moves (n : Fin 16) (count : Nat) (s : State) (hO : Moves ps s₀ s)
    (mO : ∀ p ∈ [Part.tsq, .cap, .pw, .qe, .hl, .dm], p ∈ ps) : Moves ps s₀ (pclkEffect n count s) := by
  refine hO.step mO ?_
  clear hO mO
  unfold pclkEffect
  repeat' first
    | with_reducible exact Moves.refl _ _ | with_reducible apply Moves.modCap
    | with_reducible apply lossOfLockEffect_moves | with_reducible decide | with_reducible apply Moves.ite | split

theorem lockSuccessEffect_moves (n : Fin 16) (s : State) (hO : Moves ps s₀ s)
    (mO : ∀ p ∈ [Part.cap], p ∈ ps) : Moves ps s₀ (lockSuccessEffect n s) := by
  refine hO.step mO ?_
  clear hO mO
  unfold lockSuccessEffect
  repeat' first
    | with_reducible exact Moves.refl _ _ | with_reducible apply Moves.modCap | with_reducible decide
    | with_reducible apply Moves.ite | split | dsimp only

theorem lockFailEffect_moves (n : Fin 16) (s : State) (hO : Moves ps s₀ s)
    (mO : ∀ p ∈ [Part.tsq, .cap, .pw, .qe, .hl, .dm], p ∈ ps) : Moves ps s₀ (lockFailEffect n s) := by
  refine hO.step mO ?_
  clear hO mO
  unfold lockFailEffect
  repeat' first
    | with_reducible exact Moves.refl _ _ | with_reducible apply faultAttempt_moves
    | with_reducible apply startAttempt_moves | with_reducible apply Moves.each | with_reducible decide
    | with_reducible apply Moves.ite | split | dsimp only | intro _ _ _ | with_reducible assumption

theorem capWindowEndEffect_moves (n : Fin 16) (s : State) (hO : Moves ps s₀ s)
    (mO : ∀ p ∈ [Part.tsq, .cap, .pw, .qe, .hl, .dm], p ∈ ps) : Moves ps s₀ (capWindowEndEffect n s) := by
  refine hO.step mO ?_
  clear hO mO
  unfold capWindowEndEffect
  repeat' first
    | with_reducible exact Moves.refl _ _ | with_reducible apply closeLink_moves
    | with_reducible apply linkPermanent_moves | with_reducible decide | with_reducible apply Moves.ite | split
    | dsimp only

theorem capCntClearEffect_moves (n : Fin 16) (s : State) (hO : Moves ps s₀ s)
    (mO : ∀ p ∈ [Part.cap], p ∈ ps) : Moves ps s₀ (capCntClearEffect n s) := by
  refine hO.step mO ?_
  clear hO mO
  unfold capCntClearEffect
  repeat' first
    | with_reducible exact Moves.refl _ _ | with_reducible apply Moves.modCap | with_reducible decide

theorem tagBaseEffect_moves (v : BitVec 3) (s : State) (hO : Moves ps s₀ s)
    (mO : ∀ p ∈ [Part.tagBase], p ∈ ps) : Moves ps s₀ (tagBaseEffect v s) := by
  refine hO.step mO ?_
  clear hO mO
  unfold tagBaseEffect
  repeat' first
    | with_reducible exact Moves.refl _ _ | with_reducible decide | with_reducible apply Moves.ite | split | dsimp only
    | with_reducible apply Moves.set_tagBase

theorem restartReceiver_moves (s : State) (n : Fin 16) (hO : Moves ps s₀ s)
    (mO : ∀ p ∈ [Part.cap], p ∈ ps) : Moves ps s₀ (restartReceiver s n) := by
  refine hO.step mO ?_
  clear hO mO
  unfold restartReceiver
  repeat' first
    | with_reducible exact Moves.refl _ _ | with_reducible apply Moves.modCap | with_reducible decide

theorem gangChangeBefore_moves (s : State) (n : Fin 16) (hO : Moves ps s₀ s)
    (mO : ∀ p ∈ [Part.tsq, .cap, .pw, .qe, .hl, .dm], p ∈ ps) : Moves ps s₀ (gangChangeBefore s n) := by
  refine hO.step mO ?_
  clear hO mO
  unfold gangChangeBefore
  repeat' first
    | with_reducible exact Moves.refl _ _ | with_reducible apply classAtStop_moves
    | with_reducible apply dropEnding_moves | with_reducible apply dropPending_moves
    | with_reducible apply endLine_moves | with_reducible apply Moves.each | with_reducible decide | dsimp only
    | intro _ _ _ | with_reducible assumption

theorem gangChangeAfter_moves (s : State) (n : Fin 16) (hO : Moves ps s₀ s)
    (mO : ∀ p ∈ [Part.tsq, .cap, .pw, .qe, .dm], p ∈ ps) : Moves ps s₀ (gangChangeAfter s n) := by
  refine hO.step mO ?_
  clear hO mO
  unfold gangChangeAfter
  repeat' first
    | with_reducible exact Moves.refl _ _ | with_reducible apply Moves.modCap | with_reducible apply Moves.modTsq
    | with_reducible apply cancelWhere_moves | with_reducible apply enableTsq_moves
    | with_reducible apply restartReceiver_moves | with_reducible apply squashAll_moves | with_reducible decide
    | with_reducible apply Moves.ite

theorem capCommitEffect_moves (n : Fin 16) (s : State) (hO : Moves ps s₀ s)
    (mO : ∀ p ∈ [Part.tsq, .cap, .pw, .qe, .hl, .dm], p ∈ ps) : Moves ps s₀ (capCommitEffect n s) := by
  refine hO.step mO ?_
  clear hO mO
  unfold capCommitEffect
  repeat' first
    | with_reducible exact Moves.refl _ _ | with_reducible apply Moves.modCap | with_reducible apply classAtStop_moves
    | with_reducible apply dropEnding_moves | with_reducible apply dropPending_moves
    | with_reducible apply endLine_moves | with_reducible apply gangChangeAfter_moves
    | with_reducible apply gangChangeBefore_moves | with_reducible apply restartReceiver_moves
    | with_reducible apply Moves.each | with_reducible decide | with_reducible apply Moves.ite | split | dsimp only
    | intro _ _ _ | with_reducible assumption

/-! ### PageWarden -/

theorem setWaitingLine_moves (s : State) (n : Fin 16) (p : Line → Bool) (l' : Line) (hO : Moves ps s₀ s)
    (mO : ∀ p ∈ [Part.cap], p ∈ ps) : Moves ps s₀ (setWaitingLine s n p l') := by
  refine hO.step mO ?_
  clear hO mO
  unfold setWaitingLine
  repeat' first
    | with_reducible exact Moves.refl _ _ | with_reducible apply Moves.modCap | with_reducible decide

theorem dropWaiting_moves (s : State) (n : Fin 16) (p : Line → Bool) (r : Fin 13) (l : Line) (hO : Moves ps s₀ s)
    (mO : ∀ p ∈ [Part.cap, .pw], p ∈ ps) : Moves ps s₀ (dropWaiting s n p r l) := by
  refine hO.step mO ?_
  clear hO mO
  unfold dropWaiting
  repeat' first
    | with_reducible exact Moves.refl _ _ | with_reducible apply Moves.modCap | with_reducible apply countDrop_moves
    | with_reducible apply dropLine_moves | with_reducible apply lineGiveBack_moves | with_reducible decide
    | with_reducible apply Moves.ite

theorem linePages_moves (s : State) (n : Fin 16) (ans : Option Nat) (hO : Moves ps s₀ s)
    (mO : ∀ p ∈ [Part.cap, .pw], p ∈ ps) : Moves ps s₀ (linePages s n ans) := by
  refine hO.step mO ?_
  clear hO mO
  unfold linePages
  repeat' first
    | with_reducible exact Moves.refl _ _ | with_reducible refine Moves.fst (by assumption) ?_
    | with_reducible apply askHandle_moves | with_reducible apply dropWaiting_moves
    | with_reducible apply pwReturn_moves | with_reducible apply setWaitingLine_moves | with_reducible decide | split

theorem lineHandle_moves (s : State) (n : Fin 16) (k : Nat) (ans : Option (Fin 2048 × BitVec 7)) (hO : Moves ps s₀ s)
    (mO : ∀ p ∈ [Part.free, .cap, .pw, .qe, .dm, .fs], p ∈ ps) : Moves ps s₀ (lineHandle s n k ans) := by
  refine hO.step mO ?_
  clear hO mO
  unfold lineHandle
  repeat' first
    | with_reducible exact Moves.refl _ _ | with_reducible refine Moves.snd (by assumption) ?_
    | with_reducible apply Moves.modCap | with_reducible apply completeLine_moves
    | with_reducible apply dropWaiting_moves | with_reducible apply pwAbandon_moves
    | with_reducible apply setWaitingLine_moves | with_reducible decide | split

theorem hostAnswer_moves (s : State) (c : BitVec 2) (hg : Option (Fin 2048 × BitVec 7)) (hO : Moves ps s₀ s)
    (mO : ∀ p ∈ [Part.qe], p ∈ ps) : Moves ps s₀ (hostAnswer s c hg) := by
  refine hO.step mO ?_
  clear hO mO
  unfold hostAnswer
  repeat' first
    | with_reducible exact Moves.refl _ _ | with_reducible apply Moves.modQe | with_reducible decide

theorem reserveAnswer_moves (s : State) (dest : PwDest) (ans : Option Nat) (hO : Moves ps s₀ s)
    (mO : ∀ p ∈ [Part.tsq, .cap, .pw], p ∈ ps) : Moves ps s₀ (reserveAnswer s dest ans) := by
  refine hO.step mO ?_
  clear hO mO
  unfold reserveAnswer
  repeat' first
    | with_reducible exact Moves.refl _ _ | with_reducible apply linePages_moves | with_reducible apply modSlot_moves
    | with_reducible apply pwReturn_moves | with_reducible decide | with_reducible apply Moves.ite | split

theorem objectAnswer_moves (s : State) (dest : PwDest) (c : PwCode) (hO : Moves ps s₀ s)
    (mO : ∀ p ∈ [Part.qe], p ∈ ps) : Moves ps s₀ (objectAnswer s dest c) := by
  refine hO.step mO ?_
  clear hO mO
  unfold objectAnswer
  repeat' first
    | with_reducible exact Moves.refl _ _ | with_reducible apply hostAnswer_moves | with_reducible decide | split

theorem pwServe_moves (s : State) (dest : PwDest) (q : PwReq) (f : State → State) (hO : Moves ps s₀ s)
    (mO : ∀ p ∈ [Part.pw], p ∈ ps) (hf : ∀ t, Moves ps s₀ t → Moves ps s₀ (f t)) : Moves ps s₀ (pwServe s dest q f)
      := by
  unfold pwServe
  split
  · exact hf _ hO
  · split
    · exact hf _ (pwServed_moves _ _ hO mO)
    · exact hO

theorem reserveEffect_moves (dest : PwDest) (c : PwClass) (o : Fin 16) (n : Nat) (s : State) (hO : Moves ps s₀ s)
    (mO : ∀ p ∈ [Part.free, .tsq, .cap, .pw], p ∈ ps) : Moves ps s₀ (reserveEffect dest c o n s) := by
  refine hO.step mO ?_
  clear hO mO
  unfold reserveEffect
  repeat' first
    | with_reducible exact Moves.refl _ _ | with_reducible refine Moves.snd (by assumption) ?_
    | with_reducible apply pwReserve_moves | with_reducible apply pwServe_moves
    | with_reducible apply reserveAnswer_moves | with_reducible decide | split | dsimp only | intro _ _
    | with_reducible assumption

theorem mapEffect_moves (dest : PwDest) (res : Nat) (stride : BitVec 9) (s : State) (hO : Moves ps s₀ s)
    (mO : ∀ p ∈ [Part.free, .cap, .pw, .qe, .dm, .fs], p ∈ ps) : Moves ps s₀ (mapEffect dest res stride s) := by
  refine hO.step mO ?_
  clear hO mO
  unfold mapEffect
  repeat' first
    | with_reducible exact Moves.refl _ _ | with_reducible refine Moves.snd (by assumption) ?_
    | with_reducible apply lineHandle_moves | with_reducible apply pwMap_moves | with_reducible apply pwServe_moves
    | with_reducible decide | split | dsimp only | intro _ _ | with_reducible assumption

theorem allocEffect_moves (dest : PwDest) (c : PwClass) (o : Fin 16) (n : Nat) (stride : BitVec 9) (s : State) (hO :
      Moves ps s₀ s)
    (mO : ∀ p ∈ [Part.free, .pw, .qe], p ∈ ps) : Moves ps s₀ (allocEffect dest c o n stride s) := by
  refine hO.step mO ?_
  clear hO mO
  unfold allocEffect
  repeat' first
    | with_reducible exact Moves.refl _ _ | with_reducible refine Moves.snd (by assumption) ?_
    | with_reducible apply hostAnswer_moves | with_reducible apply pwAlloc_moves | with_reducible apply pwServe_moves
    | with_reducible decide | with_reducible apply Moves.ite | split | dsimp only | intro _ _
    | with_reducible assumption

theorem objectEffect_moves (dest : PwDest) (q : PwReq) (op : State → PwCode × State) (s : State) (hO : Moves ps s₀ s)
    (mO : ∀ p ∈ [Part.pw, .qe], p ∈ ps) (hf : ∀ t, Moves ps s₀ t → Moves ps s₀ (op t).2) :
    Moves ps s₀ (objectEffect dest q op s) := by
  unfold objectEffect
  exact pwServe_moves _ _ _ _ hO (within mO (by decide)) fun t h =>
    objectAnswer_moves _ _ _ (hf t h) (within mO (by decide))

theorem pwRun_moves (s : State) (q : PwReq) (hO : Moves ps s₀ s)
    (mO : ∀ p ∈ [Part.free, .tsq, .cap, .pw, .qe, .dm, .fs], p ∈ ps) : Moves ps s₀ (pwRun s q) := by
  refine hO.step mO ?_
  clear hO mO
  unfold pwRun
  repeat' first
    | with_reducible exact Moves.refl _ _ | with_reducible refine Moves.snd (by assumption) ?_
    | with_reducible apply allocEffect_moves | with_reducible apply mapEffect_moves
    | with_reducible apply objectEffect_moves | with_reducible apply pwAbandon_moves
    | with_reducible apply pwAddref_moves | with_reducible apply pwRelease_moves | with_reducible apply pwSeal_moves
    | with_reducible apply reserveEffect_moves | with_reducible decide | split | dsimp only | intro _ _
    | with_reducible assumption

theorem pwRunBefore_moves (s : State) (q : PwReq) (n : Nat) (hO : Moves ps s₀ s)
    (mO : ∀ p ∈ [Part.free, .tsq, .cap, .pw, .qe, .dm, .fs], p ∈ ps) : Moves ps s₀ (pwRunBefore s q n) := by
  induction n generalizing s with
  | zero => exact hO
  | succ n ih =>
    unfold pwRunBefore
    split
    · exact hO
    · exact ih _ (pwRun_moves _ _ hO mO)

theorem pwTurn_moves (s : State) (q : PwReq) (hO : Moves ps s₀ s)
    (mO : ∀ p ∈ [Part.free, .tsq, .cap, .pw, .qe, .dm, .fs], p ∈ ps) : Moves ps s₀ (pwTurn s q) := by
  refine hO.step mO ?_
  clear hO mO
  unfold pwTurn
  repeat' first
    | with_reducible exact Moves.refl _ _ | with_reducible apply pwRunBefore_moves | with_reducible decide

end Sys2Proof.Machine
end

