-- ==== Sys2Proof/Laws/MovesQueue.lean ====
section
/-! SUPPORT. One law for each function of the queue engine, egress and the fabric ports: which parts of the state it may change, and
that both memories keep their canonical form. -/

namespace Sys2Proof.Machine

variable {ps : List Part} {s₀ : State}

/-! ### Qe -/

theorem noteEgress_moves (s : State) (c : Consumer) (code : Byte) (hO : Moves ps s₀ s)
    (mO : ∀ p ∈ [Part.egr], p ∈ ps) : Moves ps s₀ (noteEgress s c code) := by
  refine hO.step mO ?_
  clear hO mO
  unfold noteEgress
  repeat' first
    | with_reducible exact Moves.refl _ _ | with_reducible apply Moves.modEgr | with_reducible decide
    | with_reducible apply Moves.ite | split

theorem completeEntry_moves (s0 : State) (t : Taken) (code : Byte) (ref : Option (Fin 2048 × BitVec 7)) (hO : Moves
      ps s₀ s0)
    (mO : ∀ p ∈ [Part.pw, .qe, .egr, .dm], p ∈ ps) : Moves ps s₀ (completeEntry s0 t code ref) := by
  refine hO.step mO ?_
  clear hO mO
  unfold completeEntry
  repeat' first
    | with_reducible exact Moves.refl _ _ | with_reducible apply Moves.modQe | with_reducible apply Moves.modRing
    | with_reducible apply afterTagFreed_moves | with_reducible apply dmWrite_moves
    | with_reducible apply noteEgress_moves | with_reducible apply pwReleaseRef_moves | with_reducible decide

theorem countLate_moves (s : State) (hO : Moves ps s₀ s)
    (mO : ∀ p ∈ [Part.qe], p ∈ ps) : Moves ps s₀ (countLate s) := by
  refine hO.step mO ?_
  clear hO mO
  unfold countLate
  repeat' first
    | with_reducible exact Moves.refl _ _ | with_reducible apply Moves.modQe | with_reducible decide

theorem deliver_moves (s : State) (t : Taken) (tx : Fin 8) (hO : Moves ps s₀ s)
    (mO : ∀ p ∈ [Part.acc, .qe, .egr], p ∈ ps) : Moves ps s₀ (deliver s t tx) := by
  refine hO.step mO ?_
  clear hO mO
  unfold deliver
  repeat' first
    | with_reducible exact Moves.refl _ _ | with_reducible apply Moves.modEgr | with_reducible apply Moves.modQe
    | with_reducible apply logRefusal_moves | with_reducible decide | with_reducible apply Moves.ite | split

theorem afterTake_moves (s : State) (r : Fin 1024) (c : Consumer) (hO : Moves ps s₀ s)
    (mO : ∀ p ∈ [Part.qe], p ∈ ps) : Moves ps s₀ (afterTake s r c) := by
  refine hO.step mO ?_
  clear hO mO
  unfold afterTake
  repeat' first
    | with_reducible exact Moves.refl _ _ | with_reducible apply clearTurns_moves | with_reducible apply leaveTurn_moves
    | with_reducible decide | with_reducible apply Moves.ite

theorem pickRound_moves {s : State} {c : Consumer} {cls : Fin 4} {rings : List (Fin 1024)}
    {x : Fin 1024 × State} (e : pickRound s c cls rings = some x) (hO : Moves ps s₀ s) (mO : ∀ p ∈ [Part.qe], p ∈ ps) :
    Moves ps s₀ x.2 := by
  have m := mO .qe (by decide)
  unfold pickRound at e
  split at e
  · cases e
  · split at e
    · cases e
    · cases e
      exact setTurn_moves _ _ _ _ ((((hO.modRing m _ _).each fun _ _ h => h.modRing m _ _).each
        fun _ _ h => h.modRing m _ _).modRing m _ _) mO

theorem pickClass_moves {s : State} {c : Consumer} {cls : Fin 4} {x : Fin 1024 × State} (e : pickClass s c cls = some x)
    (hO : Moves ps s₀ s) (mO : ∀ p ∈ [Part.qe], p ∈ ps) : Moves ps s₀ x.2 := by
  have m := mO .qe (by decide)
  unfold pickClass at e
  split at e
  · cases e
  · dsimp only at e
    split at e
    · split at e
      · cases e; exact hO.modRing m _ _
      · exact pickRound_moves e (hO.modRing m _ _) mO
    · exact pickRound_moves e hO mO

/-- The pick of R290 changes nothing but the schedulers' turns and credits. -/
theorem pickRing_moves {s : State} {c : Consumer} {x : Fin 1024 × State} (e : pickRing s c = some x) (hO : Moves ps
      s₀ s)
    (mO : ∀ p ∈ [Part.qe], p ∈ ps) : Moves ps s₀ x.2 := by
  unfold pickRing at e
  split at e
  · cases e; exact pickClass_moves ‹_› hO mO
  · split at e
    · cases e; exact pickClass_moves ‹_› hO mO
    · split at e
      · cases e; exact pickClass_moves ‹_› hO mO
      · exact pickClass_moves e hO mO

theorem dispatchEffect_moves (c : Consumer) (s : State) (hO : Moves ps s₀ s)
    (mO : ∀ p ∈ [Part.acc, .qe, .egr], p ∈ ps) : Moves ps s₀ (dispatchEffect c s) := by
  have m1 : ∀ p ∈ [Part.qe], p ∈ ps := within mO (by decide)
  have m := m1 .qe (by decide)
  unfold dispatchEffect
  split
  · split
    · exact hO
    · rename_i e
      exact deliver_moves _ _ _ (afterTake_moves _ _ _ (((pickRing_moves e hO m1).modRing m _ _).modQe m _) m1) mO
  · exact hO

theorem inlineWords_moves (t : Taken) (o : MgmtOp) (s : State) (hO : Moves ps s₀ s)
    (mO : ∀ p ∈ [Part.dm], p ∈ ps) : Moves ps s₀ (inlineWords t o s) := by
  refine hO.step mO ?_
  clear hO mO
  unfold inlineWords
  repeat' first
    | with_reducible exact Moves.refl _ _ | with_reducible apply dmWrite_moves | with_reducible decide
    | with_reducible apply Moves.ite

theorem dropOp_moves (s : State) (t : Taken) (hO : Moves ps s₀ s)
    (mO : ∀ p ∈ [Part.qe], p ∈ ps) : Moves ps s₀ (dropOp s t) := by
  refine hO.step mO ?_
  clear hO mO
  unfold dropOp
  repeat' first
    | with_reducible exact Moves.refl _ _ | with_reducible apply Moves.modQe | with_reducible decide

theorem endTaken_moves (s : State) (t : Taken) (code : Byte) (hO : Moves ps s₀ s)
    (mO : ∀ p ∈ [Part.pw, .qe, .egr, .dm], p ∈ ps) : Moves ps s₀ (endTaken s t code) := by
  refine hO.step mO ?_
  clear hO mO
  unfold endTaken
  repeat' first
    | with_reducible exact Moves.refl _ _ | with_reducible apply completeEntry_moves | with_reducible apply dropOp_moves
    | with_reducible apply inlineWords_moves | with_reducible decide | with_reducible apply Moves.ite | split

theorem entryCompleteEffect_moves (r : Fin 1024) (i : BitVec 16) (s : State) (hO : Moves ps s₀ s)
    (mO : ∀ p ∈ [Part.acc, .pw, .qe, .egr, .dm], p ∈ ps) : Moves ps s₀ (entryCompleteEffect r i s) := by
  refine hO.step mO ?_
  clear hO mO
  unfold entryCompleteEffect
  repeat' first
    | with_reducible exact Moves.refl _ _ | with_reducible apply countLate_moves | with_reducible apply endTaken_moves
    | with_reducible apply noteFence_moves | with_reducible decide | split

theorem abandonWork_moves (s : State) (t : Taken) (hO : Moves ps s₀ s)
    (mO : ∀ p ∈ [Part.qe, .egr, .fsp], p ∈ ps) : Moves ps s₀ (abandonWork s t) := by
  refine hO.step mO ?_
  clear hO mO
  unfold abandonWork
  repeat' first
    | with_reducible exact Moves.refl _ _ | with_reducible apply Moves.modEgr | with_reducible apply Moves.modFsp
    | with_reducible apply dropOp_moves | with_reducible decide | with_reducible apply Moves.ite | split

theorem ringTimeoutEffect_moves (r : Fin 1024) (i : BitVec 16) (s0 : State) (hO : Moves ps s₀ s0)
    (mO : ∀ p ∈ [Part.acc, .pw, .qe, .egr, .fsp, .dm], p ∈ ps) : Moves ps s₀ (ringTimeoutEffect r i s0) := by
  refine hO.step mO ?_
  clear hO mO
  unfold ringTimeoutEffect
  repeat' first
    | with_reducible exact Moves.refl _ _ | with_reducible apply Moves.modQe | with_reducible apply abandonWork_moves
    | with_reducible apply completeEntry_moves | with_reducible apply endTaken_moves
    | with_reducible apply noteFence_moves | with_reducible apply recordFault_moves | with_reducible decide
    | with_reducible apply Moves.ite | split

theorem doorbellBad_moves (s : State) (hO : Moves ps s₀ s)
    (mO : ∀ p ∈ [Part.qe], p ∈ ps) : Moves ps s₀ (doorbellBad s) := by
  refine hO.step mO ?_
  clear hO mO
  unfold doorbellBad
  repeat' first
    | with_reducible exact Moves.refl _ _ | with_reducible apply Moves.modQe | with_reducible decide

theorem doorbellPiEffect_moves (r : Fin 1024) (i : BitVec 16) (s : State) (hO : Moves ps s₀ s)
    (mO : ∀ p ∈ [Part.qe], p ∈ ps) : Moves ps s₀ (doorbellPiEffect r i s) := by
  refine hO.step mO ?_
  clear hO mO
  unfold doorbellPiEffect
  repeat' first
    | with_reducible exact Moves.refl _ _ | with_reducible apply Moves.modRing | with_reducible apply doorbellBad_moves
    | with_reducible apply joinTurn_moves | with_reducible apply leaveTurn_moves | with_reducible decide
    | with_reducible apply Moves.ite

theorem doorbellCiEffect_moves (r : Fin 1024) (i : BitVec 16) (s : State) (hO : Moves ps s₀ s)
    (mO : ∀ p ∈ [Part.qe], p ∈ ps) : Moves ps s₀ (doorbellCiEffect r i s) := by
  refine hO.step mO ?_
  clear hO mO
  unfold doorbellCiEffect
  repeat' first
    | with_reducible exact Moves.refl _ _ | with_reducible apply Moves.modRing | with_reducible apply doorbellBad_moves
    | with_reducible decide | with_reducible apply Moves.ite

theorem hostCommand_moves (s : State) (q : PwReq) (hO : Moves ps s₀ s)
    (mO : ∀ p ∈ [Part.pw, .qe], p ∈ ps) : Moves ps s₀ (hostCommand s q) := by
  refine hO.step mO ?_
  clear hO mO
  unfold hostCommand
  repeat' first
    | with_reducible exact Moves.refl _ _ | with_reducible apply Moves.modQe | with_reducible apply pwAsk_moves
    | with_reducible decide | with_reducible apply Moves.ite

theorem hostAllocEffect_moves (s : State) (hO : Moves ps s₀ s)
    (mO : ∀ p ∈ [Part.pw, .qe], p ∈ ps) : Moves ps s₀ (hostAllocEffect s) := by
  refine hO.step mO ?_
  clear hO mO
  unfold hostAllocEffect
  repeat' first
    | with_reducible exact Moves.refl _ _ | with_reducible apply hostCommand_moves | with_reducible decide

theorem discardFrom_moves (s : State) (r : Fin 1024) (n : Nat) (hO : Moves ps s₀ s)
    (mO : ∀ p ∈ [Part.pw, .qe, .dm], p ∈ ps) : Moves ps s₀ (discardFrom s r n) := by
  induction n generalizing s with
  | zero => exact hO
  | succ n ih =>
    unfold discardFrom
    dsimp only
    split
    · exact hO
    · refine ih _ (pwReleaseRef_moves _ _ (Moves.modRing ?_ (mO _ (by decide)) _ _) (within mO (by decide)))
      split
      · exact dmWrite_moves _ _ _ hO (within mO (by decide))
      · exact hO

theorem ringCommitEffect_moves (r : Fin 1024) (s : State) (hO : Moves ps s₀ s)
    (mO : ∀ p ∈ [Part.pw, .qe, .dm], p ∈ ps) : Moves ps s₀ (ringCommitEffect r s) := by
  refine hO.step mO ?_
  clear hO mO
  unfold ringCommitEffect
  repeat' first
    | with_reducible exact Moves.refl _ _ | with_reducible apply Moves.modQe | with_reducible apply Moves.modRing
    | with_reducible apply discardFrom_moves | with_reducible apply joinTurn_moves
    | with_reducible apply leaveTurn_moves | with_reducible decide | with_reducible apply Moves.ite

theorem qeCntClearEffect_moves (s : State) (hO : Moves ps s₀ s)
    (mO : ∀ p ∈ [Part.qe], p ∈ ps) : Moves ps s₀ (qeCntClearEffect s) := by
  refine hO.step mO ?_
  clear hO mO
  unfold qeCntClearEffect
  repeat' first
    | with_reducible exact Moves.refl _ _ | with_reducible apply Moves.modQe | with_reducible decide

theorem hostCmdWrite_moves (w : Word) (s : State) (hO : Moves ps s₀ s)
    (mO : ∀ p ∈ [Part.pw, .qe], p ∈ ps) : Moves ps s₀ (hostCmdWrite w s) := by
  refine hO.step mO ?_
  clear hO mO
  unfold hostCmdWrite
  repeat' first
    | with_reducible exact Moves.refl _ _ | with_reducible apply hostAllocEffect_moves
    | with_reducible apply hostCommand_moves | with_reducible decide | split

theorem doorbellWrite_moves (w : Word) (s : State) (hO : Moves ps s₀ s)
    (mO : ∀ p ∈ [Part.qe], p ∈ ps) : Moves ps s₀ (doorbellWrite w s) := by
  refine hO.step mO ?_
  clear hO mO
  unfold doorbellWrite
  repeat' first
    | with_reducible exact Moves.refl _ _ | with_reducible apply doorbellCiEffect_moves
    | with_reducible apply doorbellPiEffect_moves | with_reducible decide | with_reducible apply Moves.ite

theorem qeWrite_moves (off : Nat) (w : Word) (s : State) (hO : Moves ps s₀ s)
    (mO : ∀ p ∈ [Part.pw, .qe], p ∈ ps) : Moves ps s₀ (qeWrite off w s) := by
  refine hO.step mO ?_
  clear hO mO
  unfold qeWrite
  repeat' first
    | with_reducible exact Moves.refl _ _ | with_reducible apply Moves.modQe | with_reducible apply Moves.modRing
    | with_reducible apply doorbellWrite_moves | with_reducible apply hostCmdWrite_moves
    | with_reducible apply qeCntClearEffect_moves | with_reducible decide | with_reducible apply Moves.ite

/-! ### Egress -/

theorem egrClose_moves (s : State) (n : Fin 4) (f : EgrFault) (perm retired : Bool) (hO : Moves ps s₀ s)
    (mO : ∀ p ∈ [Part.qe, .egr, .dm], p ∈ ps) : Moves ps s₀ (egrClose s n f perm retired) := by
  refine hO.step mO ?_
  clear hO mO
  unfold egrClose
  repeat' first
    | with_reducible exact Moves.refl _ _ | with_reducible apply Moves.modEgr | with_reducible apply recordFault_moves
    | with_reducible decide

theorem egrPermanent_moves (s : State) (n : Fin 4) (f : EgrFault) (hO : Moves ps s₀ s)
    (mO : ∀ p ∈ [Part.qe, .egr, .dm], p ∈ ps) : Moves ps s₀ (egrPermanent s n f) := by
  refine hO.step mO ?_
  clear hO mO
  unfold egrPermanent
  repeat' first
    | with_reducible exact Moves.refl _ _ | with_reducible apply Moves.modEgr | with_reducible apply egrClose_moves
    | with_reducible decide | with_reducible apply Moves.ite

theorem egrClassAtStop_moves (s : State) (n : Fin 4) (hO : Moves ps s₀ s)
    (mO : ∀ p ∈ [Part.qe, .egr, .dm], p ∈ ps) : Moves ps s₀ (egrClassAtStop s n) := by
  refine hO.step mO ?_
  clear hO mO
  unfold egrClassAtStop
  repeat' first
    | with_reducible exact Moves.refl _ _ | with_reducible apply egrClose_moves
    | with_reducible apply egrPermanent_moves | with_reducible decide | with_reducible apply Moves.ite | split

theorem egrLoss_moves (s : State) (n : Fin 4) (hO : Moves ps s₀ s)
    (mO : ∀ p ∈ [Part.qe, .egr, .dm], p ∈ ps) : Moves ps s₀ (egrLoss s n) := by
  refine hO.step mO ?_
  clear hO mO
  unfold egrLoss
  repeat' first
    | with_reducible exact Moves.refl _ _ | with_reducible apply Moves.modEgr | with_reducible apply egrPermanent_moves
    | with_reducible decide | with_reducible apply Moves.ite | split

theorem egrRisen_moves (s : State) (n : Fin 4) (hO : Moves ps s₀ s)
    (mO : ∀ p ∈ [Part.egr], p ∈ ps) : Moves ps s₀ (egrRisen s n) := by
  refine hO.step mO ?_
  clear hO mO
  unfold egrRisen
  repeat' first
    | with_reducible exact Moves.refl _ _ | with_reducible apply Moves.modEgr | with_reducible decide

theorem egrReceiver_moves (n : Fin 4) (rx : LinkRx) (s : State) (hO : Moves ps s₀ s)
    (mO : ∀ p ∈ [Part.qe, .egr, .dm], p ∈ ps) : Moves ps s₀ (egrReceiver n rx s) := by
  refine hO.step mO ?_
  clear hO mO
  unfold egrReceiver
  repeat' first
    | with_reducible exact Moves.refl _ _ | with_reducible apply Moves.modEgr | with_reducible apply egrLoss_moves
    | with_reducible apply egrRisen_moves | with_reducible decide | with_reducible apply Moves.ite

theorem linkUpEffect_moves (n : Fin 4) (s : State) (hO : Moves ps s₀ s)
    (mO : ∀ p ∈ [Part.qe, .egr, .dm], p ∈ ps) : Moves ps s₀ (linkUpEffect n s) := by
  refine hO.step mO ?_
  clear hO mO
  unfold linkUpEffect
  repeat' first
    | with_reducible exact Moves.refl _ _ | with_reducible apply egrReceiver_moves | with_reducible decide
    | with_reducible apply Moves.ite

theorem linkDownEffect_moves (n : Fin 4) (rx : LinkRx) (s : State) (hO : Moves ps s₀ s)
    (mO : ∀ p ∈ [Part.qe, .egr, .dm], p ∈ ps) : Moves ps s₀ (linkDownEffect n rx s) := by
  refine hO.step mO ?_
  clear hO mO
  unfold linkDownEffect
  repeat' first
    | with_reducible exact Moves.refl _ _ | with_reducible apply egrReceiver_moves | with_reducible decide
    | with_reducible apply Moves.ite

theorem egrWindowEndEffect_moves (n : Fin 4) (s : State) (hO : Moves ps s₀ s)
    (mO : ∀ p ∈ [Part.qe, .egr, .dm], p ∈ ps) : Moves ps s₀ (egrWindowEndEffect n s) := by
  refine hO.step mO ?_
  clear hO mO
  unfold egrWindowEndEffect
  repeat' first
    | with_reducible exact Moves.refl _ _ | with_reducible apply egrClose_moves
    | with_reducible apply egrPermanent_moves | with_reducible decide | with_reducible apply Moves.ite | split

theorem egrReviveEffect_moves (n : Fin 4) (s : State) (hO : Moves ps s₀ s)
    (mO : ∀ p ∈ [Part.egr], p ∈ ps) : Moves ps s₀ (egrReviveEffect n s) := by
  refine hO.step mO ?_
  clear hO mO
  unfold egrReviveEffect
  repeat' first
    | with_reducible exact Moves.refl _ _ | with_reducible apply Moves.modEgr | with_reducible decide
    | with_reducible apply Moves.ite

theorem egrArm_moves (n : Fin 4) (s : State) (hO : Moves ps s₀ s)
    (mO : ∀ p ∈ [Part.egr], p ∈ ps) : Moves ps s₀ (egrArm n s) := by
  refine hO.step mO ?_
  clear hO mO
  unfold egrArm
  repeat' first
    | with_reducible exact Moves.refl _ _ | with_reducible apply Moves.modEgr | with_reducible decide

theorem gapResetEffect_moves (n : Fin 4) (mask : BitVec 16) (s : State) (hO : Moves ps s₀ s)
    (mO : ∀ p ∈ [Part.egr], p ∈ ps) : Moves ps s₀ (gapResetEffect n mask s) := by
  refine hO.step mO ?_
  clear hO mO
  unfold gapResetEffect
  repeat' first
    | with_reducible exact Moves.refl _ _ | with_reducible apply Moves.modEgr | with_reducible decide

theorem readFragment_moves (s : State) (h : Held) (ecc : List Ecc) (hO : Moves ps s₀ s)
    (mO : ∀ p ∈ [Part.pw, .qe, .dm], p ∈ ps) : Moves ps s₀ (readFragment s h ecc) := by
  refine hO.step mO ?_
  clear hO mO
  unfold readFragment
  repeat' first
    | with_reducible exact Moves.refl _ _ | with_reducible apply eccReads_moves | with_reducible apply pwRange_moves
    | with_reducible decide | with_reducible apply Moves.ite

theorem endEntry_moves (s : State) (n : Fin 4) (h : Held) (code : Byte) (hO : Moves ps s₀ s)
    (mO : ∀ p ∈ [Part.pw, .qe, .egr, .dm], p ∈ ps) : Moves ps s₀ (endEntry s n h code) := by
  refine hO.step mO ?_
  clear hO mO
  unfold endEntry
  repeat' first
    | with_reducible exact Moves.refl _ _ | with_reducible apply Moves.modEgr | with_reducible apply completeEntry_moves
    | with_reducible decide | split | dsimp only

theorem poisonEntry_moves (s : State) (n : Fin 4) (h : Held) (ecc : List Ecc) (hO : Moves ps s₀ s)
    (mO : ∀ p ∈ [Part.pw, .qe, .egr, .dm], p ∈ ps) : Moves ps s₀ (poisonEntry s n h ecc) := by
  refine hO.step mO ?_
  clear hO mO
  unfold poisonEntry
  repeat' first
    | with_reducible exact Moves.refl _ _ | with_reducible apply Moves.modEgr | with_reducible apply eccReadsUntil_moves
    | with_reducible apply endEntry_moves | with_reducible decide

theorem egrApply_moves (n : Fin 4) (s : State) (hO : Moves ps s₀ s)
    (mO : ∀ p ∈ [Part.qe, .egr, .dm], p ∈ ps) : Moves ps s₀ (egrApply n s) := by
  refine hO.step mO ?_
  clear hO mO
  unfold egrApply
  repeat' first
    | with_reducible exact Moves.refl _ _ | with_reducible apply Moves.modEgr
    | with_reducible apply egrClassAtStop_moves | with_reducible decide | with_reducible apply Moves.ite

theorem frameBuildEffect_moves (n : Fin 4) (s : State) (hO : Moves ps s₀ s)
    (mO : ∀ p ∈ [Part.qe, .egr, .dm], p ∈ ps) : Moves ps s₀ (frameBuildEffect n s) := by
  refine hO.step mO ?_
  clear hO mO
  unfold frameBuildEffect
  repeat' first
    | with_reducible exact Moves.refl _ _ | with_reducible apply Moves.modEgr | with_reducible apply egrApply_moves
    | with_reducible decide | with_reducible apply Moves.ite | split | dsimp only

theorem payloadReadEffect_moves (n : Fin 4) (ecc : List Ecc) (s : State) (hO : Moves ps s₀ s)
    (mO : ∀ p ∈ [Part.pw, .qe, .egr, .dm], p ∈ ps) : Moves ps s₀ (payloadReadEffect n ecc s) := by
  refine hO.step mO ?_
  clear hO mO
  unfold payloadReadEffect
  repeat' first
    | with_reducible exact Moves.refl _ _ | with_reducible apply Moves.modEgr | with_reducible apply endEntry_moves
    | with_reducible apply poisonEntry_moves | with_reducible apply readFragment_moves | with_reducible decide
    | with_reducible apply Moves.ite | split | dsimp only

theorem frameSendEffect_moves (n : Fin 4) (s : State) (hO : Moves ps s₀ s)
    (mO : ∀ p ∈ [Part.egr], p ∈ ps) : Moves ps s₀ (frameSendEffect n s) := by
  refine hO.step mO ?_
  clear hO mO
  unfold frameSendEffect
  repeat' first
    | with_reducible exact Moves.refl _ _ | with_reducible apply Moves.modEgr | with_reducible decide
    | with_reducible apply Moves.ite | split

theorem frameSentEffect_moves (n : Fin 4) (s : State) (hO : Moves ps s₀ s)
    (mO : ∀ p ∈ [Part.egr], p ∈ ps) : Moves ps s₀ (frameSentEffect n s) := by
  refine hO.step mO ?_
  clear hO mO
  unfold frameSentEffect
  repeat' first
    | with_reducible exact Moves.refl _ _ | with_reducible apply Moves.modEgr | with_reducible decide
    | with_reducible apply Moves.ite | split

theorem discardFragment_moves (n : Fin 4) (s : State) (hO : Moves ps s₀ s)
    (mO : ∀ p ∈ [Part.pw, .qe, .egr, .dm], p ∈ ps) : Moves ps s₀ (discardFragment n s) := by
  refine hO.step mO ?_
  clear hO mO
  unfold discardFragment
  repeat' first
    | with_reducible exact Moves.refl _ _ | with_reducible apply Moves.modEgr | with_reducible apply endEntry_moves
    | with_reducible decide | with_reducible apply Moves.ite | split

theorem frameDiscardEffect_moves (n : Fin 4) (s : State) (hO : Moves ps s₀ s)
    (mO : ∀ p ∈ [Part.pw, .qe, .egr, .dm], p ∈ ps) : Moves ps s₀ (frameDiscardEffect n s) := by
  refine hO.step mO ?_
  clear hO mO
  unfold frameDiscardEffect
  repeat' first
    | with_reducible exact Moves.refl _ _ | with_reducible apply Moves.modEgr
    | with_reducible apply discardFragment_moves | with_reducible apply egrApply_moves | with_reducible decide
    | with_reducible apply Moves.ite | split

theorem receiveEffect_moves (n : Fin 4) (b : List Byte) (s : State) (hO : Moves ps s₀ s)
    (mO : ∀ p ∈ [Part.egr], p ∈ ps) : Moves ps s₀ (receiveEffect n b s) := by
  refine hO.step mO ?_
  clear hO mO
  unfold receiveEffect
  repeat' first
    | with_reducible exact Moves.refl _ _ | with_reducible apply Moves.modEgr | with_reducible decide
    | with_reducible apply Moves.ite

theorem rxCiEffect_moves (n : Fin 4) (ci : Byte) (s : State) (hO : Moves ps s₀ s)
    (mO : ∀ p ∈ [Part.egr], p ∈ ps) : Moves ps s₀ (rxCiEffect n ci s) := by
  refine hO.step mO ?_
  clear hO mO
  unfold rxCiEffect
  repeat' first
    | with_reducible exact Moves.refl _ _ | with_reducible apply Moves.modEgr | with_reducible decide

theorem egrCommitEffect_moves (n : Fin 4) (s : State) (hO : Moves ps s₀ s)
    (mO : ∀ p ∈ [Part.qe, .egr, .dm], p ∈ ps) : Moves ps s₀ (egrCommitEffect n s) := by
  refine hO.step mO ?_
  clear hO mO
  unfold egrCommitEffect
  repeat' first
    | with_reducible exact Moves.refl _ _ | with_reducible apply egrApply_moves | with_reducible decide
    | with_reducible apply Moves.ite

theorem egrCntClearEffect_moves (n : Fin 4) (s : State) (hO : Moves ps s₀ s)
    (mO : ∀ p ∈ [Part.egr], p ∈ ps) : Moves ps s₀ (egrCntClearEffect n s) := by
  refine hO.step mO ?_
  clear hO mO
  unfold egrCntClearEffect
  repeat' first
    | with_reducible exact Moves.refl _ _ | with_reducible apply Moves.modEgr | with_reducible decide

theorem egrCtrlWrite_moves (n : Fin 4) (w : Word) (s : State) (hO : Moves ps s₀ s)
    (mO : ∀ p ∈ [Part.egr], p ∈ ps) : Moves ps s₀ (egrCtrlWrite n w s) := by
  refine hO.step mO ?_
  clear hO mO
  unfold egrCtrlWrite
  repeat' first
    | with_reducible exact Moves.refl _ _ | with_reducible apply egrCntClearEffect_moves
    | with_reducible apply egrReviveEffect_moves | with_reducible apply gapResetEffect_moves | with_reducible decide
    | with_reducible apply Moves.ite

theorem egrShadow_moves (s : State) (n : Fin 4) (f : EgrGroup → EgrGroup) (hO : Moves ps s₀ s)
    (mO : ∀ p ∈ [Part.egr], p ∈ ps) : Moves ps s₀ (egrShadow s n f) := by
  refine hO.step mO ?_
  clear hO mO
  unfold egrShadow
  repeat' first
    | with_reducible exact Moves.refl _ _ | with_reducible apply Moves.modEgr | with_reducible decide

theorem egrWrite_moves (n : Fin 4) (off : Nat) (w : Word) (s : State) (hO : Moves ps s₀ s)
    (mO : ∀ p ∈ [Part.egr], p ∈ ps) : Moves ps s₀ (egrWrite n off w s) := by
  refine hO.step mO ?_
  clear hO mO
  unfold egrWrite
  repeat' first
    | with_reducible exact Moves.refl _ _ | with_reducible apply Moves.modEgr | with_reducible apply egrCtrlWrite_moves
    | with_reducible apply egrShadow_moves | with_reducible apply rxCiEffect_moves | with_reducible decide
    | with_reducible apply Moves.ite

/-! ### Fsp -/

theorem fspAnswer_moves (s : State) (p : Fin 8) (a : FspAnswer) (hg : Option (Fin 2048 × BitVec 7)) (hO : Moves ps s₀ s)
    (mO : ∀ p ∈ [Part.fsp], p ∈ ps) : Moves ps s₀ (fspAnswer s p a hg) := by
  refine hO.step mO ?_
  clear hO mO
  unfold fspAnswer
  repeat' first
    | with_reducible exact Moves.refl _ _ | with_reducible apply Moves.modFsp | with_reducible decide

theorem fspCmd_moves (s : State) (p : Fin 8) (f : State → State) (hO : Moves ps s₀ s)
    (hf : ∀ t, Moves ps s₀ t → Moves ps s₀ (f t)) : Moves ps s₀ (fspCmd s p f) := by
  unfold fspCmd
  split
  · exact hf _ hO
  · exact hO

theorem fspTakeEffect_moves (p : Fin 8) (r : Fin 1024) (i : BitVec 16) (s : State) (hO : Moves ps s₀ s)
    (mO : ∀ p ∈ [Part.qe, .fsp], p ∈ ps) : Moves ps s₀ (fspTakeEffect p r i s) := by
  refine hO.step mO ?_
  clear hO mO
  unfold fspTakeEffect
  repeat' first
    | with_reducible exact Moves.refl _ _ | with_reducible apply Moves.modFsp | with_reducible apply Moves.modQe
    | with_reducible apply fspCmd_moves | with_reducible decide | with_reducible apply Moves.ite | split | dsimp only
    | intro _ _ | with_reducible assumption

theorem fspAllocEffect_moves (p : Fin 8) (n : Nat) (stride : BitVec 9) (s : State) (hO : Moves ps s₀ s)
    (mO : ∀ p ∈ [Part.free, .tsq, .cap, .pw, .qe, .fsp, .dm, .fs], p ∈ ps) : Moves ps s₀ (fspAllocEffect p n stride
      s) := by
  refine hO.step mO ?_
  clear hO mO
  unfold fspAllocEffect
  repeat' first
    | with_reducible exact Moves.refl _ _ | with_reducible refine Moves.snd (by assumption) ?_
    | with_reducible apply Moves.modFsp | with_reducible apply clearTurns_moves | with_reducible apply fspAnswer_moves
    | with_reducible apply fspCmd_moves | with_reducible apply pwAlloc_moves | with_reducible apply pwTurn_moves
    | with_reducible decide | with_reducible apply Moves.ite | split | dsimp only | intro _ _
    | with_reducible assumption

theorem fspAddrefEffect_moves (p : Fin 8) (h : Fin 2048) (g : BitVec 7) (s : State) (hO : Moves ps s₀ s)
    (mO : ∀ p ∈ [Part.free, .tsq, .cap, .pw, .qe, .fsp, .dm, .fs], p ∈ ps) : Moves ps s₀ (fspAddrefEffect p h g s) := by
  refine hO.step mO ?_
  clear hO mO
  unfold fspAddrefEffect
  repeat' first
    | with_reducible exact Moves.refl _ _ | with_reducible refine Moves.snd (by assumption) ?_
    | with_reducible apply Moves.modFsp | with_reducible apply fspAnswer_moves | with_reducible apply fspCmd_moves
    | with_reducible apply pwAddref_moves | with_reducible apply pwTurn_moves | with_reducible decide
    | with_reducible apply Moves.ite | split | dsimp only | intro _ _ | with_reducible assumption

theorem fspReleaseEffect_moves (p : Fin 8) (h : Fin 2048) (g : BitVec 7) (s : State) (hO : Moves ps s₀ s)
    (mO : ∀ p ∈ [Part.pw, .fsp], p ∈ ps) : Moves ps s₀ (fspReleaseEffect p h g s) := by
  refine hO.step mO ?_
  clear hO mO
  unfold fspReleaseEffect
  repeat' first
    | with_reducible exact Moves.refl _ _ | with_reducible refine Moves.snd (by assumption) ?_
    | with_reducible apply Moves.modFsp | with_reducible apply fspAnswer_moves | with_reducible apply fspCmd_moves
    | with_reducible apply pwRelease_moves | with_reducible decide | with_reducible apply Moves.ite | split | dsimp only
    | intro _ _ | with_reducible assumption

theorem fspOwn_moves (s : State) (p : Fin 8) (h : Fin 2048) (g : BitVec 7) (f : State → State) (hO : Moves ps s₀ s)
    (mO : ∀ p ∈ [Part.pw, .fsp], p ∈ ps) (hf : ∀ t, Moves ps s₀ t → Moves ps s₀ (f t)) : Moves ps s₀ (fspOwn s p h g
      f) := by
  have m : ∀ p ∈ [Part.fsp], p ∈ ps := within mO (by decide)
  unfold fspOwn
  split
  · exact fspAnswer_moves _ _ _ _ (pwStale_moves _ hO (within mO (by decide))) m
  · split
    · exact hf _ hO
    · exact fspAnswer_moves _ _ _ _ hO m

theorem fspSealEffect_moves (p : Fin 8) (h : Fin 2048) (g : BitVec 7) (s : State) (hO : Moves ps s₀ s)
    (mO : ∀ p ∈ [Part.free, .tsq, .cap, .pw, .qe, .fsp, .dm, .fs], p ∈ ps) : Moves ps s₀ (fspSealEffect p h g s) := by
  refine hO.step mO ?_
  clear hO mO
  unfold fspSealEffect
  repeat' first
    | with_reducible exact Moves.refl _ _ | with_reducible refine Moves.snd (by assumption) ?_
    | with_reducible apply Moves.modFsp | with_reducible apply fspAnswer_moves | with_reducible apply fspCmd_moves
    | with_reducible apply fspOwn_moves | with_reducible apply pwSeal_moves | with_reducible apply pwTurn_moves
    | with_reducible decide | with_reducible apply Moves.ite | split | dsimp only | intro _ _
    | with_reducible assumption

theorem freeAllocTag_moves (s0 : State) (p : Fin 8) (hg : Fin 2048 × BitVec 7) (hO : Moves ps s₀ s0)
    (mO : ∀ p ∈ [Part.qe, .fsp], p ∈ ps) : Moves ps s₀ (freeAllocTag s0 p hg) := by
  refine hO.step mO ?_
  clear hO mO
  unfold freeAllocTag
  repeat' first
    | with_reducible exact Moves.refl _ _ | with_reducible apply Moves.modFsp | with_reducible apply afterTagFreed_moves
    | with_reducible decide

theorem fspAbandonEffect_moves (p : Fin 8) (h : Fin 2048) (g : BitVec 7) (s : State) (hO : Moves ps s₀ s)
    (mO : ∀ p ∈ [Part.pw, .qe, .fsp], p ∈ ps) : Moves ps s₀ (fspAbandonEffect p h g s) := by
  refine hO.step mO ?_
  clear hO mO
  unfold fspAbandonEffect
  repeat' first
    | with_reducible exact Moves.refl _ _ | with_reducible refine Moves.snd (by assumption) ?_
    | with_reducible apply freeAllocTag_moves | with_reducible apply fspAnswer_moves | with_reducible apply fspCmd_moves
    | with_reducible apply fspOwn_moves | with_reducible apply pwAbandon_moves | with_reducible decide
    | with_reducible apply Moves.ite | split | dsimp only | intro _ _ | with_reducible assumption

theorem readBeat_moves (s : State) (e : MapEntry) (o : Nat) (eccs : List Ecc) (hO : Moves ps s₀ s)
    (mO : ∀ p ∈ [Part.pw, .qe, .dm], p ∈ ps) : Moves ps s₀ (readBeat s e o eccs).2 := by
  refine hO.step mO ?_
  clear hO mO
  unfold readBeat
  repeat' first
    | with_reducible exact Moves.refl _ _ | with_reducible apply eccReads_moves | with_reducible apply pwRange_moves
    | with_reducible decide | with_reducible apply Moves.ite | split

theorem readBeats_moves (e : MapEntry) (n o : Nat) (es : List Ecc) (s : State) (hO : Moves ps s₀ s)
    (mO : ∀ p ∈ [Part.pw, .qe, .dm], p ∈ ps) : Moves ps s₀ (readBeats e n o es s).2 := by
  induction n generalizing o es s with
  | zero => exact hO
  | succ n ih =>
    unfold readBeats
    exact ih _ _ _ (readBeat_moves _ _ _ _ hO mO)

theorem fspReadEffect_moves (p : Fin 8) (h : Fin 2048) (g : BitVec 7) (o beats : Nat) (ecc : List Ecc) (s : State)
      (hO : Moves ps s₀ s)
    (mO : ∀ p ∈ [Part.pw, .qe, .fsp, .dm], p ∈ ps) : Moves ps s₀ (fspReadEffect p h g o beats ecc s) := by
  refine hO.step mO ?_
  clear hO mO
  unfold fspReadEffect
  repeat' first
    | with_reducible exact Moves.refl _ _ | with_reducible refine Moves.snd (by assumption) ?_
    | with_reducible apply Moves.modFsp | with_reducible apply fspAnswer_moves | with_reducible apply fspCmd_moves
    | with_reducible apply pwStale_moves | with_reducible apply readBeats_moves | with_reducible decide
    | with_reducible apply Moves.ite | split | dsimp only | intro _ _ | with_reducible assumption

theorem writeBeats_moves (e : MapEntry) (n o : Nat) (ds : List Byte) (s : State) (hO : Moves ps s₀ s)
    (mO : ∀ p ∈ [Part.pw, .fs], p ∈ ps) : Moves ps s₀ (writeBeats e n o ds s) := by
  induction n generalizing o ds s with
  | zero => exact hO
  | succ n ih =>
    unfold writeBeats
    exact ih _ _ _ ((objWrite_moves _ _ _ _ hO mO).ite (pwRange_moves _ hO (within mO (by decide))))

theorem fspWriteEffect_moves (p : Fin 8) (h : Fin 2048) (g : BitVec 7) (o beats : Nat) (data : List Byte) (s : State)
      (hO : Moves ps s₀ s)
    (mO : ∀ p ∈ [Part.pw, .fsp, .fs], p ∈ ps) : Moves ps s₀ (fspWriteEffect p h g o beats data s) := by
  refine hO.step mO ?_
  clear hO mO
  unfold fspWriteEffect
  repeat' first
    | with_reducible exact Moves.refl _ _ | with_reducible apply Moves.modFsp | with_reducible apply fspAnswer_moves
    | with_reducible apply fspCmd_moves | with_reducible apply fspOwn_moves | with_reducible apply writeBeats_moves
    | with_reducible decide | with_reducible apply Moves.ite | split | dsimp only | intro _ _
    | with_reducible assumption

theorem fspPostEffect_moves (p : Fin 8) (r : Fin 1024) (entry : List Byte) (s : State) (hO : Moves ps s₀ s)
    (mO : ∀ p ∈ [Part.qe, .fsp, .dm], p ∈ ps) : Moves ps s₀ (fspPostEffect p r entry s) := by
  refine hO.step mO ?_
  clear hO mO
  unfold fspPostEffect
  repeat' first
    | with_reducible exact Moves.refl _ _ | with_reducible refine Moves.snd (by assumption) ?_
    | with_reducible apply Moves.modFsp | with_reducible apply freeAllocTag_moves | with_reducible apply fspAnswer_moves
    | with_reducible apply fspCmd_moves | with_reducible apply ringPost_moves | with_reducible decide
    | with_reducible apply Moves.ite | split | dsimp only | intro _ _ | with_reducible assumption

theorem fspCompleteEffect_moves (p : Fin 8) (r : Fin 1024) (i : BitVec 16) (status : Byte) (s : State) (hO : Moves ps
      s₀ s)
    (mO : ∀ p ∈ [Part.pw, .qe, .egr, .fsp, .dm], p ∈ ps) : Moves ps s₀ (fspCompleteEffect p r i status s) := by
  refine hO.step mO ?_
  clear hO mO
  unfold fspCompleteEffect
  repeat' first
    | with_reducible exact Moves.refl _ _ | with_reducible apply completeEntry_moves
    | with_reducible apply countLate_moves | with_reducible apply fspAnswer_moves | with_reducible apply fspCmd_moves
    | with_reducible decide | with_reducible apply Moves.ite | split | dsimp only | intro _ _
    | with_reducible assumption

theorem fspReconfigure_moves (s : State) (p : Fin 8) (hO : Moves ps s₀ s)
    (mO : ∀ p ∈ [Part.pw, .qe, .egr, .fsp, .dm], p ∈ ps) : Moves ps s₀ (fspReconfigure s p) := by
  refine hO.step mO ?_
  clear hO mO
  unfold fspReconfigure
  repeat' first
    | with_reducible exact Moves.refl _ _ | with_reducible refine Moves.snd (by assumption) ?_
    | with_reducible apply Moves.modFsp | with_reducible apply afterTagFreed_moves
    | with_reducible apply completeEntry_moves | with_reducible apply pwAbandon_moves
    | with_reducible apply pwRelease_moves | with_reducible apply Moves.each | with_reducible decide
    | with_reducible apply Moves.ite | split | dsimp only | intro _ _ _ | with_reducible assumption

theorem fspLoadImage_moves (s : State) (p : Fin 8) (hO : Moves ps s₀ s)
    (mO : ∀ p ∈ [Part.fsp], p ∈ ps) : Moves ps s₀ (fspLoadImage s p) := by
  refine hO.step mO ?_
  clear hO mO
  unfold fspLoadImage
  repeat' first
    | with_reducible exact Moves.refl _ _ | with_reducible apply Moves.modFsp | with_reducible decide

end Sys2Proof.Machine
end

