-- ==== Sys2Proof/Laws/MovesAccess.lean ====
section
/-! SUPPORT. One law for each function of accesses, the management port, resets, JTAG and the tick: which parts of the state it may change, and
that both memories keep their canonical form. -/

namespace Sys2Proof.Machine

variable {ps : List Part} {s₀ : State}

/-! ### Regs -/

theorem softResetWrite_moves (r : Req) (w : Word) (s : State) (hO : Moves ps s₀ s)
    (mO : ∀ p ∈ [Part.sys], p ∈ ps) : Moves ps s₀ (softResetWrite r w s) := by
  refine hO.step mO ?_
  clear hO mO
  unfold softResetWrite
  repeat' first
    | with_reducible exact Moves.refl _ _ | with_reducible apply Moves.modSys | with_reducible decide
    | with_reducible apply Moves.ite

theorem sysWrite_moves (r : Req) (off : Nat) (w : Word) (s : State) (hO : Moves ps s₀ s)
    (mO : ∀ p ∈ [Part.sys], p ∈ ps) : Moves ps s₀ (sysWrite r off w s) := by
  refine hO.step mO ?_
  clear hO mO
  unfold sysWrite
  repeat' first
    | with_reducible exact Moves.refl _ _ | with_reducible apply Moves.modSys
    | with_reducible apply softResetWrite_moves | with_reducible decide | with_reducible apply Moves.ite

theorem encCtrlWrite_moves (n : Fin 8) (w : Word) (s : State) (hO : Moves ps s₀ s)
    (mO : ∀ p ∈ [Part.tbe, .tsq], p ∈ ps) : Moves ps s₀ (encCtrlWrite n w s) := by
  refine hO.step mO ?_
  clear hO mO
  unfold encCtrlWrite
  repeat' first
    | with_reducible exact Moves.refl _ _ | with_reducible apply errClearEffect_moves
    | with_reducible apply loadEffect_moves | with_reducible apply restoreEffect_moves
    | with_reducible apply zarmEffect_moves | with_reducible decide | with_reducible apply Moves.ite

theorem encWrite_moves (n : Fin 8) (i : Nat) (w : Word) (s : State) (hO : Moves ps s₀ s)
    (mO : ∀ p ∈ [Part.tbe, .tsq], p ∈ ps) : Moves ps s₀ (encWrite n i w s) := by
  refine hO.step mO ?_
  clear hO mO
  unfold encWrite
  repeat' first
    | with_reducible exact Moves.refl _ _ | with_reducible apply Moves.modEnc | with_reducible apply encCtrlWrite_moves
    | with_reducible decide | split

theorem remCfgWrite_moves (h : Fin 4) (w : Word) (s : State) (hO : Moves ps s₀ s)
    (mO : ∀ p ∈ [Part.tbe, .tsq, .pw], p ∈ ps) : Moves ps s₀ (remCfgWrite h w s) := by
  refine hO.step mO ?_
  clear hO mO
  unfold remCfgWrite
  repeat' first
    | with_reducible exact Moves.refl _ _ | with_reducible apply Moves.modRem | with_reducible apply remMoved_moves
    | with_reducible decide | with_reducible apply Moves.ite

theorem tbeWrite_moves (off : Nat) (w : Word) (s : State) (hO : Moves ps s₀ s)
    (mO : ∀ p ∈ [Part.tbe, .tsq, .pw], p ∈ ps) : Moves ps s₀ (tbeWrite off w s) := by
  refine hO.step mO ?_
  clear hO mO
  unfold tbeWrite
  repeat' first
    | with_reducible exact Moves.refl _ _ | with_reducible apply Moves.modTbe | with_reducible apply encWrite_moves
    | with_reducible apply remCfgWrite_moves | with_reducible apply snapEffect_moves | with_reducible decide
    | with_reducible apply Moves.ite

theorem tsqWrite_moves (n : Fin 16) (off : Nat) (w : Word) (s : State) (hO : Moves ps s₀ s)
    (mO : ∀ p ∈ [Part.tsq], p ∈ ps) : Moves ps s₀ (tsqWrite n off w s) := by
  refine hO.step mO ?_
  clear hO mO
  unfold tsqWrite
  repeat' first
    | with_reducible exact Moves.refl _ _ | with_reducible apply Moves.modTsq
    | with_reducible apply tsqCntClearEffect_moves | with_reducible decide | with_reducible apply Moves.ite | split

theorem capWrite_moves (n : Fin 16) (off : Nat) (w : Word) (s : State) (hO : Moves ps s₀ s)
    (mO : ∀ p ∈ [Part.tsq, .cap, .tagBase], p ∈ ps) : Moves ps s₀ (capWrite n off w s) := by
  refine hO.step mO ?_
  clear hO mO
  unfold capWrite
  repeat' first
    | with_reducible exact Moves.refl _ _ | with_reducible apply Moves.modCap
    | with_reducible apply capCntClearEffect_moves | with_reducible apply capReviveEffect_moves
    | with_reducible apply tagBaseEffect_moves | with_reducible decide | with_reducible apply Moves.ite | split

/-! ### Flags -/

theorem sampleViews_moves (s : State) (hO : Moves ps s₀ s)
    (mO : ∀ p ∈ [Part.mp], p ∈ ps) : Moves ps s₀ (sampleViews s) := by
  refine hO.step mO ?_
  clear hO mO
  unfold sampleViews
  repeat' first
    | with_reducible exact Moves.refl _ _ | with_reducible apply Moves.modMp | with_reducible decide

/-! ### Bus -/

theorem blockWrite_moves (r : Req) (addr w : Word) (ecc : Ecc) (s : State) (hO : Moves ps s₀ s)
    (mO : ∀ p ∈ [Part.moment, .sys, .mp, .acc, .lcs, .tbe, .tsq, .cap, .tagBase, .pw, .qe, .egr, .hl, .cfg, .scb,
      .ua, .spc, .pio, .adc, .bkp, .dm, .fs], p ∈ ps) : Moves ps s₀ (blockWrite r addr w ecc s) := by
  refine hO.step mO ?_
  clear hO mO
  unfold blockWrite
  repeat' first
    | with_reducible exact Moves.refl _ _ | with_reducible apply accWrite_moves | with_reducible apply adcWrite_moves
    | with_reducible apply bkpWrite_moves | with_reducible apply capSerWrite_moves | with_reducible apply capWrite_moves
    | with_reducible apply cfgWrite_moves | with_reducible apply dmWrite_moves | with_reducible apply egrWrite_moves
    | with_reducible apply fsWrite32_moves | with_reducible apply hlWrite_moves | with_reducible apply lcsWrite_moves
    | with_reducible apply pioWrite_moves | with_reducible apply pwWrite_moves | with_reducible apply qeWrite_moves
    | with_reducible apply scbWrite_moves | with_reducible apply spcWrite_moves | with_reducible apply sysWrite_moves
    | with_reducible apply tbeWrite_moves | with_reducible apply tsqWrite_moves | with_reducible apply uaWrite_moves
    | with_reducible decide | with_reducible apply Moves.ite | split

theorem noteWrote_moves (r : Req) (addr w : Word) (s : State) (hO : Moves ps s₀ s)
    (mO : ∀ p ∈ [Part.moment], p ∈ ps) : Moves ps s₀ (noteWrote r addr w s) := by
  refine hO.step mO ?_
  clear hO mO
  unfold noteWrote
  repeat' first
    | with_reducible exact Moves.refl _ _ | with_reducible apply Moves.modMoment | with_reducible decide

theorem mpOutsAgain_moves (b : Nat) (s : State) (hO : Moves ps s₀ s)
    (mO : ∀ p ∈ [Part.moment, .sys, .mp, .acc, .lcs, .tbe, .tsq, .cap, .tagBase, .pw, .qe, .egr, .hl, .cfg, .scb,
      .ua, .spc, .pio, .adc, .bkp, .dm, .fs], p ∈ ps) : Moves ps s₀ (mpOutsAgain b s) := by
  refine hO.step mO ?_
  clear hO mO
  unfold mpOutsAgain
  repeat' first
    | with_reducible exact Moves.refl _ _ | with_reducible apply blockWrite_moves | with_reducible apply Moves.each
    | with_reducible decide | dsimp only | intro _ _ _ | with_reducible assumption

theorem regWrite_moves (r : Req) (addr w : Word) (ecc : Ecc) (s : State) (hO : Moves ps s₀ s)
    (mO : ∀ p ∈ [Part.moment, .sys, .mp, .acc, .lcs, .tbe, .tsq, .cap, .tagBase, .pw, .qe, .egr, .hl, .cfg, .scb,
      .ua, .spc, .pio, .adc, .bkp, .dm, .fs], p ∈ ps) : Moves ps s₀ (regWrite r addr w ecc s) := by
  refine hO.step mO ?_
  clear hO mO
  unfold regWrite
  repeat' first
    | with_reducible exact Moves.refl _ _ | with_reducible apply blockWrite_moves
    | with_reducible apply mpOutsAgain_moves | with_reducible apply noteWrote_moves | with_reducible decide
    | with_reducible apply Moves.ite | split

theorem dropLatch_moves (s : State) (r : Req) (lo : Word) (hO : Moves ps s₀ s)
    (mO : ∀ p ∈ [Part.bus], p ∈ ps) : Moves ps s₀ (dropLatch s r lo) := by
  refine hO.step mO ?_
  clear hO mO
  unfold dropLatch
  repeat' first
    | with_reducible exact Moves.refl _ _ | with_reducible apply Moves.modBus | with_reducible decide

theorem setLatch_moves (s : State) (r : Req) (lo w : Word) (hO : Moves ps s₀ s)
    (mO : ∀ p ∈ [Part.bus], p ∈ ps) : Moves ps s₀ (setLatch s r lo w) := by
  refine hO.step mO ?_
  clear hO mO
  unfold setLatch
  repeat' first
    | with_reducible exact Moves.refl _ _ | with_reducible apply Moves.modBus | with_reducible apply dropLatch_moves
    | with_reducible decide

theorem fsWindowRead_moves (s : State) (addr : Word) (ecc : Ecc) (hO : Moves ps s₀ s)
    (mO : ∀ p ∈ [Part.pw, .qe, .dm], p ∈ ps) : Moves ps s₀ (fsWindowRead s addr ecc).2 := by
  refine hO.step mO ?_
  clear hO mO
  unfold fsWindowRead
  repeat' first
    | with_reducible exact Moves.refl _ _ | with_reducible apply eccRead_moves | with_reducible decide

theorem takeRead_moves (r : Req) (addr : Word) (ecc : Ecc) (s : State) (hO : Moves ps s₀ s)
    (mO : ∀ p ∈ [Part.free, .bus, .pw, .qe, .ua, .spc, .dm], p ∈ ps) : Moves ps s₀ (takeRead r addr ecc s).2 := by
  refine hO.step mO ?_
  clear hO mO
  unfold takeRead
  repeat' first
    | with_reducible exact Moves.refl _ _ | with_reducible refine Moves.snd (by assumption) ?_
    | with_reducible apply Moves.freeStep | with_reducible apply dropLatch_moves
    | with_reducible apply fsWindowRead_moves | with_reducible apply setLatch_moves
    | with_reducible apply spcRxRead_moves | with_reducible apply uaRxRead_moves | with_reducible decide
    | with_reducible apply Moves.ite | split | dsimp only

theorem applyAccess_moves (ecc : Ecc) (a : Access) (s : State) (hO : Moves ps s₀ s)
    (mO : ∀ p ∈ [Part.moment, .sys, .mp, .bus, .acc, .lcs, .tbe, .tsq, .cap, .tagBase, .pw, .qe, .egr, .hl, .cfg,
      .scb, .ua, .spc, .pio, .adc, .bkp, .dm, .fs], p ∈ ps) : Moves ps s₀ (applyAccess ecc a s) := by
  refine hO.step mO ?_
  clear hO mO
  unfold applyAccess
  repeat' first
    | with_reducible exact Moves.refl _ _ | with_reducible apply Moves.modBus | with_reducible apply regWrite_moves
    | with_reducible decide

theorem settleDesc_moves (r : Req) (n : Nat) (s : State) (hO : Moves ps s₀ s)
    (mO : ∀ p ∈ [Part.moment, .sys, .mp, .bus, .acc, .lcs, .tbe, .tsq, .cap, .tagBase, .pw, .qe, .egr, .hl, .cfg,
      .scb, .ua, .spc, .pio, .adc, .bkp, .dm, .fs], p ∈ ps) : Moves ps s₀ (settleDesc r n s) := by
  refine hO.step mO ?_
  clear hO mO
  unfold settleDesc
  repeat' first
    | with_reducible exact Moves.refl _ _ | with_reducible apply applyAccess_moves | with_reducible apply Moves.each
    | with_reducible decide | dsimp only | intro _ _ _ | with_reducible assumption

theorem applyPosted_moves (ecc : Ecc) (a : Access) (s : State) (hO : Moves ps s₀ s)
    (mO : ∀ p ∈ [Part.moment, .sys, .mp, .bus, .acc, .lcs, .tbe, .tsq, .cap, .tagBase, .pw, .qe, .egr, .hl, .cfg,
      .scb, .ua, .spc, .pio, .adc, .bkp, .dm, .fs], p ∈ ps) : Moves ps s₀ (applyPosted ecc a s) := by
  refine hO.step mO ?_
  clear hO mO
  unfold applyPosted
  repeat' first
    | with_reducible exact Moves.refl _ _ | with_reducible apply applyAccess_moves
    | with_reducible apply settleDesc_moves | with_reducible decide | with_reducible apply Moves.ite

theorem drainWhere_moves (p : Access → Bool) (s : State) (hO : Moves ps s₀ s)
    (mO : ∀ p ∈ [Part.moment, .sys, .mp, .bus, .acc, .lcs, .tbe, .tsq, .cap, .tagBase, .pw, .qe, .egr, .hl, .cfg,
      .scb, .ua, .spc, .pio, .adc, .bkp, .dm, .fs], p ∈ ps) : Moves ps s₀ (drainWhere p s) := by
  refine hO.step mO ?_
  clear hO mO
  unfold drainWhere
  repeat' first
    | with_reducible exact Moves.refl _ _ | with_reducible apply applyPosted_moves | with_reducible apply Moves.each
    | with_reducible decide | dsimp only | intro _ _ _ | with_reducible assumption

theorem postedApplyEffect_moves (r : Req) (blk : Block) (ecc : Ecc) (s : State) (hO : Moves ps s₀ s)
    (mO : ∀ p ∈ [Part.moment, .sys, .mp, .bus, .acc, .lcs, .tbe, .tsq, .cap, .tagBase, .pw, .qe, .egr, .hl, .cfg,
      .scb, .ua, .spc, .pio, .adc, .bkp, .dm, .fs], p ∈ ps) : Moves ps s₀ (postedApplyEffect r blk ecc s) := by
  refine hO.step mO ?_
  clear hO mO
  unfold postedApplyEffect
  repeat' first
    | with_reducible exact Moves.refl _ _ | with_reducible apply Moves.modBus | with_reducible apply applyPosted_moves
    | with_reducible apply noteFence_moves | with_reducible decide | with_reducible apply Moves.ite | split

theorem drainAll_moves (s : State) (hO : Moves ps s₀ s)
    (mO : ∀ p ∈ [Part.moment, .sys, .mp, .bus, .acc, .lcs, .tbe, .tsq, .cap, .tagBase, .pw, .qe, .egr, .hl, .cfg,
      .scb, .ua, .spc, .pio, .adc, .bkp, .dm, .fs], p ∈ ps) : Moves ps s₀ (drainAll s) := by
  refine hO.step mO ?_
  clear hO mO
  unfold drainAll
  repeat' first
    | with_reducible exact Moves.refl _ _ | with_reducible apply drainWhere_moves | with_reducible decide

theorem settleBlock_moves (r : Req) (addr : Word) (s : State) (hO : Moves ps s₀ s)
    (mO : ∀ p ∈ [Part.moment, .sys, .mp, .bus, .acc, .lcs, .tbe, .tsq, .cap, .tagBase, .pw, .qe, .egr, .hl, .cfg,
      .scb, .ua, .spc, .pio, .adc, .bkp, .dm, .fs], p ∈ ps) : Moves ps s₀ (settleBlock r addr s) := by
  refine hO.step mO ?_
  clear hO mO
  unfold settleBlock
  repeat' first
    | with_reducible exact Moves.refl _ _ | with_reducible apply drainWhere_moves | with_reducible decide

theorem settleBefore_moves (r : Req) (addr : Word) (s : State) (hO : Moves ps s₀ s)
    (mO : ∀ p ∈ [Part.moment, .sys, .mp, .bus, .acc, .lcs, .tbe, .tsq, .cap, .tagBase, .pw, .qe, .egr, .hl, .cfg,
      .scb, .ua, .spc, .pio, .adc, .bkp, .dm, .fs], p ∈ ps) : Moves ps s₀ (settleBefore r addr s) := by
  refine hO.step mO ?_
  clear hO mO
  unfold settleBefore
  repeat' first
    | with_reducible exact Moves.refl _ _ | with_reducible apply settleBlock_moves
    | with_reducible apply settleDesc_moves | with_reducible decide | with_reducible apply Moves.ite

theorem issueRead_moves (r : Req) (addr : Word) (ecc : Ecc) (s : State) (hO : Moves ps s₀ s)
    (mO : ∀ p ∈ [Part.moment, .free, .sys, .mp, .bus, .acc, .lcs, .tbe, .tsq, .cap, .tagBase, .pw, .qe, .egr, .hl,
      .cfg, .scb, .ua, .spc, .pio, .adc, .bkp, .dm, .fs], p ∈ ps) : Moves ps s₀ (issueRead r addr ecc s).2 := by
  refine hO.step mO ?_
  clear hO mO
  unfold issueRead
  repeat' first
    | with_reducible exact Moves.refl _ _ | with_reducible refine Moves.snd (by assumption) ?_
    | with_reducible apply logRefusal_moves | with_reducible apply noteFence_moves
    | with_reducible apply settleBlock_moves | with_reducible apply takeRead_moves | with_reducible decide
    | with_reducible apply Moves.ite | split

theorem giveAnswer_moves (o : Owed) (s : State) (hO : Moves ps s₀ s)
    (mO : ∀ p ∈ [Part.bus, .jtag], p ∈ ps) : Moves ps s₀ (giveAnswer o s) := by
  refine hO.step mO ?_
  clear hO mO
  unfold giveAnswer
  repeat' first
    | with_reducible exact Moves.refl _ _ | with_reducible apply Moves.modBus | with_reducible apply Moves.modJtag
    | with_reducible decide | with_reducible apply Moves.ite | split

theorem oweAnswer_moves (o : Owed) (s : State) (hO : Moves ps s₀ s)
    (mO : ∀ p ∈ [Part.bus, .jtag], p ∈ ps) : Moves ps s₀ (oweAnswer o s) := by
  refine hO.step mO ?_
  clear hO mO
  unfold oweAnswer
  repeat' first
    | with_reducible exact Moves.refl _ _ | with_reducible apply Moves.modBus | with_reducible apply giveAnswer_moves
    | with_reducible decide | with_reducible apply Moves.ite

theorem issueAccess_moves (r : Req) (write : Bool) (addr data : Word) (ecc : Ecc) (s : State) (hO : Moves ps s₀ s)
    (mO : ∀ p ∈ [Part.moment, .free, .sys, .mp, .bus, .acc, .lcs, .jtag, .tbe, .tsq, .cap, .tagBase, .pw, .qe, .egr,
      .hl, .cfg, .scb, .ua, .spc, .pio, .adc, .bkp, .dm, .fs], p ∈ ps) : Moves ps s₀ (issueAccess r write addr data
      ecc s) := by
  refine hO.step mO ?_
  clear hO mO
  unfold issueAccess
  repeat' first
    | with_reducible exact Moves.refl _ _ | with_reducible refine Moves.snd (by assumption) ?_
    | with_reducible apply issueRead_moves | with_reducible apply issueWrite_moves
    | with_reducible apply oweAnswer_moves | with_reducible decide | with_reducible apply Moves.ite

theorem frpAccessEffect_moves (write : Bool) (addr data : Word) (ecc : Ecc) (s : State) (hO : Moves ps s₀ s)
    (mO : ∀ p ∈ [Part.moment, .free, .sys, .mp, .bus, .acc, .lcs, .jtag, .tbe, .tsq, .cap, .tagBase, .pw, .qe, .egr,
      .hl, .cfg, .scb, .ua, .spc, .pio, .adc, .bkp, .dm, .fs], p ∈ ps) : Moves ps s₀ (frpAccessEffect write addr data
      ecc s) := by
  refine hO.step mO ?_
  clear hO mO
  unfold frpAccessEffect
  repeat' first
    | with_reducible exact Moves.refl _ _ | with_reducible apply issueAccess_moves | with_reducible decide
    | with_reducible apply Moves.ite

theorem icpAccessEffect_moves (write : Bool) (addr data : Word) (ecc : Ecc) (s : State) (hO : Moves ps s₀ s)
    (mO : ∀ p ∈ [Part.moment, .free, .sys, .mp, .bus, .acc, .lcs, .jtag, .tbe, .tsq, .cap, .tagBase, .pw, .qe, .egr,
      .hl, .cfg, .scb, .ua, .spc, .pio, .adc, .bkp, .dm, .fs], p ∈ ps) : Moves ps s₀ (icpAccessEffect write addr data
      ecc s) := by
  refine hO.step mO ?_
  clear hO mO
  unfold icpAccessEffect
  repeat' first
    | with_reducible exact Moves.refl _ _ | with_reducible apply issueAccess_moves | with_reducible decide
    | with_reducible apply Moves.ite

theorem accessAnswerEffect_moves (r : Req) (s : State) (hO : Moves ps s₀ s)
    (mO : ∀ p ∈ [Part.bus, .acc, .jtag], p ∈ ps) : Moves ps s₀ (accessAnswerEffect r s) := by
  refine hO.step mO ?_
  clear hO mO
  unfold accessAnswerEffect
  repeat' first
    | with_reducible exact Moves.refl _ _ | with_reducible apply Moves.modBus | with_reducible apply giveAnswer_moves
    | with_reducible apply noteFence_moves | with_reducible decide | with_reducible apply Moves.ite | split

theorem jtagIssue_moves (write : Bool) (addr data : Word) (ecc : Ecc) (s : State) (hO : Moves ps s₀ s)
    (mO : ∀ p ∈ [Part.moment, .free, .sys, .mp, .bus, .acc, .lcs, .jtag, .tbe, .tsq, .cap, .tagBase, .pw, .qe, .egr,
      .hl, .cfg, .scb, .ua, .spc, .pio, .adc, .bkp, .dm, .fs], p ∈ ps) : Moves ps s₀ (jtagIssue write addr data ecc
      s) := by
  refine hO.step mO ?_
  clear hO mO
  unfold jtagIssue
  repeat' first
    | with_reducible exact Moves.refl _ _ | with_reducible apply Moves.freeStep | with_reducible apply Moves.modBus
    | with_reducible apply Moves.modJtag | with_reducible apply issueAccess_moves | with_reducible apply noteFence_moves
    | with_reducible decide

theorem jtagRefuse_moves (write : Bool) (addr : Word) (s : State) (hO : Moves ps s₀ s)
    (mO : ∀ p ∈ [Part.free, .bus, .acc, .jtag], p ∈ ps) : Moves ps s₀ (jtagRefuse write addr s) := by
  refine hO.step mO ?_
  clear hO mO
  unfold jtagRefuse
  repeat' first
    | with_reducible exact Moves.refl _ _ | with_reducible apply Moves.freeStep | with_reducible apply Moves.modBus
    | with_reducible apply Moves.modJtag | with_reducible apply logRefusal_moves | with_reducible apply noteFence_moves
    | with_reducible apply oweAnswer_moves | with_reducible decide

theorem requestRead_moves (r : Req) (addr : Word) (s : State) (hO : Moves ps s₀ s)
    (mO : ∀ p ∈ [Part.moment, .free, .sys, .mp, .bus, .acc, .lcs, .jtag, .tbe, .tsq, .cap, .tagBase, .pw, .qe, .egr,
      .hl, .cfg, .scb, .ua, .spc, .pio, .adc, .bkp, .dm, .fs], p ∈ ps) : Moves ps s₀ (requestRead r addr s) := by
  refine hO.step mO ?_
  clear hO mO
  unfold requestRead
  repeat' first
    | with_reducible exact Moves.refl _ _ | with_reducible refine Moves.snd (by assumption) ?_
    | with_reducible apply Moves.modMp | with_reducible apply frpAccessEffect_moves
    | with_reducible apply icpAccessEffect_moves | with_reducible apply issueRead_moves
    | with_reducible apply jtagIssue_moves | with_reducible decide | split

theorem loReadEffect_moves (r : Req) (addr : Word) (s : State) (hO : Moves ps s₀ s)
    (mO : ∀ p ∈ [Part.moment, .free, .sys, .mp, .bus, .acc, .lcs, .jtag, .tbe, .tsq, .cap, .tagBase, .pw, .qe, .egr,
      .hl, .cfg, .scb, .ua, .spc, .pio, .adc, .bkp, .dm, .fs], p ∈ ps) : Moves ps s₀ (loReadEffect r addr s) := by
  refine hO.step mO ?_
  clear hO mO
  unfold loReadEffect
  repeat' first
    | with_reducible exact Moves.refl _ _ | with_reducible apply requestRead_moves | with_reducible decide
    | with_reducible apply Moves.ite

theorem hiReadEffect_moves (r : Req) (addr : Word) (s : State) (hO : Moves ps s₀ s)
    (mO : ∀ p ∈ [Part.moment, .free, .sys, .mp, .bus, .acc, .lcs, .jtag, .tbe, .tsq, .cap, .tagBase, .pw, .qe, .egr,
      .hl, .cfg, .scb, .ua, .spc, .pio, .adc, .bkp, .dm, .fs], p ∈ ps) : Moves ps s₀ (hiReadEffect r addr s) := by
  refine hO.step mO ?_
  clear hO mO
  unfold hiReadEffect
  repeat' first
    | with_reducible exact Moves.refl _ _ | with_reducible apply requestRead_moves | with_reducible decide
    | with_reducible apply Moves.ite

theorem uaRxdataEffect_moves (n : Fin 18) (r : Req) (s : State) (hO : Moves ps s₀ s)
    (mO : ∀ p ∈ [Part.moment, .free, .sys, .mp, .bus, .acc, .lcs, .jtag, .tbe, .tsq, .cap, .tagBase, .pw, .qe, .egr,
      .hl, .cfg, .scb, .ua, .spc, .pio, .adc, .bkp, .dm, .fs], p ∈ ps) : Moves ps s₀ (uaRxdataEffect n r s) := by
  refine hO.step mO ?_
  clear hO mO
  unfold uaRxdataEffect
  repeat' first
    | with_reducible exact Moves.refl _ _ | with_reducible apply requestRead_moves | with_reducible decide

theorem spcRxdataEffect_moves (m : Fin 2) (r : Req) (s : State) (hO : Moves ps s₀ s)
    (mO : ∀ p ∈ [Part.moment, .free, .sys, .mp, .bus, .acc, .lcs, .jtag, .tbe, .tsq, .cap, .tagBase, .pw, .qe, .egr,
      .hl, .cfg, .scb, .ua, .spc, .pio, .adc, .bkp, .dm, .fs], p ∈ ps) : Moves ps s₀ (spcRxdataEffect m r s) := by
  refine hO.step mO ?_
  clear hO mO
  unfold spcRxdataEffect
  repeat' first
    | with_reducible exact Moves.refl _ _ | with_reducible apply requestRead_moves | with_reducible decide

theorem registerWriteEffect_moves (r : Req) (addr data : Word) (ecc : Ecc) (s : State) (hO : Moves ps s₀ s)
    (mO : ∀ p ∈ [Part.moment, .sys, .mp, .bus, .acc, .lcs, .tbe, .tsq, .cap, .tagBase, .pw, .qe, .egr, .hl, .cfg,
      .scb, .ua, .spc, .pio, .adc, .bkp, .dm, .fs], p ∈ ps) : Moves ps s₀ (registerWriteEffect r addr data ecc s) := by
  refine hO.step mO ?_
  clear hO mO
  unfold registerWriteEffect
  repeat' first
    | with_reducible exact Moves.refl _ _ | with_reducible refine Moves.snd (by assumption) ?_
    | with_reducible apply issueWrite_moves | with_reducible apply logRefusal_moves
    | with_reducible apply noteFence_moves | with_reducible apply regWrite_moves
    | with_reducible apply settleBefore_moves | with_reducible decide | with_reducible apply Moves.ite | split
    | dsimp only

theorem doorbellEffect_moves (r : Req) (ci : Bool) (ring : Fin 1024) (idx : BitVec 16) (s : State) (hO : Moves ps s₀ s)
    (mO : ∀ p ∈ [Part.moment, .sys, .mp, .bus, .acc, .lcs, .tbe, .tsq, .cap, .tagBase, .pw, .qe, .egr, .hl, .cfg,
      .scb, .ua, .spc, .pio, .adc, .bkp, .dm, .fs], p ∈ ps) : Moves ps s₀ (doorbellEffect r ci ring idx s) := by
  refine hO.step mO ?_
  clear hO mO
  unfold doorbellEffect
  repeat' first
    | with_reducible exact Moves.refl _ _ | with_reducible apply noteFence_moves | with_reducible apply regWrite_moves
    | with_reducible apply settleDesc_moves | with_reducible decide

theorem commitGoEffect_moves (g : Group) (s : State) (hO : Moves ps s₀ s)
    (mO : ∀ p ∈ [Part.acc, .tbe, .tsq, .cap, .pw, .qe, .egr, .hl, .ua, .spc, .adc], p ∈ ps) : Moves ps s₀
      (commitGoEffect g s) := by
  refine hO.step mO ?_
  clear hO mO
  unfold commitGoEffect
  repeat' first
    | with_reducible exact Moves.refl _ _ | with_reducible apply Moves.modAcc | with_reducible apply Moves.modAdc
    | with_reducible apply Moves.modCap | with_reducible apply Moves.modEgr | with_reducible apply Moves.modEnc
    | with_reducible apply Moves.modHl | with_reducible apply Moves.modPw | with_reducible apply Moves.modRing
    | with_reducible apply Moves.modSpc | with_reducible apply Moves.modTsq | with_reducible apply Moves.modUa
    | with_reducible decide | with_reducible apply Moves.ite | split

/-! ### MgmtPort -/

theorem record_moves (op : Byte) (wf : Bool) (words : Nat) (denied noresp : Bool) (s : State) (hO : Moves ps s₀ s)
    (mO : ∀ p ∈ [Part.mp], p ∈ ps) : Moves ps s₀ (record op wf words denied noresp s) := by
  refine hO.step mO ?_
  clear hO mO
  unfold record
  repeat' first
    | with_reducible exact Moves.refl _ _ | with_reducible apply Moves.modMp | with_reducible decide

theorem shiftOut_moves (at1 : State) (data : List Word) (s : State) (hO : Moves ps s₀ s)
    (mO : ∀ p ∈ [Part.mp], p ∈ ps) : Moves ps s₀ (shiftOut at1 data s) := by
  refine hO.step mO ?_
  clear hO mO
  unfold shiftOut
  repeat' first
    | with_reducible exact Moves.refl _ _ | with_reducible apply Moves.modMp | with_reducible decide

theorem transaction_moves (cycles : Nat) (f : State → State) (s : State) (hO : Moves ps s₀ s)
    (mO : ∀ p ∈ [Part.mp], p ∈ ps) (hf : ∀ t, Moves ps s₀ t → Moves ps s₀ (f t)) : Moves ps s₀ (transaction cycles f
      s) := by
  have v := sampleViews_moves s hO mO
  unfold transaction
  split
  · exact hO
  · split
    · exact v
    · exact hf _ v

theorem winWrite_moves (data : Word) (s : State) (hO : Moves ps s₀ s)
    (mO : ∀ p ∈ [Part.bus, .acc], p ∈ ps) : Moves ps s₀ (winWrite data s).2 := by
  refine hO.step mO ?_
  clear hO mO
  unfold winWrite
  repeat' first
    | with_reducible exact Moves.refl _ _ | with_reducible refine Moves.snd (by assumption) ?_
    | with_reducible apply issueWrite_moves | with_reducible decide

theorem winRead_moves (ecc : Ecc) (s : State) (hO : Moves ps s₀ s)
    (mO : ∀ p ∈ [Part.moment, .free, .sys, .mp, .bus, .acc, .lcs, .tbe, .tsq, .cap, .tagBase, .pw, .qe, .egr, .hl,
      .cfg, .scb, .ua, .spc, .pio, .adc, .bkp, .dm, .fs], p ∈ ps) : Moves ps s₀ (winRead ecc s).2 := by
  refine hO.step mO ?_
  clear hO mO
  unfold winRead
  repeat' first
    | with_reducible exact Moves.refl _ _ | with_reducible refine Moves.snd (by assumption) ?_
    | with_reducible apply issueRead_moves | with_reducible decide

theorem nextWin_moves (s : State) (hO : Moves ps s₀ s)
    (mO : ∀ p ∈ [Part.mp], p ∈ ps) : Moves ps s₀ (nextWin s) := by
  refine hO.step mO ?_
  clear hO mO
  unfold nextWin
  repeat' first
    | with_reducible exact Moves.refl _ _ | with_reducible apply Moves.modMp | with_reducible decide

theorem loadWin_moves (addr : Word) (s : State) (hO : Moves ps s₀ s)
    (mO : ∀ p ∈ [Part.mp], p ∈ ps) : Moves ps s₀ (loadWin addr s) := by
  refine hO.step mO ?_
  clear hO mO
  unfold loadWin
  repeat' first
    | with_reducible exact Moves.refl _ _ | with_reducible apply Moves.modMp | with_reducible decide

theorem mpCommand_moves (cmd : Byte) (s : State) (hO : Moves ps s₀ s)
    (mO : ∀ p ∈ [Part.mp, .cfg], p ∈ ps) : Moves ps s₀ (mpCommand cmd s) := by
  refine hO.step mO ?_
  clear hO mO
  unfold mpCommand
  repeat' first
    | with_reducible exact Moves.refl _ _ | with_reducible apply Moves.modMp
    | with_reducible apply streamAbortEffect_moves | with_reducible decide | with_reducible apply Moves.ite

theorem mpWrite_moves (reg : Byte) (w : Word) (s : State) (hO : Moves ps s₀ s)
    (mO : ∀ p ∈ [Part.mp, .cfg], p ∈ ps) : Moves ps s₀ (mpWrite reg w s) := by
  refine hO.step mO ?_
  clear hO mO
  unfold mpWrite
  repeat' first
    | with_reducible exact Moves.refl _ _ | with_reducible apply Moves.modMp | with_reducible apply mpCommand_moves
    | with_reducible decide | split

theorem winDataWriteAt_moves (data : Word) (s : State) (hO : Moves ps s₀ s)
    (mO : ∀ p ∈ [Part.mp, .bus, .acc], p ∈ ps) : Moves ps s₀ (winDataWriteAt data s).2 := by
  refine hO.step mO ?_
  clear hO mO
  unfold winDataWriteAt
  repeat' first
    | with_reducible exact Moves.refl _ _ | with_reducible refine Moves.snd (by assumption) ?_
    | with_reducible apply nextWin_moves | with_reducible apply winWrite_moves | with_reducible decide
    | with_reducible apply Moves.ite

theorem directWriteEffect_moves (reg : Byte) (data : Word) (cycles : Nat) (s : State) (hO : Moves ps s₀ s)
    (mO : ∀ p ∈ [Part.mp, .bus, .acc, .cfg], p ∈ ps) : Moves ps s₀ (directWriteEffect reg data cycles s) := by
  refine hO.step mO ?_
  clear hO mO
  unfold directWriteEffect
  repeat' first
    | with_reducible exact Moves.refl _ _ | with_reducible refine Moves.snd (by assumption) ?_
    | with_reducible apply mpWrite_moves | with_reducible apply record_moves | with_reducible apply shiftOut_moves
    | with_reducible apply transaction_moves | with_reducible apply winDataWriteAt_moves | with_reducible decide
    | with_reducible apply Moves.ite | split | dsimp only | intro _ _ | with_reducible assumption

theorem directReadEffect_moves (reg : Byte) (cycles : Nat) (s : State) (hO : Moves ps s₀ s)
    (mO : ∀ p ∈ [Part.mp], p ∈ ps) : Moves ps s₀ (directReadEffect reg cycles s) := by
  refine hO.step mO ?_
  clear hO mO
  unfold directReadEffect
  repeat' first
    | with_reducible exact Moves.refl _ _ | with_reducible apply record_moves | with_reducible apply shiftOut_moves
    | with_reducible apply transaction_moves | with_reducible decide | with_reducible apply Moves.ite | split
    | dsimp only | intro _ _ | with_reducible assumption

theorem streamTake_moves (bytes : List Byte) (partialByte : Bool) (s : State) (hO : Moves ps s₀ s)
    (mO : ∀ p ∈ [Part.mp, .cfg], p ∈ ps) : Moves ps s₀ (streamTake bytes partialByte s) := by
  refine hO.step mO ?_
  clear hO mO
  unfold streamTake
  repeat' first
    | with_reducible exact Moves.refl _ _ | with_reducible apply Moves.modCfg | with_reducible apply cutByte_moves
    | with_reducible apply enterBytes_moves | with_reducible decide | with_reducible apply Moves.ite

theorem streamEffect_moves (bytes : List Byte) (cycles : Nat) (s : State) (hO : Moves ps s₀ s)
    (mO : ∀ p ∈ [Part.mp, .acc, .cfg], p ∈ ps) : Moves ps s₀ (streamEffect bytes cycles s) := by
  refine hO.step mO ?_
  clear hO mO
  unfold streamEffect
  repeat' first
    | with_reducible exact Moves.refl _ _ | with_reducible apply logRefusal_moves | with_reducible apply record_moves
    | with_reducible apply shiftOut_moves | with_reducible apply streamTake_moves
    | with_reducible apply transaction_moves | with_reducible decide | split | dsimp only | intro _ _
    | with_reducible assumption

theorem burstWrite_moves (ws : List Word) (m : Met) (s : State) (hO : Moves ps s₀ s)
    (mO : ∀ p ∈ [Part.mp, .bus, .acc], p ∈ ps) : Moves ps s₀ (burstWrite ws m s).2 := by
  induction ws generalizing m s with
  | nil => exact hO
  | cons w r ih =>
    unfold burstWrite
    exact ih _ _ (nextWin_moves _ (winWrite_moves _ _ hO (within mO (by decide))) (within mO (by decide)))

theorem burstWriteEffect_moves (addr : Word) (words : List Word) (cycles : Nat) (s : State) (hO : Moves ps s₀ s)
    (mO : ∀ p ∈ [Part.mp, .bus, .acc], p ∈ ps) : Moves ps s₀ (burstWriteEffect addr words cycles s) := by
  have m : ∀ p ∈ [Part.mp], p ∈ ps := within mO (by decide)
  unfold burstWriteEffect
  refine transaction_moves _ _ _ hO m fun t h => ?_
  split
  · exact record_moves _ _ _ _ _ _ (shiftOut_moves _ _ _ h m) m
  · exact record_moves _ _ _ _ _ _ (shiftOut_moves _ _ _ (burstWrite_moves _ _ _ (loadWin_moves _ _ h m) mO) m) m

theorem burstRead_moves (n : Nat) (es : List Ecc) (m : Met) (ws : List Word) (s : State) (hO : Moves ps s₀ s)
    (mO : ∀ p ∈ [Part.moment, .free, .sys, .mp, .bus, .acc, .lcs, .tbe, .tsq, .cap, .tagBase, .pw, .qe, .egr, .hl,
      .cfg, .scb, .ua, .spc, .pio, .adc, .bkp, .dm, .fs], p ∈ ps) : Moves ps s₀ (burstRead n es m ws s).2 := by
  induction n generalizing es m ws s with
  | zero => exact hO
  | succ n ih =>
    unfold burstRead
    refine ih _ _ _ _ (winRead_moves _ _ ?_ mO)
    split
    · exact hO
    · exact nextWin_moves _ hO (within mO (by decide))

theorem burstReadEffect_moves (addr : Word) (ecc : List Ecc) (cycles : Nat) (s : State) (hO : Moves ps s₀ s)
    (mO : ∀ p ∈ [Part.moment, .free, .sys, .mp, .bus, .acc, .lcs, .tbe, .tsq, .cap, .tagBase, .pw, .qe, .egr, .hl,
      .cfg, .scb, .ua, .spc, .pio, .adc, .bkp, .dm, .fs], p ∈ ps) : Moves ps s₀ (burstReadEffect addr ecc cycles s)
      := by
  have m : ∀ p ∈ [Part.mp], p ∈ ps := within mO (by decide)
  unfold burstReadEffect
  refine transaction_moves _ _ _ hO m fun t h => ?_
  split
  · exact record_moves _ _ _ _ _ _ (shiftOut_moves _ _ _ h m) m
  · have b := burstRead_moves (1 + (cycles - 40) / 32) ecc ⟨false, false⟩ [] _ (loadWin_moves addr _ h m) mO
    exact record_moves _ _ _ _ _ _ (shiftOut_moves _ _ _ (b.ite (b.modMp (m _ (by decide)) _)) m) m

theorem unlistedEffect_moves (op : Byte) (cycles : Nat) (s : State) (hO : Moves ps s₀ s)
    (mO : ∀ p ∈ [Part.mp], p ∈ ps) : Moves ps s₀ (unlistedEffect op cycles s) := by
  refine hO.step mO ?_
  clear hO mO
  unfold unlistedEffect
  repeat' first
    | with_reducible exact Moves.refl _ _ | with_reducible apply record_moves | with_reducible apply shiftOut_moves
    | with_reducible apply transaction_moves | with_reducible decide | with_reducible apply Moves.ite | split
    | dsimp only | intro _ _ | with_reducible assumption

/-! ### MgmtEngine -/

theorem setOp_moves (o : MgmtOp) (f : MgmtOp → MgmtOp) (s : State) (hO : Moves ps s₀ s)
    (mO : ∀ p ∈ [Part.qe], p ∈ ps) : Moves ps s₀ (setOp o f s) := by
  refine hO.step mO ?_
  clear hO mO
  unfold setOp
  repeat' first
    | with_reducible exact Moves.refl _ _ | with_reducible apply Moves.modQe | with_reducible decide

theorem opWrite_moves (o : MgmtOp) (w : Word) (s : State) (hO : Moves ps s₀ s)
    (mO : ∀ p ∈ [Part.bus, .qe], p ∈ ps) : Moves ps s₀ (opWrite o w s) := by
  refine hO.step mO ?_
  clear hO mO
  unfold opWrite
  repeat' first
    | with_reducible exact Moves.refl _ _ | with_reducible apply Moves.modBus | with_reducible apply setOp_moves
    | with_reducible decide | with_reducible apply Moves.ite

theorem opRead_moves (o : MgmtOp) (ecc : Ecc) (s : State) (hO : Moves ps s₀ s)
    (mO : ∀ p ∈ [Part.moment, .free, .sys, .mp, .bus, .acc, .lcs, .tbe, .tsq, .cap, .tagBase, .pw, .qe, .egr, .hl,
      .cfg, .scb, .ua, .spc, .pio, .adc, .bkp, .dm, .fs], p ∈ ps) : Moves ps s₀ (opRead o ecc s).2 := by
  refine hO.step mO ?_
  clear hO mO
  unfold opRead
  repeat' first
    | with_reducible exact Moves.refl _ _ | with_reducible refine Moves.snd (by assumption) ?_
    | with_reducible apply setOp_moves | with_reducible apply settleBlock_moves | with_reducible apply takeRead_moves
    | with_reducible decide | with_reducible apply Moves.ite | split | dsimp only

theorem wordFromObject_moves (o : MgmtOp) (e : MapEntry) (ecc : Ecc) (s : State) (hO : Moves ps s₀ s)
    (mO : ∀ p ∈ [Part.bus, .pw, .qe, .dm], p ∈ ps) : Moves ps s₀ (wordFromObject o e ecc s) := by
  refine hO.step mO ?_
  clear hO mO
  unfold wordFromObject
  repeat' first
    | with_reducible exact Moves.refl _ _ | with_reducible apply eccRead_moves | with_reducible apply opWrite_moves
    | with_reducible apply pwRange_moves | with_reducible apply setOp_moves | with_reducible decide
    | with_reducible apply Moves.ite | split

theorem wordToObject_moves (o : MgmtOp) (e : MapEntry) (ecc : Ecc) (s : State) (hO : Moves ps s₀ s)
    (mO : ∀ p ∈ [Part.moment, .free, .sys, .mp, .bus, .acc, .lcs, .tbe, .tsq, .cap, .tagBase, .pw, .qe, .egr, .hl,
      .cfg, .scb, .ua, .spc, .pio, .adc, .bkp, .dm, .fs], p ∈ ps) : Moves ps s₀ (wordToObject o e ecc s) := by
  refine hO.step mO ?_
  clear hO mO
  unfold wordToObject
  repeat' first
    | with_reducible exact Moves.refl _ _ | with_reducible refine Moves.snd (by assumption) ?_
    | with_reducible apply fsWrite32_moves | with_reducible apply opRead_moves | with_reducible apply pwRange_moves
    | with_reducible decide | split

theorem opWord_moves (o : MgmtOp) (ecc : Ecc) (s : State) (hO : Moves ps s₀ s)
    (mO : ∀ p ∈ [Part.moment, .free, .sys, .mp, .bus, .acc, .lcs, .tbe, .tsq, .cap, .tagBase, .pw, .qe, .egr, .hl,
      .cfg, .scb, .ua, .spc, .pio, .adc, .bkp, .dm, .fs], p ∈ ps) : Moves ps s₀ (opWord o ecc s) := by
  refine hO.step mO ?_
  clear hO mO
  unfold opWord
  repeat' first
    | with_reducible exact Moves.refl _ _ | with_reducible refine Moves.snd (by assumption) ?_
    | with_reducible apply opRead_moves | with_reducible apply opWrite_moves | with_reducible apply pwStale_moves
    | with_reducible apply setOp_moves | with_reducible apply wordFromObject_moves
    | with_reducible apply wordToObject_moves | with_reducible decide | with_reducible apply Moves.ite | split

theorem mgmtWordEffect_moves (fabric : Bool) (ecc : Ecc) (s : State) (hO : Moves ps s₀ s)
    (mO : ∀ p ∈ [Part.moment, .free, .sys, .mp, .bus, .acc, .lcs, .tbe, .tsq, .cap, .tagBase, .pw, .qe, .egr, .hl,
      .cfg, .scb, .ua, .spc, .pio, .adc, .bkp, .dm, .fs], p ∈ ps) : Moves ps s₀ (mgmtWordEffect fabric ecc s) := by
  refine hO.step mO ?_
  clear hO mO
  unfold mgmtWordEffect
  repeat' first
    | with_reducible exact Moves.refl _ _ | with_reducible apply noteFence_moves | with_reducible apply opWord_moves
    | with_reducible apply setOp_moves | with_reducible decide | split

/-! ### Startup -/

theorem supplyEffect_moves (s : State) (hO : Moves ps s₀ s)
    (mO : ∀ p ∈ [Part.undef], p ∈ ps) : Moves ps s₀ (supplyEffect s) := by
  refine hO.step mO ?_
  clear hO mO
  unfold supplyEffect
  repeat' first
    | with_reducible exact Moves.refl _ _ | with_reducible apply Moves.setUndef | with_reducible decide
    | with_reducible apply Moves.ite

theorem vbatEffect_moves (s : State) (hO : Moves ps s₀ s)
    (mO : ∀ p ∈ [Part.free, .bkp], p ∈ ps) : Moves ps s₀ (vbatEffect s) := by
  refine hO.step mO ?_
  clear hO mO
  unfold vbatEffect
  repeat' first
    | with_reducible exact Moves.refl _ _ | with_reducible apply Moves.freeSteps | with_reducible apply Moves.modBkp
    | with_reducible decide

theorem settleWrites_moves (s : State) (hO : Moves ps s₀ s)
    (mO : ∀ p ∈ [Part.moment, .sys, .mp, .bus, .acc, .lcs, .tbe, .tsq, .cap, .tagBase, .pw, .qe, .egr, .hl, .cfg,
      .scb, .ua, .spc, .pio, .adc, .bkp, .dm, .fs], p ∈ ps) : Moves ps s₀ (settleWrites s) := by
  refine hO.step mO ?_
  clear hO mO
  unfold settleWrites
  repeat' first
    | with_reducible exact Moves.refl _ _ | with_reducible apply drainAll_moves | with_reducible decide
    | with_reducible apply Moves.ite

theorem resetBlocks_moves (soft : Bool) (s : State) (hO : Moves ps s₀ s)
    (mO : ∀ p ∈ [Part.free, .time, .mp, .bus, .acc, .lcs, .jtag, .tbe, .tsq, .cap, .tagBase, .pw, .qe, .egr, .hl,
      .fsp, .fab, .cfg, .scb, .ua, .spc, .pio, .adc, .bkp, .dm, .fs], p ∈ ps) : Moves ps s₀ (resetBlocks soft s) := by
  refine hO.step mO ?_
  clear hO mO
  unfold resetBlocks
  dsimp only
  refine pairClear_moves _ ((lcsReset_moves _ ((Moves.refl _ s).freeSteps (by decide) 2) (by decide)).trans ⟨fun p hp
      => ?_, fun _ => ⟨rfl, rfl⟩⟩)
    (by decide)
  cases p <;> first | rfl | exact absurd (by decide) hp

theorem pinResetFull_moves (s : State) (hO : Moves ps s₀ s)
    (mO : ∀ p ∈ [Part.moment, .free, .undef, .time, .sys, .mp, .bus, .acc, .lcs, .jtag, .tbe, .tsq, .cap, .tagBase,
      .pw, .qe, .egr, .hl, .fsp, .fab, .cfg, .scb, .ua, .spc, .pio, .adc, .bkp, .dm, .fs], p ∈ ps) : Moves ps s₀
      (pinResetFull s) := by
  refine hO.step mO ?_
  clear hO mO
  unfold pinResetFull
  repeat' first
    | with_reducible exact Moves.refl _ _ | with_reducible apply Moves.modSys | with_reducible apply Moves.setUndef
    | with_reducible apply resetBlocks_moves | with_reducible apply settleWrites_moves | with_reducible decide

theorem pinResetEffect_moves (lowNs : Nat) (s : State) (hO : Moves ps s₀ s)
    (mO : ∀ p ∈ [Part.moment, .free, .undef, .time, .sys, .mp, .bus, .acc, .lcs, .jtag, .tbe, .tsq, .cap, .tagBase,
      .pw, .qe, .egr, .hl, .fsp, .fab, .cfg, .scb, .ua, .spc, .pio, .adc, .bkp, .dm, .fs], p ∈ ps) : Moves ps s₀
      (pinResetEffect lowNs s) := by
  refine hO.step mO ?_
  clear hO mO
  unfold pinResetEffect
  repeat' first
    | with_reducible exact Moves.refl _ _ | with_reducible apply Moves.freeStep
    | with_reducible apply pinResetFull_moves | with_reducible decide | with_reducible apply Moves.ite

theorem resetNRiseEffect_moves (met pcEn : Bool) (s : State) (hO : Moves ps s₀ s)
    (mO : ∀ p ∈ [Part.undef, .sys, .cfg], p ∈ ps) : Moves ps s₀ (resetNRiseEffect met pcEn s) := by
  refine hO.step mO ?_
  clear hO mO
  unfold resetNRiseEffect
  repeat' first
    | with_reducible exact Moves.refl _ _ | with_reducible apply Moves.modCfg | with_reducible apply Moves.modSys
    | with_reducible apply Moves.setUndef | with_reducible decide | with_reducible apply Moves.ite

theorem softResetEffect_moves (s : State) (hO : Moves ps s₀ s)
    (mO : ∀ p ∈ [Part.moment, .free, .time, .sys, .mp, .bus, .acc, .lcs, .jtag, .tbe, .tsq, .cap, .tagBase, .pw, .qe,
      .egr, .hl, .fsp, .fab, .cfg, .scb, .ua, .spc, .pio, .adc, .bkp, .dm, .fs], p ∈ ps) : Moves ps s₀
      (softResetEffect s) := by
  refine hO.step mO ?_
  clear hO mO
  unfold softResetEffect
  repeat' first
    | with_reducible exact Moves.refl _ _ | with_reducible apply Moves.modBkp | with_reducible apply Moves.modCfg
    | with_reducible apply Moves.modSys | with_reducible apply drainAll_moves | with_reducible apply lcsLatch_moves
    | with_reducible apply resetBlocks_moves | with_reducible decide | with_reducible apply Moves.ite

theorem egrRising_moves (before after : State) (hO : Moves ps s₀ after)
    (mO : ∀ p ∈ [Part.egr], p ∈ ps) : Moves ps s₀ (egrRising before after) := by
  refine hO.step mO ?_
  clear hO mO
  unfold egrRising
  repeat' first
    | with_reducible exact Moves.refl _ _ | with_reducible apply egrRisen_moves | with_reducible apply Moves.each
    | with_reducible decide | dsimp only | intro _ _ _ | with_reducible assumption

theorem hlRetrain_moves (s : State) (hO : Moves ps s₀ s)
    (mO : ∀ p ∈ [Part.hl], p ∈ ps) : Moves ps s₀ (hlRetrain s) := by
  refine hO.step mO ?_
  clear hO mO
  unfold hlRetrain
  repeat' first
    | with_reducible exact Moves.refl _ _ | with_reducible apply Moves.modPort | with_reducible apply Moves.each
    | with_reducible decide | dsimp only | intro _ _ _ | with_reducible assumption

theorem pllLockEffect_moves (pll : Pll) (us : Nat) (s : State) (hO : Moves ps s₀ s)
    (mO : ∀ p ∈ [Part.time, .sys, .lcs, .egr, .bkp], p ∈ ps) : Moves ps s₀ (pllLockEffect pll us s) := by
  refine hO.step mO ?_
  clear hO mO
  unfold pllLockEffect
  repeat' first
    | with_reducible exact Moves.refl _ _ | with_reducible apply Moves.modBkp | with_reducible apply Moves.modSys
    | with_reducible apply Moves.setTime | with_reducible apply egrRising_moves | with_reducible apply lcsLatch_moves
    | with_reducible decide | with_reducible apply Moves.ite | split

theorem pllLossEffect_moves (pll : Pll) (s : State) (hO : Moves ps s₀ s)
    (mO : ∀ p ∈ [Part.undef, .sys, .qe, .egr, .dm], p ∈ ps) : Moves ps s₀ (pllLossEffect pll s) := by
  refine hO.step mO ?_
  clear hO mO
  unfold pllLossEffect
  repeat' first
    | with_reducible exact Moves.refl _ _ | with_reducible apply Moves.modSys | with_reducible apply Moves.setUndef
    | with_reducible apply egrLoss_moves | with_reducible apply Moves.each | with_reducible decide
    | with_reducible apply Moves.ite | split | dsimp only | intro _ _ _ | with_reducible assumption

theorem pllRelockEffect_moves (pll : Pll) (s : State) (hO : Moves ps s₀ s)
    (mO : ∀ p ∈ [Part.sys, .egr, .hl], p ∈ ps) : Moves ps s₀ (pllRelockEffect pll s) := by
  refine hO.step mO ?_
  clear hO mO
  unfold pllRelockEffect
  repeat' first
    | with_reducible exact Moves.refl _ _ | with_reducible apply Moves.modSys | with_reducible apply egrRising_moves
    | with_reducible apply hlRetrain_moves | with_reducible decide | with_reducible apply Moves.ite | split

theorem configFail_moves (s : State) (hO : Moves ps s₀ s)
    (mO : ∀ p ∈ [Part.moment, .sys, .mp, .cfg, .scb], p ∈ ps) : Moves ps s₀ (configFail s) := by
  refine hO.step mO ?_
  clear hO mO
  unfold configFail
  repeat' first
    | with_reducible exact Moves.refl _ _ | with_reducible apply Moves.modCfg | with_reducible apply Moves.modSys
    | with_reducible apply scrubHalt_moves | with_reducible apply settle_moves | with_reducible decide

theorem scrapErase_moves (s : State) (hO : Moves ps s₀ s)
    (mO : ∀ p ∈ [Part.lcs, .cfg], p ∈ ps) : Moves ps s₀ (scrapErase s) := by
  refine hO.step mO ?_
  clear hO mO
  unfold scrapErase
  repeat' first
    | with_reducible exact Moves.refl _ _ | with_reducible apply Moves.modCfg | with_reducible apply Moves.modLcs
    | with_reducible decide

theorem readHeaders_moves (s : State) (hO : Moves ps s₀ s)
    (mO : ∀ p ∈ [Part.cfg], p ∈ ps) : Moves ps s₀ (readHeaders s) := by
  refine hO.step mO ?_
  clear hO mO
  unfold readHeaders
  repeat' first
    | with_reducible exact Moves.refl _ _ | with_reducible apply refreshView_moves | with_reducible apply Moves.each
    | with_reducible decide | dsimp only | intro _ _ _ | with_reducible assumption

theorem loadSettings_moves (s : State) (hO : Moves ps s₀ s)
    (mO : ∀ p ∈ [Part.cfg, .scb], p ∈ ps) : Moves ps s₀ (loadSettings s) := by
  refine hO.step mO ?_
  clear hO mO
  unfold loadSettings
  repeat' first
    | with_reducible exact Moves.refl _ _ | with_reducible apply Moves.modCfg | with_reducible apply Moves.modScb
    | with_reducible decide

theorem bootSelectionEffect_moves (s : State) (hO : Moves ps s₀ s)
    (mO : ∀ p ∈ [Part.moment, .sys, .mp, .lcs, .cfg, .scb], p ∈ ps) : Moves ps s₀ (bootSelectionEffect s) := by
  refine hO.step mO ?_
  clear hO mO
  unfold bootSelectionEffect
  repeat' first
    | with_reducible exact Moves.refl _ _ | with_reducible apply Moves.modCfg | with_reducible apply Moves.modSys
    | with_reducible apply configFail_moves | with_reducible apply loadSettings_moves
    | with_reducible apply readHeaders_moves | with_reducible apply scrapErase_moves | with_reducible decide
    | with_reducible apply Moves.ite

theorem loadLatches_moves (s : State) (b : Fin 3) (hO : Moves ps s₀ s)
    (mO : ∀ p ∈ [Part.cfg], p ∈ ps) : Moves ps s₀ (loadLatches s b) := by
  refine hO.step mO ?_
  clear hO mO
  unfold loadLatches
  repeat' first
    | with_reducible exact Moves.refl _ _ | with_reducible apply Moves.modCfg | with_reducible decide

theorem startFabric_moves (s : State) (hO : Moves ps s₀ s)
    (mO : ∀ p ∈ [Part.moment, .fsp, .fab, .scb], p ∈ ps) : Moves ps s₀ (startFabric s) := by
  refine hO.step mO ?_
  clear hO mO
  unfold startFabric
  repeat' first
    | with_reducible exact Moves.refl _ _ | with_reducible apply fabLoadImage_moves
    | with_reducible apply fspLoadImage_moves | with_reducible apply scrubRelease_moves
    | with_reducible apply Moves.each | with_reducible decide | dsimp only | intro _ _ _ | with_reducible assumption

theorem releaseEffect_moves (s : State) (hO : Moves ps s₀ s)
    (mO : ∀ p ∈ [Part.moment, .sys, .mp, .fsp, .fab, .cfg, .scb, .pio], p ∈ ps) : Moves ps s₀ (releaseEffect s) := by
  refine hO.step mO ?_
  clear hO mO
  unfold releaseEffect
  repeat' first
    | with_reducible exact Moves.refl _ _ | with_reducible apply Moves.modSys | with_reducible apply pioRelease_moves
    | with_reducible apply settle_moves | with_reducible apply startFabric_moves | with_reducible decide

theorem transferDoneEffect_moves (mismatch : Bool) (s : State) (hO : Moves ps s₀ s)
    (mO : ∀ p ∈ [Part.moment, .sys, .mp, .fsp, .fab, .cfg, .scb, .pio], p ∈ ps) : Moves ps s₀ (transferDoneEffect
      mismatch s) := by
  refine hO.step mO ?_
  clear hO mO
  unfold transferDoneEffect
  repeat' first
    | with_reducible exact Moves.refl _ _ | with_reducible apply Moves.modCfg | with_reducible apply Moves.modSys
    | with_reducible apply configFail_moves | with_reducible apply loadLatches_moves
    | with_reducible apply releaseEffect_moves | with_reducible decide | with_reducible apply Moves.ite | split

theorem dropAnswers_moves (s : State) (hO : Moves ps s₀ s)
    (mO : ∀ p ∈ [Part.bus, .acc], p ∈ ps) : Moves ps s₀ (dropAnswers s) := by
  refine hO.step mO ?_
  clear hO mO
  unfold dropAnswers
  repeat' first
    | with_reducible exact Moves.refl _ _ | with_reducible apply Moves.modBus | with_reducible apply noteFence_moves
    | with_reducible decide

theorem reconfigurationEffect_moves (mismatch : Bool) (s : State) (hO : Moves ps s₀ s)
    (mO : ∀ p ∈ [Part.moment, .free, .sys, .mp, .bus, .acc, .lcs, .pw, .qe, .egr, .fsp, .fab, .cfg, .scb, .dm], p ∈
      ps) : Moves ps s₀ (reconfigurationEffect mismatch s) := by
  refine hO.step mO ?_
  clear hO mO
  unfold reconfigurationEffect
  repeat' first
    | with_reducible exact Moves.refl _ _ | with_reducible apply Moves.freeStep | with_reducible apply Moves.modSys
    | with_reducible apply configFail_moves | with_reducible apply dropAnswers_moves
    | with_reducible apply fspReconfigure_moves | with_reducible apply lcsReconf_moves
    | with_reducible apply loadLatches_moves | with_reducible apply startFabric_moves | with_reducible apply Moves.each
    | with_reducible decide | with_reducible apply Moves.ite | split | dsimp only | intro _ _ _
    | with_reducible assumption

/-! ### Jtag -/

theorem bypassEffect_moves (op : Byte) (s : State) (hO : Moves ps s₀ s)
    (mO : ∀ p ∈ [Part.jtag], p ∈ ps) : Moves ps s₀ (bypassEffect op s) := by
  refine hO.step mO ?_
  clear hO mO
  unfold bypassEffect
  repeat' first
    | with_reducible exact Moves.refl _ _ | with_reducible apply Moves.modJtag | with_reducible decide

theorem scanCapture_moves (chain : List Bool) (s : State) (hO : Moves ps s₀ s)
    (mO : ∀ p ∈ [Part.free], p ∈ ps) : Moves ps s₀ (scanCapture chain s).2 := by
  refine hO.step mO ?_
  clear hO mO
  unfold scanCapture
  repeat' first
    | with_reducible exact Moves.refl _ _ | with_reducible apply Moves.freeSteps | with_reducible decide

theorem extestEffect_moves (chain : List Bool) (s : State) (hO : Moves ps s₀ s)
    (mO : ∀ p ∈ [Part.free, .jtag], p ∈ ps) : Moves ps s₀ (extestEffect chain s) := by
  refine hO.step mO ?_
  clear hO mO
  unfold extestEffect
  repeat' first
    | with_reducible exact Moves.refl _ _ | with_reducible refine Moves.snd (by assumption) ?_
    | with_reducible apply Moves.modJtag | with_reducible apply scanCapture_moves | with_reducible decide

theorem samplePreloadEffect_moves (chain : List Bool) (s : State) (hO : Moves ps s₀ s)
    (mO : ∀ p ∈ [Part.free, .jtag], p ∈ ps) : Moves ps s₀ (samplePreloadEffect chain s) := by
  refine hO.step mO ?_
  clear hO mO
  unfold samplePreloadEffect
  repeat' first
    | with_reducible exact Moves.refl _ _ | with_reducible refine Moves.snd (by assumption) ?_
    | with_reducible apply Moves.modJtag | with_reducible apply scanCapture_moves | with_reducible decide

theorem idcodeEffect_moves (s : State) (hO : Moves ps s₀ s)
    (mO : ∀ p ∈ [Part.jtag], p ∈ ps) : Moves ps s₀ (idcodeEffect s) := by
  refine hO.step mO ?_
  clear hO mO
  unfold idcodeEffect
  repeat' first
    | with_reducible exact Moves.refl _ _ | with_reducible apply Moves.modJtag | with_reducible decide

theorem captureAccess_moves (op : Byte) (s : State) (hO : Moves ps s₀ s)
    (mO : ∀ p ∈ [Part.bus, .acc, .jtag], p ∈ ps) : Moves ps s₀ (captureAccess op s) := by
  refine hO.step mO ?_
  clear hO mO
  unfold captureAccess
  repeat' first
    | with_reducible exact Moves.refl _ _ | with_reducible apply Moves.modJtag
    | with_reducible apply accessAnswerEffect_moves | with_reducible decide

theorem updateAccess_moves (lo hi : Nat) (go write : Bool) (addr data : Word) (ecc : Ecc) (s : State) (hO : Moves ps
      s₀ s)
    (mO : ∀ p ∈ [Part.moment, .free, .sys, .mp, .bus, .acc, .lcs, .jtag, .tbe, .tsq, .cap, .tagBase, .pw, .qe, .egr,
      .hl, .cfg, .scb, .ua, .spc, .pio, .adc, .bkp, .dm, .fs], p ∈ ps) : Moves ps s₀ (updateAccess lo hi go write
      addr data ecc s) := by
  refine hO.step mO ?_
  clear hO mO
  unfold updateAccess
  repeat' first
    | with_reducible exact Moves.refl _ _ | with_reducible apply jtagIssue_moves | with_reducible apply jtagRefuse_moves
    | with_reducible decide | with_reducible apply Moves.ite

theorem authEffect_moves (go write : Bool) (addr data : Word) (s : State) (hO : Moves ps s₀ s)
    (mO : ∀ p ∈ [Part.moment, .free, .sys, .mp, .bus, .acc, .lcs, .jtag, .tbe, .tsq, .cap, .tagBase, .pw, .qe, .egr,
      .hl, .cfg, .scb, .ua, .spc, .pio, .adc, .bkp, .dm, .fs], p ∈ ps) : Moves ps s₀ (authEffect go write addr data
      s) := by
  refine hO.step mO ?_
  clear hO mO
  unfold authEffect
  repeat' first
    | with_reducible exact Moves.refl _ _ | with_reducible apply captureAccess_moves
    | with_reducible apply updateAccess_moves | with_reducible decide

theorem debugBusEffect_moves (go write : Bool) (addr data : Word) (ecc : Ecc) (s : State) (hO : Moves ps s₀ s)
    (mO : ∀ p ∈ [Part.moment, .free, .sys, .mp, .bus, .acc, .lcs, .jtag, .tbe, .tsq, .cap, .tagBase, .pw, .qe, .egr,
      .hl, .cfg, .scb, .ua, .spc, .pio, .adc, .bkp, .dm, .fs], p ∈ ps) : Moves ps s₀ (debugBusEffect go write addr
      data ecc s) := by
  refine hO.step mO ?_
  clear hO mO
  unfold debugBusEffect
  repeat' first
    | with_reducible exact Moves.refl _ _ | with_reducible apply bypassEffect_moves
    | with_reducible apply captureAccess_moves | with_reducible apply updateAccess_moves | with_reducible decide
    | with_reducible apply Moves.ite

theorem rlogEffect_moves (go write : Bool) (addr data : Word) (s : State) (hO : Moves ps s₀ s)
    (mO : ∀ p ∈ [Part.moment, .free, .sys, .mp, .bus, .acc, .lcs, .jtag, .tbe, .tsq, .cap, .tagBase, .pw, .qe, .egr,
      .hl, .cfg, .scb, .ua, .spc, .pio, .adc, .bkp, .dm, .fs], p ∈ ps) : Moves ps s₀ (rlogEffect go write addr data
      s) := by
  refine hO.step mO ?_
  clear hO mO
  unfold rlogEffect
  repeat' first
    | with_reducible exact Moves.refl _ _ | with_reducible apply bypassEffect_moves
    | with_reducible apply captureAccess_moves | with_reducible apply updateAccess_moves | with_reducible decide
    | with_reducible apply Moves.ite

theorem readbackEffect_moves (frame : Word) (s : State) (hO : Moves ps s₀ s)
    (mO : ∀ p ∈ [Part.jtag], p ∈ ps) : Moves ps s₀ (readbackEffect frame s) := by
  refine hO.step mO ?_
  clear hO mO
  unfold readbackEffect
  repeat' first
    | with_reducible exact Moves.refl _ _ | with_reducible apply Moves.modJtag | with_reducible apply bypassEffect_moves
    | with_reducible decide | with_reducible apply Moves.ite

theorem readbackFrameReadEffect_moves (s : State) (hO : Moves ps s₀ s)
    (mO : ∀ p ∈ [Part.free, .jtag], p ∈ ps) : Moves ps s₀ (readbackFrameReadEffect s) := by
  refine hO.step mO ?_
  clear hO mO
  unfold readbackFrameReadEffect
  repeat' first
    | with_reducible exact Moves.refl _ _ | with_reducible apply Moves.freeSteps | with_reducible apply Moves.modJtag
    | with_reducible decide | with_reducible apply Moves.ite

/-! ### Due -/

theorem ageClocked_moves (s : State) (hO : Moves ps s₀ s)
    (mO : ∀ p ∈ [Part.acc, .lcs, .tbe, .tsq, .cap, .pw, .qe, .egr, .hl, .cfg, .scb, .ua, .spc, .pio, .adc], p ∈ ps) :
      Moves ps s₀ (ageClocked s) := by
  refine hO.trans ⟨fun p hp => ?_, id⟩
  cases p <;> first | rfl | exact absurd (mO _ (by decide)) hp

theorem endBlocks_moves (s : State) (hO : Moves ps s₀ s)
    (mO : ∀ p ∈ [Part.acc, .lcs, .tbe, .tsq, .cap, .pw, .qe, .egr, .hl, .cfg, .scb, .ua, .spc, .pio, .adc], p ∈ ps) :
      Moves ps s₀ (endBlocks s) := by
  refine hO.step mO ?_
  clear hO mO
  unfold endBlocks
  repeat' first
    | with_reducible exact Moves.refl _ _ | with_reducible apply Moves.modSpc | with_reducible apply Moves.modUa
    | with_reducible apply ageClocked_moves | with_reducible apply egrArm_moves | with_reducible apply haltNoted_moves
    | with_reducible apply pioTickEnd_moves | with_reducible apply slotTurn_moves | with_reducible apply Moves.each
    | with_reducible decide | dsimp only | intro _ _ _ | with_reducible assumption

theorem endClocked_moves (s : State) (hO : Moves ps s₀ s)
    (mO : ∀ p ∈ [Part.time, .clock, .acc, .lcs, .tbe, .tsq, .cap, .pw, .qe, .egr, .hl, .cfg, .scb, .ua, .spc, .pio,
      .adc], p ∈ ps) : Moves ps s₀ (endClocked s) := by
  refine hO.step mO ?_
  clear hO mO
  unfold endClocked
  repeat' first
    | with_reducible exact Moves.refl _ _ | with_reducible apply Moves.setClock | with_reducible apply Moves.setTime
    | with_reducible apply endBlocks_moves | with_reducible decide

theorem oscTurn_moves (s : State) (hO : Moves ps s₀ s)
    (mO : ∀ p ∈ [Part.bus, .bkp], p ∈ ps) : Moves ps s₀ (oscTurn s) := by
  refine hO.step mO ?_
  clear hO mO
  unfold oscTurn
  repeat' first
    | with_reducible exact Moves.refl _ _ | with_reducible apply Moves.modBkp | with_reducible apply Moves.modBus
    | with_reducible apply oscEdge_moves | with_reducible decide | with_reducible apply Moves.ite

theorem tickEnd_moves (s : State) (hO : Moves ps s₀ s)
    (mO : ∀ p ∈ [Part.moment, .time, .clock, .sys, .bus, .acc, .lcs, .tbe, .tsq, .cap, .pw, .qe, .egr, .hl, .cfg,
      .scb, .ua, .spc, .pio, .adc, .bkp], p ∈ ps) : Moves ps s₀ (tickEnd s) := by
  refine hO.step mO ?_
  clear hO mO
  unfold tickEnd
  repeat' first
    | with_reducible exact Moves.refl _ _ | with_reducible apply Moves.modBkp | with_reducible apply Moves.modMoment
    | with_reducible apply Moves.modSys | with_reducible apply endClocked_moves | with_reducible apply oscTurn_moves
    | with_reducible decide | with_reducible apply Moves.ite

theorem tick_moves (s : State) (hO : Moves ps s₀ s)
    (mO : ∀ p ∈ [Part.queue, .moment, .time, .clock, .sys, .bus, .acc, .lcs, .tbe, .tsq, .cap, .pw, .qe, .egr, .hl,
      .cfg, .scb, .ua, .spc, .pio, .adc, .bkp], p ∈ ps) : Moves ps s₀ (tick s) := by
  refine hO.step mO ?_
  clear hO mO
  unfold tick
  repeat' first
    | with_reducible exact Moves.refl _ _ | with_reducible apply Moves.modMoment | with_reducible apply tickEnd_moves
    | with_reducible decide | with_reducible apply Moves.ite | split | dsimp only
    | with_reducible apply Moves.set_pending

end Sys2Proof.Machine
end

