-- ==== Sys2Proof/Laws/Vectors.lean ====
section
/-! SUPPORT. The update of one instance of a replicated block: twice the same instance, and every other instance. -/

namespace Sys2Proof.Machine

theorem upd_upd {α : Type} {n : Nat} (v : Vector α n) (i : Fin n) (f g : α → α) :
    upd (upd v i f) i g = upd v i fun x => g (f x) := by
  simp [upd]

theorem upd_id {α : Type} {n : Nat} (v : Vector α n) (i : Fin n) (f : α → α) (h : f v[i.val] = v[i.val]) : upd v i f = v := by
  simp [upd, h]

/-- Two updates of one instance that agree on it agree. -/
theorem upd_congr {α : Type} {n : Nat} (v : Vector α n) (i : Fin n) (f g : α → α) (h : f v[i.val] = g v[i.val]) :
    upd v i f = upd v i g := by
  simp [upd, h]

theorem finRange_map_get {α : Type} {n : Nat} (v : Vector α n) : (List.finRange n).map (fun i => v[i.val]) = v.toList := by
  apply List.ext_getElem
  · simp
  · intro i h1 h2; simp

/-- Counting instances by number and counting the list of instances agree. -/
theorem filter_get_length {α : Type} {n : Nat} (v : Vector α n) (p : α → Bool) :
    ((List.finRange n).filter fun i => p v[i.val]).length = (v.toList.filter p).length := by
  rw [← finRange_map_get, List.filter_map, List.length_map]; rfl

end Sys2Proof.Machine
end

