-- ==== Sys2Proof/Laws/Pages.lean ====
section
/-! SUPPORT. The count of free handles and their list agree. -/

namespace Sys2Proof.Machine

theorem freeHandleCount_eq (s : State) : freeHandleCount s = (freeHandles s).length := by
  unfold freeHandleCount freeHandles allFin
  exact (filter_get_length s.pw.map fun e => e.st == .free).symm

end Sys2Proof.Machine
end

