-- ==== Sys2Proof/Laws/Ticks.lean ====
section
/-! SUPPORT. What a tick on an empty queue does: first what is due in it is put into the queue, then the tick ends. -/

namespace Sys2Proof.Machine

/-- What is due in the tick goes into the queue once, and nothing else happens. -/
theorem tick_due {s : State} (h : s.moment.late = false) (k : dueNow s ≠ []) :
    tick s = { s with pending := dueNow s, moment := { s.moment with late := true } } := by
  unfold tick
  have : (s.moment.late || (dueNow s).isEmpty) = false := by simp [h, k]
  rw [this]; rfl

/-- A tick in which nothing more is due ends. -/
theorem tick_end {s : State} (h : s.moment.late = true ∨ dueNow s = []) : tick s = tickEnd s := by
  unfold tick
  have : (s.moment.late || (dueNow s).isEmpty) = true := by simpa using h
  rw [if_pos this]

theorem endClocked_time (s : State) : (endClocked s).time = s.time + 1 := by
  have h : (endBlocks s).time = s.time := (endBlocks_moves s (Moves.refl _ s) fun _ h => h).only .time (by decide)
  unfold endClocked
  simp [h]

/-- The time base counts every tick of a clocked device whose PLL_SYS is locked (R155). -/
theorem tickEnd_time {s : State} (h : Clocked s) : (tickEnd s).time = s.time + 1 := by
  have c : clockRuns s = true := by simp [clockRuns, h.1, h.2]
  unfold tickEnd
  rw [if_pos c, ← endClocked_time s]
  exact (oscTurn_moves _ (Moves.refl [.bus, .bkp] _) (by decide)).only .time (by decide)

theorem tick_memInv {s : State} (m : MemInv s) : MemInv (tick s) := (tick_moves s (Moves.refl _ s) fun _ h => h).mem m

end Sys2Proof.Machine
end

