-- ==== Sys2Proof/Tests/Slice0.lean ====
section
/-! SUPPORT. Tests of one step each, with expected values from the manual's worked examples; an ill-formed command for each
check of Instr.wf; and for each statement of Certificates/Slice0/Obligations.lean states and operands that meet the hypotheses
of its clauses, at the ends of their ranges (the theorems named wit_ followed by the statement's name). -/

namespace Sys2Proof.Tests
open Sys2Proof.Machine
set_option Elab.async false

/-- Released, every PLL locked, everything else as at reset. -/
def ck : State := State.reset.modSys fun y =>
  { y with resetN := true, phase := .released, sysLock := true, ethLock := true, hlLock := true, ethFirst := true, hlFirst := true }

/-- The state at a later tick of the time base. -/
def tickAt (t : Tick) (s : State) : State := { s with time := t }

/-- The state at a later tick of the model's clock, which times every duration. -/
def clockAt (t : Nat) (s : State) : State := { s with clock := t }

/-- Some flags set, none of them in this tick. -/
def flagsOf {n : Nat} (b : BitVec n) : Flags n := ⟨b, 0⟩

/-- A group with a commit requested. -/
def asked {α : Type} (g : Shadowed α) : Shadowed α := { g with pending := true }

/-- StepRunsTheFront: a command in front, and an empty queue. -/
theorem wit_StepRunsTheFront : ({ ck with pending := [.snap, .nop] } : State).pending = .snap :: [.nop] ∧ ck.pending = [] := by decide

/-- AccessTableAfterReset: the shortest pulse that always acts, a soft reset asked for, and the addresses at the edges of SYS and
ACC. -/
theorem wit_AccessTableAfterReset : 1000 < 1001 ∧ Clocked ck ∧
    Clocked (ck.modSys fun y => { y with softReq := some .mp }) ∧
    (drainAll (ck.modSys fun y => { y with softReq := some .mp })).sys.softReq ≠ none ∧
    (0x1FFFC : Word).toNat < 0x20000 ∧ 0x30000 ≤ (0x30000 : Word).toNat := by decide

/-- MemoryFormKept and CommandFrames: a state with the form, and a step and a command that answer a next state. -/
theorem wit_MemoryFormKept : ∃ s t, MemInv s ∧ Machine.step s = .next t := ⟨State.reset, _, ⟨by decide, by decide⟩, rfl⟩
theorem wit_CommandFrames : ∃ c s t, exec c s = .next t := ⟨.snap, ck, _, rfl⟩
theorem wit_CommandsComplete : Clocked ck := by decide

/-- RailsOutUndefined: a rail out of range, and a command that is none of the three. -/
theorem wit_RailsOutUndefined : ({ ck with undef := some .railOut } : State).undef = some .railOut ∧ Instr.snap ≠ .supplyOutOfRange ∧
    (∀ n, Instr.snap ≠ .pinReset n) ∧ ∀ h p, Instr.snap ≠ .resetNRise h p := by
  refine ⟨rfl, by decide, fun n => by simp, fun h p => by simp⟩

/-- A pair to be taken at the oscillator edge of this tick. -/
def pairState : State := ck.modBkp fun b => { b with pairDue := true, edgeNow := true }

/-- TimeBase: each of its clauses; a tick in which what is due has acted, and one with the pair due. -/
theorem wit_TimeBase : (Clocked pairState ∧ pairState.pending = [] ∧ pairState.moment.late = false) ∧
    (pairState.modMoment fun m => { m with late := true }).moment.late = true ∧ 1000 < 1001 ∧
    (drainAll (ck.modSys fun y => { y with softReq := some .mp })).sys.softReq ≠ none ∧
    (State.reset.modSys fun y => { y with phase := .waitLock }).sys.phase = .waitLock ∧ portUp ck 0 = false := by decide
theorem wit_TimeBase_due : dueNow pairState ≠ [] :=
  List.append_ne_nil_of_left_ne_nil (by decide +kernel : dueBackup pairState ≠ []) _
theorem wit_TimeBase_command : ∃ t, exec .snap ck = .next t := ⟨_, rfl⟩

/-- Ring 32 enabled with 2 entries, and the given producer index. -/
def faultRing (pi : BitVec 16) : State := ck.modRing 32 fun g =>
  { g with group := { g.group with active := { g.group.active with ctrl := 0x11 } }, pi := pi }

/-- FaultRecords: a ring that takes the record, one that is full, one that is disabled; the sequence number that wraps. -/
theorem wit_FaultRecords : (Memory.wf (faultRing 1).dm = true ∧ Memory.wf (faultRing 1).fs = true) ∧
    ringOn (faultRing 1).qe.rings[32] = true ∧ ringFull (faultRing 1).qe.rings[32] = false ∧
    ringFull (faultRing 2).qe.rings[32] = true ∧ ringOn ck.qe.rings[32] = false ∧
    (ck.modQe fun q => { q with seq := 0xFFFF_FFFF }).qe.seq = 0xFFFF_FFFF := by decide +kernel

/-- An enabled alarm 0 whose active level is high, sampled high at the last oscillator edge, with k entries in the log, in the tick of
the next edge. -/
def alarmState (k : Nat) : State := ck.modBkp fun b => { b with almCfg := 0x11, almLevel := 0, almSample := 1, edgeNow := true, logCount := k }

/-- AlarmLog: an active level at both ends of the log, a full log, and a log of the MAIN_OFF period. -/
theorem wit_AlarmLog : Powered (alarmState 0) ∧ almSampled (alarmState 0) 0 = true ∧ bit (alarmState 0).bkp.almSample 0 = true ∧
    bit (alarmState 0).bkp.almLevel 0 ≠ true ∧ bit (alarmState 0).bkp.almCfg 0 = true ∧
    true = bit (alarmState 0).bkp.almCfg 4 ∧ (0 : Fin 16).val = (alarmState 0).bkp.logCount ∧
    (15 : Fin 16).val = (alarmState 15).bkp.logCount ∧ 16 ≤ (alarmState 16).bkp.logCount ∧ (alarmState 0).bkp.mainRun = false := by decide

/-- AlarmsAndPairs: an input that no edge samples, a first sample, one that changes nothing, a level that is not active, both ends of the
log, and a pair due and not due. -/
theorem wit_AlarmsAndPairs : almSampled ck 0 = false ∧ almSampled (alarmState 0) 0 = true ∧
    bit (alarmState 0).bkp.almSample 0 ≠ false ∧
    bit ((alarmState 0).modBkp fun b => { b with almLevel := 1 }).bkp.almLevel 0 = true ∧
    (¬(bit (alarmState 0).bkp.almSample 0 ≠ true ∨ bit (alarmState 0).bkp.almLevel 0 = true) ∧
      bit ((alarmState 0).modBkp fun b => { b with almCfg := 0x01 }).bkp.almCfg 4 ≠ true) ∧
    (bit (alarmState 15).bkp.almCfg 0 = true ∧ true = bit (alarmState 15).bkp.almCfg 4 ∧ (alarmState 15).bkp.logCount < 16 ∧
      16 ≤ (alarmState 16).bkp.logCount) ∧
    ck.bkp.pairDue = false ∧
    pairState.bkp.pairDue = true ∧
    pairState.bkp.oscRunning = true ∧
    pairState.bkp.edgeNow = true ∧ ck.sys.sysLock = true := by decide

/-- BackupOscillatorEdge: a load that waits and none. -/
theorem wit_BackupOscillatorEdge : (ck.modBkp fun b => { b with loadPending := true }).bkp.loadPending = true ∧
    ck.bkp.loadPending = false := by decide
theorem wit_BackupActions : Powered ck := by decide
theorem wit_KeepCountEdges : Powered ck := by decide

/-- SuppliesAndPinReset: each clause, with the pulses at their limits. -/
theorem wit_SuppliesAndPinReset : ck.sys.resetN = true ∧ (ck.modSys fun y => { y with resetN := false }).sys.resetN = false ∧ 19 < 20 ∧ (20 ≤ 20 ∧ 20 ≤ 1000) ∧
    (20 ≤ 1000 ∧ 1000 ≤ 1000) ∧ 1000 < 1001 ∧ ck.bus.inflight = [] ∧ ck.lcs.running = none ∧
    (ck.modSys fun y => { y with phase := .held }).sys.phase = .held ∧ ck.sys.phase ≠ .held ∧ Powered ck := by decide

/-- PllEvents: each clause. -/
theorem wit_PllEvents : Powered ck ∧ (ck.modSys fun y => { y with phase := .waitLock }).sys.phase = .waitLock ∧ ck.sys.phase ≠ .waitLock ∧
    ck.sys.phase ≠ .held ∧ (ck.modSys fun y => { y with phase := .held }).sys.phase = .held ∧
    (ck.modSys fun y => { y with ethFirst := false, hlFirst := false }).sys.ethFirst = false ∧
    ck.sys.ethFirst = true ∧ (ck.modSys fun y => { y with ethFirst := false, hlFirst := false }).sys.hlFirst = false ∧
    ck.sys.sysLock = true ∧ ck.sys.ethLock = true ∧ ck.sys.hlLock = true ∧
    bit (ck.modSys fun y => { y with fcgLock := 8 }).sys.fcgLock 3 = true ∧
    (ck.modSys fun y => { y with ethLock := false }).sys.ethLock = false ∧ ck.sys.hlFirst = true ∧
    (ck.modSys fun y => { y with hlLock := false }).sys.hlLock = false := by decide

/-- Slot 0 with one frame. -/
def slotWith (f : CfgFrame) : State := (ck.modSys fun y => { y with phase := .transfer [0] }).modCfg fun c =>
  { c with slots := upd c.slots 0 fun v => { v with st := .valid, frames := [f] } }

/-- BootAndSoftReset: each clause; a slot without frames passes, and a frame whose check word is wrong fails. -/
theorem wit_BootAndSoftReset : Clocked ck ∧ ck.sys.phase ≠ .bootSelect ∧
    (ck.modSys fun y => { y with phase := .bootSelect }).sys.phase = .bootSelect ∧ scrapped ck = false ∧
    scrapped (ck.modLcs fun l => { l with latched := 5 }) = true ∧
    (ck.modSys fun y => { y with phase := .transfer [2, 1] }).sys.phase = .transfer (2 :: [1]) ∧
    (ck.modSys fun y => { y with phase := .transfer [0] }).sys.phase = .transfer (0 :: []) ∧
    (getNv ck 2).frames.all frameOk = true ∧ (getNv (slotWith ⟨0, [1]⟩) 0).frames.all frameOk = false ∧
    ck.bus.inflight = [] ∧ ck.sys.softReq = none ∧ (ck.modSys fun y => { y with softReq := some .mp }).sys.softReq.isSome = true ∧
    ck.sys.reconfReq = false ∧ released State.reset = false ∧ released ck = true ∧
    (ck.modSys fun y => { y with reconfReq := true }).sys.reconfReq = true ∧ bootedSlot (ck.modCfg fun c => { c with booted := 1 }) = some 1 := by
  decide +kernel

/-- Every entry of the access table disabled. -/
def shut : State := ck.modAcc fun a => { a with group := { a.group with active := Vector.replicate 64 ⟨0, 0, 0⟩ } }

/-- PortTransactions: cycles at the limits of each case, and each kind of window write. -/
theorem wit_PortTransactions : ck.undef = none ∧ held ck = false ∧ held (ck.modSys fun y => { y with phase := .held }) = true ∧
    (0 < 1 ∧ 1 < 8) ∧ (0 < 7 ∧ 7 < 8) ∧ (8 ≤ 8 ∧ 8 < 48) ∧ (8 ≤ 47 ∧ 47 < 48) ∧
    48 ≤ 48 ∧ listedOpcode 0x55 = false ∧ (0x08 : Byte) ≠ 0x09 ∧
    checkAccess ck .mp true (wordAddr 0x20800) ≠ none ∧
    checkAccess ck .mp true (wordAddr 0x4000_0000) = none ∧ responds ck (wordAddr 0x4000_0000) = false ∧
    checkAccess ck .mp true (wordAddr 0x4_0000) = none ∧ responds ck (wordAddr 0x4_0000) = true ∧
    blockOf (wordAddr 0x4_0000) ≠ some .bkp ∧
    checkAccess ck .mp true (wordAddr 0x28_0040) = none ∧ responds ck (wordAddr 0x28_0040) = true ∧
    blockOf (wordAddr 0x28_0040) = some .bkp ∧ ck.bus.bkpBuf.length < 8 ∧
    8 ≤ (ck.modBus fun b => { b with bkpBuf := List.replicate 8 ⟨0, .mp, 0x28_0040, 0, 0, 0⟩ }).bus.bkpBuf.length ∧
    cfgHalted (ck.modCfg fun c => { c with phase := .failed }) = true := by decide +kernel

/-- WindowBursts: one word and none, at the lengths of their bursts, the cycles at the limits, a refused and a permitted word. -/
theorem wit_WindowBursts : ck.undef = none ∧ held ck = false ∧ (8 ≤ 8 ∧ 8 < 40) ∧ (8 ≤ 39 ∧ 39 < 40) ∧
    (40 ≤ 72 ∧ [(1 : Word)].length = (72 - 40) / 32) ∧ (40 ≤ 71 ∧ ([] : List Word).length = (71 - 40) / 32) ∧
    (∀ k, k < 1 → let a := wordAddr 0x4_0000 + BitVec.ofNat 32 (4 * k)
      checkAccess ck .mp true a = none ∧ responds ck a = true ∧ blockOf a ≠ some .bkp) ∧
    (∀ k, k < 1 → checkAccess shut .mp false (wordAddr 0x4_0000 + BitVec.ofNat 32 (4 * k)) ≠ none) ∧
    (∀ k, k < 1 → let a := wordAddr 0x4_0100 + BitVec.ofNat 32 (4 * k)
      checkAccess ck .mp false a = none ∧ responds ck a = true ∧ isPairLo a = false ∧ isPairHi a = false ∧ blockOf a = some .tbe) ∧
    ck.bus.inflight = [] := by decide +kernel

/-- RegisterWritesAndCommits: each clause; the FRP is refused everywhere. -/
theorem wit_RegisterWritesAndCommits : Clocked ck ∧ checkAccess ck .frp true (wordAddr 0x4_0000) ≠ none ∧
    checkAccess ck .mp true (wordAddr 0x4_0000) = none ∧ responds ck (wordAddr 0x4000_0000) = false ∧
    responds ck (wordAddr 0x4_0000) = true ∧ blockOf (wordAddr 0x4_0000) ≠ some .bkp ∧
    (checkAccess ck .mp true (wordAddr 0x28_0040) = none ∧ responds ck (wordAddr 0x28_0040) = true ∧
      blockOf (wordAddr 0x28_0040) = some .bkp) ∧
    (ck.modBus fun b => { b with bkpBuf := [⟨0, .mp, 0x28_0040, 0, 0, 0⟩] }).bus.bkpBuf ≠ [] ∧
    (let s := (ck.modLcs fun l => { l with latched := 5 }).modEnc 0 fun e => { e with cfg := { e.cfg with shadow := 1 } }
     (scrapped s && commitEnables s (.enc 0)) = true ∧ (scrapped s && commitEnables s .acc) = false) ∧
    ck.acc.group.pending = false ∧ (ck.modAcc fun a => { a with group := a.group.request }).acc.group.pending = true := by
  decide +kernel

/-- DescriptorWindowFrame: the first and the last word of descriptor memory. -/
theorem wit_DescriptorWindowFrame : Clocked ck ∧ (Memory.wf ck.dm = true ∧ Memory.wf ck.fs = true) ∧
    blockOf (wordAddr 0x10_0000) = some .desc ∧ checkAccess ck .mp true (wordAddr 0x10_0000) = none ∧
    blockOf (wordAddr 0x1F_FFFC) = some .desc ∧ checkAccess ck .mp true (wordAddr 0x1F_FFFC) = none ∧ ck.bus.inflight = [] := by
  decide +kernel

/-- Posted writes of the MP to the time base and to descriptor memory, and one to a scratch word of the backup domain. -/
def postedState : State := ck.modBus fun b =>
  { b with inflight := [⟨0, .mp, 0x4_0000, 1, 0, 0⟩, ⟨2, .mp, 0x10_0000, 1, 0, 0⟩], bkpBuf := [⟨1, .mp, 0x28_0100, 1, 0, 0⟩] }

/-- Both ports of the fabric on a network that runs. -/
def fabState : State := (ck.modFab fun f => { f with nets := upd f.nets 0 fun _ => some 0 }).modSys fun y => { y with fcgLock := 1 }

/-- The same with the first entry of the access table open to every requester. -/
def openState : State := fabState.modAcc fun a =>
  { a with group := { a.group with active := upd a.group.active 0 fun _ => ⟨0, 0xFFFF_FFFC, 0x0000_1F07⟩ } }

/-- A read that the FRP is owed at tick 48. -/
def owedState : State := openState.modBus fun b => { b with owed := [⟨.frp, false, 0x4_0000, 48, 0, false, .ok, 7⟩] }

/-- PostedWritesAndAnswers: the posted writes, and the answers at the tick before they are due and in that tick. -/
theorem wit_PostedWritesAndAnswers : Clocked postedState ∧ (Memory.wf postedState.dm = true ∧ Memory.wf postedState.fs = true) ∧
    Block.tbe ≠ .bkp ∧ ck.bus.inflight.find? (fun a => a.req == .mp && blockOf a.addr == some .tbe) = none ∧
    postedState.bus.inflight.find? (fun a => a.req == .mp && blockOf a.addr == some .tbe) = some ⟨0, .mp, 0x4_0000, 1, 0, 0⟩ ∧
    postedState.bus.inflight.find? (fun a => a.req == .mp && blockOf a.addr == some .desc) = some ⟨2, .mp, 0x10_0000, 1, 0, 0⟩ ∧
    mpWrote postedState 0x28_0100 = none ∧ ck.bus.bkpBuf = [] ∧
    (postedState.modBkp fun b => { b with oscRunning := false }).bkp.oscRunning = false ∧
    (postedState.bus.bkpBuf = ⟨1, .mp, 0x28_0100, 1, 0, 0⟩ :: [] ∧ Req.mp ≠ .frp ∧ postedState.bkp.oscRunning = true) ∧
    (0x28_0100 : Word) = BitVec.ofNat 32 (0x28_0100 + 4 * (0 : Fin 32).val) ∧
    owedTo ck .frp = [] ∧ owedTo owedState .frp = ⟨.frp, false, 0x4_0000, 48, 0, false, .ok, 7⟩ :: [] ∧
    (clockAt 47 owedState).clock < 48 ∧ answerClock owedState .frp = true ∧ answerClock ck .frp = false ∧
    48 ≤ (clockAt 48 owedState).clock := by decide +kernel

/-- PostedWritesAndAnswers: the accesses of FRP and ICP. -/
theorem wit_PostedWritesAndAnswers_fabric : frpReady ck = false ∧ icpReady ck = false ∧ frpReady openState = true ∧ icpReady openState = true ∧
    8 ≤ (owedTo (openState.modBus fun b => { b with owed := List.replicate 8 ⟨.frp, false, 0x4_0000, 48, 0, false, .ok, 7⟩ }) .frp).length ∧
    (owedTo openState .frp).length < 8 ∧ owedTo openState .frp = [] ∧ owedTo owedState .frp ≠ [] ∧
    checkAccess openState .frp true (wordAddr 0x4_0000) = none ∧ checkAccess openState .icp true (wordAddr 0x4_0000) = none ∧
    responds openState (wordAddr 0x4_0000) = true ∧ blockOf (wordAddr 0x4_0000) = some .tbe ∧
    checkAccess openState .frp false (wordAddr 0x4_0100) = none ∧ responds openState (wordAddr 0x4_0100) = true ∧
    isPairLo 0x4_0100 = false ∧ isPairHi 0x4_0100 = false ∧ blockOf 0x4_0100 = some .tbe ∧
    (frpReady fabState = true ∧ icpReady fabState = true ∧ checkAccess fabState .frp true (wordAddr 0x4_0000) ≠ none ∧
      checkAccess fabState .icp false (wordAddr 0x4_0000) ≠ none) ∧
    openState.bus.inflight = [] := by decide +kernel

/-- ReadsWithEffects: each clause; the fields of an entry whose FIFO holds one, and none. -/
theorem wit_ReadsWithEffects : Clocked openState ∧ (frpReady openState = true ∧ (owedTo openState .frp).length < 8) ∧
    ck.bus.inflight = [] ∧ isPairLo 0x4_0004 = false ∧ isPairHi 0x4_0000 = false ∧
    isPairLo 0x4_0110 = true ∧ checkAccess ck .mp false 0x4_0110 = none ∧ responds ck 0x4_0110 = true ∧ wordAddr 0x4_0110 = 0x4_0110 ∧
    isPairHi 0x4_0114 = true ∧ isPairLo 0x4_0114 = false ∧ checkAccess ck .mp false 0x4_0114 = none ∧ responds ck 0x4_0114 = true ∧
    findLatch ck .mp 0x4_0110 = none ∧ findLatch (ck.modBus fun b => { b with hiLatches := [⟨.mp, 0x4_0110, 5⟩] }) .mp 0x4_0110 = some 5 ∧
    checkAccess ck .mp false 0x22_001C = none ∧ responds ck 0x22_001C = true ∧ checkAccess ck .mp false 0x22_111C = none ∧
    (getUa ck 0).rx = [] ∧
    (getUa (ck.modUa 17 fun u => { u with rx := [⟨0x55, false, false, false, false⟩] }) 17).rx = [⟨0x55, false, false, false, false⟩] ∧
    checkAccess ck .mp false 0x23_0020 = none ∧ checkAccess ck .mp false 0x23_0120 = none ∧ responds ck 0x23_0120 = true ∧
    (getSpc ck 0).rx = [] ∧ (getSpc (ck.modSpc 1 fun u => { u with rx := [⟨7, false, false⟩] }) 1).rx = ⟨7, false, false⟩ :: [] ∧
    (getSpc (ck.modSpc 1 fun u => { u with rx := [⟨7, false, true⟩] }) 1).rx = [⟨7, false, true⟩] := by decide +kernel

/-- A state whose stream buffer holds the given bytes, in the given phase and at the given stage of the header. -/
def streamAt (ph : WPhase) (stage : Nat) (buf : List Byte) : State :=
  (ck.modMp fun m => { m with buffer := buf }).modCfg fun c =>
    { c with phase := ph, target := 1, parse := { c.parse with stage := stage } }

/-- Big-endian bytes of words. -/
def be (ws : List Word) : List Byte := ws.flatMap fun w => beBytes 4 w.toNat

/-- StreamSources: each clause; a buffer of 4,095 bytes has room for one. -/
theorem wit_StreamSources : ck.undef = none ∧ held ck = false ∧ [(1 : Byte)] ≠ [] ∧
    checkAccess shut .mp true 0x0026_0000 ≠ none ∧ checkAccess ck .mp true 0x0026_0000 = none ∧
    (ck.modCfg fun c => { c with pcpEn := true }).cfg.pcpEn = true ∧ ck.cfg.pcpEn = false ∧ cfgRuns State.reset = false ∧
    (streamOpen (streamAt .frames 6 []) = true ∧ (streamAt .frames 6 []).mp.losses = []) ∧ (0 < 1 ∧ 1 < 8) ∧ (0 < 7 ∧ 7 < 8) ∧
    [(1 : Byte)].length ≤ streamFree (ck.modMp fun m => { m with buffer := List.replicate 4095 0 }) ∧
    streamFree (ck.modMp fun m => { m with buffer := List.replicate 4096 0 }) < [(1 : Byte)].length ∧
    streamFree (ck.modMp fun m => { m with buffer := List.replicate 4096 0 }) = 0 ∧ cfgHalted (streamAt .failed 0 []) = true ∧
    cfgRuns (streamAt .failed 0 []) = true ∧ searching (streamAt .search 0 []) = true ∧ ck.mp.losses = [] ∧
    ck.cfg.phase ≠ .erasing ∧ (streamAt .erasing 6 []).cfg.phase = .erasing ∧
    (State.reset.mp.buffer.length < 4096) ∧ Clocked ck ∧ ck.cfg.pcpEn ≠ true ∧ streamOpen ck = false ∧ cfgRuns ck = true ∧
    searching ck = true ∧ (streamAt .search 0 syncBytes).mp.buffer.take 4 = syncBytes ∧
    (trimSearch ck.mp.buffer).take 4 ≠ syncBytes := by decide +kernel

/-- HeaderPackets: the premises, each packet at its stage, and a header word that is no packet. -/
theorem wit_HeaderPackets : Clocked (streamAt .header 1 []) ∧ cfgRuns (streamAt .header 1 []) = true ∧
    (streamAt .header 1 []).cfg.phase = .header ∧ (streamAt .header 1 []).cfg.parse.framesLeft = 0 ∧ (streamAt .header 1 []).mp.losses = [] ∧
    (streamAt .header 1 [0, 0, 0]).mp.buffer.length < 4 ∧ pktOf 0xFFFF_FFFF = none ∧
    (streamAt .header 1 (be [0xFFFF_FFFF])).mp.buffer = be [0xFFFF_FFFF] ++ [] ∧
    (streamAt .header 1 (be [0])).mp.buffer = be [0] ++ [] ∧
    (streamAt .header 1 (be [0x2400_0002, 5, 6] ++ [9])).mp.buffer = be [0x2400_0002, 5, 6] ++ [9] ∧
    (streamAt .header 2 (be [0x2500_0002, 5, 6])).cfg.parse.stage = 2 ∧ (streamAt .header 3 (be [0x2800_0001, 5])).cfg.parse.stage = 3 ∧
    (streamAt .header 4 (be (0x2700_0008 :: (Vector.replicate 8 (0 : Word)).toList))).cfg.parse.stage = 4 ∧
    (streamAt .header 5 (be (0x2600_0008 :: (Vector.replicate 8 (0 : Word)).toList))).cfg.parse.stage = 5 ∧
    (streamAt .header 6 (be [0x2300_0001, 1])).cfg.parse.stage = 6 ∧ beginFails (streamAt .header 6 (be [0x2300_0001, 1])) = some .idcode ∧
    2 < (3 : Word).toNat ∧ Instr.ctlNop ∈ [Instr.begin_, .ctlAbort, .ctlNop] ∧ (streamAt .header 2 []).cfg.parse.stage ≠ 1 := by
  decide +kernel

/-- A header that every check of R400 passes. -/
def goodHeader : State := (streamAt .header 6 (be [0x2300_0001, 1])).modCfg fun c =>
  { c with parse := { c.parse with idcode := 0x0161_0B47, verWord := 0x0100_0001, len := 10680 } }
theorem wit_HeaderPackets_begin : beginFails goodHeader = none ∧ goodHeader.cfg.target.toNat = (1 : Fin 3).val := by decide +kernel

/-- A write of slot 1 in the given phase. -/
def writing (ph : WPhase) (f : Parse → Parse) : State := (streamAt ph 6 []).modCfg fun c => { c with parse := f c.parse }

/-- ImageWrite: the erase, the packets and frames. -/
theorem wit_ImageWrite : targetSlot (writing .erasing id) = some 1 ∧ (writing .erasing id).mp.losses = [] ∧ Clocked (writing .erasing id) ∧
    (writing .frames id).cfg.phase ≠ .erasing ∧ (writing .erasing id).cfg.parse.aborting = false ∧
    (writing .erasing fun p => { p with aborting := true }).cfg.parse.aborting = true ∧ cfgRuns (writing .frames id) = true ∧
    (writing .frames id).cfg.parse.framesLeft = 0 ∧ (writing .frames fun p => { p with expected := some 0 }).cfg.parse.expected = some 0 ∧
    (writing .frames fun p => { p with expected := none }).cfg.parse.expected ≠ some 0 ∧
    (writing .frames fun p => { p with stage := 7 }).cfg.parse.stage ≠ 6 ∧ 0 < 172960 ∧ 97 * 172960 < 2 ^ 24 ∧
    (writing .frames fun p => { p with fdataSeen := true }).cfg.parse.fdataSeen = true ∧
    (writing .frames id).cfg.parse.fdataSeen = false ∧ (writing .frames id).mp.buffer.length < 388 ∧
    (writing .frames fun p => { p with framesLeft := 1 }).cfg.parse.framesLeft ≠ 0 ∧
    388 ≤ (streamAt .frames 6 (List.replicate 388 0)).mp.buffer.length ∧ (writing .frames id).cfg.parse.queued = [] ∧
    (writing .frames id).cfg.parse.current = none ∧ writeRuns (writing .frames id) = true ∧
    (writing .frames fun p => { p with current := some ⟨0, []⟩ }).cfg.parse.current = some ⟨0, []⟩ ∧ writeRuns ck = false ∧
    (writing .frames id).cfg.parse.attempt = 0 ∧ (writing .frames fun p => { p with attempt := 2 }).cfg.parse.attempt ≠ 0 ∧
    (writing .frames fun p => { p with queued := [⟨0, []⟩] }).cfg.parse.queued ≠ [] ∧ 0 < 1 ∧ 97 * 1 < 2 ^ 24 ∧ 1 < 2 ∧ 2 ≤ 2 := by decide +kernel

/-- A frame of zeros with any check word: the one its CRC gives meets the statement's clause of a good frame, every other that of a bad one. -/
theorem wit_ImageWrite_frames (c : Word) : let frame := be (List.replicate 96 0 ++ [c])
    frame.length = 388 ∧ frame.take 384 = List.replicate 384 0 ∧ (beWords frame).getD 96 0 = c := by
  refine ⟨by rw [be, flatMap_beBytes_length]; simp, ?_, ?_⟩
  · rw [be, List.flatMap_append, show ((List.replicate 96 (0 : Word)).flatMap fun w => beBytes 4 w.toNat) = List.replicate 384 0 by decide +kernel,
      List.take_left' (List.length_replicate ..)]
  · rw [be, beWords_flatMap_beBytes]
    simp

/-- The end of a write: each check that can fail, and the SHA-256 of an image without frames as the signature. -/
theorem wit_ImageWrite_finish : (writing .finishing id).cfg.phase = .finishing ∧ (writing .finishing id).cfg.parse.current = none ∧
    (writing .finishing id).cfg.parse.framesTaken ≠ imageFrames ∧
    (writing .finishing fun p => { p with framesTaken := imageFrames }).cfg.parse.framesTaken = imageFrames ∧
    (writing .finishing id).cfg.parse.endCrc ≠ some (writing .finishing id).cfg.parse.endCrcWant ∧
    (writing .finishing fun p => { p with endCrc := some 0, endCrcWant := 0 }).cfg.parse.endCrc = some 0 ∧
    imageSignature (writing .finishing id).cfg.slots[1] ≠ (writing .finishing id).cfg.parse.sig.toList ∧
    imageSignature (writing .finishing id).cfg.slots[1] =
      [0xe3b0c442, 0x98fc1c14, 0x9afbf4c8, 0x996fb924, 0x27ae41e4, 0x649b934c, 0xa495991b, 0x7852b855] := by decide +kernel

/-- SlotCommands: each clause. -/
theorem wit_SlotCommands : Clocked ck ∧ (ck.modCfg fun c => { c with cmd := some (.erase, 1) }).cfg.cmd ≠ none ∧
    writeRuns (writing .frames id) = true ∧ ck.cfg.cmd = none ∧ writeRuns ck = false ∧
    scrapped (ck.modLcs fun l => { l with latched := 5 }) = true ∧ ck.cfg.goldenWe = false ∧
    bootedSlot (ck.modCfg fun c => { c with booted := 1 }) = some 1 ∧ (1 : Fin 3).val = (1 : BitVec 2).toNat ∧ scrapped ck = false ∧
    (2 : BitVec 2).toNat = (2 : Fin 3).val ∧ ¬ ((2 : BitVec 2) = 0 ∧ ck.cfg.goldenWe = false) ∧ bootedSlot ck ≠ some 2 ∧
    (ck.modCfg fun c => { c with cmd := some (.saveBoot, 0) }).cfg.cmd = some (.saveBoot, 0) ∧
    (let s := (ck.modCfg fun c => { c with cmd := some (.saveBoot, 0) }).modMoment fun m => { m with retry := [.slotCommand .erase 2] }
     s.cfg.cmd = some (.saveBoot, 0) ∧ s.moment.retry = [.slotCommand .erase 2]) ∧ ck.moment.retry = [] ∧
    (streamAt .failed 0 []).cfg.phase = .failed ∧ ck.cfg.phase ≠ .failed := by decide +kernel

/-- The fuses with a number of groups set, and an operation that runs. -/
def fuses (lcw : BitVec 30) (op : Option (LcsOp × Nat)) : State := ck.modLcs fun l => { l with lcw := lcw, running := op }

/-- FuseOperations: each clause, with the two ends of the 10 ms. -/
theorem wit_FuseOperations : Clocked ck ∧ (Req.qe ≠ .mp ∧ Req.qe ≠ .jtag) ∧ (fuses 0 (some (.nothing, 0))).lcs.running = some (.nothing, 0) ∧
    Instr.lcsNoOperation .mp ∈ [.lcsTransition .mp 1, .programKeyHash .mp, .programNoFieldDebug .mp, .lcsNoOperation .mp] ∧
    ck.lcs.running = none ∧ ¬ (((0 : BitVec 3) = 5 ∧ fusedState ck.lcs.lcw ≠ 5) ∨ ((fusedState ck.lcs.lcw).toNat < 4 ∧ (0 : BitVec 3) = fusedState ck.lcs.lcw + 1)) ∧
    ((fusedState ck.lcs.lcw).toNat < 4 ∧ (1 : BitVec 3) = fusedState ck.lcs.lcw + 1) ∧ ((5 : BitVec 3) = 5 ∧ fusedState ck.lcs.lcw ≠ 5) ∧
    fusedState (fuses 0x3FF none).lcs.lcw = 2 ∧ majority (ck.modLcs fun l => { l with keyLock := 7 }).lcs.keyLock = true ∧
    fusedState ck.lcs.lcw = 0 ∧ majority ck.lcs.keyLock = false ∧
    (let s := ck.modLcs fun l => { l with keyHash := Vector.replicate 8 1 }; s.lcs.keyHash[0] &&& ~~~s.lcs.stage[0] ≠ 0) ∧
    (∀ i : Fin 8, ck.lcs.keyHash[i.val] &&& ~~~ck.lcs.stage[i.val] = 0) ∧
    (clockAt 3_999_999 ck).clock < 0 + 4_000_000 ∧ 0 + 4_000_000 ≤ (clockAt 4_000_000 ck).clock ∧
    (ck.modLcs fun l => { l with opWhy := 4 }).lcs.opWhy ≠ 0 ∧ ck.lcs.opWhy = 0 ∧ (2 : BitVec 3) ≠ 5 ∧
    nextGroup (fuses 0x1F none).lcs.lcw = some 1 := by decide +kernel

/-- A debug block in a state, at a tick. -/
def dbg (d : DbgState) (t : Nat) : State := clockAt t (ck.modLcs fun l => { l with dbg := d, replaced := [1], lockoutEnd := 400_000_000 })

/-- DebugTickets: each clause but a ticket that passes; the ticks before and at the end of each time. -/
theorem wit_DebugTickets : Clocked ck ∧ (dbg .idle 0).lcs.dbg = .idle ∧ ¬(Req.frp = .mp ∨ Req.frp = .jtag) ∧
    (dbg .generating 79_999).lcs.dbg = .generating ∧ (dbg .generating 79_999).clock < 0 + 80_000 ∧
    (dbg .generating 80_000).lcs.genAt + 80_000 ≤ (dbg .generating 80_000).clock ∧
    (dbg .challengeReady 0).lcs.dbg = .challengeReady ∧
    ((dbg .generating 0).lcs.genAt = (dbg .generating 0).clock ∧ (dbg .generating 0).lcs.replaced ≠ []) ∧
    (dbg .idle 0).lcs.dbg ≠ .challengeReady ∧ (dbg .idle 0).lcs.dbg ≠ .generating ∧ ck.lcs.verifying = none ∧
    (ck.modLcs fun l => { l with verifying := some ⟨0, [], [], []⟩ }).lcs.verifying = some ⟨0, [], [], []⟩ ∧
    (clockAt 4_799_999 ck).clock < 0 + 4_800_000 ∧ 0 + 4_800_000 ≤ (clockAt 4_800_000 ck).clock ∧ ticketPasses ck.lcs ⟨0, [], [], []⟩ = false ∧
    majority (ck.modLcs fun l => { l with nfd := 0x1F }).lcs.nfd = true ∧ (∀ i : Fin 8, ck.lcs.keyHash[i.val] = 0) ∧
    (dbg .lockout 400_000_000).lcs.dbg = .lockout ∧ (dbg .lockout 400_000_000).lcs.lockoutEnd ≤ (dbg .lockout 400_000_000).clock ∧ ck.lcs.scope = none ∧
    (dbg .lockout 399_999_999).clock < (dbg .lockout 399_999_999).lcs.lockoutEnd ∧
    (ck.modLcs fun l => { l with scope := some 4 }).lcs.scope = some 4 := by decide +kernel

/-- JtagInstructions: each clause; BLANK opens every instruction, FIELD without a scope none. -/
theorem wit_JtagInstructions : Powered ck ∧ Clocked ck ∧ held ck = false ∧
    (0x55 : Byte) ∉ ([0x00, 0x01, 0x02, 0x10, 0x20, 0x21, 0x22] : List Byte) ∧
    (let l := (ck.modLcs fun l => { l with latched := 2 }).lcs
     l.latched ≠ 0 ∧ l.latched ≠ 1 ∧ l.latched ≠ 4 ∧ scopeHas (ck.modLcs fun l => { l with latched := 2 }) 0 = false) ∧
    (ck.lcs.latched ≠ 5 ∧ ck.lcs.latched = 0) ∧ ck.bus.owed = [] ∧ (0x2_FFFF : Word).toNat < 0x3_0000 ∧
    (0x3_0000 ≤ (0x3_0000 : Word).toNat ∧ (0x3_0000 : Word).toNat ≤ 0x3_FFFF) ∧ 0x3_FFFF < (0x4_0000 : Word).toNat ∧
    checkAccess shut .jtag true (wordAddr 0x4_0000) ≠ none ∧ held (ck.modSys fun y => { y with phase := .held }) = true ∧
    owedTo ck .jtag = [] ∧ checkAccess ck .jtag false 0x3_0000 = none ∧ isPairLo 0x3_0000 = false ∧ isPairHi 0x3_0000 = false ∧
    blockOf 0x3_0000 = some .lcs ∧ ck.bus.inflight = [] ∧
    checkAccess ck .jtag true (wordAddr 0x3_0000) = none ∧ responds ck (wordAddr 0x3_0000) = true ∧
    blockOf (wordAddr 0x3_0000) ≠ some .bkp ∧ ck.jtag.rbRequested = false ∧
    (ck.modJtag fun j => { j with rbRequested := true }).jtag.rbRequested = true ∧ ck.scb.reload = none ∧ (∀ z : Fin 8, ck.scb.zones[z.val].restoreFrom = none) ∧
    (ck.modScb fun b => { b with reload := some ⟨0, 0⟩ }).scb.reload = some ⟨0, 0⟩ ∧
    isConfigFrame 0 = true ∧ isConfigFrame 0xFFFF_FFFF = false := by decide +kernel

/-- DebugTickets: a ticket over an empty challenge with scope 4 by a key whose digest is burnt: the case in which every check of R140 passes. -/
def ticketBytes : List Byte := beBytes 32 0x5cd4cecc42489e98ed3ff71498051f780f36486d4d44d867d998185784e7da57 ++ beBytes 32 0x1bc5d0e3df0ea12c4d0078668d14924f95106bbe173e196de50fe13a900b0937 ++ [0, 0, 0, 4]
def ticketKey : List Byte := beBytes 32 0x243fd6910b1dbffdedb49a57641bd56df26c9dae7535920857c34095820302b7 ++ beBytes 32 0xf66cc3d7105c9afbbd4fc26e686f29355460d79a099135cec5cb3e394d7b9802
def ticketLcs : Lcs := { ck.lcs with keyHash := #v[0x5e5100ce, 0xda787ff1, 0xd73aeac, 0xf189c46, 0x4613b05c, 0x2e6dd270, 0xed6f6a4a, 0x2d74e6c9] }
theorem wit_DebugTickets_ticket : ticketPasses ticketLcs ⟨0, [], ticketKey, ticketBytes⟩ = true := by decide +kernel

/-- Encoder 7 enabled in the given setting. -/
def encState (cfg : Word) (f : Enc → Enc) : State := ck.modEnc 7 fun e => f { e with cfg := { e.cfg with active := cfg, shadow := cfg } }

/-- A level sampled now is accepted at once: FILTER is 0. -/
def takenNow (s : State) (i : EncIn) (acc : Option Nat) (v : Bool) : Bool := (i.sample s.clock v).ripe 0 s.clock && acc != some s.clock

/-- EncoderCounts: each clause; one input and both of them changed, each index mode and level, counts and loads of the same tick. -/
theorem wit_EncoderCounts : Clocked ck ∧ pinsLive State.reset = false ∧ pinsLive ck = true ∧
    (let s := encState 1 id; let e := s.tbe.enc[7]
     fld e.cfg.active 12 8 = 0 ∧ takenNow s e.inA e.accAt false = false ∧ takenNow s e.inB e.accAt false = false ∧
     takenNow s e.inA e.accAt true = true ∧ takenNow s e.inB e.accAt true = true ∧ takenNow s e.inZ e.accZ true = true ∧
     takenNow s e.inZ e.accZ false = false ∧ (bit e.cfg.active 0 && e.enAt != some s.clock) = true ∧
     e.zIndex = none ∧ fld e.cfg.active 15 14 ≠ 1 ∧ fld e.cfg.active 15 14 ≠ 2 ∧ e.counted = none) ∧
    (let s := encState 1 fun e => { e with enAt := some 0, zIndex := some (0, false), counted := some (0, true) }; let e := s.tbe.enc[7]
     (bit e.cfg.active 0 && e.enAt != some s.clock) = false ∧ e.zIndex = some (s.clock, false) ∧ e.counted = some (s.clock, true)) ∧
    (encState 1 fun e => { e with zIndex := some (0, true) }).tbe.enc[7].zIndex = some (0, true) ∧
    (let e := (encState 0x0001_4001 id).tbe.enc[7]
     fld e.cfg.active 15 14 = 1 ∧ true = bit e.cfg.active 16 ∧ false ≠ bit e.cfg.active 16) ∧
    (let e := (encState 0x0001_8001 fun e => { e with zarmed := true }).tbe.enc[7]
     fld e.cfg.active 15 14 = 2 ∧ e.zarmed = true ∧ true = bit e.cfg.active 16) ∧
    (encState 0x0001_8001 id).tbe.enc[7].zarmed = false := by
  decide +kernel

/-- EncoderFaults, the loss of signal: each clause, with the 400 ticks and the limit of 1 ms at their ends. -/
theorem wit_EncoderFaults : Clocked ck ∧ pinsLive State.reset = false ∧ pinsLive ck = true ∧
    (let s := clockAt 399 (encState 1 fun e => { e with inA := { e.inA with low := true } }); let i := getIn s.tbe.enc[7] .a
     i.los = false ∧ i.low = true ∧ s.clock < i.crossed + 400) ∧
    (let s := clockAt 400 (encState 1 fun e => { e with inA := { e.inA with low := true } }); let e := s.tbe.enc[7]
     (getIn e .a).los = false ∧ (getIn e .a).crossed + 400 ≤ s.clock ∧ bit e.cfg.active 0 = true ∧ getFault e .losAB = none ∧
       (exhaustedAt e .losAB).isSome = false) ∧
    ¬(bit ck.tbe.enc[7].cfg.active 0 = true) ∧ fld (0x0001_4001 : Word) 15 14 = 1 ∧
    getFault (encState 1 fun e => { e with losAB := some ⟨0, 0, 0⟩ }).tbe.enc[7] .losAB = some ⟨0, 0, 0⟩ ∧
    (exhaustedAt (encState 1 fun e => { e with exLosAB := some 5 }).tbe.enc[7] .losAB).isSome = true ∧
    (let e := (encState 1 fun e => { e with inA := { e.inA with los := true }, inB := { e.inB with los := true } }).tbe.enc[7]
     (getIn e .a).los = true ∧ EncPin.a ≠ .z ∧ e.inB.los = true ∧ (getIn e .a).low = false ∧ (getIn e .a).crossed + 400 ≤ 400) ∧
    (encState 1 fun e => { e with inA := { e.inA with los := true } }).tbe.enc[7].inB.los = false ∧
    (clockAt 400_000 ck).clock ≤ 0 + 400_000 * max (fld (1 : Word) 31 28) 1 ∧
    0 + 400_000 * max (fld (1 : Word) 31 28) 1 < (clockAt 400_001 ck).clock ∧
    (clockAt 399_999 ck).clock < 0 + 400_000 * max (fld (0x1000_0001 : Word) 31 28) 1 := by decide +kernel

/-- EncoderFaults, the illegal transitions, the restore and the commit: each clause. -/
theorem wit_EncoderFaults_illegal :
    (ck.tbe.enc[7].illegalNow ≠ some ck.clock ∧ ck.tbe.enc[7].illegal = none ∧ ck.tbe.enc[7].losEnd = none ∧
      ck.tbe.enc[7].exIllegal = none ∧ ck.tbe.enc[7].inA.los = false ∧ ck.tbe.enc[7].inB.los = false) ∧
    (let e := (encState 1 fun e => { e with illegal := some ⟨0, 0, 1⟩, illegalNow := some 0 }).tbe.enc[7]
     e.illegal = some ⟨0, 0, 1⟩ ∧ e.illegalNow = some 0 ∧ 1 < 2) ∧
    (encState 1 fun e => { e with illegal := some ⟨0, 0, 2⟩ }).tbe.enc[7].illegal = some ⟨0, 0, 2⟩ ∧ 2 ≤ 2 ∧
    (clockAt 3_999_999 ck).clock < 0 + 4_000_000 ∧ 0 + 4_000_000 ≤ (clockAt 4_000_000 ck).clock ∧
    (let s := clockAt 400 (encState 1 fun e => { e with losEnd := some 0 }); s.tbe.enc[7].losEnd = some 0 ∧ s.clock ≤ 0 + 400) ∧
    (encState 1 fun e => { e with exIllegal := some 0 }).tbe.enc[7].exIllegal ≠ none ∧
    ck.tbe.enc[7].cfg.pending = false ∧ (encState 1 fun e => { e with cfg := e.cfg.request }).tbe.enc[7].cfg.pending = true ∧
    (let e := (encState 1 fun e => { e with cfg := { e.cfg.request with shadow := 0 } }).tbe.enc[7]
     bit e.cfg.active 0 = true ∧ bit e.cfg.shadow 0 = false ∧ e.losAB = none ∧ e.losZf = none ∧ e.inZ.los = false) ∧
    (encState 1 fun e => { e with losZf := some ⟨0, 0, 0⟩, inZ := { e.inZ with los := true } }).tbe.enc[7].losZf = some ⟨0, 0, 0⟩ ∧
    (encState 1 fun e => { e with losZf := some ⟨0, 0, 0⟩, inZ := { e.inZ with los := true } }).tbe.enc[7].inZ.los = true := by
  decide +kernel

/-- Sequencer 3 enabled, with source encoder 0 in service. -/
def tsqState (f : Tsq → Tsq) : State := ((ck.modEnc 0 fun e => { e with cfg := { e.cfg with active := 1 } }).modTsq 3 fun t =>
  f { t with group := { t.group with active := { t.group.active with prog := 1 } } })

/-- One slot of sequencer 3 in use. -/
def oneSlot (st : SlotState) (f : Slot → Slot) (g : Tsq → Tsq) : State :=
  tsqState fun t => g { t with slots := upd t.slots 5 fun sl => f { sl with st := st, target := 0x0001_0000_0000 } }

/-- SlotsAndPulses: each clause. -/
theorem wit_SlotsAndPulses : Clocked (tsqState id) ∧ (tsqState id).tsq[3].steps = [] ∧ running ck 3 = false ∧ running (tsqState id) 3 = true ∧
    (tsqState id).tsq[3].openedAt ≠ some (tsqState id).clock ∧
    (tsqState fun t => { t with openedAt := some 0 }).tsq[3].openedAt = some 0 ∧
    (slotsUsed (tsqState id) 3).length < tsqDepth (tsqState id).tsq[3].group.active ∧
    tsqDepth (oneSlot .open_ id id).tsq[3].group.active ≤ (slotsUsed (oneSlot .open_ id id) 3).length ∧
    ((allFin 64).find? fun i => (tsqState id).tsq[3].slots[i.val].st == .free) = some 0 ∧ slotsUsed ck 3 = [] ∧
    slotsUsed (oneSlot .open_ id id) 3 = [5] ∧ slotsIn (oneSlot .open_ id id) 3 .open_ = [5] ∧
    reached false (gatePos (oneSlot .open_ id id) 0) (oneSlot .open_ id id).tsq[3].slots[5].target = false ∧
    (oneSlot .open_ id id).tsq[3].interval = none ∧
    (oneSlot .open_ id fun t => { t with interval := some 65536 }).tsq[3].interval = some 65536 ∧
    (tsqState id).tsq[3].edges = [] ∧ tsqPreEn (tsqState id).tsq[3].group.active = false := by decide +kernel

/-- SlotsAndPulses, the edges and pulses: each clause. -/
theorem wit_SlotsAndPulses_pulses :
    (∀ e ∈ (tsqState id).tsq[3].edges, e.strobe = true → (now ck : Int) < e.at_) ∧
    (∀ e ∈ (tsqState id).tsq[3].edges, e.strobe = false → (now ck : Int) < e.at_) ∧
    (tsqState fun t => { t with edges := [⟨true, 0, 4, 0⟩] }).tsq[3].edges = [⟨true, 0, 4, 0⟩] ∧ (0 : Int) ≤ now ck ∧
    (tsqState fun t => { t with edges := [⟨false, 0, 4, 0⟩] }).tsq[3].edges = [⟨false, 0, 4, 0⟩] ∧
    (tsqState fun t => { t with strobe := ⟨true, 0, false⟩ }).tsq[3].strobe = ⟨true, 0, false⟩ ∧ 0 ≤ ck.clock ∧
    (tsqState fun t => { t with pretrig := ⟨true, 0, false⟩ }).tsq[3].pretrig = ⟨true, 0, false⟩ ∧
    (tsqState id).tsq[3].strobe.active = false ∧ (tsqState id).tsq[3].pretrig.active = false ∧
    (∀ p ∈ (tsqState id).tsq[3].expose, ck.clock < p.end_) ∧
    (tsqState fun t => { t with expose := [⟨0, 0⟩] }).tsq[3].expose = [⟨0, 0⟩] := by decide +kernel

/-- The two sides of the lead in SLOT_COMMIT: a slot one count ahead at one tick a count, with a lead of 0. -/
theorem wit_SlotsAndPulses_lead :
    (let s := oneSlot .open_ (fun sl => { sl with target := 0x1_0000 }) fun t => { t with interval := some 65536 }
     let t := s.tsq[3]; let g := t.group.active; let sl := t.slots[5]
     let T : Int := t.tLast + Int.fdiv ((if tsqRev g then -1 else 1) * (sl.target - (predPos s (tsqSrc g)).setWidth 48 <<< 16).toInt *
       max 65536 ((now s - t.tLast) * 65536)) (2 ^ 32)
     reached (tsqRev g) (gatePos s (tsqSrc g)) sl.target = false ∧ T - tsqLead g ≤ now (tickAt 1 s)) ∧
    (let s := oneSlot .open_ id fun t => { t with interval := some 65536 }
     let t := s.tsq[3]; let g := t.group.active; let sl := t.slots[5]
     let T : Int := t.tLast + Int.fdiv ((if tsqRev g then -1 else 1) * (sl.target - (predPos s (tsqSrc g)).setWidth 48 <<< 16).toInt *
       max 65536 ((now s - t.tLast) * 65536)) (2 ^ 32)
     (now s : Int) < T - tsqLead g) := by decide +kernel

/-- A committed slot of sequencer 3 whose expected tick is 0. -/
def heldSlot (f : Slot → Slot) (g : Tsq → Tsq) : State := oneSlot .committed (fun sl => f { sl with tExp := some 0 }) g

/-- ReleasesAndStops: each clause of the release and its cancellation. -/
theorem wit_ReleasesAndStops : Clocked (heldSlot id id) ∧ (heldSlot id id).tsq[3].steps = [] ∧ slotsUsed ck 3 = [] ∧
    slotsUsed (heldSlot id id) 3 = [5] ∧ slotsIn (heldSlot id id) 3 .committed = [5] ∧ (heldSlot id id).tsq[3].slots[5].tExp = some 0 ∧
    reached (heldSlot id id).tsq[3].slots[5].rev (gatePos (heldSlot id id) 0) (heldSlot id id).tsq[3].slots[5].target = false ∧
    (let s := heldSlot (fun sl => { sl with target := 0 }) id; reached s.tsq[3].slots[5].rev (gatePos s 0) s.tsq[3].slots[5].target = true) ∧
    (now (heldSlot id id) : Int) ≤ 0 + (heldSlot id id).tsq[3].slots[5].hold ∧
    (0 : Int) + (heldSlot id id).tsq[3].slots[5].hold < now (tickAt 1 (heldSlot id id)) ∧ (heldSlot id id).tsq[3].slots[5].res = .none ∧
    (∀ p ∈ (heldSlot id id).tsq[3].expose, ¬(p.from_ ≤ 3 ∧ 3 < p.end_)) ∧
    ((⟨0, 4⟩ : ExpPulse) ∈ (heldSlot id fun t => { t with expose := [⟨0, 4⟩] }).tsq[3].expose ∧ 0 ≤ 0 + 3 ∧ 0 + 3 < 4) ∧
    ringOn (heldSlot id id).qe.rings[19] = false ∧
    (let s := ck.modRing 19 fun g => { g with group := { g.group with active := { g.group.active with ctrl := 0x11 } } }
     ringOn s.qe.rings[19] = true ∧ ringFull s.qe.rings[19] = false ∧
       ringFull (s.modRing 19 fun g => { g with pi := 2 }).qe.rings[19] = true) := by decide +kernel

/-- ReleasesAndStops, the stop count at its ends, the predictor entries and the commit. -/
theorem wit_ReleasesAndStops_stop :
    tsqStop ck.tsq[3].group.active = 0 ∧
    (let s := tsqState fun t => { t with group := { t.group with active := { t.group.active with stop := 1 } } }
     bit s.tsq[3].group.active.prog 0 = true ∧ tsqStop s.tsq[3].group.active = 1 ∧ gangOdd s 3 = false ∧ s.tsq[3].retired = false ∧
       s.tsq[3].stopped = false ∧ s.tsq[3].srcWait = false ∧ s.tsq[3].herdWait = false ∧ s.tsq[3].stopFrom + 1 ≤ (clockAt 1 s).clock ∧
       ¬(s.tsq[3].stopFrom + 1 ≤ s.clock) ∧ slotsIn s 3 .open_ = []) ∧
    slotsIn (oneSlot .open_ (fun sl => { sl with res := .refused }) id) 3 .open_ = [5] ∧
    (oneSlot .open_ (fun sl => { sl with res := .refused }) id).tsq[3].slots[5].res = .refused ∧
    (∀ e ∈ ck.tbe.rem[2].waiting, now ck < e.at_) ∧
    ((ck.modRem 2 fun r => { r with waiting := [⟨5, 0, 0⟩, ⟨6, 1, 1⟩] }).tbe.rem[2].waiting = ⟨5, 0, 0⟩ :: [⟨6, 1, 1⟩] ∧ 0 ≤ now ck ∧
      ∀ e ∈ ([⟨6, 1, 1⟩] : List PredEntry), now ck < e.at_) ∧
    ck.tsq[3].group.pending = false ∧ ck.tsq[3].lineBoundary ≠ some ck.clock ∧ slotsIn (heldSlot id id) 3 .committed ≠ [] ∧
    (heldSlot id fun t => { t with lineBoundary := some 0 }).tsq[3].lineBoundary = some 0 ∧
    (let t := (tsqState fun t => { t with group := { t.group with pending := true, wait := 1 } }).tsq[3]
     t.group.pending = true ∧ 1 ≤ t.group.wait ∧ t.strobe.active = false ∧ t.pretrig.active = false ∧ t.expose = [] ∧
       bit t.group.active.prog 0 = true ∧ bit t.group.shadow.prog 0 = false) ∧
    slotsIn (tsqState id) 3 .committed = [] ∧ slotsIn (tsqState id) 3 .open_ = [] ∧
    bit (tsqState fun t => { t with group := { t.group with shadow := { t.group.shadow with prog := 1 } } }).tsq[3].group.shadow.prog 0 = true ∧
    bit ck.tsq[3].group.active.prog 0 = false ∧ gangOdd ck 3 = false ∧ tsqHerdEn ck.tsq[3].group.shadow = false ∧ tsqSrc ck.tsq[3].group.shadow < 8 := by
  decide +kernel

/-- Channel 2 in the given state. -/
def capState (f : Cap → Cap) : State := ck.modCap 2 fun c => f c

/-- Channels 2 and 3 as a gang, both enabled and locked. -/
def gangState (f : Cap → Cap) : State :=
  (capState fun c => f { c with locked := true, group := { c.group with active := { c.group.active with cfg := 3 } } }).modCap 3
    fun c => { c with locked := true }

/-- ReceiverLock: each clause, with the pixel clock and the windows at their limits. -/
theorem wit_ReceiverLock : Clocked ck ∧ ck.cap[2].windowAt = none ∧ (capState fun c => { c with windowAt := some 0 }).cap[2].windowAt = some 0 ∧
    (clockAt 3999 ck).clock < 0 + 4000 ∧ 0 + 4000 ≤ (clockAt 4000 ck).clock ∧ (190 ≤ 190 ∧ 190 ≤ 870) ∧ (190 ≤ 870 ∧ 870 ≤ 870) ∧ 189 < 190 ∧
    870 < 871 ∧ ck.cap[2].locked = false ∧ ck.cap[2].attemptAt = none ∧
    (capState fun c => { c with attemptAt := some 0, pclkOk := true }).cap[2].attemptAt = some 0 ∧
    (capState fun c => { c with attemptAt := some 0, pclkOk := true }).cap[2].pclkOk = true ∧ ck.cap[2].pclkOk = false ∧
    0 + 400000 < (clockAt 400_001 ck).clock ∧ (clockAt 400_000 ck).clock ≤ 0 + 400000 ∧ 0 + 400000 ≤ (clockAt 400_000 ck).clock ∧
    (clockAt 399_999 ck).clock < 0 + 400000 ∧ isGang ck 2 = false ∧ ck.cap[2].fault = none ∧
    (capState fun c => { c with fault := some ⟨0, 2, none⟩ }).cap[2].fault = some ⟨0, 2, none⟩ ∧ 2 < 3 ∧ 3 ≤ 3 ∧ herdOf ck 2 = none ∧
    ck.cap[2].retired = false ∧ (capState fun c => { c with locked := true, armed := true }).cap[2].locked = true ∧
    (capState fun c => { c with retired := true }).cap[2].retired = true ∧
    ck.cap[2].line = none ∧ ck.cap[2].pending = [] ∧ ck.cap[2].armed = false ∧
    (capState fun c => { c with armed := true }).cap[2].armed = true ∧ (clockAt 3_999_999 ck).clock < 0 + 4000000 ∧
    0 + 4000000 ≤ (clockAt 4_000_000 ck).clock ∧ 3 ≤ 3 ∧ 3 < 4 := by decide +kernel

/-- ReceiverLock, the gang: its members locked, and one of them in an attempt of the shared fault. -/
theorem wit_ReceiverLock_gang : isGang (gangState id) 2 = true ∧ (gangState id).cap[2].locked = true ∧
    (let s := gangState fun c => { c with locked := false, attemptAt := some 0, pclkOk := true, fault := some ⟨0, 2, none⟩ }
     isGang s 2 = true ∧ s.cap[2].locked = false ∧ s.cap[2].attemptAt = some 0 ∧ s.cap[2].pclkOk = true ∧
       (∀ m ∈ [gangHead 2, gangTail 2], m ≠ 2 → s.cap[m.val].locked = true) ∧ s.cap[(gangHead 2).val].fault = some ⟨0, 2, none⟩) := by
  decide +kernel

/-- Channel 2 enabled and locked, with lines of the given number of pixels on one tap of 8 bits, and a reservation 9 of 8 pages. -/
def lineState (pixels : Word) (f : Cap → Cap) : State := (capState fun c => f { c with
    locked := true, group := { c.group with active := { c.group.active with cfg := 0x101, pixels := pixels } } }).modPw fun p =>
  { p with reservations := [⟨9, .capture, 2, [0, 1, 2, 3, 4, 5, 6, 7]⟩] }
def aRelease : Release := { id := 1, target := 0, strobeTick := 0, exposeTick := 0, shortLead := false, suspect := false, herd := none, res := .granted 9 }
def aLine : Line :=
  { rel := aRelease, free := false, start := 0, fval := true, handle := .granted 4 1, drop := none, ended := none, words := [], tags := 0 }

/-- LinesMatched, the rise of LVAL: each clause; the match window is 0 to its maximum. -/
theorem wit_LinesMatched : Clocked (lineState 1 id) ∧ isGang (lineState 1 id) 2 = false ∧ capEn (lineState 1 id).cap[2].group.active = true ∧
    (gangOdd (gangState id) 3 = true ∧ capLive (gangState id) 3 = true ∧ unitLocked (gangState id) 3 = true) ∧
    capEn ck.cap[2].group.active = false ∧ (lineState 1 id).cap[2].locked = true ∧ (lineState 1 id).cap[2].line = none ∧
    (lineState 1 fun c => { c with line := some aLine }).cap[2].line = some aLine ∧
    (lineState 1 fun c => { c with retired := true }).cap[2].retired = true ∧ capFree (lineState 1 id).cap[2].group.active = false ∧
    (lineState 1 fun c => { c with group := { c.group with active := { c.group.active with cfg := 0x105 } } }).cap[2].group.active.cfg = 0x105 ∧
    capFree { ck.cap[2].group.active with cfg := 0x105 } = true ∧
    (lineState 1 fun c => { c with cfgBad := true }).cap[2].cfgBad = true ∧ (lineState 1 id).cap[2].cfgBad = false ∧
    (lineState 1 id).cap[2].retired = false ∧ (lineState 1 id).cap[2].pending = [] ∧
    (lineState 1 fun c => { c with pending := [aRelease] }).cap[2].pending = aRelease :: [] ∧
    (∀ x ∈ (lineState 1 fun c => { c with pending := [aRelease] }).cap[2].pending,
      now ck ≤ x.exposeTick + capMax (lineState 1 id).cap[2].group.active) ∧
    aRelease.exposeTick + capMin (lineState 1 id).cap[2].group.active ≤ now ck ∧ aRelease.res = .granted 9 ∧
    capPages (lineState 1 id).cap[2].group.active ≤ resPages (lineState 1 id) aRelease.res ∧
    now ck < ({ aRelease with exposeTick := 1 } : Release).exposeTick + capMin (lineState 1 id).cap[2].group.active ∧
    ({ aRelease with res := .refused } : Release).res = .refused ∧
    aRelease.exposeTick + capMax ck.cap[2].group.active < now (tickAt 1 ck) := by decide +kernel

/-- LinesMatched, the words of a line: one that was dropped, one whole and of its length, one too short, one too long by one word, and
one that the 2,048 bytes of the FIFO hold and do not hold. -/
theorem wit_LinesMatched_words :
    ({ aLine with drop := some 2 } : Line).drop = some 2 ∧ aLine.drop = none ∧ ({ aLine with handle := .waiting } : Line).handle = .waiting ∧
    (let g := (lineState 1 id).cap[2].group.active
     (pixelWords g [⟨0, 0⟩]).length = lineWords g ∧ (pixelWords g []).length ≠ lineWords g ∧
       lineWords g < (pixelWords g [⟨0, 0⟩, ⟨0, 0⟩]).length ∧
       pixBytes g (min ((pixelWords g [⟨0, 0⟩]).length * max (capTaps g) 1) (capPix g)) ≤ 2048 + 256 * 0) ∧
    (let g := (lineState 3000 id).cap[2].group.active
     pixBytes g (min (2048 * max (capTaps g) 1) (capPix g)) ≤ 2048 + 256 * 0 ∧
       2048 + 256 * 0 < pixBytes g (min (2049 * max (capTaps g) 1) (capPix g)) ∧ 2049 ≤ lineWords g ∧
       ∀ k, k < 4 → (pixelWords g (List.replicate k ⟨0, 0⟩)).length = k) ∧
    ringOn (getRing ck (captureRing 2)) = false ∧
    (let s := ck.modRing (captureRing 2) fun g => { g with group := { g.group with active := { g.group.active with ctrl := 0x11 } } }
     ringOn (getRing s (captureRing 2)) = true ∧ ringFull (getRing s (captureRing 2)) = false ∧
       ringFull (getRing (s.modRing (captureRing 2) fun g => { g with pi := 2 }) (captureRing 2)) = true) := by decide +kernel

/-- CaptureActions: no ring's table lies in the first block. -/
theorem wit_CaptureActions_rings : ∀ r : Fin 1024, ringInBlock ck.qe.rings[r.val] 0 = false := by
  intro r
  rw [show ck.qe.rings[r.val] = Ring.init from Vector.getElem_replicate ..]
  decide +kernel

/-- CaptureActions: each clause. -/
theorem wit_CaptureActions : Clocked ck ∧ ck.cap[2].retired = false ∧ gangOdd ck 2 = false ∧ gangOdd (gangState id) 3 = true ∧ herdOf ck 2 = none ∧
    (capState fun c => { c with retired := true }).cap[2].retired = true ∧ isGang ck 2 = false ∧
    (∀ m : Fin 16, capEn ck.cap[m.val].group.active = false) ∧ capEn (lineState 1 id).cap[2].group.active = true ∧
    ringInBlock (ck.modRing 7 fun g => { g with group := { g.group with active := { g.group.active with ctrl := 0x41 } } }).qe.rings[7] 0 = true ∧
    ck.cap[2].group.pending = false ∧ (lineState 1 id).cap[2].line = none ∧
    (lineState 1 fun c => { c with line := some aLine }).cap[2].line.isSome = true ∧ unitLocked (lineState 1 id) 2 = true ∧
    (capState fun c => { c with group := c.group.request }).cap[2].group.pending = true ∧
    ((gangState id).modCap 3 fun c => { c with group := c.group.request }).cap[3].group.pending = true ∧
    capGangBit ck.cap[2].group.shadow = capGangBit ck.cap[2].group.active ∧ capFree ck.cap[2].group.shadow = capFree ck.cap[2].group.active ∧
    capGangBit ck.cap[2].group.shadow = false ∧ unitLocked ck 2 = false ∧ ck.cap[2].ending = [] ∧ ck.cap[2].pending = [] ∧
    capInvalid ck.cap[2].group.shadow false = true ∧ capInvalid (lineState 1 id).cap[2].group.active false = false ∧
    capEn (capState fun c => { c with group := { c.group with shadow := { c.group.shadow with cfg := 1 } } }).cap[2].group.shadow = true := by
  decide +kernel

/-- The Page Warden in the given state; object 7 in the given state. -/
def pwState (f : Pw → Pw) : State := ck.modPw f
def objState (e : MapEntry) : State := pwState fun p => { p with map := upd p.map 7 fun _ => e }
def anObj (st : ObjState) (refs : Nat) : MapEntry := { MapEntry.init with st := st, refs := refs, gen := 3, pages := [5] }

/-- PageGrants: each clause; 8 pages are granted, 9 are not, and 4096 pages in use leave none. -/
theorem wit_PageGrants : Clocked ck ∧ grantPages ck .capture 2 8 = true ∧ grantPages ck .capture 2 9 = false ∧
    grantPages (pwState fun p => { p with reservations := [⟨9, .capture, 2, List.replicate 4089 0⟩] }) .capture 2 8 = false ∧
    grantPages (pwState fun p => { p with reservations := [⟨9, .capture, 2, List.replicate 4088 0⟩] }) .capture 2 8 = true ∧
    pwIsNext ck (.reserve (.tsqSlot 3 5) .capture 2 8) = false ∧ pwIsNext ck (.map (.capLine 2) 9 0) = false ∧
    pwIsNext ck (.alloc .host .host 0 1 0) = false ∧
    (let s := (oneSlot .open_ (fun sl => { sl with res := .waiting }) id).modPw fun p =>
      { p with waiting := [.reserve (.tsqSlot 3 5) .capture 2 8] }
     pwIsNext s (.reserve (.tsqSlot 3 5) .capture 2 8) = true ∧ s.tsq[3].slots[5].res = .waiting) ∧
    (pwState fun p => { p with waiting := [.alloc .host .host 0 1 0] }).pw.waiting = [.alloc .host .host 0 1 0] ∧
    pwIsNext (pwState fun p => { p with waiting := [.alloc .host .host 0 1 0] }) (.alloc .host .host 0 1 0) = true ∧
    (PwDest.tsqSlot 3 5 ≠ .none ∧ grantPages ck .host 0 1 = true) ∧ ck.pw.reservations.find? (fun r => r.num == 9) = none ∧
    (lineState 1 id).pw.reservations.find? (fun r => r.num == 9) = some ⟨9, .capture, 2, [0, 1, 2, 3, 4, 5, 6, 7]⟩ := by decide +kernel

/-- A handle can be granted, and none is where the class has no quota. -/
theorem wit_PageGrants_handle : grantHandle ck .capture = true ∧
    grantHandle (pwState fun p => { p with group := { p.group with active := { p.group.active with qcap := Vector.replicate 3 0x1000 } } }) .capture = false := by
  decide +kernel

/-- ObjectLife: each clause; the third reference is the last. -/
theorem wit_ObjectLife : Clocked ck ∧ ck.pw.map[7].st = .free ∧ (objState (anObj .sealed_ 1)).pw.map[7].gen ≠ 4 ∧
    ((objState (anObj .writing 0)).pw.map[7].st = .writing ∧ (objState (anObj .writing 0)).pw.map[7].gen = 3) ∧
    ((objState (anObj .sealed_ 3)).pw.map[7].st = .sealed_ ∧ (objState (anObj .sealed_ 3)).pw.map[7].poison = false ∧
      3 ≤ (objState (anObj .sealed_ 3)).pw.map[7].refs) ∧ (objState (anObj .sealed_ 2)).pw.map[7].refs < 3 ∧
    (objState { anObj .sealed_ 1 with poison := true }).pw.map[7].poison = true ∧ (objState (anObj .sealed_ 1)).pw.map[7].refs = 1 ∧
    1 < (objState (anObj .sealed_ 2)).pw.map[7].refs ∧
    ((objState (anObj .writing 0)).pw.map[7].refs = 0 ∧ (objState (anObj .writing 0)).pw.map[7].st ≠ .free) ∧
    (PwDest.capLine 2 ≠ .none ∧ pwIsNext ck (.seal (.capLine 2) 7 3) = false ∧ pwIsNext ck (.addref .host 7 3) = false ∧
      pwIsNext ck (.release .host 7 3) = false ∧ pwIsNext ck (.abandon .host 7 3) = false) ∧
    (pwIsNext (pwState fun p => { p with waiting := [.seal .host 7 3] }) (.seal .host 7 3) = true ∧
      pwIsNext (pwState fun p => { p with waiting := [.addref .host 7 3] }) (.addref .host 7 3) = true ∧
      pwIsNext (pwState fun p => { p with waiting := [.release .host 7 3] }) (.release .host 7 3) = true ∧
      pwIsNext (pwState fun p => { p with waiting := [.abandon .host 7 3] }) (.abandon .host 7 3) = true) ∧
    ck.pw.group.pending = false ∧ (pwState fun p => { p with group := p.group.request }).pw.group.pending = true := by decide +kernel

/-- ReadErrors: each clause; a bad word counts for every address in it. -/
theorem wit_ReadErrors : Clocked ck ∧ 2 ≤ 2 ∧ 1 < 2 ∧ ck.pw.badWords = [] ∧
    (15 : BitVec 24).toNat / 8 * 8 ∈ (pwState fun p => { p with badWords := [8] }).pw.badWords ∧
    ¬((7 : BitVec 24).toNat / 8 * 8 ∈ (pwState fun p => { p with badWords := [8] }).pw.badWords) ∧
    ck.pw.rewriting = [] ∧ (pwState fun p => { p with rewriting := [[4095]] }).pw.rewriting = [(4095 : BitVec 12)] :: [] ∧
    (Memory.wf ck.dm = true ∧ Memory.wf ck.fs = true) := by decide +kernel
theorem wit_ReadErrors_found : ∃ raw, Ecc.uncorrectable 5 = .uncorrectable raw := ⟨5, rfl⟩

/-- Ring 40 with the given control word and the given rest. -/
def ringAs (ctrl : Word) (f : Ring → Ring) : State := ck.modRing 40 fun g =>
  f { g with group := { g.group with active := { g.group.active with ctrl := ctrl } } }

/-- HostDoorbells: each clause; PI and CI at the ends of what they may be set to. -/
theorem wit_HostDoorbells : Clocked ck ∧ ck.bus.inflight = [] ∧ mpWrote ck 0x8_0010 = none ∧
    (let g := (ringAs 0x41 fun g => { g with ci := 2, pi := 2 }).qe.rings[40]; ((1 : BitVec 16) - g.di).toNat < (g.ci - g.di).toNat) ∧
    (let g := (ringAs 0x41 id).qe.rings[40]
     bit g.group.active.ctrl 0 = true ∧ g.cfgBad = false ∧ ringProdKind 40 g.group.active = 0 ∧ (g.ci - g.di).toNat ≤ 0 ∧
     (16 : Nat) ≤ 2 ^ fld g.group.active.ctrl 7 4 ∧ ¬ ((17 : Nat) ≤ 2 ^ fld g.group.active.ctrl 7 4)) ∧
    bit ck.qe.rings[40].group.active.ctrl 0 = false ∧
    (let g := (ringAs 0x41 fun g => { g with pi := 3 }).qe.rings[40]
     fld g.group.active.ctrl 27 24 = 0 ∧ 3 ≤ (g.pi - g.di).toNat ∧ (g.pi - g.di).toNat < 4) ∧
    fld (ringAs 0x0100_0041 id).qe.rings[40].group.active.ctrl 27 24 ≠ 0 ∧ ck.qe.result.busy = false ∧
    (ck.modQe fun q => { q with result := { q.result with busy := true } }).qe.result.busy = true := by decide +kernel

/-- An entry of ring 40 that the management engine holds since tick 0, with the given timeout, verdict. -/
def heldEntry (limit : Nat) (v : Byte) : Taken :=
  { ring := 40, idx := 0, cons := .mgmtHost, at_ := 0, entry := [], ref := none, offered := false, repeats := 0, verdict := v, addr := 0, limit := limit }

/-- RingEntries: each clause. -/
theorem wit_RingEntries : Clocked ck ∧ accepts ck (.fabric 1) = false ∧ accepts ck .mgmtHost = true ∧ tagFree ck .mgmtHost = true ∧
    (∀ k : Fin 4, turnOf ck .mgmtHost k = []) ∧
    (let s := (ringAs 0x41 fun g => { g with pi := 1, inTurn := true, deficit := 1_000_000 }).modQe fun q => { q with turns := [⟨.mgmtHost, 0, [40]⟩] }
     turnOf s .mgmtHost 0 = 40 :: [] ∧ (getRing s 40).inTurn = true ∧ nextCost s 40 ≤ (getRing s 40).deficit ∧ (pickRing s .mgmtHost).isSome = true) ∧
    findTaken ck 40 0 = none ∧ findTaken (ck.modQe fun q => { q with taken := [heldEntry 1 0] }) 40 0 = some (heldEntry 1 0) ∧
    (clockAt 399 ck).clock < 0 + 400 * 1 ∧ 0 + 400 * 1 ≤ (clockAt 400 ck).clock ∧ (heldEntry 0 0).limit = 0 ∧
    endStatus (clockAt 400 ck) (heldEntry 1 0) = none ∧ (endStatus (clockAt 400 ck) (heldEntry 1 3)).isSome = true ∧
    ck.qe.rings[40].group.pending = false ∧
    (let s := ringAs 0x41 fun g => { g with pi := 1, group := { g.group with pending := true, shadow := { g.group.shadow with base := 0x200, ctrl := 0x41 } } }
     s.qe.rings[40].group.pending = true ∧ ringMustWait s 40 = true) ∧
    (let s := ringAs 0x40 fun g => { g with group := { g.group with pending := true, shadow := { g.group.shadow with ctrl := 0x31 } } }
     ringMustWait s 40 = false ∧ ringInvalid s 40 s.qe.rings[40].group.shadow = true ∧ ringOn s.qe.rings[40] = false) := by decide +kernel

/-- A ring that can be enabled, and the same with its place off the grid of its size. -/
theorem wit_RingEntries_commit :
    (let s := ringAs 0x40 fun g => { g with group := { g.group with pending := true, shadow := { g.group.shadow with ctrl := 0x1100_0041, base := 0x4_0000 } } }
     ringInvalid s 40 { s.qe.rings[40].group.shadow with base := 0x4_0100 } = true ∧ ringMustWait s 40 = false ∧
     ringInvalid s 40 s.qe.rings[40].group.shadow = false ∧ ringEn s.qe.rings[40].group.shadow = true) := by decide +kernel

/-- One management operation under way, one word of two issued at tick 0. -/
def anOp (f : MgmtOp → MgmtOp) : MgmtOp := f
  { ring := 40, idx := 0, fabric := false, order := 0, write := true, inline := true, nwords := 2, addr := 0x4_0000, handle := 7, gen := 3,
    objOffset := 0, inlineData := [1, 2], next := 1, lastAt := 0, refused := false, noresp := false, poisoned := false, stale := false }
def opState (f : MgmtOp → MgmtOp) : State := ck.modQe fun q => { q with ops := [anOp f], taken := [heldEntry 0 0] }

/-- MgmtEntries: each clause; a word is due 48 ticks after the one before it. -/
theorem wit_MgmtEntries : Clocked ck ∧ ck.qe.ops = [] ∧ wordDue (clockAt 47 (opState id)) (anOp id) = false ∧
    wordDue (clockAt 48 (opState id)) (anOp id) = true ∧ wordDue (opState id) (anOp fun o => { o with next := 0 }) = true ∧
    wordDue (clockAt 48 (opState id)) (anOp fun o => { o with next := 2 }) = false ∧ (opState id).qe.ops = [anOp id] ∧
    (anOp fun o => { o with refused := true }).refused = true ∧
    (anOp id).refused = false ∧ (anOp id).write = true ∧ (anOp fun o => { o with write := false }).write = false ∧
    (responds ck 0x4_0104 = true ∧ isPairLo 0x4_0104 = false ∧ isPairHi 0x4_0104 = false ∧ blockOf 0x4_0104 = some .tbe) ∧
    (responds ck 0x4_0004 = true ∧ blockOf 0x4_0004 ≠ some .bkp) ∧ responds ck 0x3FF0_0000 = false ∧
    (anOp fun o => { o with inline := false }).inline = false ∧ ck.pw.map[7].st = .free ∧ findTaken ck 40 0 = none ∧
    findTaken (opState id) 40 0 = some (heldEntry 0 0) ∧ (heldEntry 0 3).verdict ≠ 0 ∧ (heldEntry 0 0).verdict = 0 ∧
    (∀ o ∈ (opState id).qe.ops, o.ring ≠ 41 ∨ o.idx ≠ 0) ∧ opRetired (opState id) (anOp id) = false ∧
    opRetired (clockAt 48 (opState fun o => { o with next := 2 })) (anOp fun o => { o with next := 2 }) = true ∧
    opRetired (clockAt 47 (opState fun o => { o with next := 2 })) (anOp fun o => { o with next := 2 }) = false := by decide +kernel

/-- Port 1 of the egress with its receiver good, in the given state; a fault open since tick 0. -/
def egrState (f : Egr → Egr) : State := ck.modEgr 1 fun p => f { p with blockLock := true }
def aFault (n : Nat) : EgrFault := { start := 0, losses := n, downTicks := 0, downSince := none }

/-- EgressLinks: each clause; the third and fourth loss, the ends of the window, and an index up to PI. -/
theorem wit_EgressLinks : Clocked ck ∧ pinsLive State.reset = false ∧ pinsLive ck = true ∧
    (let p := (egrState id).egr[1]
     p.blockLock = true ∧ p.hiBer = false ∧ p.rxLocalFault = false ∧ p.rxRemoteFault = false ∧ (egrState id).sys.ethLock = true) ∧
    (⟨true, false, false, true⟩ : LinkRx) ≠ ⟨true, false, false, false⟩ ∧
    (ck.modSys fun y => { y with ethLock := false }).sys.ethLock = false ∧ (ck.egr[1].blockLock = false ∧ ck.egr[1].fault = none) ∧
    (egrState id).egr[1].armed = false ∧
    ((egrState fun p => { p with armed := true }).egr[1].armed = true ∧ (egrState fun p => { p with armed := true }).egr[1].retired = false) ∧
    (egrState fun p => { p with armed := true, fault := some (aFault 2) }).egr[1].fault = some (aFault 2) ∧ (aFault 2).losses < 3 ∧
    3 ≤ (aFault 3).losses ∧ (egrState fun p => { p with fault := some (aFault 3) }).egr[1].fault = some (aFault 3) ∧
    (clockAt 3_999_999 ck).clock < (aFault 3).start + max (fld ck.egr[1].group.active.cfg 23 16) 1 * 4_000_000 ∧
    (aFault 3).start + max (fld ck.egr[1].group.active.cfg 23 16) 1 * 4_000_000 ≤ (clockAt 4_000_000 ck).clock ∧ (aFault 3).losses ≤ 3 ∧
    3 < (aFault 4).losses ∧ (egrState id).egr[1].retired = false ∧ (egrState fun p => { p with retired := true }).egr[1].retired = true ∧
    (let p := (egrState fun p => { p with rxPi := 2, rxCi := 255 }).egr[1]
     ((2 : Byte) - p.rxCi).toNat ≤ (p.rxPi - p.rxCi).toNat ∧ (p.rxPi - p.rxCi).toNat < ((3 : Byte) - p.rxCi).toNat) ∧
    ck.egr[1].group.pending = false ∧ (egrState fun p => { p with group := p.group.request }).egr[1].group.pending = true ∧
    ck.egr[1].held = [] ∧ bit ck.egr[1].group.active.cfg 0 = false ∧ bit ck.egr[1].group.shadow.cfg 0 = false := by decide +kernel

/-- An entry a port holds, of one line of 64 bytes in object 7, and a frame of it. -/
def aHeld (f : Held → Held) : Held := f
  { ring := 40, idx := 0, cls := 2, handle := 7, gen := 3, firstLine := 0, nlines := 1, offset := 0, length := 64, trig := 0, user := 0,
    line := 0, frag := 0, fmax := none, gapValid := false, gap := 0 }
def aFrame (ready : Bool) : Frame :=
  { dstMac := [], srcMac := [], vlan := none, dscp := 0, ttl := 0, srcIp := 0, dstIp := 0, srcUdp := 0, dstPort := 0, stream := 0, cls := 2,
    first := true, last := true, gapValid := false, gap := 0, trig := 0, user := 0, lineBytes := 64, fragOffset := 0, ring := 40, data := [],
    ready := ready, entryLast := true }
/-- Port 1 enabled and sending, in the given state; object 7 sealed. -/
def sendState (f : Egr → Egr) : State := (egrState fun p => f { p with
  armed := true, group := { p.group with active := { p.group.active with cfg := 1 } } }).modPw fun p =>
    { p with map := upd p.map 7 fun _ => anObj .sealed_ 1 }
/-- A frame of 64 bytes with EtherType 0x88F7 to the port's address of zeros, with its FCS. -/
def ptpFrame : List Byte := List.replicate 12 0 ++ [0x88, 0xF7] ++ List.replicate 46 0 ++ [0xc3, 0xc8, 0x52, 0x1b]

/-- EgressLinks, the commit: an entry held while a frame is built, and a port disabled with a fault open. -/
theorem wit_EgressLinks_commit :
    (let p := (sendState fun p => { p with held := [aHeld id], frames := [aFrame false] }).egr[1]
     p.held ≠ [] ∧ p.frames = [aFrame false] ∧ (aFrame false).ready = false) ∧
    (let s := sendState fun p => { p with held := [aHeld id], frames := [aFrame true, aFrame true] }
     egrDiscards s 1 = false ∧ 2 ≤ s.egr[1].frames.length + (if s.egr[1].wire.isSome then 1 else 0) ∧ ∀ f ∈ s.egr[1].frames, f.ready ≠ false) ∧
    (let p := (sendState fun p => { p with fault := some (aFault 4) }).egr[1]
     bit p.group.active.cfg 0 = true ∧ bit p.group.shadow.cfg 0 = false ∧ p.fault = some (aFault 4)) := by decide +kernel

/-- EgressFrames: each clause for the transmitter; a frame that is the whole line, and one that leaves a rest. -/
theorem wit_EgressFrames : Clocked ck ∧ egrDiscards (sendState id) 1 = false ∧ egrDiscards ck 1 = true ∧ (sendState id).egr[1].frames = [] ∧
    (sendState id).egr[1].wire = none ∧ (sendState id).egr[1].held = [] ∧ (sendState id).egr[1].group.pending = false ∧
    ((sendState fun p => { p with held := [aHeld id] }).egr[1].held = aHeld id :: [] ∧ (aHeld id).fmax = none ∧ (aHeld id).frag = 0) ∧
    (aHeld fun h => { h with fmax := some 64 }).fmax = some 64 ∧
    trackerOf (sendState id).egr[1].group.active 40 = none ∧
    (let s := sendState fun p => { p with group := { p.group with active := { p.group.active with
       gap := upd p.group.active.gap 3 fun _ => 0x8000_0028 } } }
     trackerOf s.egr[1].group.active 40 = some 3 ∧ s.egr[1].gapLast[3] = none) ∧
    (sendState fun p => { p with gapLast := upd p.gapLast 3 fun _ => some 9 }).egr[1].gapLast[3] = some 9 ∧
    2 ≤ (sendState fun p => { p with frames := [aFrame true, aFrame true] }).egr[1].frames.length ∧
    (sendState fun p => { p with wire := some (aFrame true, []) }).egr[1].wire = some (aFrame true, []) ∧
    (sendState fun p => { p with frames := [aFrame true] }).egr[1].frames = aFrame true :: [] ∧
    (let s := ck.modEgr 1 fun p => { p with held := [aHeld fun h => { h with fmax := some 63 }] }
     egrDiscards s 1 = true ∧ s.egr[1].wire = none ∧ s.egr[1].frames = [] ∧ s.egr[1].held = (aHeld fun h => { h with fmax := some 63 }) :: [] ∧
       s.egr[1].group.pending = false ∧ (0 + 63 < 64 ∧ 64 ≤ 0 + 64)) ∧
    (ck.modEgr 1 fun p => { p with frames := [aFrame true] }).egr[1].frames = aFrame true :: [] ∧
    (ck.modEgr 1 fun p => { p with frames := [aFrame false] }).egr[1].frames = aFrame false :: [] ∧ egrUp ck 1 = false ∧
    egrUp (sendState id) 1 = true := by decide +kernel

/-- EgressFrames, the payload of a frame of a line of 64 bytes in object 7: clean, and with a bad word. -/
theorem wit_EgressFrames_payload :
    (let s := sendState fun p => { p with held := [aHeld fun h => { h with fmax := some 64 }], frames := [aFrame false] }
     let e := s.pw.map[7]; let off := objOffset e (0 + 0) (0 + 0); let words := objWords e off (min 64 (64 - 0)) []
     s.egr[1].frames = [aFrame false] ∧ (aFrame false).ready = false ∧ words.length = 8 ∧ (∀ w ∈ words, eccFound s w.1 w.2 = .clean) ∧
       off + 64 ≤ objSize e ∧ 64 ≤ 0 + 64 ∧ (aHeld id).nlines ≤ (aHeld id).line + 1 ∧
       (words.any fun w => isBad (s.modPw fun p => { p with badWords := [4096 * 5] }) w) = true) ∧
    (let h := aHeld fun h => { h with fmax := some 63 }; ¬(h.length ≤ h.frag + min (h.fmax.getD 0) (h.length - h.frag))) ∧
    (aHeld fun h => { h with nlines := 2 }).line + 1 < (aHeld fun h => { h with nlines := 2 }).nlines := by decide +kernel

/-- EgressFrames: each clause for the receiver; a frame of 64 bytes, one of 63, a PAUSE, an FCS that is wrong, and another station's address. -/
theorem wit_EgressFrames_received : ptpFrame.length = 64 ∧ fcsOk ptpFrame = true ∧ ofBe ((ptpFrame.drop 12).take 2) ≠ 0x8808 ∧
    ptpFrame.take 6 = macOf (sendState id).egr[1].group.active.srcMacHi (sendState id).egr[1].group.active.srcMacLo ∧
    ptpMessage (parseFrame (ptpFrame.take 60)) = some (1, 0, List.replicate 46 0) ∧ (byteAt (List.replicate 46 (0 : Byte)) 0).toNat % 16 ≤ 3 ∧
    3 < (byteAt ([4] : List Byte) 0).toNat % 16 ∧ (sendState id).egr[1].rxPi - (sendState id).egr[1].rxCi ≠ 16 ∧
    (sendState fun p => { p with rxPi := 8, rxCi := 248 }).egr[1].rxPi - (sendState fun p => { p with rxPi := 8, rxCi := 248 }).egr[1].rxCi = 16 ∧
    ofBe (((List.replicate 12 (0 : Byte) ++ [0x88, 0x08]).drop 12).take 2) = 0x8808 ∧ fcsOk (List.replicate 64 (1 : Byte)) = false ∧
    fcsOk ([0, 0, 0, 0] : List Byte) = true ∧ ([0, 0, 0, 0] : List Byte).length < 64 ∧ ptpMessage (parseFrame (List.replicate 60 0)) = none ∧
    ¬ (([1, 2, 3, 4, 5, 6] : List Byte) = macOf (sendState id).egr[1].group.active.srcMacHi (sendState id).egr[1].group.active.srcMacLo ∨
      ([1, 2, 3, 4, 5, 6] : List Byte) ∈ ptpMacs) := by decide +kernel

/-- The herd link with the given configuration word, port 1 in the given state. -/
def hlState (cfg : Word) (f : HlPort → HlPort) : State :=
  (ck.modHl fun x => { x with group := { x.group with active := { x.group.active with cfg := cfg } } }).modPort 1 f
def hlUp (f : HlPort → HlPort) : State := hlState 0x210 fun q => f { q with st := .up }

/-- HerdLinkPorts: the training of a port, with the delay at its limit, and REVIVE. -/
theorem wit_HerdLinkPorts : Clocked ck ∧ (ck.sys.hlLock = true ∧ pinsLive ck = true) ∧ pinsLive State.reset = false ∧
    (bit (hlState 0x200 id).hl.group.active.cfg 9 = true ∧ (hlState 0x200 id).hl.ports[1].st = .down) ∧
    bit ck.hl.group.active.cfg 9 = false ∧ (hlState 0 fun q => { q with st := .failed }).hl.ports[1].st = .failed ∧
    (hlState 0 fun q => { q with st := .long }).hl.ports[1].st = .long ∧
    (hlState 0 fun q => { q with st := .disabled, kept := .failed }).hl.ports[1].kept ≠ .down ∧
    (hlState 0 fun q => { q with st := .disabled }).hl.ports[1].kept = .down ∧ ck.hl.ports[1].trips.length < 16 ∧
    (hlState 0 fun q => { q with st := .train }).hl.ports[1].st = .train ∧ measuredL [] = none ∧
    measuredL (List.replicate 16 (108, 58)) = some 25 ∧ 24 < 25 ∧ measuredL (List.replicate 16 (107, 58)) = some 24 ∧ 24 ≤ 24 ∧
    16 ≤ (hlState 0 fun q => { q with st := .train, goodRun := 16 }).hl.ports[1].goodRun ∧ ck.hl.ports[1].goodRun < 16 ∧
    (hlState 0 fun q => { q with st := .train, trips := List.replicate 14 (0, 0) }).hl.ports[1].trips.length < 15 ∧
    15 ≤ (hlState 0 fun q => { q with st := .train, trips := List.replicate 15 (0, 0) }).hl.ports[1].trips.length ∧
    (hlState 0 fun q => { q with st := .train, probeAt := [3] }).hl.ports[1].probeAt = 3 :: [] ∧
    ck.hl.ports[1].st ≠ .train ∧ ck.hl.ports[1].st ≠ .up ∧ ck.hl.ports[1].st ≠ .long := by decide +kernel

/-- HerdLinkPorts: good and bad slots, with the error counter at its limits; a slot of the wrong number of groups is bad, and one with an
IDLE of device 0 is not. -/
theorem wit_HerdLinkPorts_slots : (hlUp id).hl.ports[1].st = .up ∧ (hlUp id).hl.ports[1].err = 0 ∧
    slotBad (hlUp id) 1 .missing = true ∧ slotBad ck 1 .missing = false ∧ slotBad ck 1 (.groups []) = true ∧ slotMessage [] = none ∧
    messageGood (hlBytes 0 0 0 0 []) = true ∧ slotBad ck 1 (.groups (slotGroups (hlBytes 0 0 0 0 []) false).1) = false ∧
    (let q := (hlUp fun q => { q with err := 1, good := 254 }).hl.ports[1]; 0 < q.err ∧ q.good + 1 < 256) ∧
    (let q := (hlUp fun q => { q with err := 1, good := 255, fault := some ⟨96, 1⟩ }).hl.ports[1]
     q.err = 1 ∧ 256 ≤ q.good + 1 ∧ q.fault = some ⟨96, 1⟩) ∧
    (let q := (hlUp fun q => { q with err := 87 }).hl.ports[1]; q.fault = none ∧ q.err + 8 < 96) ∧
    (let q := (hlUp fun q => { q with err := 88 }).hl.ports[1]; q.fault = none ∧ 96 ≤ q.err + 8 ∧ q.err + 8 < 255) ∧
    (let s := hlUp fun q => { q with err := 246, fault := some ⟨240, 3⟩ }; s.hl.ports[1].err + 8 < 255) ∧
    (let s := hlUp fun q => { q with err := 247, fault := some ⟨240, 3⟩ }
     s.hl.ports[1].fault = some ⟨240, 3⟩ ∧ 255 ≤ s.hl.ports[1].err + 8) ∧
    isTimeLead (hlUp id) = false ∧
    (let s := hlState 0x200 fun q => { q with st := .up }; isTimeLead s = true ∧ portUp s 1 = true ∧ s.hl.timeSentAt = none) ∧
    (let s := clockAt 4096 (ck.modHl fun x => { x with timeSentAt := some 0 }); s.hl.timeSentAt = some 0 ∧ 0 + 4096 ≤ s.clock) := by
  decide +kernel

/-- The TIME a follower takes, with an offset of 1 and of 2. -/
theorem wit_HerdLinkPorts_time : (let s := hlUp id; let head : HlHead := ⟨1, 1, 0, 0⟩
     s.hl.ports[head.port.val].st = .up ∧ isTimeLead s = false ∧ head.origin = hlTimeDev s ∧ (3 : Fin 8) ≠ hlTimeDev s ∧ anyHerdLive s = false ∧
     (let e := (((101 : Tick) + BitVec.ofNat 64 (64 * head.hops.val)) - (100 - s.hl.ports[head.port.val].l.setWidth 64)).toInt; -1 ≤ e ∧ e ≤ 1) ∧
     (let e := (((102 : Tick) + BitVec.ofNat 64 (64 * head.hops.val)) - (100 - s.hl.ports[head.port.val].l.setWidth 64)).toInt; 1 < e)) := by
  decide +kernel

/-- A member of herd 2; device 1, or the lead 0, with the herd in the given state. -/
def herdState (cfg : Word) (f : Herd → Herd) : State :=
  ((hlUp id).modHl fun x => { x with group := { x.group with active := { cfg := cfg, herd := upd x.group.active.herd 2 fun _ => 0x0301 } } }).modHerd 2 f
def sched (ev : HerdEvent) : Sched := { ev := ev, tEff := 0, origin := 1, seq := 9, localFault := false }
def anOut (ev : HerdEvent) : HlOut :=
  { ev := ev, herd := 2, delta := 640, reason := 0, seq := 0, serial := 0, since := 0, tEff := none, left := Vector.replicate 2 3 }

/-- HerdCommands: each clause. -/
theorem wit_HerdCommands : Clocked ck ∧ isLead (herdState 0x201 id) 2 = false ∧ isMember (herdState 0x201 id) 2 = true ∧
    isLead (herdState 0x210 id) 2 = true ∧
    (let s := (herdState 0x210 fun d => { d with st := .idle, readySeen := 2 }).modEnc 0 fun e => { e with cfg := { e.cfg with active := 1 } }
     s.hl.herds[2].st = .idle ∧ srcValid s 10 = true ∧ allReady s 2 = true) ∧
    allReady (herdState 0x210 id) 2 = false ∧ (herdState 0x210 fun d => { d with st := .started }).hl.herds[2].st = .started ∧
    (let s := herdState 0x210 fun d => { d with st := .retired }; s.hl.herds[2].st = .retired ∧ s.hl.haltExt = false ∧ s.hl.haltOut = false) ∧
    (ck.modHl fun x => { x with haltExt := true }).hl.haltExt = true ∧
    ((anOut .start).tEff = none ∧ (anOut .start).herd = 2 ∧ (anOut .stop).ev ≠ .start) ∧
    (let s := herdState 0x201 id; let head : HlHead := ⟨1, 0, 0, 2⟩
     hlOn s = true ∧ portUp s head.port = true ∧ head.herd = 2 ∧ (head.origin, (7 : Byte)) ∉ s.hl.seen) ∧
    ((0 : Fin 8), (7 : Byte)) ∈ ((herdState 0x201 id).modHl fun x => { x with seen := [(0, 7)] }).hl.seen ∧
    portUp ck 1 = false ∧ (∀ e ∈ ck.hl.herds[2].sched, e.ev ≠ .start) ∧ isMember ck 2 = false ∧
    (let d := (herdState 0x201 fun d => { d with st := .starting, sched := [sched .start] }).hl.herds[2]
     (∃ e ∈ d.sched, e.ev = .start ∧ e.tEff ≤ now ck) ∧ (¬ ∃ e ∈ d.sched, e.ev = .retire ∧ e.tEff ≤ now ck) ∧ d.st = .starting) ∧
    (let d := (herdState 0x201 fun d => { d with st := .starting, sched := [sched .start, sched .retire] }).hl.herds[2]
     ∃ e ∈ d.sched, e.ev = .retire ∧ e.tEff ≤ now ck) ∧
    (let d := (herdState 0x201 fun d => { d with st := .started, sched := [sched .stop] }).hl.herds[2]
     (∃ e ∈ d.sched, e.ev = .stop ∧ e.tEff ≤ now ck) ∧ d.st = .started) ∧
    (let d := (herdState 0x201 fun d => { d with st := .retired, sched := [sched .revive] }).hl.herds[2]
     (∃ e ∈ d.sched, e.ev = .revive ∧ e.tEff ≤ now ck) ∧ d.st = .retired) := by decide +kernel

/-- HerdState: each clause of the messages; READY after 4096 ticks, and its loss after 8192. -/
theorem wit_HerdState : Clocked ck ∧ isLead ck 2 = false ∧ isLead (herdState 0x210 id) 2 = true ∧ (herdState 0x210 id).hl.herds[2].sentAt = none ∧
    (let s := herdState 0x210 fun d => { d with sentAt := some 0, sentFlags := remFlags (herdState 0x210 id) 2 }
     s.hl.herds[2].sentAt = some 0 ∧ gatePos s 10 = s.hl.herds[2].sentPos ∧ remFlags s 2 = s.hl.herds[2].sentFlags ∧
       (clockAt 2038 s).clock + 9 < 0 + 2048 ∧ 0 + 2048 ≤ (clockAt 2039 s).clock + 9) ∧
    (⟨5, 0, 0, 2, false⟩ : PosDue).sent = false ∧
    (let s := herdState 0x201 id; let head : HlHead := ⟨1, 0, 0, 2⟩
     hlOn s = true ∧ portUp s head.port = true ∧ head.herd = 2 ∧
     head.origin = herdLeadDev s 2 ∧ isMember s 2 = true ∧ isLead s 2 = false ∧ (3 : Fin 8) ≠ herdLeadDev s 2) ∧
    (let s := (herdState 0x201 fun d => { d with st := .idle, leadPort := some 1, readySentAt := some 0 }).modHl fun x => { x with aligned := true }
     isMember s 2 = true ∧ isLead s 2 = false ∧ s.hl.aligned = true ∧ s.hl.herds[2].st ≠ .retired ∧ s.hl.herds[2].leadPort = some 1 ∧
     portUp s 1 = true ∧ s.hl.herds[2].readySentAt = some 0 ∧ 0 + 4096 ≤ (clockAt 4096 s).clock ∧ (clockAt 4095 s).clock < 0 + 4096) ∧
    ck.hl.herds[2].readySentAt = none ∧ isMember ck 2 = false ∧ portUp ck 1 = false ∧
    bit (herdState 0x210 fun d => { d with readySeen := 8 }).hl.herds[2].readySeen 3 = true ∧ bit ck.hl.herds[2].readySeen 3 = false ∧
    ck.hl.herds[2].readyAt[3] + 8192 ≤ (clockAt 8192 ck).clock ∧ (clockAt 8191 ck).clock < ck.hl.herds[2].readyAt[3] + 8192 := by
  decide +kernel

/-- HerdState: HERD_HALT_N low for its fourth sample and its third, and the commit of the group. -/
theorem wit_HerdState_halt :
    (let s := (hlState 0x400 id).modHl fun x => { x with haltExt := true, haltSince := some 0 }
     bit s.hl.group.active.cfg 10 = true ∧ s.hl.haltIn = false ∧ s.hl.haltSince = some 0 ∧ 0 + 3 ≤ (clockAt 3 s).clock ∧
       ¬(0 + 3 ≤ (clockAt 2 s).clock)) ∧
    bit ck.hl.group.active.cfg 10 = false ∧ isMember (herdState 0x400 id) 2 = true ∧
    (herdState 0x400 id).hl.herds[2].st ≠ .retired ∧ (herdState 0x400 fun d => { d with st := .retired }).hl.herds[2].st = .retired ∧
    isMember (herdState 0x400 id) 3 = false ∧ ck.hl.group.pending = false ∧
    (ck.modHl fun x => { x with group := x.group.request }).hl.group.pending = true ∧ anyHerdLive ck = false ∧
    anyHerdLive (herdState 0x400 fun d => { d with st := .started }) = true ∧
    (hlState 0 fun q => { q with st := .failed }).hl.ports[1].st = .failed ∧ bit ck.hl.group.shadow.cfg 9 = false ∧
    bit ck.hl.group.shadow.herd[2] 0 = false ∧ remKept (herdState 0x210 id) (herdState 0x210 id) 2 = true := by decide +kernel

/-- Streaming port 1 of the image in use on a network that runs, in the given state, with object 7. -/
def fspState (e : MapEntry) (f : Fsp → Fsp) : State :=
  { objState e with fsp := upd ck.fsp 1 fun p => f { p with used := true }, fab := fabState.fab, sys := fabState.sys }
def fabricObj (st : ObjState) (refs : Nat) : MapEntry := { anObj st refs with cls := .fabric, owner := 1 }
/-- An entry of port 1 in ring 40, and one posted by it with a reference to object 7. -/
def fabricEntry (offered : Bool) : Taken :=
  { heldEntry 0 0 with cons := .fabric 1, ref := some (7, 3), offered := offered }
def postedEntry : List Byte := [0, 0, 7, 0, 3, 1] ++ List.replicate 26 0
def postState (f : Ring → Ring) : State := (fspState (anObj .sealed_ 1) fun p => { p with refs := [(7, 3)] }).modRing 40 fun g =>
  f { g with group := { g.group with active := { g.group.active with ctrl := 0x0114_0041 } } }

/-- StreamingPorts: each clause; a table of 511 and of 512 references, bursts of 1 and of 256 beats. -/
theorem wit_StreamingPorts : Clocked ck ∧ ck.fsp[1].used = false ∧ ck.pw.waiting = [] ∧
    (let s := fspState (anObj .sealed_ 2) fun p => { p with refs := [(7, 3)] }
     released s = true ∧ s.fsp[1].used = true ∧ fspClkBad s 1 = false ∧ fspIsolated s 1 = false ∧ findTaken s 40 0 = none ∧
     tagFree s (.fabric 1) = true ∧ (7, 3) ∈ s.fsp[1].refs ∧ (8, 3) ∉ s.fsp[1].refs ∧ s.fsp[1].refs.length < 512 ∧
     s.pw.map[7].st ≠ .free ∧ s.pw.map[7].gen = 3 ∧ s.pw.map[7].poison = false ∧ s.pw.map[7].refs < 3 ∧ 1 < s.pw.map[7].refs ∧
     ¬ (s.pw.map[7].cls = .fabric ∧ s.pw.map[7].owner.val = 1) ∧ s.pw.map[8].st = .free) ∧
    (let s := fspState (anObj .sealed_ 3) fun p => { p with refs := List.replicate 512 (7, 3) }
     512 ≤ s.fsp[1].refs.length ∧ 3 ≤ s.pw.map[7].refs) ∧
    (fspState (anObj .sealed_ 1) fun p => { p with refs := List.replicate 511 (7, 3) }).fsp[1].refs.length < 512 := by
  decide +kernel

/-- The entries and bursts of StreamingPorts. -/
theorem wit_StreamingPorts_entries :
    (1 ≤ 1 ∧ 1 ≤ 256 ∧ 0 % 32 = 0) ∧ (1 ≤ 256 ∧ 256 ≤ 256 ∧ 4064 % 32 = 0) ∧
    (let s := (fspState (fabricObj .writing 0) id).modQe fun q => { q with taken := [fabricEntry true] }
     findTaken s 40 0 = some (fabricEntry true) ∧ (fabricEntry true).cons = .fabric 1 ∧ (fabricEntry true).offered = true ∧
     (fabricEntry true).verdict = 0 ∧ (fabricEntry true).ref = some (7, 3)) ∧ ({ fabricEntry true with ref := none } : Taken).ref = none ∧
    ({ fabricEntry true with verdict := 4 } : Taken).verdict ≠ 0 ∧ ¬(1 ≤ 0) ∧ ¬(257 ≤ 256) ∧ ¬(16 % 32 = 0) ∧ (fabricEntry false).offered = false ∧
    (fabricObj .writing 0).cls = .fabric ∧ (fabricObj .writing 0).owner.val = 1 ∧ (fabricObj .writing 0).st = .writing ∧
    objAddr (fabricObj .writing 0) 4064 = some (4096 * 5 + 4064) ∧ objAddr (fabricObj .writing 0) 4096 = none ∧
    (fabricObj .sealed_ 1).st = .sealed_ ∧ ({ anObj .sealed_ 1 with poison := true } : MapEntry).poison = true ∧
    ringProdKind 40 ck.qe.rings[40].group.active ≠ 4 ∧
    (let g := (postState id).qe.rings[40]
     ringProdKind 40 g.group.active = 4 ∧ ringProdInst 40 g.group.active = 1 ∧ ringProdInst 40 g.group.active ≠ 2 ∧ ringOn g = true ∧ ringFull g = false) ∧
    postedEntry.length = 32 ∧ entryRef 40 false postedEntry = some (7, 3) ∧ isMgmtRing (postState id).qe.rings[40].group.active = false ∧
    (7, 3) ∈ (postState id).fsp[1].refs ∧ (7, 3) ∉ (fspState (anObj .sealed_ 1) id).fsp[1].refs ∧ entryRef 40 false (List.replicate 32 0) = none ∧
    ringOn (ringAs 0x40 id).qe.rings[40] = false ∧ ringFull (postState fun g => { g with pi := 16 }).qe.rings[40] = true ∧ ringFull (postState fun g => { g with pi := 15 }).qe.rings[40] = false := by
  decide +kernel

/-- A port's ALLOC that is granted, one that is refused, and one without a tag. -/
theorem wit_StreamingPorts_alloc : grantPages (fspState MapEntry.init id) .fabric 1 8 = true ∧ grantHandle (fspState MapEntry.init id) .fabric = true ∧
    grantPages (fspState MapEntry.init id) .fabric 1 9 = false ∧
    tagFree (fspState MapEntry.init fun p => { p with allocTags := List.replicate 1024 (7, 3) }) (.fabric 1) = false := by decide +kernel

/-- Zone 1 in the given state. -/
def zoneState (f : Zone → Zone) : State := ck.modScb fun b => { b with zones := upd b.zones 1 f }

/-- The check word of a frame of zeros, given or not: a frame that is good, and one that is not. -/
theorem frameOk_zeros (f c : Word) : frameOk ⟨f, List.replicate 96 0 ++ [c]⟩ = (crc32c (List.replicate 384 0) == c) := by
  have h : cfgFrameBytes ⟨f, List.replicate 96 0 ++ [c]⟩ = List.replicate 384 0 := by
    rw [cfgFrameBytes, List.take_left' (List.length_replicate ..)]
    decide +kernel
  rw [frameOk, h]
  rfl

/-- SwapZones: each clause; the last word of a frame, and the eighth of a signature. -/
theorem wit_SwapZones : Clocked ck ∧ released ck = true ∧ ck.scb.zones[1].st = .none ∧
    (let s := zoneState fun x => { x with st := .boot }
     s.scb.zones[1].st ≠ .none ∧ ∀ j : Fin 8, s.scb.zones[j.val].st ≠ .loading ∧ s.scb.zones[j.val].st ≠ .verifying ∧ s.scb.zones[j.val].st ≠ .restoring) ∧
    (let s := zoneState fun x => { x with st := .loading, next := some 0, words := List.replicate 96 0 }
     s.scb.zones[1].st = .loading ∧ (∀ j : Fin 8, j ≠ 1 → s.scb.zones[j.val].st ≠ .loading) ∧ s.scb.zones[1].next = some 0 ∧
     96 ≤ s.scb.zones[1].words.length ∧ s.scb.loadBusy.filter (fun t => decide (s.clock < t)) = []) ∧
    2 ≤ ((ck.modScb fun b => { b with loadBusy := [194, 388] }).scb.loadBusy.filter fun t => decide (193 < t)).length ∧
    ((ck.modScb fun b => { b with loadBusy := [194, 388] }).scb.loadBusy.filter fun t => decide (194 < t)).length < 2 ∧
    ck.moment.zoneWas = none ∧
    (let s := (ck.modScb fun b => { b with zones := upd (upd b.zones 1 fun x => { x with st := .boot }) 2 fun x => { x with st := .loading } }).modMoment
       fun m => { m with zoneWas := some (2, { Zone.init with st := .boot }) }
     (1 : Fin 8).val < (2 : Fin 8).val ∧ s.moment.zoneWas = some (2, { Zone.init with st := .boot }) ∧ s.scb.zones[1].st ≠ .none ∧
       ∀ j : Fin 8, j ≠ 2 → s.scb.zones[j.val].st ≠ .loading ∧ s.scb.zones[j.val].st ≠ .verifying ∧ s.scb.zones[j.val].st ≠ .restoring) ∧
    (zoneState fun x => { x with st := .verifying }).scb.zones[1].st = .verifying ∧
    (List.replicate 95 (0 : Word)).length < 96 ∧
    (zoneState fun x => { x with st := .loading, next := none, sigWords := List.replicate 6 0 }).scb.zones[1].sigWords.length < 7 ∧
    (zoneState fun x => { x with st := .loading, next := none, sigWords := List.replicate 7 0 }).scb.zones[1].sigWords.length = 7 ∧
    (∀ j : Fin 8, ck.scb.zones[j.val].st ≠ .loading) ∧
    (let s := zoneState fun x => { x with st := .restoring }; s.scb.zones[1].st = .restoring ∧ s.scb.zones[1].restoreFrom = none) ∧
    (let s := zoneState fun x => { x with st := .restoring, restoreFrom := some 0 }
     s.scb.zones[1].restoreFrom = some 0 ∧ slotFrameOk s 0 = false) := by decide +kernel

/-- A zone stream whose signature agrees, and one whose signature does not: a zone without a frame. -/
theorem wit_SwapZones_verified : let x : Zone := { ck.scb.zones[1] with st := .verifying, first := 1, last := 0 }
    zoneConfigFrames x = [] ∧ zoneSignature ck x = beWords (sha256 []) ∧ beWords (sha256 []) ≠ x.sigWords := by
  refine ⟨by decide, ?_, by decide +kernel⟩
  rw [zoneSignature, (by decide : zoneConfigFrames { ck.scb.zones[1] with st := .verifying, first := 1, last := 0 } = [])]
  rfl

/-- A frame that the loader of a zone takes, and one that it refuses. -/
theorem wit_SwapZones_frame : frameOk ⟨0, List.replicate 96 0 ++ [crc32c (List.replicate 384 0)]⟩ = true ∧
    frameOk ⟨0, List.replicate 96 0 ++ [crc32c (List.replicate 384 0) + 1]⟩ = false := by
  rw [frameOk_zeros, frameOk_zeros]
  generalize crc32c (List.replicate 384 0) = c
  exact ⟨beq_self_eq_true c, by rw [beq_eq_false_iff_ne]; bv_omega⟩

/-- A pass under way at frame 0 with the given latches. -/
def passState (f : Scb → Scb) (l : List CfgFrame) : State :=
  (ck.modScb fun b => f { b with passBusy := true, passNext := some 0 }).modCfg fun c => { c with latches := l }

/-- A zone over column 1, in the given state, in a pass at its first frame. -/
def zonePass (st : ZoneState) : State := passState (fun b => { b with
  passNext := some (frameAddr 0 1 0), zones := upd b.zones 1 fun x => { x with st := st, first := 1, last := 1 } }) []

/-- FrameScrubber: each clause but the frames; the tick before the next pass and that tick. -/
theorem wit_FrameScrubber : Clocked ck ∧ released ck = true ∧ ck.scb.passBusy = false ∧ ck.scb.lastPassEnd = none ∧
    (let s := ck.modScb fun b => { b with lastPassEnd := some 0, cfgA := (1, true), cfgB := (1, true), cfgC := (1, true) }
     s.scb.lastPassEnd = some 0 ∧ 0 + max 2 (400000 * (scrubCfg s).1.toNat) ≤ (clockAt 400_000 s).clock ∧
       ¬(0 + max 2 (400000 * (scrubCfg s).1.toNat) ≤ (clockAt 399_999 s).clock)) ∧
    (headerCfg ck).1 = scrubCfg ck ∧ (headerCfg (ck.modCfg fun c => { c with scrubCopyA := some (9, false) })).1 ≠ scrubCfg ck ∧
    (passState id []).scb.passNext = some 0 ∧ (passState id []).scb.passBusy = true ∧ (passState id []).scb.reload = none ∧
    (∀ j : Fin 8, (passState id []).scb.zones[j.val].st ≠ .verifying) ∧ zoneOf (passState id []) (faColumn 0) = none ∧
    visited (passState id []) 0 = true ∧
    (zoneOf (zonePass .boot) (faColumn (frameAddr 0 1 0)) = some 1 ∧ visited (zonePass .boot) (frameAddr 0 1 0) = true ∧
      visited (zonePass .loaded) (frameAddr 0 1 0) = true ∧ visited (zonePass .failed) (frameAddr 0 1 0) = false) ∧
    (passState id []).moment.late = false ∧ (passState id []).moment.scrub = none ∧
    ((passState id []).modMoment fun m => { m with late := true, scrub := some [] }).moment.late = true ∧
    (passState id []).scb.reloadPass = false ∧ (passState (fun b => { b with reloadPass := true }) []).scb.reloadPass = true ∧
    (∀ j : Fin 8, ck.scb.zones[j.val].st ≠ .restoring) ∧
    (passState (fun b => { b with reload := some ⟨0, 2⟩ }) []).scb.reload = some ⟨0, 2⟩ ∧ 1 < 2 ∧ 2 ≤ 2 ∧
    (let s := zoneState fun x => { x with st := .restoring, restoreFrom := some 0, restoreFails := 1 }
     s.scb.reload = none ∧ s.scb.zones[1].st = .restoring ∧ (∀ k : Fin 8, k ≠ 1 → s.scb.zones[k.val].st ≠ .restoring) ∧
       s.scb.zones[1].restoreFrom = some 0 ∧ s.scb.zones[1].restoreFails < 2 ∧ slotFrameOk s 0 = false) := by decide +kernel

/-- FrameScrubber: the end of a pass with either signature, and SAVE. -/
theorem wit_FrameScrubber_end :
    (let s := ck.modScb fun b => { b with passBusy := true, passNext := none }
     s.scb.passBusy = true ∧ s.scb.passNext = none ∧ s.scb.reload = none ∧ s.scb.sigFault = none) ∧
    bootedSlot (ck.modCfg fun c => { c with booted := 1 }) = some 1 ∧ beWords (sha256 ck.scb.imgBytes) ≠ ck.cfg.views[1].hdr.sig.toList ∧
    (let s := ck.modCfg fun c => { c with views := upd c.views 1 fun v => { v with hdr := { v.hdr with sig := eight (beWords (sha256 [])) } } }
     beWords (sha256 s.scb.imgBytes) = s.cfg.views[1].hdr.sig.toList) ∧
    ck.scb.saving = none ∧ scrapped ck = false ∧ scrapped (ck.modLcs fun l => { l with latched := lcScrapped }) = true ∧
    (ck.modScb fun b => { b with saving := some (9, false) }).scb.saving = some (9, false) := by decide +kernel

/-- A frame in the booted slot: a reload of it verifies when its check word agrees, as that of a frame of zeros does. -/
def bootedWith (x : CfgFrame) : State :=
  ck.modCfg fun c => { c with booted := 1, slots := upd c.slots 1 fun v => { v with frames := [x] } }
theorem bootedFrame_bootedWith (ws : List Word) : bootedFrame (bootedWith ⟨0, ws⟩) 0 = some ⟨0, ws⟩ := rfl
theorem wit_FrameScrubber_reload : ∃ x, bootedFrame (bootedWith x) 0 = some x ∧ slotFrameOk (bootedWith x) 0 = true := by
  refine ⟨⟨0, List.replicate 96 0 ++ [crc32c (List.replicate 384 0)]⟩, bootedFrame_bootedWith _, ?_⟩
  rw [slotFrameOk, bootedFrame_bootedWith, Option.any_some]
  exact wit_SwapZones_frame.1

theorem latch_passState (ws : List Word) : latchFrame (passState id [⟨0, ws⟩]) 0 = ⟨0, ws⟩ := by
  simp [latchFrame, passState, State.modCfg, State.modScb]

/-- A bad bit of the check word of a frame of zeros. -/
theorem singleBit_check (C c : Word) (e : crc32c (List.replicate 384 0) = c) (hC : C ^^^ 0x8000_0000 = c) :
    frameOk ⟨0, List.replicate 96 0 ++ [C]⟩ = false ∧ ∃ i, singleBit ⟨0, List.replicate 96 0 ++ [C]⟩ = some i := by
  constructor
  · rw [frameOk_zeros, e, beq_eq_false_iff_ne, ← hC]
    intro h
    have := congrArg (fun w : Word => w ^^^ C) h
    rw [BitVec.xor_comm C, BitVec.xor_assoc] at this
    simp at this
  · have h : frameOk (flipBit ⟨0, List.replicate 96 0 ++ [C]⟩ 3103) = true := by
      have : flipBit ⟨0, List.replicate 96 0 ++ [C]⟩ 3103 = ⟨0, List.replicate 96 0 ++ [C ^^^ 0x8000_0000]⟩ := by
        rw [flipBit, List.mapIdx_append, (by decide +kernel : ((List.replicate 96 (0 : Word)).mapIdx fun k w =>
          if k = 3103 / 32 then w ^^^ BitVec.ofNat 32 (1 <<< (3103 % 32)) else w) = List.replicate 96 0)]
        rfl
      rw [this, frameOk_zeros, e, hC]
      exact beq_self_eq_true c
    cases w : singleBit ⟨0, List.replicate 96 0 ++ [C]⟩ with
    | some i => exact ⟨i, rfl⟩
    | none => exact absurd h (List.find?_eq_none.mp w 3103 (List.mem_range.mpr (by decide)))

/-- The frames of FrameScrubber: one that is good, and one with one bad bit, the last. -/
theorem wit_FrameScrubber_frames :
    (∃ x : CfgFrame, latchFrame (passState id [x]) 0 = x ∧ frameOk x = true) ∧
    ∃ x : CfgFrame, latchFrame (passState id [x]) 0 = x ∧ frameOk x = false ∧ ∃ i, singleBit x = some i := by
  refine ⟨⟨_, latch_passState _, wit_SwapZones_frame.1⟩, ⟨_, latch_passState _,
    singleBit_check (crc32c (List.replicate 384 0) ^^^ 0x8000_0000) _ rfl ?_⟩⟩
  generalize crc32c (List.replicate 384 0) = c
  rw [BitVec.xor_assoc]
  simp

/-- A frame that no single bit mends: latches that hold too few words. -/
theorem wit_FrameScrubber_uncorrectable : let s := passState id [⟨0, [1]⟩]
    frameOk (latchFrame s 0) = false ∧ singleBit (latchFrame s 0) = none := by
  have h : frameOk ⟨0, [1]⟩ = false := by decide +kernel
  refine ⟨h, ?_⟩
  show singleBit ⟨0, [1]⟩ = none
  rw [singleBit, List.find?_eq_none]
  intro i _
  by_cases l : i < 32
  · exact (by decide +kernel : ∀ i, i < 32 → ¬ (frameOk (flipBit ⟨0, [1]⟩ i) = true)) i l
  · have : flipBit ⟨0, [1]⟩ i = ⟨0, [1]⟩ := by
      have : ¬ (0 = i / 32) := by omega
      simp [flipBit, this]
    rw [this, h]
    decide

/-- UART 3 in the given state with the given settings. -/
def uaState (cfg : Word) (f : Ua → Ua) : State := ck.modUa 3 fun u =>
  f { u with group := { u.group with active := { u.group.active with cfg := cfg, div := 0xFFFF } } }

/-- A character whose last stop bit ends with tick 9. -/
def aTxFrame : TxFrame := ⟨0, 4, 10, []⟩

/-- UartSoftware: each clause; 15 and 16 characters waiting, and the last tick of a character being sent. -/
theorem wit_UartSoftware : Clocked ck ∧ (getUa (uaState 1 fun u => { u with tx := List.replicate 15 0 }) 3).tx.length < 16 ∧
    16 ≤ (getUa (uaState 1 fun u => { u with tx := List.replicate 16 0 }) 3).tx.length ∧ (getUa ck 3).brk = false ∧
    (let s := uaState 1 fun u => { u with tx := List.replicate 16 0 }
     (getUa s 3).tx = 0 :: List.replicate 15 0 ∧ (List.replicate 15 (0 : BitVec 9)).length = 15 ∧ uaLive s 3 = true ∧ (getUa s 3).brk = false ∧
       (getUa s 3).frame = none ∧ (getUa s 3).gapUntil ≤ s.clock) ∧
    (let s := clockAt 9 (uaState 1 fun u => { u with frame := some aTxFrame }); (getUa s 3).frame = some aTxFrame ∧ s.clock < aTxFrame.end_) ∧
    aTxFrame.end_ ≤ (clockAt 10 ck).clock ∧
    (getUa (uaState 1 fun u => { u with brk := true }) 3).brk = true ∧
    (let s := uaState 1 id; let period := 4 * max (fld (getUa s 3).group.active.div 15 0) 1
     (getUa s 3).quietFrom + 16 * period ≤ (clockAt (16 * period) s).clock ∧ (clockAt (16 * period - 1) s).clock < (getUa s 3).quietFrom + 16 * period) ∧
    ((getUa ck 3).pins = false ∧ (getUa ck 3).loop = false) ∧
    ¬ ((getUa ck 3).pins = true ∧ (getUa ck 3).loop = false) ∧ (getUa ck 3).group.pending = false ∧
    (getUa (uaState 1 fun u => { u with group := u.group.request }) 3).group.pending = true ∧ uaInvalid (getUa ck 3).group.shadow = false ∧
    uaInvalid { (getUa ck 3).group.shadow with cfg := 0x60 } = true := by decide +kernel

/-- UartCharacters, what a receiver listens to: its own line, the pair of its channel, a pin, and nothing. -/
theorem wit_UartCharacters : Clocked ck ∧ uaLive ck 3 = false ∧
    (uaLive (uaState 1 id) 3 = true ∧ (getUa (uaState 1 id) 3).quiet = false ∧ (getUa (uaState 1 id) 3).loop = false ∧
      (getUa (uaState 1 id) 3).pins = false ∧ pinsLive (uaState 1 id) = true ∧ uaChannel (uaState 1 id) 3 = some 3) ∧
    uaSource (uaState 1 id) 3 = .line (.serTfg 3) ∧ uaSource ((uaState 1 id).modCap 3 fun c => { c with serNone := true }) 3 = .idle ∧
    (getUa (uaState 1 fun u => { u with loop := true }) 3).loop = true ∧
    sigPin ((uaState 1 fun u => { u with pins := true }).modPio fun p => { p with pin := upd p.pin 95 fun _ => 0x152 }) (sigRxd 3) = some 95 ∧
    rxLevels (uaState 1 id) 3 ⟨.serTfg 3, [true]⟩ = some [true] ∧ rxLevels (uaState 1 id) 3 ⟨.serTfg 4, [true]⟩ = none ∧
    (getUa (uaState 1 fun u => { u with quiet := true }) 3).quiet = true := by decide +kernel

/-- UartCharacters, one sample period: the ends of the ranges of k for a character of 5 bits without parity. -/
theorem wit_UartCharacters_periods : (let g : UaGroup := ⟨1, 1⟩; let N := 1 + uaBits g + uaParBits g
     N = 6 ∧ (22 + 1 < 16 * N ∧ (22 + 1) % 16 ≠ 8) ∧ (23 + 1 < 16 * N ∧ (23 + 1) % 16 = 8 ∧ 23 ≠ 7) ∧ (94 + 1 < 16 * N ∧ (94 + 1) % 16 ≠ 8) ∧
       (16 * N ≤ 95 + 1 ∧ 95 + 1 < 16 * N + 9) ∧ (16 * N ≤ 103 + 1 ∧ 103 + 1 < 16 * N + 9) ∧ 103 + 1 = 16 * N + 8 ∧ 104 + 1 = 16 * N + 9) ∧
    true ∈ ([true] : List Bool) ∧ true ∉ ([false] : List Bool) ∧ (getUa ck 3).rxHeld = none := by decide +kernel

/-- UartCharacters, the transmitter and IrDA: a character to send, one being sent, a pulse seen, and one that the UART's own light
blinds. -/
theorem wit_UartCharacters_transmit :
    (let s := uaState 1 fun u => { u with tx := [5] }
     (getUa s 3).tx = 5 :: [] ∧ uaLive s 3 = true ∧ (getUa s 3).brk = false ∧ (getUa s 3).frame = none ∧ (getUa s 3).gapUntil ≤ s.clock) ∧
    (getUa ck 3).tx = [] ∧
    (let s := uaState 0x2001 id
     uaLive s 3 = true ∧ bit (getUa s 3).group.active.cfg 13 = true ∧ (getUa s 3).frame = none ∧ uaSource s 3 = .line (.serTfg 3) ∧
       (getUa s 3).quiet = false) ∧
    (let s := clockAt 13 (uaState 0x2001 fun u => { u with frame := some aTxFrame })
     (getUa s 3).frame = some aTxFrame ∧ s.clock < aTxFrame.end_ + aTxFrame.unit ∧ ¬((clockAt 14 s).clock < aTxFrame.end_ + aTxFrame.unit)) := by
  decide +kernel

/-- UartFramingRoundTrip: the largest character of the shortest and of the longest length. -/
theorem wit_UartFramingRoundTrip : ((31 : BitVec 9).toNat < 2 ^ uaBits ⟨0, 0⟩ ∧ uaBits ⟨0, 0⟩ = 5) ∧
    ((511 : BitVec 9).toNat < 2 ^ uaBits ⟨0x10, 0⟩ ∧ uaBits ⟨0x10, 0⟩ = 9) := by decide

/-- Controller 1 in the given state with the given settings. -/
def spcState (cfg : Word) (f : Spc → Spc) : State := ck.modSpc 1 fun u =>
  f { u with group := { u.group with active := { u.group.active with cfg := cfg } } }

/-- A state in which pin 95 carries the signal. -/
def pinned (sig : Nat) (s : State) : State :=
  s.modPio fun p => { p with pin := upd p.pin 95 fun _ => BitVec.ofNat 32 (2 + 16 * sig) }

/-- SpcSoftware: each clause; 60, 61, 63 and 64 bytes, 31 and 32 commands waiting. -/
theorem wit_SpcSoftware : Clocked ck ∧ (spcState 1 fun u => { u with tx := List.replicate 63 (0, 0) }).spc[1].tx.length < 64 ∧
    (spcState 1 fun u => { u with tx := List.replicate 60 (0, 0) }).spc[1].tx.length ≤ 60 ∧
    60 < (spcState 1 fun u => { u with tx := List.replicate 61 (0, 0) }).spc[1].tx.length ∧
    64 ≤ (spcState 1 fun u => { u with tx := List.replicate 64 (0, 0) }).spc[1].tx.length ∧
    bit (spcState 3 id).spc[1].group.active.cfg 1 = true ∧
    (let s := spcState 1 fun u => { u with queue := List.replicate 31 0 }
     ¬bit s.spc[1].group.active.cfg 1 = true ∧ s.spc[1].queue.length < 32) ∧
    32 ≤ (spcState 1 fun u => { u with queue := List.replicate 32 0 }).spc[1].queue.length ∧
    ¬inputLevel (spcState 1 id) (sigSs 1 0) = bit (spcState 1 id).spc[1].group.active.cfg 12 ∧ ck.spc[1].group.pending = false ∧
    (let s := spcState 1 fun u => { u with chain := true }; bit s.spc[1].group.active.cfg 0 = true ∧ s.spc[1].chain = true) ∧
    (let s := spcState 3 fun u => { u with slaveFrame := true }
     bit s.spc[1].group.active.cfg 0 = true ∧ bit s.spc[1].group.active.cfg 1 = true ∧ s.spc[1].slaveFrame = true) ∧
    (let s := spcState 0 fun u => { u with group := u.group.request }
     s.spc[1].group.pending = true ∧ ¬bit s.spc[1].group.active.cfg 0 = true ∧ spcInvalid s.spc[1].group.shadow = false) ∧
    (let s := spcState 0 fun u => { u with group := { u.group.request with shadow := { u.group.shadow with cfg := 0xC0 } } }
     s.spc[1].group.pending = true ∧ spcInvalid s.spc[1].group.shadow = true) ∧
    (let s := pinned (sigSs 1 0) (spcState 0x81 id); let g := s.spc[1].group.active
     bit g.cfg 0 = true ∧ ¬bit g.cfg 1 = true ∧ bit g.cfg 7 = true ∧ s.spc[1].cfgBad = false ∧ sigPin s (sigSs 1 0) ≠ none) := by
  decide +kernel

/-- The level of an input signal taken from a pin without pull is the board's. -/
theorem inputLevel_of_pin {s : State} {sig : Nat} (h : sigPin s sig = some 95 ∧ pullInForce s 95 = 0 ∧ s.clock = 0) :
    inputLevel s sig = (Config.board 0 95).getD (Config.floating 0 95) := by
  rw [inputLevel, h.1]
  dsimp only
  rw [padLevel, h.2.1, h.2.2]
  cases e : Config.board 0 95 <;> simp [e]

/-- SpcSoftware: whatever level another master gives SS0, one polarity of it claims the bus. -/
theorem wit_SpcSoftware_claimed : ∃ b : Word, let s := pinned (sigSs 1 0) (spcState b id)
    inputLevel s (sigSs 1 0) = bit s.spc[1].group.active.cfg 12 := by
  have low : inputLevel (pinned (sigSs 1 0) (spcState 0 id)) (sigSs 1 0) = _ := inputLevel_of_pin (by decide +kernel)
  have high : inputLevel (pinned (sigSs 1 0) (spcState 0x1000 id)) (sigSs 1 0) = _ := inputLevel_of_pin (by decide +kernel)
  have c : bit (pinned (sigSs 1 0) (spcState 0 id)).spc[1].group.active.cfg 12 = false ∧
      bit (pinned (sigSs 1 0) (spcState 0x1000 id)).spc[1].group.active.cfg 12 = true := by decide +kernel
  cases l : (Config.board 0 95).getD (Config.floating 0 95)
  · exact ⟨0, low.trans (l.trans c.1.symm)⟩
  · exact ⟨0x1000, high.trans (l.trans c.2.symm)⟩

/-- SpcMasterCommands: each clause; 1 and 2 bytes left, a word of the queue for each kind, and a byte that must wait. -/
theorem wit_SpcMasterCommands : Clocked ck ∧ spcMasterLive ck 1 = false ∧
    (let s := spcState 1 fun u => { u with queue := [0x100] }
     spcMasterLive s 1 = true ∧ s.spc[1].run = none ∧ s.spc[1].queue = 0x100 :: []) ∧ ck.spc[1].queue = [] ∧
    (cmdKind 0 = 0 ∧ cmdKind 0x100 = 1 ∧ cmdKind 0x200 = 2 ∧ cmdKind 0x300 = 3) ∧
    (let g := (spcState 0x301 id).spc[1].group.active
     cmdKind 0x101 ≠ 3 ∧ bit g.cfg 8 = true ∧ cmdCount 0x101 % (fld g.cfg 10 9 + 1) ≠ 0 ∧ cmdCount 0x102 % (fld g.cfg 10 9 + 1) = 0) ∧
    (let s := spcState 1 fun u => { u with run := some ⟨1, 2, false, 0⟩, tx := [(5, 0)] }
     spcMasterLive s 1 = true ∧ s.spc[1].run = some ⟨1, 2, false, 0⟩ ∧ s.spc[1].tx ≠ []) ∧
    (let s := spcState 1 fun u => { u with run := some ⟨1, 1, false, 0⟩ }; s.spc[1].run = some ⟨1, 1, false, 0⟩ ∧ s.spc[1].tx = []) ∧
    (let s := spcState 1 fun u => { u with run := some ⟨2, 1, true, 0⟩, rx := List.replicate 63 ⟨0, false, true⟩ }
     s.spc[1].run = some ⟨2, 1, true, 0⟩ ∧ s.spc[1].rx.length < 64) ∧
    64 ≤ (spcState 1 fun u => { u with rx := List.replicate 64 ⟨0, false, true⟩ }).spc[1].rx.length ∧
    (spcState 1 fun u => { u with run := some ⟨3, 1, false, 0⟩ }).spc[1].run = some ⟨3, 1, false, 0⟩ ∧
    sigPin ck (sigMiso 1) = none ∧ sigPin (pinned (sigMiso 1) ck) (sigMiso 1) = some 95 := by decide +kernel

/-- SpcSlaveFrames: each clause; a byte written 40 ticks ago and one written 39 ticks ago. -/
theorem wit_SpcSlaveFrames : Clocked ck ∧ spcSlaveLive ck 1 = false ∧
    (let s := pinned (sigSs 1 0) (spcState 3 id); spcSlaveLive s 1 = true ∧ s.spc[1].slaveFrame = false ∧ sigPin s (sigSs 1 0) ≠ none) ∧
    (let s := pinned (sigSck 1) (spcState 3 fun u => { u with slaveFrame := true })
     s.spc[1].slaveFrame = true ∧ sigPin s (sigSck 1) ≠ none) ∧ ck.spc[1].rxHeld = none ∧
    (let u := (spcState 3 fun u => { u with rxHeld := some ⟨1, false, true⟩, rx := List.replicate 63 ⟨0, false, true⟩ }).spc[1]
     u.rxHeld = some ⟨1, false, true⟩ ∧ u.rx.length < 64) ∧
    bit (spcState 3 id).spc[1].group.active.cfg 8 = false ∧
    (let s := spcState 0x103 fun u => { u with slaveFrame := true, slaveBytes := 4 }; let v := spcSettle s.spc[1]
     bit s.spc[1].group.active.cfg 8 = true ∧ s.spc[1].slaveFrame = true ∧
       v.slaveBytes % (fld s.spc[1].group.active.cfg 10 9 + 1) = 0 ∧ v.slaveLost = false ∧ v.slaveFlushed = false) ∧
    (spcSettle (spcState 0x103 fun u => { u with slaveLost := true }).spc[1]).slaveLost = true ∧ ck.spc[1].tx = [] ∧
    (spcState 3 fun u => { u with tx := [(9, 0)] }).spc[1].tx = (9, 0) :: [] ∧ 0 + 40 ≤ (clockAt 40 ck).clock ∧
    (clockAt 39 ck).clock < 0 + 40 := by decide +kernel

/-- Line 3 of the pins in the given state. -/
def pilState (f : Pil → Pil) : State := ck.modPil 3 f

/-- PinCommands, the pins: each function of a pin, and signals 17, 18, 36 and 50; a pin that carries an input signal. -/
theorem wit_PinCommands : Clocked ck ∧ (∀ p : Fin 96, extestDrive ck p.val = none) ∧ released ck = true ∧ released State.reset = false ∧
    (pinFunc ck.pio.pin[95] = 0 ∧ bit ck.pio.oe[5] 15 = false) ∧
    (let s := ck.modPio fun p => { p with oe := upd p.oe 5 fun _ => 0x8000 }; bit s.pio.oe[5] 15 = true ∧ bit s.pio.pin[95] 15 = false) ∧
    (let w := (pinned 17 ck).pio.pin[95]; pinFunc w = 2 ∧ fld w 9 4 < 18 ∧ bit w 15 = false) ∧
    (let w := (pinned 18 ck).pio.pin[95]; 18 ≤ fld w 9 4 ∧ fld w 9 4 < 36) ∧ 50 ≤ fld (pinned 50 ck).pio.pin[95] 9 4 ∧
    pinFunc 3 = 3 ∧ sigPin (pinned 36 ck) 36 = some 95 ∧ sigPin ck 36 = none := by decide +kernel

/-- PinCommands, the lines: BANK 5 and 6, a sample at clock 4 and none at clock 5, the last agreeing sample, active levels, and a
configuration that moves a line and one that does not. -/
theorem wit_PinCommands_lines : (6 ≤ fld (0x36 : Word) 2 0 ∨ fld (0x36 : Word) 6 4 = 0) ∧ ¬(6 ≤ fld (0x35 : Word) 2 0 ∨ fld (0x35 : Word) 6 4 = 0) ∧
    (let s := clockAt 4 (pilState fun l => { l with cfg := 0x235, raw := true, agree := 2 }); let l := s.pio.pil[3]
     s.clock % 4 = 0 ∧ bit l.cfg 16 = false ∧ ownLevel s (pilPin 3 l.cfg) = none ∧ l.raw = true ∧ l.raw ≠ l.level ∧ fld l.cfg 15 8 ≤ l.agree) ∧
    (clockAt 5 ck).clock % 4 ≠ 0 ∧ ck.moment.late = false ∧ (ck.modMoment fun m => { m with late := true }).moment.late = true ∧
    pilActive 1 true = true ∧ pilActive 2 true = false ∧
    ((fld (0x35 : Word) 2 0 ≠ fld ((0x14 : Word) &&& 0x0001FF77) 2 0) ∧ fld ((0x14 : Word) &&& 0x0001FF77) 2 0 < 6) ∧
    (fld (0x35 : Word) 2 0 = fld ((0x15 : Word) &&& 0x0001FF77) 2 0 ∧ fld (0x35 : Word) 15 8 = fld ((0x15 : Word) &&& 0x0001FF77) 15 8) := by
  decide +kernel

/-- The converter with the given settings, in the given state. -/
def adcState (cfg mask : Word) (f : Adc → Adc) : State := { ck with adc := f { ck.adc with
  group := { ck.adc.group with active := { ck.adc.group.active with cfg := cfg, mask := mask } } } }

/-- AdcScans: each clause; the period of a scan and the ticks of a channel to the tick. -/
theorem wit_AdcScans : Clocked ck ∧ ¬bit ck.adc.group.active.cfg 0 = true ∧
    (let a := (adcState 1 0 id).adc; bit a.group.active.cfg 0 = true ∧ a.scanning = false) ∧
    (let s := adcState 0x0001_0003 1 id; let g := s.adc.group.active
     bit g.cfg 0 = true ∧ bit g.cfg 1 = true ∧ s.adc.lastStart + 400 * fld g.cfg 31 16 ≤ (clockAt 400 s).clock ∧
     ¬(s.adc.lastStart + 400 * fld g.cfg 31 16 ≤ (clockAt 399 s).clock)) ∧
    (adcState 1 0 fun a => { a with scanning := true }).adc.scanning = true ∧ adcNext (adcState 1 0x8_0000 id).adc.group.active 19 = some 19 ∧
    adcNext (adcState 1 0x8_0000 id).adc.group.active 20 = none ∧
    (let s := adcState 0x11 0x8_0000 fun a => { a with scanning := true, channel := 19 }; let n := 2 ^ min (fld s.adc.group.active.cfg 6 4) 4
     n = 2 ∧ s.adc.scanning = true ∧ s.adc.channelFrom + 400 * n ≤ (clockAt 800 s).clock ∧
     ¬(s.adc.channelFrom + 400 * n ≤ (clockAt 799 s).clock) ∧ s.adc.skip = false ∧ n ≤ ([5, 6] : List (BitVec 12)).length ∧
     ([5] : List (BitVec 12)).length < n ∧ s.adc.due = false ∧ ¬bit s.adc.group.active.cfg 1 = true ∧ Retry.hkadc ∉ s.moment.retry) ∧
    (let s := adcState 1 3 fun a => { a with scanning := true }; (adcChannel s (s.adc.channel.val + 1)).adc.scanning = true) ∧
    (let s := adcState 1 1 fun a => { a with scanning := true, due := true }
     (adcChannel s (s.adc.channel.val + 1)).adc.scanning = false ∧ s.adc.due = true) ∧
    (adcState 1 1 fun a => { a with skip := true }).adc.skip = true ∧ ck.adc.group.pending = false ∧
    (let a := (adcState 0 0 fun a => { a with group := { a.group.request with shadow := { a.group.shadow with cfg := 3 } } }).adc
     a.group.pending = true ∧ bit a.group.shadow.cfg 0 = true ∧ a.scanning = false ∧ ¬bit a.group.active.cfg 0 = true ∧
       bit a.group.shadow.cfg 1 = true) ∧
    ¬bit ck.adc.group.shadow.cfg 0 = true := by decide +kernel

/-! ### Commands that no event of the hardware is: one for each check of Instr.wf -/

theorem test_wf_lock_limit : (Instr.pllLock .sys 201).wf = false ∧ (Instr.pllLock .hl 201).wf = false ∧ (Instr.pllLock .sys 200).wf = true := by decide
theorem test_wf_relock : (Instr.pllRelock .sys).wf = false ∧ (Instr.pllRelock .eth).wf = true := by decide
theorem test_wf_stream : (Instr.stream [0] 24).wf = false ∧ (Instr.stream [0, 0] 24).wf = true := by decide
theorem test_wf_burst : (Instr.windowBurstWrite 0 [] 72).wf = false ∧ (Instr.windowBurstWrite 0 [1] 72).wf = true := by decide
theorem test_wf_opcode : (Instr.unlistedOpcode 0x0B 72).wf = false ∧ (Instr.unlistedOpcode 0x55 72).wf = true := by decide
theorem test_wf_bypass : (Instr.bypass 0x02).wf = false ∧ (Instr.bypass 0xFF).wf = true := by decide
theorem test_wf_halves : (Instr.loRead .mp 0x2).wf = false ∧ (Instr.hiRead .mp 0x2).wf = false ∧ (Instr.loRead .mp 0x4).wf = true := by decide
theorem test_wf_read_beats : (Instr.fspRead 0 0 0 0 0 []).wf = false ∧ (Instr.fspRead 0 0 0 0 257 []).wf = false ∧
    (Instr.fspRead 0 0 0 16 1 []).wf = false ∧ (Instr.fspRead 0 0 0 32 256 []).wf = true := by decide
theorem test_wf_write_beats : (Instr.fspWrite 0 0 0 0 0 []).wf = false ∧ (Instr.fspWrite 0 0 0 8 1 (List.replicate 32 0)).wf = false ∧
    (Instr.fspWrite 0 0 0 0 1 []).wf = false ∧ (Instr.fspWrite 0 0 0 0 1 (List.replicate 32 0)).wf = true := by decide
theorem test_wf_entry : (Instr.fspPost 0 40 []).wf = false ∧ (Instr.fspPost 0 40 (List.replicate 32 0)).wf = true := by decide
theorem test_wf_flips : (Instr.frameScrub [3104]).wf = false ∧ (Instr.frameScrub [3103]).wf = true := by decide
theorem test_wf_bits : (Instr.slaveFrameEnd 0 8).wf = false ∧ (Instr.slaveFrameEnd 0 7).wf = true := by decide

/-! ### The manual's own figures: its worked examples and the standards it names -/

/-- The check values of the three cyclic codes over the digits 1 to 9, and SHA-256 of nothing: the published ones. -/
theorem test_codes : crc16 [0x31, 0x32, 0x33, 0x34, 0x35, 0x36, 0x37, 0x38, 0x39] = 0x29B1 ∧
    crc32Eth [0x31, 0x32, 0x33, 0x34, 0x35, 0x36, 0x37, 0x38, 0x39] = 0xCBF4_3926 ∧
    crc32c [0x31, 0x32, 0x33, 0x34, 0x35, 0x36, 0x37, 0x38, 0x39] = 0xE306_9283 ∧
    ofBe (sha256 []) = 0xe3b0c44298fc1c149afbf4c8996fb92427ae41e4649b934ca495991b7852b855 := by decide +kernel

/-- The end of a tick in which nothing is due. -/
theorem test_idle_tick : (match Machine.step (ck.modMoment fun m => { m with late := true }) with | .next t => t.time | _ => 0) = 1 := by
  decide +kernel

/-- Chapter 4: entry 6 of Oskeby opens EP1 to FRP and QE for reading; a write of either is refused with reason 0x5. -/
theorem test_access_entry : (let s := ck.modAcc fun a => { a with group := { a.group with active := upd a.group.active 6 fun _ => ⟨0x20_1000, 0x20_1FFC, 0x1203⟩ } }
    checkAccess s .frp true 0x20_1040 = some 5 ∧ checkAccess s .qe true 0x20_1FFC = some 5 ∧ checkAccess s .frp false 0x20_1040 = none ∧
    checkAccess s .frp false 0x20_2000 = some 4 ∧ checkAccess s .mp true 0x20_1040 = none) := by decide +kernel

/-- Chapter 6: the configuration word of ENC0 is written to the group and applied by its commit. -/
theorem test_encoder_word : (let s := encWrite 0 1 1 (encWrite 0 0 0x2081_4F01 ck)
    s.tbe.enc[0].cfg.shadow = 0x2081_4F01 ∧ s.tbe.enc[0].cfg.pending = true ∧ fld (0x2081_4F01 : Word) 12 8 = 15) := by decide +kernel

/-- Chapter 7: after count 39 the sequencer expects target 40 at 31.64826 ms, which is tick 12,659,304. -/
theorem test_expected_tick : (let s := (ck.modEnc 0 fun e => { e with cfg := { e.cfg with active := 1 }, pos := 39 }).modTsq 3 fun t =>
      { t with interval := some ((12_489_996 - 11_135_528) * 65_536 / 8), tLast := 12_489_996 }
    predict (tickAt 12_489_996 s) 3 (40 * 65_536) = some 12_659_304) := by decide +kernel

/-- Chapter 8: a line of 8,192 pixels on three taps is 2,731 words and 2 pages. -/
theorem test_line_words : (let g := { ck.cap[0].group.active with cfg := 0x2301, pixels := 0x2000 }
    lineWords g = 2731 ∧ capBytes g = 8192 ∧ capPages g = 2) := by decide +kernel

/-- Chapter 9: the quotas of Oskeby are not bad. -/
theorem test_quotas : (let s := pwState fun p => { p with group := { p.group with pending := true, shadow :=
      { p.group.active with qmin := #v[0x0400_0800, 0x0200_0300, 0x0020_0040], qcap := #v[0x0400_0800, 0x0380_0600, 0x0080_0100], qch := Vector.replicate 16 0x80 } } }
    (match exec .pwCommitApply s with
     | .next t => !t.pw.quotaBad && quotaChannel t 15 == 128 && quotaPages t .fabric == 1536 && minHandles t .capture == 1024
     | _ => false) = true) := by decide +kernel

/-- Chapter 11: the frame of a binned line of CH3: lengths, header checksum and Line Packet header. -/
theorem test_line_packet : (let f : Frame := { aFrame true with
      dstMac := [0x02, 0x31, 0, 0, 0, 0x64], srcMac := [0x02, 0x4B, 0, 0, 0x16, 0], ttl := 64, srcIp := 0x0A14_000A, dstIp := 0x0A14_0064,
      srcUdp := 40000, dstPort := 50010, gapValid := true, gap := 2, trig := 1234, user := 3, lineBytes := 4096, ring := 67, data := List.replicate 4096 0 }
    let b := (frameBody f 0x0001_2A3F 10_000_000_000).take 74
    b.drop 14 = [0x45, 0, 0x10, 0x3C, 0x2A, 0x3F, 0x40, 0, 0x40, 0x11, 0xEB, 0xDC, 0x0A, 0x14, 0, 0x0A, 0x0A, 0x14, 0, 0x64] ++
      [0x9C, 0x40, 0xC3, 0x5A, 0x10, 0x28, 0, 0] ++
      [0xDA, 1, 0, 7, 0, 1, 0x2A, 0x3F, 0, 0, 4, 0xD2, 0, 0, 0, 3, 0x10, 0, 0, 0, 0, 2, 0, 0x43, 0, 0, 0, 2, 0x54, 0x0B, 0xE4, 0]) := by
  decide +kernel

/-- Chapter 12: a count of tick 50,000,010 sent in the slot at 50,000,032 enters every predictor view at 50,000,650. -/
theorem test_herd_position : entryTick 50_000_010 50_000_032 = 50_000_650 := by decide

/-- The 8b/10b code's published forms: D0.0, D3.1, D7.0, D21.5, D17.7 and D11.7 at each disparity, and K28.5. -/
theorem test_code_groups : ((dataGroup false 0x00).1, (dataGroup true 0x00).1) = (0b1001110100, 0b0110001011) ∧
    ((dataGroup false 0x23).1, (dataGroup true 0x23).1) = (0b1100011001, 0b1100011001) ∧
    ((dataGroup false 0x07).1, (dataGroup true 0x07).1) = (0b1110001011, 0b0001110100) ∧
    ((dataGroup false 0xB5).1, (dataGroup true 0xB5).1) = (0b1010101010, 0b1010101010) ∧
    ((dataGroup false 0xF1).1, (dataGroup true 0xF1).1) = (0b1000110111, 0b1000110001) ∧
    ((dataGroup false 0xEB).1, (dataGroup true 0xEB).1) = (0b1101001110, 0b1101001000) ∧
    ((k285 false).1, (k285 true).1) = (0b0011111010, 0b1100000101) := by decide +kernel

/-- Chapter 17: the first command for device 5 starts a transmission of one byte that keeps the frame open. -/
theorem test_converter_command : (match exec (.tx 1) (spcState 0x0008_004D fun u => { u with queue := [0x0001_5101, 0x5202], tx := [(3, 0)] }) with
    | .next t => (getSpc t 1).run.map (fun r => (r.kind, r.left, r.cont)) == some (1, 1, true) && (getSpc t 1).sel == 5 && (getSpc t 1).queue == [0x5202]
    | _ => false) = true := by decide +kernel

/-- Chapter 18: the interrupt line of the photo sensor and the converter's settings of Oskeby. -/
theorem test_board_supervision : pilOff 0x0001_FA24 = false ∧ pilBank 0x0001_FA24 = 4 ∧ pilActive (pilMode 0x0001_FA24) false = true ∧
    pilActive (pilMode 0x0001_FA24) true = false ∧
    (let g := (adcState 0x03E8_0023 0x000F_0001 id).adc.group.active
     adcAvg g = 2 ∧ adcPeriod g = 400_000 ∧ adcNext g 0 = some 0 ∧ adcNext g 1 = some 16 ∧ adcNext g 20 = none) := by decide +kernel

end Sys2Proof.Tests
end

section
/-! Facts that several of the statements below use: flags that stay set, and behaviour that stays defined. -/

namespace Sys2Proof.Machine

theorem Flags.on_set_same {n : Nat} (f : Flags n) {i : Nat} (h : i < n) : (f.set i).on i = true := by
  have k : (BitVec.ofNat n (1 <<< i)).getLsbD i = true := by
    rw [BitVec.getLsbD_ofNat, Nat.one_shiftLeft, Nat.testBit_two_pow_self]; simp [h]
  simp only [Flags.on, Flags.set, setBit, BitVec.getLsbD_or, k, Bool.or_true]

theorem Flags.on_set_of_on {n : Nat} {f : Flags n} {j : Nat} (i : Nat) (h : f.on j = true) : (f.set i).on j = true := by
  simp_all [Flags.on, Flags.set, setBit]

/-- What touches neither the clocks nor the mark of undefined behaviour leaves the device clocked. -/
theorem Only.clocked {ps : List Part} {s t : State} (h : Only ps s t) (u : Part.undef ∉ ps) (y : Part.sys ∉ ps)
    (c : Clocked s) : Clocked t :=
  ⟨(h .undef u).trans c.1, (congrArg Sys.sysLock (h .sys y)).trans c.2⟩

end Sys2Proof.Machine
end

section
/-! The frame of every command (O6): a command is a guard around one effect, so its frame is the frame of the effect, which the laws
`…_moves` of the model give. -/

namespace Sys2Proof.Machine

/-- The three commands of the rails and of RESET_N answer in every state. -/
theorem next_moves {ps : List Part} {s t u : State} (h : (.next u : Out) = .next t) (k : Moves ps s u) :
    Moves ps s t := by
  cases h
  exact k

/-- Every command moves within its frame, and keeps the canonical form of both memories: one law for each effect. `r` and `m` say that
nothing has moved yet and that the whole frame is open to the effect. -/
theorem exec_moves {c : Instr} {s t : State} (h : exec c s = .next t) : Moves (frameOf c) s t := by
  have r : Moves (frameOf c) s s := Moves.refl _ s
  have m : ∀ p ∈ frameOf c, p ∈ frameOf c := fun _ hp => hp
  cases c with
  | registerWrite => exact onSys_moves h (registerWriteEffect_moves _ _ _ _ _ r m)
  | supplyOutOfRange => exact next_moves h (supplyEffect_moves _ r m)
  | vbatPowerUp => exact onAny_moves h (vbatEffect_moves _ r m)
  | pinReset => exact next_moves h (pinResetEffect_moves _ _ r m)
  | resetNRise => exact next_moves h (resetNRiseEffect_moves _ _ _ r m)
  | pllLock => exact onAny_moves h (pllLockEffect_moves _ _ _ r m)
  | bootSelection => exact onSys_moves h (bootSelectionEffect_moves _ r m)
  | frameTransferDone => exact onSys_moves h (transferDoneEffect_moves _ _ r m)
  | softReset => exact onSys_moves h (softResetEffect_moves _ r m)
  | reconfiguration => exact onSys_moves h (reconfigurationEffect_moves _ _ r m)
  | kcEdge => exact onAny_moves h (kcEdgeEffect_moves _ _ _ _ _ r m)
  | alarmAccept => exact onAny_moves h (alarmEffect_moves _ _ _ r m)
  | bkpCapture => exact onAny_moves h (bkpCaptureEffect_moves _ r m)
  | bkpPairTake => exact onAny_moves h (pairTakeEffect_moves _ r m)
  | logClear => exact onAny_moves h (logClearEffect_moves _ r m)
  | bcLoad => exact onAny_moves h (bcLoadEffect_moves _ r m)
  | kc0Clear | kc1Clear => exact onAny_moves h (kcClearEffect_moves _ _ r m)
  | directWrite | winDataWrite => exact onPort_moves h (directWriteEffect_moves _ _ _ _ r m)
  | directRead => exact onPort_moves h (directReadEffect_moves _ _ _ r m)
  | stream => exact onPort_moves h (streamEffect_moves _ _ _ r m)
  | windowBurstWrite => exact onPort_moves h (burstWriteEffect_moves _ _ _ _ r m)
  | windowBurstRead => exact onPort_moves h (burstReadEffect_moves _ _ _ _ r m)
  | unlistedOpcode => exact onPort_moves h (unlistedEffect_moves _ _ _ r m)
  | streamAbort | stickyClear => exact onPort_moves h (mpCommand_moves _ _ r m)
  | postedWriteApply req blk ecc =>
    have k := postedApplyEffect_moves req blk ecc s r m
    change (if blk = .bkp then _ else _) = _ at h
    split at h
    · exact onAny_moves h k
    · exact onSys_moves h k
  | accessAnswer => exact onSys_moves h (accessAnswerEffect_moves _ _ r m)
  | frpAccess => exact onSys_moves h (frpAccessEffect_moves _ _ _ _ _ r m)
  | icpAccess => exact onSys_moves h (icpAccessEffect_moves _ _ _ _ _ r m)
  | commitGo => exact onSys_moves h (commitGoEffect_moves _ _ r m)
  | accCommitApply =>
    exact onSys_moves (f := fun s => noteFence s (accCommitEffect s)) h
      (noteFence_moves _ _ (accCommitEffect_moves _ r m) (within m (by decide)))
  | lcsTransition | programKeyHash | programNoFieldDebug | lcsNoOperation =>
    exact onSys_moves h (lcsStart_moves _ _ _ r m)
  | lcsOperationDone => exact onSys_moves h (lcsDoneEffect_moves _ r m)
  | newChallenge => exact onSys_moves h (newChallengeEffect_moves _ _ r m)
  | challengeReady => exact onSys_moves h (challengeReadyEffect_moves _ _ r m)
  | verify => exact onSys_moves h (verifyEffect_moves _ _ r m)
  | verdict => exact onSys_moves h (verdictEffect_moves _ r m)
  | lockoutEnd => exact onSys_moves h (lockoutEndEffect_moves _ r m)
  | extest => exact onAny_moves h (extestEffect_moves _ _ r m)
  | samplePreload => exact onAny_moves h (samplePreloadEffect_moves _ _ r m)
  | idcode => exact onAny_moves h (idcodeEffect_moves _ r m)
  | bypass => exact onAny_moves h ((bypassEffect_moves _ _ r m).ite r)
  | auth => exact onPort_moves h (authEffect_moves _ _ _ _ _ r m)
  | debugBus => exact onPort_moves h (debugBusEffect_moves _ _ _ _ _ _ r m)
  | rlog => exact onPort_moves h (rlogEffect_moves _ _ _ _ _ r m)
  | readback => exact onAny_moves h (readbackEffect_moves _ _ r m)
  | readbackFrameRead => exact onSys_moves h (readbackFrameReadEffect_moves _ r m)
  | pllLossOfLock => exact onAny_moves h (pllLossEffect_moves _ _ r m)
  | pllRelock => exact onAny_moves h (pllRelockEffect_moves _ _ r m)
  | encoderTransition => exact onSys_moves h (encoderTransitionEffect_moves _ _ _ _ r m)
  | index => exact onSys_moves h (indexEffect_moves _ _ _ r m)
  | losEntry => exact onSys_moves h (losEntryEffect_moves _ _ _ r m)
  | losExit => exact onSys_moves h (losExitEffect_moves _ _ _ r m)
  | illegalWindowEnd => exact onSys_moves h (illegalWindowEffect_moves _ _ r m)
  | losLimitExpiry => exact onSys_moves h (losLimitEffect_moves _ _ _ r m)
  | load => exact onSys_moves h (loadEffect_moves _ _ r m)
  | zarm => exact onSys_moves h (zarmEffect_moves _ _ r m)
  | restore => exact onSys_moves h (restoreEffect_moves _ _ r m)
  | errClear => exact onSys_moves h (errClearEffect_moves _ _ r m)
  | snap => exact onSys_moves h (snapEffect_moves _ r m)
  | encCommitApply => exact onSys_moves h (encCommitEffect_moves _ _ r m)
  | loRead => exact onSys_moves h (loReadEffect_moves _ _ _ r m)
  | hiRead => exact onSys_moves h (hiReadEffect_moves _ _ _ r m)
  | slotOpen => exact onSys_moves h (slotOpenEffect_moves _ _ r m)
  | slotCommit => exact onSys_moves h (slotCommitEffect_moves _ _ r m)
  | strobeRise => exact onSys_moves h (strobeRiseEffect_moves _ _ r m)
  | pretrigRise => exact onSys_moves h (pretrigRiseEffect_moves _ _ r m)
  | pulseEnd => exact onSys_moves h (pulseEndEffect_moves _ _ _ r m)
  | holdExpiry => exact onSys_moves h (holdExpiryEffect_moves _ _ r m)
  | stopTicksExpiry => exact onSys_moves h (stopExpiryEffect_moves _ _ r m)
  | predictorEntry => exact onSys_moves h (predictorEntryEffect_moves _ _ r m)
  | tsqCommitApply => exact onSys_moves h (tsqCommitEffect_moves _ _ r m)
  | tsqCntClear => exact onSys_moves h (tsqCntClearEffect_moves _ _ r m)
  | pclkMeasure => exact onSys_moves h (pclkEffect_moves _ _ _ r m)
  | lockSuccess => exact onSys_moves h (lockSuccessEffect_moves _ _ r m)
  | lockAttemptFail => exact onSys_moves h (lockFailEffect_moves _ _ r m)
  | lossOfLock => exact onSys_moves h (lossOfLockEffect_moves _ _ r m)
  | lineStart => exact onSys_moves h (lineStartEffect_moves _ _ _ _ r m)
  | lineEnd => exact onSys_moves h (lineEndEffect_moves _ _ _ _ _ r m)
  | matchExpiry => exact onSys_moves h (matchExpiryEffect_moves _ _ r m)
  | capLinkWindowEnd => exact onSys_moves h (capWindowEndEffect_moves _ _ r m)
  | capRevive => exact onSys_moves h (capReviveEffect_moves _ _ r m)
  | capCntClear => exact onSys_moves h (capCntClearEffect_moves _ _ r m)
  | capTagBaseWrite => exact onSys_moves h (tagBaseEffect_moves _ _ r m)
  | capCommitApply => exact onSys_moves h (capCommitEffect_moves _ _ r m)
  | reserve => exact onSys_moves h (reserveEffect_moves _ _ _ _ _ r m)
  | returnRes => exact onSys_moves (f := fun s => pwReturn s _) h (pwReturn_moves _ _ r m)
  | map => exact onSys_moves h (mapEffect_moves _ _ _ _ r m)
  | alloc => exact onSys_moves h (allocEffect_moves _ _ _ _ _ _ r m)
  | trim => exact onSys_moves (f := fun s => pwTrim s _ _ _) h (pwTrim_moves _ _ _ _ r m)
  | addref => exact onSys_moves h (objectEffect_moves _ _ _ _ r m fun _ k =>
      pwAddref_moves _ _ _ k (within (qs := [.pw, .qe]) m (by decide)))
  | release => exact onSys_moves h (objectEffect_moves _ _ _ _ r m fun _ k =>
      pwRelease_moves _ _ _ k (within (qs := [.pw, .qe]) m (by decide)))
  | abandon => exact onSys_moves h (objectEffect_moves _ _ _ _ r m fun _ k =>
      pwAbandon_moves _ _ _ k (within (qs := [.pw, .qe]) m (by decide)))
  | readRepeat => exact onSys_moves h (readRepeatEffect_moves _ _ _ _ _ r m)
  | poisonRewriteDone => exact onSys_moves h (poisonRewriteEffect_moves _ r m)
  | pwCommitApply => exact onSys_moves h (pwCommitEffect_moves _ r m)
  | pwCntClear => exact onSys_moves h (pwCntClearEffect_moves _ r m)
  | doorbellPi | doorbellCi => exact onSys_moves h (doorbellEffect_moves _ _ _ _ _ r m)
  | hostAlloc => exact onSys_moves h (hostAllocEffect_moves _ r m)
  | hostAddref | hostRelease | hostSeal | hostAbandon =>
    exact onSys_moves (f := fun s => hostCommand s _) h
      (hostCommand_moves _ _ r m)
  | dispatch => exact onSys_moves h (dispatchEffect_moves _ _ r m)
  | mgmtWordIssue => exact onSys_moves h (mgmtWordEffect_moves _ _ _ r m)
  | entryComplete => exact onSys_moves h (entryCompleteEffect_moves _ _ _ r m)
  | ringTimeout => exact onSys_moves h (ringTimeoutEffect_moves _ _ _ r m)
  | qeRingCommitApply => exact onSys_moves h (ringCommitEffect_moves _ _ r m)
  | qeCntClear => exact onSys_moves h (qeCntClearEffect_moves _ r m)
  | linkUp => exact onSys_moves h (linkUpEffect_moves _ _ r m)
  | linkDown => exact onSys_moves h (linkDownEffect_moves _ _ _ r m)
  | frameBuild => exact onSys_moves h (frameBuildEffect_moves _ _ r m)
  | payloadReadDone => exact onSys_moves h (payloadReadEffect_moves _ _ _ r m)
  | frameSend => exact onSys_moves h (frameSendEffect_moves _ _ r m)
  | frameDiscard => exact onSys_moves h (frameDiscardEffect_moves _ _ r m)
  | receiveFrame => exact onSys_moves h (receiveEffect_moves _ _ _ r m)
  | rxCiWrite => exact onSys_moves h (rxCiEffect_moves _ _ _ r m)
  | egrLinkWindowEnd => exact onSys_moves h (egrWindowEndEffect_moves _ _ r m)
  | egrRevive => exact onSys_moves h (egrReviveEffect_moves _ _ r m)
  | egrCntClear => exact onSys_moves h (egrCntClearEffect_moves _ _ r m)
  | gapReset => exact onSys_moves h (gapResetEffect_moves _ _ _ r m)
  | egrCommitApply => exact onSys_moves h (egrCommitEffect_moves _ _ r m)
  | trainComplete => exact onSys_moves h (trainCompleteEffect_moves _ _ r m)
  | probe => exact onSys_moves h (probeEffect_moves _ _ r m)
  | echo => exact onSys_moves h (echoEffect_moves _ _ _ r m)
  | idleMessage => exact onSys_moves h (idleMessageEffect_moves _ _ r m)
  | badMessage => exact onSys_moves h (badMessageEffect_moves _ _ _ r m)
  | timeOriginate => exact onSys_moves h (timeOriginateEffect_moves _ r m)
  | timeMessage => exact onSys_moves h (timeMessageEffect_moves _ _ _ _ r m)
  | positionDue => exact onSys_moves h (positionDueEffect_moves _ _ r m)
  | positionMessage => exact onSys_moves h (positionMessageEffect_moves _ _ _ r m)
  | readyOriginate => exact onSys_moves h (readyOriginateEffect_moves _ _ r m)
  | eventReady => exact onSys_moves h (eventReadyEffect_moves _ _ r m)
  | readySeenExpiry => exact onSys_moves h (readyExpiryEffect_moves _ _ _ r m)
  | herdStart => exact onSys_moves h (herdStartEffect_moves _ _ r m)
  | herdStop => exact onSys_moves h (herdStopEffect_moves _ _ r m)
  | herdRevive => exact onSys_moves h (herdReviveEffect_moves _ _ r m)
  | startMessage | stopMessage | retireMessage | reviveMessage => exact onSys_moves h (class0Effect_moves _ _ _ _ r m)
  | herdStarted => exact onSys_moves h (herdStartedEffect_moves _ _ r m)
  | herdStopped => exact onSys_moves h (herdStoppedEffect_moves _ _ r m)
  | herdRetired => exact onSys_moves h (herdRetiredEffect_moves _ _ r m)
  | herdRevived => exact onSys_moves h (herdRevivedEffect_moves _ _ r m)
  | halt => exact onSys_moves h (haltEffect_moves _ r m)
  | haltRelease => exact onSys_moves h (haltReleaseEffect_moves _ r m)
  | herdHaltAccept => exact onSys_moves h (haltAcceptEffect_moves _ _ r m)
  | portRevive => exact onSys_moves h (portReviveEffect_moves _ _ r m)
  | hlCntClear => exact onSys_moves h (hlCntClearEffect_moves _ r m)
  | hlCommitApply => exact onSys_moves h (hlCommitEffect_moves _ r m)
  | fspTake => exact onSys_moves h (fspTakeEffect_moves _ _ _ _ r m)
  | fspAlloc => exact onSys_moves h (fspAllocEffect_moves _ _ _ _ r m)
  | fspAddref => exact onSys_moves h (fspAddrefEffect_moves _ _ _ _ r m)
  | fspRelease => exact onSys_moves h (fspReleaseEffect_moves _ _ _ _ r m)
  | fspSeal => exact onSys_moves h (fspSealEffect_moves _ _ _ _ r m)
  | fspAbandon => exact onSys_moves h (fspAbandonEffect_moves _ _ _ _ r m)
  | fspRead => exact onSys_moves h (fspReadEffect_moves _ _ _ _ _ _ _ r m)
  | fspWrite => exact onSys_moves h (fspWriteEffect_moves _ _ _ _ _ _ _ r m)
  | fspPost => exact onSys_moves h (fspPostEffect_moves _ _ _ _ r m)
  | fspComplete => exact onSys_moves h (fspCompleteEffect_moves _ _ _ _ _ r m)
  | pcStbByte => exact onAny_moves h (pcStbByteEffect_moves _ _ r m)
  | pcpEnWrite => exact onSys_moves h (pcpEnWriteEffect_moves _ _ r m)
  | syncWord => exact onSys_moves h (syncWordEffect_moves _ r m)
  | nop => exact onSys_moves h (nopEffect_moves _ r m)
  | idc => exact onSys_moves h (idcEffect_moves _ r m)
  | seq => exact onSys_moves h (seqEffect_moves _ r m)
  | len => exact onSys_moves h (lenEffect_moves _ r m)
  | ztab => exact onSys_moves h (ztabEffect_moves _ r m)
  | sig => exact onSys_moves h (sigEffect_moves _ r m)
  | begin_ => exact onSys_moves h (beginEffect_moves _ r m)
  | ctlAbort => exact onSys_moves h (ctlAbortEffect_moves _ r m)
  | ctlNop => exact onSys_moves h (ctlNopEffect_moves _ r m)
  | faddr => exact onSys_moves h (faddrEffect_moves _ r m)
  | fdata => exact onSys_moves h (fdataEffect_moves _ r m)
  | end_ => exact onSys_moves h (endEffect_moves _ r m)
  | erasingDone => exact onSys_moves h (erasingDoneEffect_moves _ _ r m)
  | frameArrival => exact onSys_moves h (frameArrivalEffect_moves _ r m)
  | frameProgramDone => exact onSys_moves h (frameProgramDoneEffect_moves _ _ r m)
  | finishingDone => exact onSys_moves h (finishingDoneEffect_moves _ r m)
  | invalidate | erase | saveBoot | clear => exact onSys_moves h (cmdStart_moves _ _ _ r m)
  | cfgCmdDone => exact onSys_moves h (cfgCmdDoneEffect_moves _ _ r m)
  | zoneOpen => exact onSys_moves h (zoneOpenEffect_moves _ _ r m)
  | zoneAbort => exact onSys_moves h (zoneAbortEffect_moves _ _ r m)
  | zoneRestore => exact onSys_moves h (zoneRestoreEffect_moves _ _ r m)
  | zdataWrite => exact onSys_moves h (zdataWriteEffect_moves _ _ r m)
  | zoneVerifyDone => exact onSys_moves h (zoneVerifyDoneEffect_moves _ _ r m)
  | zoneRestoreDone => exact onSys_moves h (zoneRestoreDoneEffect_moves _ _ r m)
  | passStart => exact onSys_moves h (passStartEffect_moves _ r m)
  | frameScrub => exact onSys_moves h (frameScrubEffect_moves _ _ r m)
  | reloadAttempt => exact onSys_moves h (reloadAttemptEffect_moves _ _ r m)
  | passEnd => exact onSys_moves h (passEndEffect_moves _ r m)
  | voteCorrection => exact onSys_moves h (voteCorrectionEffect_moves _ _ r m)
  | save => exact onSys_moves h (saveEffect_moves _ r m)
  | saveDone => exact onSys_moves h (saveDoneEffect_moves _ r m)
  | characterReceive => exact onSys_moves h (characterReceiveEffect_moves _ _ _ r m)
  | characterTransmit => exact onSys_moves h (characterTransmitEffect_moves _ _ r m)
  | irPulseAccept => exact onSys_moves h (irPulseEffect_moves _ _ r m)
  | irFlood => exact onSys_moves h (irFloodEffect_moves _ _ r m)
  | quietExit => exact onSys_moves h (quietExitEffect_moves _ _ r m)
  | uaTxdataWrite => exact onSys_moves h (uaTxWriteEffect_moves _ _ _ r m)
  | uaRxdataRead => exact onSys_moves h (uaRxdataEffect_moves _ _ _ r m)
  | uaRxFlush => exact onSys_moves h (uaRxFlushEffect_moves _ _ r m)
  | uaTxFlush => exact onSys_moves h (uaTxFlushEffect_moves _ _ r m)
  | uaCntClear => exact onSys_moves h (uaCntClearEffect_moves _ _ r m)
  | break_ => exact onSys_moves h (breakEffect_moves _ _ _ r m)
  | uaRouteWrite => exact onSys_moves h (uaRouteEffect_moves _ _ _ _ r m)
  | uaCommitApply => exact onSys_moves h (uaCommitEffect_moves _ _ r m)
  | duplex | tx | rx | delay => exact onSys_moves h (spcStartEffect_moves _ _ _ r m)
  | masterByte => exact onSys_moves h (masterByteEffect_moves _ _ _ r m)
  | modeFault => exact onSys_moves h (modeFaultEffect_moves _ _ r m)
  | spcAbort => exact onSys_moves h (spcAbortEffect_moves _ _ r m)
  | resume => exact onSys_moves h (resumeEffect_moves _ _ r m)
  | spcRxFlush => exact onSys_moves h (spcRxFlushEffect_moves _ _ r m)
  | spcTxFlush => exact onSys_moves h (spcTxFlushEffect_moves _ _ r m)
  | spcCntClear => exact onSys_moves h (spcCntClearEffect_moves _ _ r m)
  | slaveFrameStart => exact onSys_moves h (slaveStartEffect_moves _ _ r m)
  | slaveByte => exact onSys_moves h (slaveByteEffect_moves _ _ _ r m)
  | slaveFrameEnd => exact onSys_moves h (slaveEndEffect_moves _ _ _ r m)
  | spcTxdataWrite | spcTxdata4Write => exact onSys_moves h (spcTxWrite_moves _ _ _ r m)
  | spcRxdataRead => exact onSys_moves h (spcRxdataEffect_moves _ _ _ r m)
  | spcCommitApply => exact onSys_moves h (spcCommitEffect_moves _ _ r m)
  | pioOutSet => exact onSys_moves h (pioSetEffect_moves _ _ _ r m)
  | pioOutClr => exact onSys_moves h (pioClrEffect_moves _ _ _ r m)
  | pilCfgWrite => exact onSys_moves h (pilCfgEffect_moves _ _ _ r m)
  | pilActiveEdge => exact onSys_moves h (pilEdgeEffect_moves _ _ _ r m)
  | pioCntClear => exact onSys_moves h (pioCntClearEffect_moves _ r m)
  | hkadcStart => exact onSys_moves h (hkadcStartEffect_moves _ r m)
  | scanPeriod => exact onSys_moves h (scanPeriodEffect_moves _ r m)
  | channelResult => exact onSys_moves h (channelResultEffect_moves _ _ r m)
  | hkadcCommitApply => exact onSys_moves h (hkadcCommitEffect_moves _ r m)
  | spcCmdWrite => exact onSys_moves h (spcCmdWriteEffect_moves _ _ _ r m)
  | frameSent => exact onSys_moves h (frameSentEffect_moves _ _ r m)
  | herdHaltNHigh => exact onSys_moves h (haltHighEffect_moves _ r m)
  | bkpOscillatorStop | bkpOscillatorStart => exact onAny_moves h (oscEffect_moves _ _ r m)
  | trainStart => exact onSys_moves h (trainStartEffect_moves _ _ r m)
  -- The one case left is SEAL, whose name is a keyword of Lean.
  | _ => exact onSys_moves h (objectEffect_moves _ _ _ _ r m fun _ k =>
      pwSeal_moves _ _ _ k (within (qs := [.pw, .qe]) m (by decide)))

/-- Settles O6: every command stays within its frame, read off `exec_moves`. -/
theorem commandFrames : Obligations.CommandFrames := fun _ _ _ h => (exec_moves h).only

end Sys2Proof.Machine
end

section
/-! Register writes and commits (O21): the check of a write and where it goes (R77, R112), GO (R82, R124), and the access table
applied as a whole (R109). -/

namespace Sys2Proof.Machine

variable {s : State} {r : Req} {addr data : Word} {ecc : Ecc}

/-! ### A write of a register -/

theorem registerWriteEffect_refused {why : BitVec 4} (h : checkAccess s r true (wordAddr addr) = some why) :
    registerWriteEffect r addr data ecc s = logRefusal s r true (wordAddr addr) why := by
  simp [registerWriteEffect, h]

theorem registerWriteEffect_unanswered (h : checkAccess s r true (wordAddr addr) = none)
    (k : responds s (wordAddr addr) = false) : registerWriteEffect r addr data ecc s = s := by
  simp [registerWriteEffect, h, k]

theorem registerWriteEffect_buffered (h : checkAccess s r true (wordAddr addr) = none)
    (k : responds s (wordAddr addr) = true) (b : blockOf (wordAddr addr) = some .bkp ∧ s.bus.bkpBuf ≠ []) :
    registerWriteEffect r addr data ecc s = (issueWrite s r (wordAddr addr) data).2 := by
  simp [registerWriteEffect, h, k, b]

theorem registerWriteEffect_acts (h : checkAccess s r true (wordAddr addr) = none)
    (k : responds s (wordAddr addr) = true) (b : ¬(blockOf (wordAddr addr) = some .bkp ∧ s.bus.bkpBuf ≠ [])) :
    registerWriteEffect r addr data ecc s =
      noteFence s (regWrite r (wordAddr addr) data ecc (settleBefore r (wordAddr addr) s)) := by
  simp [registerWriteEffect, h, k, b]

/-- A permitted write of the backup domain is taken while its buffer has room. -/
theorem issueWrite_bkp {a : Word} (h : checkAccess s r true a = none) (k : responds s a = true)
    (b : blockOf a = some .bkp) :
    (issueWrite s r a data).2 = if 8 ≤ s.bus.bkpBuf.length then s else postBkp s r a data := by
  unfold issueWrite
  simp only [h, k, b, Bool.not_true, Bool.false_eq_true, if_false, if_true]
  split <;> rfl

/-! ### GO -/

theorem commitGoEffect_scrapped {g : Group} (h : (scrapped s && commitEnables s g) = true) : commitGoEffect g s = s :=
  if_pos h

/-! ### The access table -/

theorem noteFence_self (s : State) : noteFence s s = s :=
  if_neg (by simp)

/-- FENCE_DONE is all that a change of FENCE shows (R110). -/
theorem noteFence_acc (s t : State) : (noteFence s t).acc.group = t.acc.group ∧ (noteFence s t).acc.epoch = t.acc.epoch ∧
    (noteFence s t).bus = t.bus := by
  unfold noteFence
  split <;> exact ⟨rfl, rfl, rfl⟩

theorem accCommitEffect_none (h : s.acc.group.pending = false) : accCommitEffect s = s := by
  simp [accCommitEffect, h]

theorem accCommitEffect_pending (h : s.acc.group.pending = true) :
    accCommitEffect s = (s.modAcc fun a => { a with group := a.group.apply, epoch := a.epoch + 1 }).modBus fun b =>
      { b with epochOrder := b.epochOrder + 1 } :=
  if_pos h

/-- Settles O21: the check of a write, the GO of each group and the commit of the access table, case by case. -/
theorem registerWritesAndCommits : Obligations.RegisterWritesAndCommits := by
  intro s req addr data ecc hc a
  have go (f : State → State) : onSys s f = .next (f s) := onSys_clocked hc f
  refine ⟨fun why h => ?_, fun h => ⟨fun k => ?_, fun k b e => ?_, fun k b => ?_⟩, fun g h => ?_, fun g h => ?_,
    ⟨rfl, rfl, rfl, rfl⟩, fun h => ?_, fun h => ?_⟩
  · exact (go _).trans (by rw [registerWriteEffect_refused h]; rfl)
  · exact (go _).trans (by rw [registerWriteEffect_unanswered h k])
  · refine ⟨_, (go _).trans (by rw [registerWriteEffect_buffered h k ⟨b, e⟩, issueWrite_bkp h k b]), ?_, ?_⟩
    · exact ((Moves.refl _ s).ite (postBkp_moves s req a data (Moves.refl _ s) fun _ h => h)).only
    · split <;> rfl
  · exact (go _).trans (by rw [registerWriteEffect_acts h k b])
  · exact (go _).trans (by rw [commitGoEffect_scrapped h])
  · refine (go _).trans ((congrArg _ (if_neg (Bool.eq_false_iff.1 h))).trans ?_)
    cases g <;> rfl
  · refine (go fun s => noteFence s (accCommitEffect s)).trans ?_
    rw [accCommitEffect_none h, noteFence_self]
  · have only : Only [.acc, .bus] s (noteFence s (accCommitEffect s)) :=
      (noteFence_moves _ _ (accCommitEffect_moves s (Moves.refl _ s) (by decide)) (by decide)).only
    obtain ⟨group, epoch, bus⟩ := noteFence_acc s (accCommitEffect s)
    rw [accCommitEffect_pending h] at only group epoch bus
    refine ⟨_, (go fun s => noteFence s (accCommitEffect s)).trans (by rw [accCommitEffect_pending h]), only, ?_, ?_, ?_,
      epoch, bus⟩
    · rw [group]; rfl
    · rw [group]; rfl
    · rw [group]; rfl

end Sys2Proof.Machine
end

section
/-! The commands of CFG_CMD (O28): when one waits, does nothing, is refused or starts (R406), and what its end does (R403, R407). -/

namespace Sys2Proof.Machine

/-! ### The start of a command -/

variable {s : State} {op : CfgOp} {n : BitVec 2} {b : Fin 3}

theorem cmdSlot_eq_none : cmdSlot n = none ↔ n = 3 := by
  revert n; decide

theorem cmdSlot_of_val (h : n.toNat = b.val) : cmdSlot n = some b := by
  simp only [cmdSlot, h, b.isLt, if_true]
  exact congrArg some (Fin.ext (Nat.mod_eq_of_lt b.isLt))

theorem cmdSlot_isNone : (cmdSlot n).isNone = true ↔ n = 3 := Option.isNone_iff_eq_none.trans cmdSlot_eq_none

theorem cmdRefuses_invalidate : cmdRefuses s .invalidate n = true ↔
    scrapped s = true ∨ (n = 0 ∧ s.cfg.goldenWe = false) ∨ n = 3 := by
  simp [cmdRefuses, cmdSlot_eq_none, or_assoc]

theorem cmdRefuses_erase : cmdRefuses s .erase n = true ↔
    scrapped s = true ∨ (n = 0 ∧ s.cfg.goldenWe = false) ∨ n = 3 ∨ ∃ b, bootedSlot s = some b ∧ b.val = n.toNat := by
  simp [cmdRefuses, cmdSlot_eq_none, or_assoc, Option.any_eq_true]

theorem cmdStart_busy {c : CfgOp × BitVec 2} (h : s.cfg.cmd = some c) :
    cmdStart op n s = noteRetry (.slotCommand op n) s := by
  simp [cmdStart, h]

theorem cmdStart_writing (h : s.cfg.cmd = none) (k : writeRuns s = true) : cmdStart op n s = s := by
  simp [cmdStart, h, k]

theorem cmdStart_refused (h : s.cfg.cmd = none) (k : writeRuns s = false) (r : cmdRefuses s op n = true) :
    cmdStart op n s = s.modCfg fun c => { c with cmdResult := 2, flags := c.flags.set 2 } := by
  simp [cmdStart, h, k, r]

theorem cmdStart_starts (h : s.cfg.cmd = none) (k : writeRuns s = false) (r : cmdRefuses s op n = false) :
    cmdStart op n s = cmdUnmark (s.modCfg fun c => { c with cmd := some (op, n), cmdResult := 0 }) op n := by
  simp [cmdStart, h, k, r]

theorem cmdUnmark_slot (o : op = .invalidate ∨ op = .erase) (h : n.toNat = b.val) :
    cmdUnmark s op n = modSlotNv s b fun x => { x with st := .incomplete } := by
  rcases o with rfl | rfl <;> simp [cmdUnmark, cmdSlot_of_val h]

/-! ### The end of a command -/

/-- The state in which a slot command has ended well. -/
def cmdEnded (s : State) : State := s.modCfg fun c => { c with cmd := none, cmdResult := 1, flags := c.flags.set 2 }

theorem cmdEnd_clocked {ok : Bool} (h : Clocked s) : Clocked (cmdEnd op n ok s) :=
  (cmdEnd_moves op n ok s (Moves.refl _ s) fun _ h => h).only.clocked (by decide) (by decide) h

theorem cfgCmdDoneEffect_none {ok : Bool} (h : s.cfg.cmd = none) : cfgCmdDoneEffect ok s = s := by
  simp [cfgCmdDoneEffect, h]

theorem cfgCmdDoneEffect_alone {ok : Bool} (h : s.cfg.cmd = some (op, n)) (k : s.moment.retry = []) :
    cfgCmdDoneEffect ok s = cmdEnd op n ok s := by
  simp [cfgCmdDoneEffect, h, k]

theorem cfgCmdDoneEffect_followed {ok : Bool} {o : CfgOp} {m : BitVec 2} (h : s.cfg.cmd = some (op, n))
    (k : s.moment.retry = [.slotCommand o m]) : cfgCmdDoneEffect ok s = cmdStart o m (cmdEnd op n ok s) := by
  simp [cfgCmdDoneEffect, h, k]

theorem cmdEnd_invalidate {ok : Bool} (h : n.toNat = b.val) : cmdEnd .invalidate n ok s = refreshView (cmdEnded s) b := by
  simp only [cmdEnd, cmdView, cmdSlot_of_val h]; rfl

theorem cmdEnd_clear_halted {ok : Bool} (h : s.cfg.phase = .failed) :
    cmdEnd .clear n ok s = (cmdEnded s).modCfg fun g => { g with phase := .search } :=
  if_pos (show cfgHalted (cmdEnded s) = true from beq_iff_eq.2 h)

theorem cmdEnd_clear_running {ok : Bool} (h : s.cfg.phase ≠ .failed) : cmdEnd .clear n ok s = cmdEnded s :=
  if_neg (show ¬cfgHalted (cmdEnded s) = true from fun k => h (beq_iff_eq.1 k))

/-- Slot b erased, or left INCOMPLETE where the erasure failed. -/
def cmdErased (s : State) (b : Fin 3) (ok : Bool) : State :=
  modSlotNv (cmdEnded s) b fun x => { x with
    writes := satInc x.writes, frames := [], hdr := Header.init, hdrCrcOk := false, st := if ok then .empty else .incomplete }

theorem cmdEnd_erase_ok (h : n.toNat = b.val) : cmdEnd .erase n true s = refreshView (cmdErased s b true) b := by
  simp only [cmdEnd, cmdSlot_of_val h]; rfl

theorem cmdEnd_erase_fails (h : n.toNat = b.val) : cmdEnd .erase n false s =
    refreshView ((recordFault (cmdErased s b false) { perm := true, blk := blkCfg, kind := 2, inst := b.val }).modCfg
      fun c => { c with cmdResult := 3, flags := c.flags.set 4 }) b := by
  simp only [cmdEnd, cmdSlot_of_val h]; rfl

theorem recordFault_cfg (s : State) (f : FaultRec) : (recordFault s f).cfg = s.cfg :=
  (recordFault_moves s f (Moves.refl _ s) fun _ h => h).only .cfg (by decide)

/-- What the end of an erasure leaves in CFG, and that it writes descriptor memory only for the fault of a failed one. -/
theorem cmdEnd_erase (s : State) (ok : Bool) (h : n.toNat = b.val) :
    let t := cmdEnd .erase n ok s
    t.cfg.cmd = none ∧ t.cfg.slots = (cmdErased s b ok).cfg.slots ∧ t.cfg.cmdResult = (if ok then 1 else 3) ∧
      t.cfg.flags = (if ok then s.cfg.flags.set 2 else (s.cfg.flags.set 2).set 4) ∧ (ok = true → t.dm = s.dm) := by
  cases ok with
  | true =>
    rw [cmdEnd_erase_ok h]
    exact ⟨rfl, rfl, rfl, rfl, fun _ => rfl⟩
  | false =>
    rw [cmdEnd_erase_fails h]
    have k := recordFault_cfg (cmdErased s b false) { perm := true, blk := blkCfg, kind := 2, inst := b.val }
    exact ⟨(congrArg Cfg.cmd k :), (congrArg Cfg.slots k :), rfl, (congrArg (fun c : Cfg => c.flags.set 4) k :), nofun⟩

/-- Settles O28: a command of CFG_CMD that waits, does nothing, is refused or starts, and the end of each of the four. -/
theorem slotCommands : Obligations.SlotCommands := by
  intro s n ok hc g refused golden started ended waits
  have go (f : State → State) : onSys s f = .next (f s) := onSys_clocked hc f
  refine ⟨fun h => ?_, fun h w => ?_, fun h w => ⟨fun r => ?_, fun r => ?_, fun r => ?_, fun r => ?_, ?_, fun b hb r hg =>
    ⟨?_, fun nb => ?_⟩⟩, fun h => ?_, fun op k n' c h hr hk => ?_, fun hr => ⟨fun b hb => ⟨fun h => ?_, fun h => ?_⟩,
    fun h => ?_, fun h => ⟨fun p => ?_, fun p => ?_⟩⟩⟩
  · obtain ⟨c, h⟩ := Option.ne_none_iff_exists'.1 h
    have wait (op : CfgOp) (n : BitVec 2) : onSys s (cmdStart op n) = waits op n := by rw [go, cmdStart_busy h]; rfl
    exact ⟨wait _ _, wait _ _, wait _ _, wait _ _⟩
  · have idle (op : CfgOp) (n : BitVec 2) : onSys s (cmdStart op n) = .next s := by rw [go, cmdStart_writing h w]
    exact ⟨idle _ _, idle _ _, idle _ _, idle _ _⟩
  · exact (go _).trans (by rw [cmdStart_refused h w (cmdRefuses_invalidate.2 r)])
  · exact (go _).trans (by rw [cmdStart_refused h w (cmdRefuses_erase.2 r)])
  · exact (go _).trans (by rw [cmdStart_refused (op := .saveBoot) h w r])
  · exact (go _).trans (by rw [cmdStart_starts (op := .saveBoot) h w r]; rfl)
  · exact (go _).trans (by rw [cmdStart_starts (op := .clear) h w rfl]; rfl)
  · have k : cmdRefuses s .invalidate n = false := Bool.eq_false_iff.2 fun k => by
      rcases cmdRefuses_invalidate.1 k with k | k | rfl
      · simp [k] at r
      · exact hg k
      · exact absurd hb (by have := b.isLt; simp; omega)
    exact (go _).trans (by rw [cmdStart_starts h w k, cmdUnmark_slot (.inl rfl) hb]; rfl)
  · have k : cmdRefuses s .erase n = false := Bool.eq_false_iff.2 fun k => by
      rcases cmdRefuses_erase.1 k with k | k | rfl | ⟨b', k, e⟩
      · simp [k] at r
      · exact hg k
      · exact absurd hb (by have := b.isLt; simp; omega)
      · exact nb (k.trans (congrArg some (Fin.ext (e.trans hb))))
    exact (go _).trans (by rw [cmdStart_starts h w k, cmdUnmark_slot (.inr rfl) hb]; rfl)
  · exact (go _).trans (by rw [cfgCmdDoneEffect_none h])
  · have e : exec c (cmdEnd op n ok s) = onSys (cmdEnd op n ok s) (cmdStart k n') := by
      rcases hk with ⟨rfl, rfl⟩ | ⟨rfl, rfl⟩ | ⟨rfl, rfl, rfl⟩ | ⟨rfl, rfl, rfl⟩ <;> rfl
    rw [e, onSys_clocked (cmdEnd_clocked hc), ← cfgCmdDoneEffect_followed h hr]
    exact go _
  · exact (go _).trans (by rw [cfgCmdDoneEffect_alone h hr, cmdEnd_invalidate hb]; rfl)
  · obtain ⟨cmd, slots, result, flags, dm⟩ := cmdEnd_erase s ok hb
    have only : Only [.qe, .cfg, .dm] s (cmdEnd .erase n ok s) :=
      (cmdEnd_moves _ _ _ s (Moves.refl _ s) fun _ h => h).only
    have on2 := Flags.on_set_same s.cfg.flags (show 2 < 5 by decide)
    refine ⟨_, (go _).trans (by rw [cfgCmdDoneEffect_alone h hr]), only.weaken (by decide), cmd, ?_, fun j hj => ?_, result,
      ?_, fun f => ?_, dm⟩
    · rw [slots]; exact upd_same _ _ _
    · rw [slots]; exact upd_other _ _ _ _ (Ne.symm hj)
    · rw [flags]
      split
      · exact on2
      · exact Flags.on_set_of_on 4 on2
    · rw [flags, f]; exact Flags.on_set_same _ (by decide)
  · exact (go _).trans (by rw [cfgCmdDoneEffect_alone h hr]; rfl)
  · exact (go _).trans (by rw [cfgCmdDoneEffect_alone h hr, cmdEnd_clear_halted p]; rfl)
  · exact (go _).trans (by rw [cfgCmdDoneEffect_alone h hr, cmdEnd_clear_running p]; rfl)

end Sys2Proof.Machine
end

section
/-! Fuse operations (O29): the judgement at the start (R129, R130), the end after 10 ms, and how a start meets an operation that runs. -/

namespace Sys2Proof.Machine

variable {s : State} {r : Req} {op : LcsOp} {at_ : Nat}

/-! ### The end of an operation -/

theorem lcsDoneEffect_none (h : s.lcs.running = none) : lcsDoneEffect s = s := by
  simp [lcsDoneEffect, h]

theorem lcsDoneEffect_early (h : s.lcs.running = some (op, at_)) (k : s.clock < at_ + tenMs) : lcsDoneEffect s = s := by
  simp [lcsDoneEffect, h, k]

/-- The fuse registers once an operation reports (R129). -/
def lcsEnded (why : BitVec 4) (l : Lcs) : Lcs :=
  { l with running := none, result := if why = 0 then 1 else 2, why := why, flags := l.flags.set 1 }

theorem lcsDoneEffect_over (h : s.lcs.running = some (op, at_)) (k : at_ + tenMs ≤ s.clock) :
    lcsDoneEffect s = s.modLcs fun l =>
      let l := if l.opWhy = 0 then lcsBlow l op else l
      lcsEnded l.opWhy l := by
  simp only [lcsDoneEffect, h, if_neg (Nat.not_lt.2 k)]
  rfl

/-- An operation that was rejected at its start programs nothing. -/
theorem lcsDoneEffect_rejected (h : s.lcs.running = some (op, at_)) (k : at_ + tenMs ≤ s.clock) (w : s.lcs.opWhy ≠ 0) :
    lcsDoneEffect s = { s with lcs := lcsEnded s.lcs.opWhy s.lcs } := by
  simp only [lcsDoneEffect_over h k, State.modLcs, if_neg w]

theorem lcsBlow_opWhy (l : Lcs) (op : LcsOp) : (lcsBlow l op).opWhy = l.opWhy := by
  cases op <;> rfl

/-- One that was not blows its bits. -/
theorem lcsDoneEffect_blows (h : s.lcs.running = some (op, at_)) (k : at_ + tenMs ≤ s.clock) (w : s.lcs.opWhy = 0) :
    lcsDoneEffect s = { s with lcs := lcsEnded 0 (lcsBlow s.lcs op) } := by
  simp only [lcsDoneEffect_over h k, State.modLcs, w, if_true, lcsBlow_opWhy]

/-- An operation that is over no longer runs. -/
theorem lcsDoneEffect_running (h : s.lcs.running = some (op, at_)) (k : at_ + tenMs ≤ s.clock) :
    (lcsDoneEffect s).lcs.running = none := by
  rw [lcsDoneEffect_over h k]; rfl

theorem lcsDoneEffect_clocked (h : Clocked s) : Clocked (lcsDoneEffect s) :=
  (lcsDoneEffect_moves s (Moves.refl _ s) fun _ h => h).only.clocked (by decide) (by decide) h

/-! ### The start of an operation -/

theorem lcsStart_denied (h : lcsAllowed r = false) : lcsStart r op s = s := by
  simp [lcsStart, h]

theorem lcsStart_idle (h : lcsAllowed r = true) (k : s.lcs.running = none) :
    lcsStart r op s = s.modLcs fun l =>
      { l with running := some (op, s.clock), opWhy := lcsWhy s op, opHash := l.stage, result := 0, why := 0 } := by
  simp [lcsStart, h, lcsDoneEffect_none k, k]

theorem lcsStart_running {o : LcsOp} (h : lcsAllowed r = true) (k : s.lcs.running = some (o, at_))
    (e : s.clock < at_ + tenMs) : lcsStart r op s = s := by
  simp [lcsStart, h, lcsDoneEffect_early k e, k]

/-- A start that meets an operation which is over follows its end (R9). -/
theorem lcsStart_over {o : LcsOp} (h : lcsAllowed r = true) (k : s.lcs.running = some (o, at_))
    (e : at_ + tenMs ≤ s.clock) : lcsStart r op s = lcsStart r op (lcsDoneEffect s) := by
  simp [lcsStart, h, lcsDoneEffect_none (lcsDoneEffect_running k e)]

/-! ### The judgement -/

theorem transitionAllowed_iff (fused target : BitVec 3) : transitionAllowed fused target = true ↔
    (target = 5 ∧ fused ≠ 5) ∨ (fused.toNat < 4 ∧ target = fused + 1) := by
  simp [transitionAllowed, lcScrapped]

theorem lcsWhy_forbidden {t : BitVec 3} (h : transitionAllowed (fusedState s.lcs.lcw) t = false) :
    lcsWhy s (.transition t) = 1 := by
  simp [lcsWhy, h]

theorem lcsWhy_allowed {t : BitVec 3} (h : transitionAllowed (fusedState s.lcs.lcw) t = true) :
    lcsWhy s (.transition t) =
      if (t = 2 ∧ keyHashZero s.lcs = true) ∨ (t = 4 ∧ majority s.lcs.nfd = true) then 2
      else if t = 4 ∧ scopeHas s 4 = false then 3 else 0 := by
  simp [lcsWhy, h, ite_or, lcProvisioned, lcReturn]

theorem lcsWhy_keyHash_locked (h : (fusedState s.lcs.lcw ≠ 0 ∧ fusedState s.lcs.lcw ≠ 1) ∨ majority s.lcs.keyLock = true) :
    lcsWhy s .keyHash = 2 :=
  if_pos (by simpa [lcBlank, lcFactory] using h)

theorem lcsWhy_keyHash_open (h : fusedState s.lcs.lcw = 0 ∨ fusedState s.lcs.lcw = 1) (k : majority s.lcs.keyLock = false) :
    lcsWhy s .keyHash = if ∃ i : Fin 8, s.lcs.keyHash[i.val] &&& ~~~s.lcs.stage[i.val] ≠ 0 then 4 else 0 := by
  have c : ¬((fusedState s.lcs.lcw != lcBlank && fusedState s.lcs.lcw != lcFactory) || majority s.lcs.keyLock) = true := by
    rcases h with h | h <;> simp [h, k, lcBlank, lcFactory]
  refine (if_neg c).trans ?_
  simp [allFin]

theorem lcsWhy_noFieldDebug : lcsWhy s .noFieldDebug =
    if fusedState s.lcs.lcw = 5 then 2 else if majority s.lcs.nfd then 4 else 0 := rfl

/-- Each of the four commands that start a fuse operation is the start of one kind of operation. -/
theorem exec_lcsCommand {req : Req} {target : BitVec 3} {c : Instr}
    (h : c ∈ [.lcsTransition req target, .programKeyHash req, .programNoFieldDebug req, .lcsNoOperation req]) :
    ∃ op, ∀ s, exec c s = onSys s (lcsStart req op) := by
  simp only [List.mem_cons, List.not_mem_nil, or_false] at h
  rcases h with rfl | rfl | rfl | rfl
  · exact ⟨.transition target, fun _ => rfl⟩
  · exact ⟨.keyHash, fun _ => rfl⟩
  · exact ⟨.noFieldDebug, fun _ => rfl⟩
  · exact ⟨.nothing, fun _ => rfl⟩

theorem lcsAllowed_iff : lcsAllowed r = true ↔ r = .mp ∨ r = .jtag := by
  simp [lcsAllowed]

/-! ### The fuses after a transition (R126) -/

theorem lcsBlow_transition {l : Lcs} {t : BitVec 3} {g : Nat} (h : t ≠ 5) (k : nextGroup l.lcw = some g) :
    lcsBlow l (.transition t) =
      { l with lcw := l.lcw ||| groupBits g, keyLock := if t = 2 then 0x1F else l.keyLock } := by
  simp only [lcsBlow, lcwAfter, if_neg (show t ≠ lcScrapped from h), k]; rfl

theorem lcsBlow_scrap (l : Lcs) : lcsBlow l (.transition 5) =
    { l with lcw := (unsetGroups l.lcw).foldl (fun w g => w ||| groupBits g) l.lcw } := rfl

/-- Settles O29: the start, the judgement and the end of a fuse operation, case by case. -/
theorem fuseOperations : Obligations.FuseOperations := by
  intro s req target hc l fused started ended starts
  have go (f : State → State) : onSys s f = .next (f s) := onSys_clocked hc f
  have start (hr : req = .mp ∨ req = .jtag) (hn : l.running = none) {op : LcsOp} {why : BitVec 4}
      (w : lcsWhy s op = why) : onSys s (lcsStart req op) = started op why := by
    rw [go, lcsStart_idle (lcsAllowed_iff.2 hr) hn, w]
  refine ⟨fun n1 n2 c hs => ?_, fun hr o at_ hrun c hs => ⟨fun e => ?_, fun e => ?_⟩, fun hr hn => ⟨fun h => ?_, fun h => ?_,
    fun h => ?_, fun h k => ⟨fun x => ?_, fun x => ?_⟩, ?_, ?_⟩, fun hn => ?_, fun op at_ hrun => ⟨fun e => ?_, fun e =>
    ⟨fun w => ?_, fun w => ?_⟩⟩⟩
  · obtain ⟨op, ho⟩ := exec_lcsCommand hs
    have d : lcsAllowed req = false := Bool.eq_false_iff.2 fun a => (lcsAllowed_iff.1 a).elim n1 n2
    rw [ho, go, lcsStart_denied d]
  · obtain ⟨op, ho⟩ := exec_lcsCommand hs
    rw [ho, go, lcsStart_running (lcsAllowed_iff.2 hr) hrun e]
  · obtain ⟨op, ho⟩ := exec_lcsCommand hs
    refine ⟨_, go lcsDoneEffect, ?_⟩
    rw [ho, ho, go, onSys_clocked (lcsDoneEffect_clocked hc), lcsStart_over (lcsAllowed_iff.2 hr) hrun e]
  · exact start hr hn (lcsWhy_forbidden (Bool.eq_false_iff.2 (mt (transitionAllowed_iff _ _).1 h)))
  · exact start hr hn (lcsWhy_allowed ((transitionAllowed_iff _ _).2 h))
  · exact start hr hn (lcsWhy_keyHash_locked h)
  · exact start hr hn ((lcsWhy_keyHash_open h k).trans (if_pos x))
  · exact start hr hn ((lcsWhy_keyHash_open h k).trans (if_neg (by simpa using x)))
  · exact start hr hn lcsWhy_noFieldDebug
  · exact start hr hn rfl
  · exact (go _).trans (by rw [lcsDoneEffect_none hn])
  · exact (go _).trans (by rw [lcsDoneEffect_early hrun e])
  · exact (go _).trans (by rw [lcsDoneEffect_rejected hrun e w]; rfl)
  · have blown : onSys s lcsDoneEffect = ended 0 (lcsBlow l op) :=
      (go _).trans (congrArg _ (lcsDoneEffect_blows hrun e w))
    refine ⟨fun o => ?_, fun o => ?_, fun o => ?_, fun o t5 g hg => ?_, fun o => ?_⟩ <;> subst o
    · exact blown
    · exact blown
    · exact blown
    · exact blown.trans (by rw [lcsBlow_transition t5 hg])
    · exact blown.trans (by rw [lcsBlow_scrap])

end Sys2Proof.Machine
end

section
/-! Actions of a capture channel (O38): REVIVE, the counters, the tag table, and a capture group applied at the line boundary. -/

namespace Sys2Proof.Machine

variable {s t u : State} {n : Fin 16}

/-! ### One channel and one sequencer at a time -/

theorem getCap_modCap (s : State) (n : Fin 16) (f : Cap → Cap) : getCap (s.modCap n f) n = f (getCap s n) :=
  upd_same _ _ _

theorem modCap_modCap (s : State) (n : Fin 16) (f g : Cap → Cap) :
    (s.modCap n f).modCap n g = s.modCap n fun c => g (f c) := by
  simp only [State.modCap, upd_upd]

/-- Two updates of a channel that agree on it agree. -/
theorem modCap_congr {f g : Cap → Cap} (h : f (getCap s n) = g (getCap s n)) : s.modCap n f = s.modCap n g := by
  simp only [State.modCap, upd_congr _ _ _ _ h]

theorem modCap_cap (s : State) (n : Fin 16) (f : Cap → Cap) : (s.modCap n f).cap = upd s.cap n fun _ => f (getCap s n) :=
  upd_congr _ _ _ _ rfl

theorem modCap_id {f : Cap → Cap} (h : f (getCap s n) = getCap s n) : s.modCap n f = s := by
  simp only [State.modCap, upd_id _ _ _ h]

/-- What concerns the pending entries of channel n alone: no other channel changes, nor its group and its list of entries. -/
structure CapKeeps (n : Fin 16) (s t : State) : Prop where
  others : Others n s.cap t.cap
  group : (getCap t n).group = (getCap s n).group
  pending : (getCap t n).pending = (getCap s n).pending

theorem CapKeeps.refl (n : Fin 16) (s : State) : CapKeeps n s s := ⟨fun _ _ => rfl, rfl, rfl⟩

theorem CapKeeps.trans (h : CapKeeps n s t) (k : CapKeeps n t u) : CapKeeps n s u :=
  ⟨fun j hj => (k.others j hj).trans (h.others j hj), k.group.trans h.group, k.pending.trans h.pending⟩

theorem CapKeeps.of_cap (h : t.cap = s.cap) : CapKeeps n s t := by
  refine ⟨fun _ _ => by rw [h], ?_, ?_⟩ <;> simp only [getCap, h]

theorem CapKeeps.modCap (s : State) (n : Fin 16) {f : Cap → Cap} (g : ∀ c, (f c).group = c.group)
    (p : ∀ c, (f c).pending = c.pending) : CapKeeps n s (s.modCap n f) :=
  ⟨fun _ hj => upd_other _ _ _ _ (Ne.symm hj), (congrArg Cap.group (getCap_modCap s n f)).trans (g _),
    (congrArg Cap.pending (getCap_modCap s n f)).trans (p _)⟩

/-- What concerns sequencer n alone and leaves RETIRED. -/
structure TsqKeeps (n : Fin 16) (s t : State) : Prop where
  others : Others n s.tsq t.tsq
  retired : (getTsq t n).retired = (getTsq s n).retired

theorem TsqKeeps.refl (n : Fin 16) (s : State) : TsqKeeps n s s := ⟨fun _ _ => rfl, rfl⟩

theorem TsqKeeps.modTsq (h : TsqKeeps n s t) {f : Tsq → Tsq} (k : ∀ x, (f x).retired = x.retired) :
    TsqKeeps n s (t.modTsq n f) :=
  ⟨fun j hj => (upd_other _ _ _ _ (Ne.symm hj)).trans (h.others j hj),
    (congrArg Tsq.retired (upd_same t.tsq n f)).trans ((k _).trans h.retired)⟩

theorem TsqKeeps.emptyHist (h : TsqKeeps n s t) : TsqKeeps n s (emptyHist t n) := h.modTsq fun _ => rfl

/-! ### REVIVE -/

theorem anchor_keeps (s : State) (n : Fin 16) : TsqKeeps n s (anchor s n) := by
  have e : TsqKeeps n s (emptyHist s n) := .emptyHist (.refl n s)
  unfold anchor anchorNow
  dsimp only
  split
  · exact .refl n s
  split
  · exact e.modTsq fun _ => rfl
  split
  · exact e.modTsq fun _ => rfl
  · exact .emptyHist (.modTsq (.refl n s) fun _ => rfl)

/-- A sequencer that REVIVE reaches is not retired, and no other changes. -/
theorem reviveTsq_tsq (s : State) (n : Fin 16) :
    Others n s.tsq (reviveTsq s n).tsq ∧ (getTsq (reviveTsq s n) n).retired = false := by
  unfold reviveTsq
  dsimp only
  generalize ht : (s.modTsq n fun t => { t with retired := false, stopped := false }) = t
  have o : Others n s.tsq t.tsq := by subst ht; exact fun j hj => upd_other _ _ _ _ (Ne.symm hj)
  have r : (getTsq t n).retired = false := by subst ht; exact congrArg Tsq.retired (upd_same _ _ _)
  split
  · split
    · exact ⟨fun j hj => ((anchor_keeps t n).others j hj).trans (o j hj), (anchor_keeps t n).retired.trans r⟩
    · exact ⟨o, r⟩
  · exact ⟨fun _ _ => rfl, Bool.eq_false_iff.2 ‹_›⟩

theorem capUnit_single (h : isGang s n = false) : capUnit s n = [n] := by
  simp [capUnit, h]

theorem capHead_single (h : isGang s n = false) : capHead s n = n := by
  simp [capHead, h]

theorem unitLocked_single (h : isGang s n = false) : unitLocked s n = (getCap s n).locked := by
  simp [unitLocked, capUnit_single h]

theorem gangOdd_single (h : isGang s n = false) : gangOdd s n = false := by
  simp [gangOdd, h]

theorem reviveCap_single (h : isGang s n = false) (r : (getCap s n).retired = true) : reviveCap s n =
    s.modCap n fun c => { c with retired := false, armed := c.locked && capEn c.group.active } := by
  unfold reviveCap
  rw [unitLocked_single h, capHead_single h]
  exact modCap_congr (if_pos r)

theorem capReviveEffect_none (h : gangOdd s n = true ∨ herdOf s n ≠ none ∨ (getCap s n).retired = false) :
    capReviveEffect n s = s := by
  unfold capReviveEffect
  split
  · rfl
  · split
    · rfl
    · have r : (getCap s n).retired = false := h.elim (absurd · ‹_›) fun h => h.elim (absurd ‹_›) id
      simp [r]

theorem capReviveEffect_single (h : isGang s n = false) (k : herdOf s n = none) (r : (getCap s n).retired = true) :
    capReviveEffect n s = reviveTsq (reviveCap s n) n := by
  simp [capReviveEffect, gangOdd_single h, k, r, reviveUnit, capUnit_single h, forEach]

/-! ### The tag table -/

theorem tagBaseEffect_moved {v : BitVec 3} (h : ∀ m : Fin 16, capEn (getCap s m).group.active = false)
    (k : ∀ r : Fin 1024, ringInBlock s.qe.rings[r.val] (0x20000 * v.toNat) = false) :
    tagBaseEffect v s = { s with tagBase := v } := by
  refine if_pos (Bool.and_eq_true_iff.2 ⟨?_, ?_⟩)
  · simp [h]
  · rw [List.all_eq_true]
    intro g hg
    obtain ⟨i, hi, rfl⟩ := Vector.getElem_of_mem (Vector.mem_toList_iff.1 hg)
    simp [k ⟨i, hi⟩]

theorem tagBaseEffect_kept_channel {v : BitVec 3} {m : Fin 16} (h : capEn (getCap s m).group.active = true) :
    tagBaseEffect v s = s := by
  refine if_neg fun k => ?_
  have k := List.all_eq_true.1 (Bool.and_eq_true_iff.1 k).1 m (List.mem_finRange m)
  simp [h] at k

theorem tagBaseEffect_kept_ring {v : BitVec 3} {r : Fin 1024}
    (h : ringInBlock s.qe.rings[r.val] (0x20000 * v.toNat) = true) : tagBaseEffect v s = s := by
  refine if_neg fun k => ?_
  have m : s.qe.rings[r.val] ∈ s.qe.rings.toList := Vector.mem_toList_iff.2 (Vector.getElem_mem r.isLt)
  have k := List.all_eq_true.1 (Bool.and_eq_true_iff.1 k).2 _ m
  simp [h] at k

/-! ### Entries dropped -/

theorem dropRelease_keeps (s : State) (n : Fin 16) (r : Fin 13) (rel : Release) : CapKeeps n s (dropRelease s n r rel) := by
  have c : CapKeeps n s (countDrop s n r) := .modCap s n (fun _ => rfl) fun _ => rfl
  have g := (giveBack_moves (countDrop s n r) n none rel.res (Moves.refl _ _) fun _ h => h).only .cap (by decide)
  exact c.trans (.of_cap g)

/-- The entries of channel n dropped: its list is empty, its group and the other channels are as they were. -/
theorem dropPending_cap (s : State) (n : Fin 16) (r : Fin 13) :
    CapKeeps n (s.modCap n fun c => { c with pending := [] }) (dropPending s n r) := by
  unfold dropPending forEach
  dsimp only
  generalize (s.modCap n fun c => { c with pending := [] }) = t
  induction (getCap s n).pending generalizing t with
  | nil => exact .refl n t
  | cons rel rels ih => exact (dropRelease_keeps t n r rel).trans (ih _)

theorem dropPending_empty (r : Fin 13) (h : (getCap s n).pending = []) : dropPending s n r = s := by
  simp only [dropPending, h, forEach, List.foldl_nil]
  exact modCap_id (by rw [← h])

/-! ### A group applied (R240) -/

/-- The group that channel n would apply is invalid. -/
def capBad (s : State) (n : Fin 16) : Bool := capInvalid (getCap s n).group.shadow (tsqHerdEn (tsqAct s n))

/-- A channel with its group applied, marked where the group is invalid. -/
def capApplied (bad : Bool) (c : Cap) : Cap :=
  { c with group := c.group.apply, cfgBad := bad, flags := if bad then c.flags.set 4 else c.flags }

/-- The line boundary at which a group is applied: no line is under way, or the channel takes none. -/
theorem capSafe_iff : capSafe s n = true ↔ (getCap s n).group.pending = true ∧
    (((getCap s n).line = none ∧ (getCap s n).ending = []) ∨ capEn (getCap s n).group.active = false ∨
      unitLocked s n = false) := by
  simp [capSafe, or_assoc]

theorem capCommitEffect_early (h : capSafe s n = false) : capCommitEffect n s = s := by
  simp [capCommitEffect, h]

theorem capCommitEffect_odd (h : capSafe s n = true) (k : gangOdd s n = true) :
    capCommitEffect n s = s.modCap n fun c => { c with group := c.group.apply } := by
  simp [capCommitEffect, h, k]

/-- A group that keeps EN, GANG and MODE is applied alone; an invalid one drops the pending entries first. -/
theorem capCommitEffect_same (h : capSafe s n = true) (k : gangOdd s n = false)
    (gang : capGangBit (getCap s n).group.shadow = capGangBit (getCap s n).group.active)
    (en : capEn (getCap s n).group.shadow = capEn (getCap s n).group.active)
    (mode : capFree (getCap s n).group.shadow = capFree (getCap s n).group.active) :
    capCommitEffect n s =
      (if capBad s n then dropPending s n dropConfig else s).modCap n (capApplied (capBad s n)) := by
  simp only [capCommitEffect, h, k, gang, en, mode, bne_self_eq_false, Bool.and_not_self, Bool.not_and_self, Bool.or_false,
    Bool.false_or, Bool.not_true, Bool.false_eq_true, if_false]
  rfl

theorem isGang_capApplied (bad : Bool) (h : isGang s n = false) (k : capGangBit (getCap s n).group.shadow = false) :
    isGang (s.modCap n (capApplied bad)) n = false := by
  unfold isGang
  by_cases e : gangHead n = n
  · rw [e, getCap_modCap]; exact k
  · have o : getCap (s.modCap n (capApplied bad)) (gangHead n) = getCap s (gangHead n) := upd_other _ _ _ _ (Ne.symm e)
    rw [o]; exact h

/-- The receiver of a channel that is enabled starts afresh: an attempt to lock and a measurement begin (R220, R221). -/
def capFresh (at_ : Nat) (c : Cap) : Cap :=
  { c with locked := false, armed := false, attemptAt := some at_, windowAt := some at_, pclk := 0, pclkOk := false
           relocked := false, freeId := 0 }

theorem restartReceiver_live (h : isGang s n = false) (k : capEn (getCap s n).group.active = true) :
    restartReceiver s n = s.modCap n (capFresh s.clock) := by
  have l : capLive s n = true := by rw [capLive, capHead_single h]; exact k
  unfold restartReceiver
  rw [l]
  rfl

/-- A group that enables a single channel without pending entries starts its receiver afresh. -/
theorem capCommitEffect_enables (h : capSafe s n = true) (g : isGang s n = false)
    (newGang : capGangBit (getCap s n).group.shadow = false) (oldGang : capGangBit (getCap s n).group.active = false)
    (oldEn : capEn (getCap s n).group.active = false) (newEn : capEn (getCap s n).group.shadow = true)
    (empty : (getCap s n).pending = []) :
    capCommitEffect n s = s.modCap n fun c => capFresh s.clock (capApplied (capBad s n) c) := by
  generalize ht : s.modCap n (capApplied (capBad s n)) = t
  have gt : isGang t n = false := ht ▸ isGang_capApplied _ g newGang
  have en : capEn (getCap t n).group.active = true := by subst ht; rw [getCap_modCap]; exact newEn
  have e : capCommitEffect n s = forEach (capUnit t n) (fun m s => restartReceiver s m) t := by
    rw [← ht]
    simp only [capCommitEffect, h, gangOdd_single g, newGang, oldGang, oldEn, newEn, dropPending_empty dropConfig empty,
      bne_self_eq_false, Bool.not_true, Bool.not_false, Bool.and_self, Bool.and_true, Bool.false_or, Bool.true_or, Bool.false_eq_true,
      if_false, if_true]
    rfl
  calc capCommitEffect n s = restartReceiver t n := by rw [e, capUnit_single gt]; rfl
    _ = t.modCap n (capFresh t.clock) := restartReceiver_live gt en
    _ = _ := by rw [← ht, modCap_modCap]; rfl

/-- Settles O38: REVIVE, the counters, the tag table and the commit, case by case. -/
theorem captureActions : Obligations.CaptureActions := by
  intro s n v hc c old new becomes bad group applied boundary
  have go (f : State → State) : onSys s f = .next (f s) := onSys_clocked hc f
  have toBecomes {f : Cap → Cap} {c' : Cap} (h : f c = c') : Host.Outcome.next (s.modCap n f) = becomes c' :=
    congrArg _ (modCap_congr (g := fun _ => c') h)
  have isBad : capBad s n = bad := rfl
  refine ⟨fun h => ?_, fun h => ?_, fun r g k => ?_, ?_, fun h k => ?_, fun m h => ?_, fun r h => ?_, fun h => ?_,
    fun en l h => ?_, fun p b o => ?_, fun p b o gang en mode => ⟨fun hb => ?_, fun hb => ?_⟩,
    fun p ng og g e oe ne => ?_⟩
  · exact (go _).trans (by rw [capReviveEffect_none (.inr (.inr h))])
  · exact (go _).trans (by rw [capReviveEffect_none (h.imp id .inl)])
  · have ts := reviveTsq_moves (reviveCap s n) n (Moves.refl [.tsq] _) (fun _ h => h)
    have only := (capReviveEffect_moves n s (Moves.refl _ s) fun _ h => h).only
    have cap : (reviveCap s n).cap = upd s.cap n fun _ => { c with retired := false, armed := c.locked && capEn old } := by
      rw [reviveCap_single g r]; exact modCap_cap _ _ _
    have tsq : (reviveCap s n).tsq = s.tsq := by rw [reviveCap_single g r]; rfl
    obtain ⟨others, retired⟩ := reviveTsq_tsq (reviveCap s n) n
    rw [tsq] at others
    have e := capReviveEffect_single g k r
    exact ⟨_, go _, only.weaken (by decide), e ▸ (ts.only .cap (by decide)).trans cap, e ▸ others, e ▸ retired⟩
  · exact (go _).trans (toBecomes rfl)
  · exact (go _).trans (by rw [tagBaseEffect_moved h k])
  · exact (go _).trans (by rw [tagBaseEffect_kept_channel h])
  · exact (go _).trans (by rw [tagBaseEffect_kept_ring h])
  · have x : capSafe s n = false := Bool.eq_false_iff.2 fun x => Bool.eq_false_iff.1 h (capSafe_iff.1 x).1
    exact (go _).trans (by rw [capCommitEffect_early x])
  · have x : capSafe s n = false := Bool.eq_false_iff.2 fun x => by
      rcases (capSafe_iff.1 x).2 with ⟨k, k'⟩ | k | k
      · exact h.elim (fun h => by rw [show c.line = none from k] at h; simp at h) (absurd k')
      · exact Bool.eq_false_iff.1 k en
      · exact Bool.eq_false_iff.1 k l
    exact (go _).trans (by rw [capCommitEffect_early x])
  · exact (go _).trans (by rw [capCommitEffect_odd (capSafe_iff.2 ⟨p, b⟩) o]; exact toBecomes rfl)
  · refine (go _).trans ?_
    rw [capCommitEffect_same (capSafe_iff.2 ⟨p, b⟩) o gang en mode, isBad, if_neg (Bool.eq_false_iff.1 hb)]
    exact toBecomes rfl
  · have e : capCommitEffect n s = (dropPending s n dropConfig).modCap n (capApplied bad) := by
      rw [capCommitEffect_same (capSafe_iff.2 ⟨p, b⟩) o gang en mode, isBad, if_pos hb]
    have only : Only [.cap, .pw] s (capCommitEffect n s) := by
      rw [e]
      exact ((dropPending_moves s n dropConfig (Moves.refl _ s) fun _ h => h).modCap (by decide) n _).only
    obtain ⟨others, group', pending⟩ := dropPending_cap s n dropConfig
    rw [getCap_modCap] at group' pending
    have r : getCap (capCommitEffect n s) n = capApplied bad (getCap (dropPending s n dropConfig) n) := by
      rw [e, getCap_modCap]
    refine ⟨_, go _, only, fun j hj => ?_, ?_, ?_, ?_, ?_⟩
    · rw [e]
      exact (upd_other _ _ _ _ (Ne.symm hj)).trans ((others j hj).trans (upd_other _ _ _ _ (Ne.symm hj)))
    · exact (congrArg Cap.group r).trans (congrArg Shadowed.apply group')
    · exact (congrArg Cap.cfgBad r).trans hb
    · exact (congrArg Cap.pending r).trans pending
    · have f : (getCap (capCommitEffect n s) n).flags = (getCap (dropPending s n dropConfig) n).flags.set 4 :=
        (congrArg Cap.flags r).trans (if_pos hb)
      exact (congrArg (Flags.on · 4) f).trans (Flags.on_set_same _ (by decide))
  · refine (go _).trans ?_
    rw [capCommitEffect_enables (capSafe_iff.2 ⟨p, .inr (.inl oe)⟩) g ng og oe ne e]
    exact toBecomes rfl

end Sys2Proof.Machine
end

section
/-! Scans of the housekeeping ADC (O60): what each command of HKADC does, one equation for each case of its meaning. -/

namespace Sys2Proof.Machine

variable {s : State}

theorem hkadcStartEffect_disabled (h : adcEn s.adc.group.active = false) : hkadcStartEffect s = s := by
  simp [hkadcStartEffect, h]

theorem hkadcStartEffect_idle (h : adcEn s.adc.group.active = true) (k : s.adc.scanning = false) :
    hkadcStartEffect s = adcStart s := by
  simp [hkadcStartEffect, h, k]

theorem hkadcStartEffect_scanning (h : adcEn s.adc.group.active = true) (k : s.adc.scanning = true) :
    hkadcStartEffect s = noteRetry .hkadc s := by
  simp [hkadcStartEffect, h, k]

/-- The time of PERIOD has run out in an enabled block that scans continuously (R529). -/
def adcDue (s : State) : Prop :=
  adcEn s.adc.group.active = true ∧ adcCont s.adc.group.active = true ∧
    s.adc.lastStart + adcPeriod s.adc.group.active ≤ s.clock

theorem scanPeriodEffect_early (h : ¬adcDue s) : scanPeriodEffect s = s :=
  if_neg (by simpa [adcDue, and_assoc] using h)

theorem scanPeriodEffect_due (h : adcDue s) :
    scanPeriodEffect s = if s.adc.scanning then s.modAdc fun a => { a with due := true } else adcStart s :=
  if_pos (by simpa [adcDue, and_assoc] using h)

theorem adcChannel_some {i : Nat} {k : Fin 20} (h : adcNext s.adc.group.active i = some k) :
    adcChannel s i =
      s.modAdc fun a => { a with scanning := true, channel := k, skip := adcSkips s k, channelFrom := s.clock } := by
  simp [adcChannel, h]

theorem adcChannel_none {i : Nat} (h : adcNext s.adc.group.active i = none) : adcChannel s i = adcScanDone s := by
  simp [adcChannel, h]

/-- The next channel of a scan changes neither what starts a scan nor what asks for the next one. -/
theorem adcChannel_keeps (s : State) (i : Nat) : (adcChannel s i).adc.group = s.adc.group ∧
    (adcChannel s i).adc.due = s.adc.due ∧ (adcChannel s i).moment = s.moment := by
  unfold adcChannel
  split <;> exact ⟨rfl, rfl, rfl⟩

/-- Another scan is wanted at the end of one: a start time has passed, PERIOD is 0, or START was written in this tick. -/
def adcAgain (s : State) : Prop :=
  s.adc.due = true ∨ (adcCont s.adc.group.active = true ∧ adcPeriod s.adc.group.active = 0) ∨ Retry.hkadc ∈ s.moment.retry

theorem adcAgain_adcChannel (s : State) (i : Nat) : adcAgain (adcChannel s i) ↔ adcAgain s := by
  obtain ⟨hg, hd, hm⟩ := adcChannel_keeps s i
  simp only [adcAgain, hg, hd, hm]

theorem adcNextScan_stays (h : s.adc.scanning = true ∨ ¬adcAgain s) : adcNextScan s = s := by
  refine if_neg fun k => ?_
  obtain ⟨hs, hw⟩ : s.adc.scanning = false ∧ adcAgain s := by simpa [adcAgain, or_assoc] using k
  exact h.elim (by simp [hs]) fun h => h hw

theorem adcNextScan_starts (h : s.adc.scanning = false) (k : adcAgain s) : adcNextScan s = adcStart s :=
  if_pos (by simpa [h, adcAgain, or_assoc] using k)

/-- The result of the channel whose conversions end lies outside its limits (R528). -/
def adcOutside (s : State) (codes : List (BitVec 12)) : Bool :=
  let v := adcValue s.adc.group.active s.adc.skip codes
  let lim := s.adc.group.active.lim[s.adc.channel.val]
  !s.adc.skip && (decide (v.toNat < fld lim 11 0) || decide (fld lim 27 16 < v.toNat))

/-- The state with the result of the present channel in its register and its flag set where it is outside the limits. -/
def adcStored (s : State) (codes : List (BitVec 12)) : State :=
  { s with adc := { s.adc with
      res := upd s.adc.res s.adc.channel fun _ =>
        ⟨adcValue s.adc.group.active s.adc.skip codes, true, s.adc.skip, s.adc.scanCount.setWidth 8⟩
      flags := s.adc.flags.setIf (adcOutside s codes) s.adc.channel.val } }

/-- A CHANNEL_RESULT stands for the end of the present channel's conversions: they have had their time, and it brings all
their codes. -/
def adcEnds (s : State) (codes : List (BitVec 12)) : Prop :=
  adcRipe s = true ∧ (s.adc.skip = true ∨ 2 ^ adcAvg s.adc.group.active ≤ codes.length)

theorem channelResultEffect_early {codes : List (BitVec 12)} (h : ¬adcEnds s codes) : channelResultEffect codes s = s := by
  have c : (!adcRipe s || (!s.adc.skip && decide (codes.length < 2 ^ adcAvg s.adc.group.active))) = true := by
    by_cases r : adcRipe s = true
    · simpa [adcEnds, r] using h
    · simp [r]
  exact if_pos c

theorem channelResultEffect_ends {codes : List (BitVec 12)} (h : adcEnds s codes) :
    channelResultEffect codes s = adcNextScan (adcChannel (adcStored s codes) (s.adc.channel.val + 1)) := by
  have c : ¬(!adcRipe s || (!s.adc.skip && decide (codes.length < 2 ^ adcAvg s.adc.group.active))) = true := by
    obtain ⟨r, h⟩ := h
    rcases h with h | h <;> simp [r, h]
  exact if_neg c

/-- The commit of an HKADC group at the safe point, a running scan ended. -/
def adcApplied (s : State) : State := s.modAdc fun a => { a with group := a.group.apply, scanning := false }

theorem hkadcCommitEffect_none (h : s.adc.group.pending = false) : hkadcCommitEffect s = s := by
  simp [hkadcCommitEffect, h]

theorem hkadcCommitEffect_disables (h : s.adc.group.pending = true) (k : adcEn s.adc.group.shadow = false) :
    hkadcCommitEffect s = (adcApplied s).modAdc fun a => { a with due := false } := by
  simp [hkadcCommitEffect, h, k, Shadowed.apply, adcApplied]

theorem hkadcCommitEffect_rescans (h : s.adc.group.pending = true) (k : adcEn s.adc.group.shadow = true)
    (r : s.adc.scanning = true) : hkadcCommitEffect s = adcChannel (adcApplied s) 0 := by
  simp [hkadcCommitEffect, h, k, r, Shadowed.apply, adcApplied]

theorem hkadcCommitEffect_starts (h : s.adc.group.pending = true) (k : adcEn s.adc.group.shadow = true)
    (r : s.adc.scanning = false) (e : adcEn s.adc.group.active = false) (c : adcCont s.adc.group.shadow = true) :
    hkadcCommitEffect s = adcStart (adcApplied s) := by
  simp [hkadcCommitEffect, h, k, r, e, c, Shadowed.apply, adcApplied]

theorem hkadcCommitEffect_waits (h : s.adc.group.pending = true) (k : adcEn s.adc.group.shadow = true)
    (r : s.adc.scanning = false) (e : adcEn s.adc.group.active = true ∨ adcCont s.adc.group.shadow = false) :
    hkadcCommitEffect s = adcApplied s := by
  rcases e with e | e <;> simp [hkadcCommitEffect, h, k, r, e, Shadowed.apply, adcApplied]

/-- Settles O60, case by case from the equations above. -/
theorem adcScans : Obligations.AdcScans := by
  intro s codes hc a g n enabled goesOn period due ripe value outside stored after again applied g'
  have go (f : State → State) : onSys s f = .next (f s) := onSys_clocked hc f
  have off {g : AdcGroup} (h : ¬enabled g) : adcEn g = false := Bool.eq_false_iff.2 h
  have isRipe : adcRipe s = true ↔ ripe := by rw [adcRipe, Bool.and_eq_true, decide_eq_true_eq]; rfl
  have ends : adcEnds s codes ↔ ripe ∧ (a.skip = true ∨ n ≤ codes.length) := and_congr_left' isRipe
  have isOutside : adcOutside s codes = true ↔ outside := by
    simp only [adcOutside, Bool.and_eq_true, Bool.not_eq_true', Bool.or_eq_true, decide_eq_true_eq]; rfl
  have isStored : stored = adcStored s codes := by
    by_cases o : outside
    · simp only [stored, if_pos o, adcStored, isOutside.2 o]; rfl
    · simp only [stored, if_neg o, adcStored, Bool.eq_false_iff.2 (mt isOutside.1 o)]; rfl
  refine ⟨fun h => ?_, fun h k => ?_, fun h k => ?_, fun h => ?_, fun h k => ?_, fun h k => ?_, fun c => rfl,
    fun c i => ⟨fun k h => adcChannel_some h, fun h => adcChannel_none h⟩, fun h => ?_, fun hr hl => ?_, fun h => ?_,
    fun h => ⟨fun k => ?_, fun k r => ?_, fun k r e o => ?_, fun k r e => ?_⟩⟩
  · exact (go _).trans (by rw [hkadcStartEffect_disabled (off h)])
  · exact (go _).trans (by rw [hkadcStartEffect_idle h k])
  · exact (go _).trans (by rw [hkadcStartEffect_scanning h k]; rfl)
  · exact (go _).trans (by rw [scanPeriodEffect_early h])
  · exact (go _).trans (by rw [scanPeriodEffect_due h, if_pos k]; rfl)
  · exact (go _).trans (by rw [scanPeriodEffect_due h, if_neg (Bool.eq_false_iff.1 k)])
  · have e : ¬adcEnds s codes := fun k =>
      h.elim (· (ends.1 k).1) fun ⟨sk, lt⟩ => (ends.1 k).2.elim (Bool.eq_false_iff.1 sk) (Nat.not_le.2 lt)
    exact (go _).trans (by rw [channelResultEffect_early e])
  · have e : channelResultEffect codes s = adcNextScan after := by
      rw [channelResultEffect_ends (ends.2 ⟨hr, hl⟩), ← isStored]
    have w : adcAgain after ↔ again := adcAgain_adcChannel _ _
    exact ⟨fun h => (go _).trans (by rw [e, adcNextScan_stays (by rwa [w])]),
      fun h k => (go _).trans (by rw [e, adcNextScan_starts h (w.2 k)])⟩
  · exact (go _).trans (by rw [hkadcCommitEffect_none h])
  · exact (go _).trans (by rw [hkadcCommitEffect_disables h (off k)]; rfl)
  · exact (go _).trans (by rw [hkadcCommitEffect_rescans h k r]; rfl)
  · exact (go _).trans (by rw [hkadcCommitEffect_starts h k r (off e) o]; rfl)
  · exact (go _).trans (by rw [hkadcCommitEffect_waits h k r (e.imp id Bool.eq_false_iff.2)]; rfl)

end Sys2Proof.Machine
end

section
/-! The faults of an encoder (O33): loss of signal (R159, R171), illegal transitions and their window (R171, R178), what a class leaves
(R173, R353), RESTORE (R172, R177), and the commit of an encoder's group (R179, R562). -/

namespace Sys2Proof.Machine

variable {s t : State} {n : Fin 8} {e : Enc} {f : EncFault} {k : EncKind} {p : EncPin} {i j : EncIn} {t' : Nat}

/-! ### One encoder replaced -/

/-- Encoder n replaced by e. -/
def setEnc (s : State) (n : Fin 8) (e : Enc) : State := s.modEnc n fun _ => e

theorem getEnc_modEnc (s : State) (n : Fin 8) (g : Enc → Enc) : getEnc (s.modEnc n g) n = g (getEnc s n) :=
  upd_same _ _ _

@[simp] theorem getEnc_setEnc (s : State) (n : Fin 8) (e : Enc) : getEnc (setEnc s n e) n = e :=
  getEnc_modEnc _ _ _

theorem modEnc_eq_setEnc (s : State) (n : Fin 8) (g : Enc → Enc) : s.modEnc n g = setEnc s n (g (getEnc s n)) := by
  simp only [setEnc, State.modEnc, State.modTbe, upd_congr s.tbe.enc n g (fun _ => g (getEnc s n)) rfl]

@[simp] theorem modEnc_setEnc (s : State) (n : Fin 8) (e : Enc) (g : Enc → Enc) :
    (setEnc s n e).modEnc n g = setEnc s n (g e) := by
  simp only [setEnc, State.modEnc, State.modTbe, upd_upd]

theorem setEnc_getEnc (s : State) (n : Fin 8) : setEnc s n (getEnc s n) = s := by
  simp only [setEnc, State.modEnc, State.modTbe, upd_id s.tbe.enc n (fun _ => getEnc s n) rfl]

@[simp] theorem setEnc_clock (s : State) (n : Fin 8) (e : Enc) : (setEnc s n e).clock = s.clock := rfl

theorem getEnc_congr (h : t.tbe = s.tbe) : getEnc t n = getEnc s n := by
  simp only [getEnc, h]

/-! ### Inputs and faults as fields of an encoder -/

@[simp] theorem getIn_setIn (e : Enc) (p : EncPin) (i : EncIn) : getIn (setIn e p i) p = i := by
  cases p <;> rfl

@[simp] theorem setIn_setIn (e : Enc) (p : EncPin) (i j : EncIn) : setIn (setIn e p i) p j = setIn e p j := by
  cases p <;> rfl

theorem setIn_getIn (e : Enc) (p : EncPin) : setIn e p (getIn e p) = e := by
  cases p <;> rfl

@[simp] theorem setIn_cfg (e : Enc) (p : EncPin) (i : EncIn) : (setIn e p i).cfg = e.cfg := by
  cases p <;> rfl

/-! ### A fault that is detected -/

theorem encDetect_further (h : getFault e k = some f) :
    encDetect (setEnc s n e) n k = setEnc s n (setFault e k (some { f with events := f.events + 1 })) := by
  simp [encDetect, h]

theorem encDetect_exhausted (h : getFault e k = none) (x : (exhaustedAt e k).isSome = true) :
    encDetect (setEnc s n e) n k = setEnc s n e := by
  simp [encDetect, h, x]

theorem encDetect_starts (h : getFault e k = none) (x : exhaustedAt e k = none) :
    encDetect (setEnc s n e) n k =
      setEnc s n { setFault e k (some ⟨s.clock, e.pos, 0⟩) with suspect := true } := by
  simp [encDetect, h, x]

/-! ### A fault that is closed with its class -/

/-- The record of a fault of encoder n. -/
def encRecord (n : Fin 8) (k : EncKind) (f : EncFault) (perm retired : Bool) : FaultRec :=
  { perm := perm, blk := blkTbe, kind := encKindNo k, inst := n.val, retries := f.events, d0 := f.pos, retired := retired }

/-- Record r written for encoder n, its flag set, and the encoder left as e. -/
def encNoted (s : State) (n : Fin 8) (e : Enc) (r : FaultRec) : State :=
  setEnc ((recordFault s r).modTbe fun t => { t with flags := t.flags.set n.val }) n e

/-- The flag of an encoder's fault stands beside the encoder. -/
theorem flagged_setEnc (s : State) (n : Fin 8) (e : Enc) :
    ((setEnc s n e).modTbe fun t => { t with flags := t.flags.set n.val }) =
      setEnc (s.modTbe fun t => { t with flags := t.flags.set n.val }) n e := rfl

/-- Encoder e after a permanent fault of kind k in tick t: the fault is closed, FAILED is set and the kind is exhausted. -/
def encFailed (e : Enc) (k : EncKind) (t : Nat) : Enc :=
  { setExhausted (setFault e k none) k t with failed := true, suspect := true }

/-- A permanent fault of encoder n retires something. -/
def encRetires (s : State) (n : Fin 8) : Bool := !(encVictims s n).isEmpty || !(encHerds s n).isEmpty

/-! A post to a ring, and so a record, looks at nothing of the time base. -/

theorem joinTurn_modTbe (s : State) (g : Tbe → Tbe) (r : Fin 1024) :
    joinTurn (s.modTbe g) r = (joinTurn s r).modTbe g := by
  have same : getRing (s.modTbe g) r = getRing s r := rfl
  cases h : ringConsumer r (getRing s r).group.active with
  | none => simp only [joinTurn, same, h]
  | some c =>
    simp only [joinTurn, same, h]
    rw [apply_ite fun t : State => t.modTbe g]
    rfl

theorem ringPost_modTbe (s : State) (g : Tbe → Tbe) (r : Fin 1024) (bs : List Byte) :
    ringPost (s.modTbe g) r bs = ((ringPost s r bs).1, (ringPost s r bs).2.modTbe g) := by
  have same : getRing (s.modTbe g) r = getRing s r := rfl
  cases h : ringOn (getRing s r) && !ringFull (getRing s r) with
  | false => simp only [ringPost, same, h, Bool.false_eq_true, if_false]; rfl
  | true =>
    simp only [ringPost, same, h, if_true, ← joinTurn_modTbe]
    rfl

theorem recordFault_modTbe (s : State) (g : Tbe → Tbe) (r : FaultRec) :
    recordFault (s.modTbe g) r = (recordFault s r).modTbe g := by
  have post := ringPost_modTbe s g ringFault (faultBytes s.qe.seq s.time r)
  have e : recordFault (s.modTbe g) r =
      (ringPost (s.modTbe g) ringFault (faultBytes s.qe.seq s.time r)).2.modQe fun q =>
        if (ringPost (s.modTbe g) ringFault (faultBytes s.qe.seq s.time r)).1 then
          { q with seq := nextSeq s.qe.seq, flags := q.flags.set 0 }
        else { q with seq := nextSeq s.qe.seq, cntFaultLost := q.cntFaultLost + 1, flags := q.flags.set 1 } := rfl
  rw [e, post]
  rfl

theorem recordFault_setEnc (s : State) (n : Fin 8) (e : Enc) (r : FaultRec) :
    recordFault (setEnc s n e) r = setEnc (recordFault s r) n e := recordFault_modTbe _ _ _

theorem recordFault_tbe (s : State) (r : FaultRec) : (recordFault s r).tbe = s.tbe :=
  (recordFault_moves s r (Moves.refl _ s) fun _ h => h).only .tbe (by decide)

theorem recordFault_clock (s : State) (r : FaultRec) : (recordFault s r).clock = s.clock :=
  (recordFault_moves s r (Moves.refl _ s) fun _ h => h).only .clock (by decide)

theorem encNoted_only (s : State) (n : Fin 8) (e : Enc) (r : FaultRec) : Only [.tbe, .qe, .dm] s (encNoted s n e r) :=
  (((recordFault_moves s r (Moves.refl _ s) (by decide)).modTbe (by decide) _).modEnc (by decide) n _).only

theorem encNoted_tbe (s : State) (n : Fin 8) (e : Enc) (r : FaultRec) : (encNoted s n e r).tbe =
    { s.tbe with flags := s.tbe.flags.set n.val, enc := upd s.tbe.enc n fun _ => e } := by
  rw [← recordFault_tbe s r]; rfl

theorem encClose_none (h : getFault (getEnc s n) k = none) (perm : Bool) : encClose s n k perm = s := by
  simp [encClose, h]

theorem encClose_transient (h : getFault e k = some f) :
    encClose (setEnc s n e) n k false = encNoted s n (setFault e k none) (encRecord n k f false false) := by
  simp only [encClose, getEnc_setEnc, h, Bool.false_eq_true, if_false, recordFault_setEnc, flagged_setEnc, modEnc_setEnc]
  rfl

theorem encClose_permanent (h : getFault e k = some f) :
    encClose (setEnc s n e) n k true =
      retireSequencers (encNoted s n (encFailed e k s.clock) (encRecord n k f true (encRetires s n)))
        (encVictims s n) (encHerds s n) blkTbe s.qe.seq := by
  have clock (r : FaultRec) : ((recordFault s r).modTbe fun t => { t with flags := t.flags.set n.val }).clock = s.clock :=
    recordFault_clock s r
  simp only [encClose, getEnc_setEnc, h, if_true, recordFault_setEnc, flagged_setEnc, modEnc_setEnc, setEnc_clock, clock]
  rfl

/-- What a transient fault does: one record, and the fault is closed (R171). -/
theorem closes_transient {o : Out} (h : getFault e k = some f) (x : o = .next (encClose (setEnc s n e) n k false)) :
    ∃ t, o = .next t ∧ Only [.tbe, .qe, .dm] s t ∧
      t.tbe = { s.tbe with flags := s.tbe.flags.set n.val, enc := upd s.tbe.enc n fun _ => setFault e k none } ∧
      t.dm = (recordFault s (encRecord n k f false false)).dm :=
  ⟨_, x.trans (by rw [encClose_transient h]), encNoted_only _ _ _ _, encNoted_tbe _ _ _ _, rfl⟩

/-- What a permanent fault does: one record, FAILED, and the retirement of what uses the encoder (R173). -/
theorem closes_permanent {o : Out} (h : getFault e k = some f) (x : o = .next (encClose (setEnc s n e) n k true)) :
    ∃ t, Only [.tbe, .qe, .dm] s t ∧
      o = .next (retireSequencers t (encVictims s n) (encHerds s n) blkTbe s.qe.seq) ∧
      t.tbe = { s.tbe with flags := s.tbe.flags.set n.val, enc := upd s.tbe.enc n fun _ => encFailed e k s.clock } ∧
      t.dm = (recordFault s (encRecord n k f true (encRetires s n))).dm :=
  ⟨_, encNoted_only _ _ _ _, x.trans (by rw [encClose_permanent h]), encNoted_tbe _ _ _ _, rfl⟩

theorem retireSequencers_tbe (s : State) (l : List (Fin 16)) (led : List (Fin 4)) (blk : Nat) (seq : Word) :
    (retireSequencers s l led blk seq).tbe = s.tbe :=
  (retireSequencers_moves s l led blk seq (Moves.refl _ s) fun _ h => h).only .tbe (by decide)

theorem getEnc_encClose (h : getFault e k = some f) (perm : Bool) :
    getEnc (encClose (setEnc s n e) n k perm) n = if perm then encFailed e k s.clock else setFault e k none := by
  cases perm with
  | false => rw [encClose_transient h]; exact getEnc_setEnc _ _ _
  | true => rw [encClose_permanent h, getEnc_congr (retireSequencers_tbe _ _ _ _ _)]; exact getEnc_setEnc _ _ _

theorem getFault_closed {k' : EncKind} (h : k' = k ∨ getFault e k' = none) : getFault (setFault e k none) k' = none := by
  cases k <;> cases k' <;> simp_all [getFault, setFault]

theorem getFault_encFailed (e : Enc) (k k' : EncKind) (t : Nat) :
    getFault (encFailed e k t) k' = getFault (setFault e k none) k' := by
  cases k <;> cases k' <;> rfl

/-- Closing a fault leaves its kind without one, and opens none of another kind. -/
theorem getFault_encClose {k' : EncKind} (h : k' = k ∨ getFault e k' = none) (perm : Bool) :
    getFault (getEnc (encClose (setEnc s n e) n k perm) n) k' = none := by
  cases hf : getFault e k with
  | none =>
    rw [encClose_none (by rwa [getEnc_setEnc]), getEnc_setEnc]
    exact h.elim (fun h => h ▸ hf) id
  | some f =>
    rw [getEnc_encClose hf]
    cases perm with
    | false => exact getFault_closed h
    | true => exact (getFault_encFailed _ _ _ _).trans (getFault_closed h)

/-! ### Loss of signal (R159) -/

/-- Input p of encoder n with its voltage on the given side of the threshold, and since when. -/
def crossedIn (s : State) (n : Fin 8) (p : EncPin) (low : Bool) : EncIn :=
  let i := getIn (getEnc s n) p
  if i.low = low then i else { i with low := low, crossed := s.clock }

theorem crossedIn_low (s : State) (n : Fin 8) (p : EncPin) (low : Bool) : (crossedIn s n p low).low = low := by
  unfold crossedIn; dsimp only; split
  · assumption
  · rfl

theorem crossedIn_los (s : State) (n : Fin 8) (p : EncPin) (low : Bool) :
    (crossedIn s n p low).los = (getIn (getEnc s n) p).los := by
  unfold crossedIn; dsimp only; split <;> rfl

theorem crossLos_eq (s : State) (n : Fin 8) (p : EncPin) (low : Bool) :
    crossLos s n p low = setEnc s n (setIn (getEnc s n) p (crossedIn s n p low)) := by
  rw [crossLos, modEnc_eq_setEnc]
  unfold crossedIn
  by_cases h : (getIn (getEnc s n) p).low = low <;> simp [h, setIn_getIn]

/-- The voltage of an input has been on the given side of the threshold for 400 ticks. -/
def losDue (s : State) (n : Fin 8) (p : EncPin) (low : Bool) : Prop := (crossedIn s n p low).crossed + 400 ≤ s.clock

theorem losRipe_iff {low : Bool} (h : (getIn (getEnc s n) p).los = !low) :
    (crossedIn s n p low).losRipe s.clock = true ↔ losDue s n p low := by
  simp [EncIn.losRipe, losDue, crossedIn_low, crossedIn_los, h]

/-- The kind of fault that the LOS of an input is. -/
def losKind (p : EncPin) : EncKind := if p = .z then .losZ else .losAB

/-- The encoder detects the LOS of input p as a fault: it is enabled and the input is in use. -/
def losDetects (e : Enc) (p : EncPin) : Prop := encEn e = true ∧ (p = .z → encZused e = true)

/-- Input p of an encoder enters LOS in tick t with the voltage as i has it, and the LOS is counted. -/
def losMark (p : EncPin) (i : EncIn) (t : Nat) (e : Enc) : Enc :=
  { setIn e p { i with los := true, losAt := t } with cntLos := satInc e.cntLos }

theorem losMark_setIn : losMark p i t' (setIn e p j) = losMark p i t' e := by
  cases p <;> rfl

/-- Encoder n with input p in LOS from this tick on. -/
def losMarked (s : State) (n : Fin 8) (p : EncPin) : Enc := losMark p (crossedIn s n p true) s.clock (getEnc s n)

theorem losMarked_cfg : (losMarked s n p).cfg = (getEnc s n).cfg := setIn_cfg _ _ _

theorem losMarked_pos : (losMarked s n p).pos = (getEnc s n).pos := by
  cases p <;> rfl

theorem getFault_losMarked : getFault (losMarked s n p) k = getFault (getEnc s n) k := by
  cases p <;> cases k <;> rfl

theorem exhaustedAt_losMarked : exhaustedAt (losMarked s n p) k = exhaustedAt (getEnc s n) k := by
  cases p <;> cases k <;> rfl

theorem losDetects_losMarked : losDetects (losMarked s n p) p ↔ losDetects (getEnc s n) p := by
  simp only [losDetects, encEn, encZused, encZmode, losMarked_cfg]

/-- The LOS of input p taken as a fault where the encoder detects it. -/
def losTaken (s : State) (n : Fin 8) (p : EncPin) : State :=
  if !encEn (getEnc s n) then s
  else
    match p with
    | .z => if encZused (getEnc s n) then encDetect s n .losZ else s
    | _ => encDetect s n .losAB

theorem losTaken_not (h : ¬losDetects (getEnc s n) p) : losTaken s n p = s := by
  unfold losTaken
  cases en : encEn (getEnc s n) with
  | false => rfl
  | true => cases p <;> simp_all [losDetects]

theorem losTaken_detects (h : losDetects (getEnc s n) p) : losTaken s n p = encDetect s n (losKind p) := by
  obtain ⟨en, used⟩ := h
  cases p <;> simp_all [losTaken, losKind]

theorem losEntryEffect_eq (n : Fin 8) (p : EncPin) (s : State) : losEntryEffect n p s =
    if !pinsLive s then s
    else
      let t := crossLos s n p true
      let i := getIn (getEnc t n) p
      if i.los || !i.losRipe t.clock then t else losTaken (t.modEnc n (losMark p i t.clock)) n p := rfl

theorem losEntryEffect_dead (h : pinsLive s = false) : losEntryEffect n p s = s := by
  simp [losEntryEffect, h]

theorem losEntryEffect_early (h : pinsLive s = true) (k : (getIn (getEnc s n) p).los = true ∨ ¬losDue s n p true) :
    losEntryEffect n p s = setEnc s n (setIn (getEnc s n) p (crossedIn s n p true)) := by
  have c : ((getIn (getEnc s n) p).los || !(crossedIn s n p true).losRipe s.clock) = true := by
    cases l : (getIn (getEnc s n) p).los with
    | true => rfl
    | false => simp [mt (losRipe_iff l).1 (k.resolve_left (by simp [l]))]
  simp [losEntryEffect_eq, h, crossLos_eq, crossedIn_los, c]

section
variable (h : pinsLive s = true) (l : (getIn (getEnc s n) p).los = false) (d : losDue s n p true)
include h l d

theorem losEntryEffect_enters : losEntryEffect n p s = losTaken (setEnc s n (losMarked s n p)) n p := by
  have c : ((getIn (getEnc s n) p).los || !(crossedIn s n p true).losRipe s.clock) = false := by
    simp [l, (losRipe_iff l).2 d]
  simp [losEntryEffect_eq, h, crossLos_eq, crossedIn_los, c, losMark_setIn, losMarked]

theorem losEntryEffect_unnoticed (x : ¬losDetects (getEnc s n) p) :
    losEntryEffect n p s = setEnc s n (losMarked s n p) := by
  rw [losEntryEffect_enters h l d, losTaken_not]
  rwa [getEnc_setEnc, losDetects_losMarked]

variable (x : losDetects (getEnc s n) p)
include x

theorem losEntryEffect_detects : losEntryEffect n p s = encDetect (setEnc s n (losMarked s n p)) n (losKind p) := by
  rw [losEntryEffect_enters h l d, losTaken_detects]
  rwa [getEnc_setEnc, losDetects_losMarked]

theorem losEntryEffect_further (q : getFault (getEnc s n) (losKind p) = some f) : losEntryEffect n p s =
    setEnc s n (setFault (losMarked s n p) (losKind p) (some { f with events := f.events + 1 })) := by
  rw [losEntryEffect_detects h l d x, encDetect_further (getFault_losMarked.trans q)]

theorem losEntryEffect_exhausted (q : getFault (getEnc s n) (losKind p) = none)
    (y : (exhaustedAt (getEnc s n) (losKind p)).isSome = true) : losEntryEffect n p s = setEnc s n (losMarked s n p) := by
  rw [losEntryEffect_detects h l d x, encDetect_exhausted (getFault_losMarked.trans q)]
  rwa [exhaustedAt_losMarked]

theorem losEntryEffect_starts (q : getFault (getEnc s n) (losKind p) = none)
    (y : exhaustedAt (getEnc s n) (losKind p) = none) : losEntryEffect n p s = setEnc s n
      { setFault (losMarked s n p) (losKind p) (some ⟨s.clock, (getEnc s n).pos, 0⟩) with suspect := true } := by
  rw [losEntryEffect_detects h l d x, encDetect_starts (getFault_losMarked.trans q) (exhaustedAt_losMarked.trans y),
    losMarked_pos]

end

/-! ### The end of a LOS -/

/-- What the end of a LOS of input p does, once the input has left it. -/
def losLeft (s : State) (n : Fin 8) (p : EncPin) : State :=
  match p with
  | .z => losOver s n .losZ
  | _ =>
    if (getEnc s n).inA.los || (getEnc s n).inB.los then s
    else losOver (s.modEnc n fun e => { e with losEnd := some s.clock }) n .losAB

/-- The input beside A or B. -/
def losBeside (e : Enc) (p : EncPin) : Bool := if p = .a then e.inB.los else e.inA.los

/-- The end of the last LOS of A and B is noted. -/
def losEnded (p : EncPin) (t : Nat) (e : Enc) : Enc := if p = .z then e else { e with losEnd := some t }

theorem losBeside_left (h : p ≠ .z) (l : i.los = false) :
    ((setIn e p i).inA.los || (setIn e p i).inB.los) = losBeside e p := by
  cases p <;> simp_all [setIn, losBeside]

theorem losLeft_beside (h : p ≠ .z) (l : i.los = false) (o : losBeside e p = true) :
    losLeft (setEnc s n (setIn e p i)) n p = setEnc s n (setIn e p i) := by
  have c := (losBeside_left h l).trans o
  cases p <;> simp_all [losLeft]

theorem losLeft_ends (l : i.los = false) (o : p = .z ∨ losBeside e p = false) :
    losLeft (setEnc s n (setIn e p i)) n p = losOver (setEnc s n (losEnded p s.clock (setIn e p i))) n (losKind p) := by
  by_cases h : p = .z
  · subst h; rfl
  · have c := (losBeside_left (e := e) h l).trans (o.resolve_left h)
    cases p <;> simp_all [losLeft, losEnded, losKind]

theorem losExitEffect_eq (n : Fin 8) (p : EncPin) (s : State) : losExitEffect n p s =
    if !pinsLive s then s
    else
      let t := crossLos s n p false
      let i := getIn (getEnc t n) p
      if !i.los || !i.losRipe t.clock then t else losLeft (t.modEnc n fun e => setIn e p { i with los := false }) n p := rfl

theorem losExitEffect_dead (h : pinsLive s = false) : losExitEffect n p s = s := by
  simp [losExitEffect, h]

theorem losExitEffect_early (h : pinsLive s = true) (k : (getIn (getEnc s n) p).los = false ∨ ¬losDue s n p false) :
    losExitEffect n p s = setEnc s n (setIn (getEnc s n) p (crossedIn s n p false)) := by
  have c : (!(getIn (getEnc s n) p).los || !(crossedIn s n p false).losRipe s.clock) = true := by
    cases l : (getIn (getEnc s n) p).los with
    | false => rfl
    | true => simp [mt (losRipe_iff l).1 (k.resolve_left (by simp [l]))]
  simp [losExitEffect_eq, h, crossLos_eq, crossedIn_los, c]

theorem losOver_none (h : getFault e k = none) : losOver (setEnc s n e) n k = setEnc s n e := by
  simp [losOver, h]

theorem losOver_some (h : getFault e k = some f) :
    losOver (setEnc s n e) n k = encClose (setEnc s n e) n k (decide (f.start + encLosTicks e < s.clock)) := by
  simp [losOver, h]

/-- Encoder n with input p out of LOS. -/
def losExited (s : State) (n : Fin 8) (p : EncPin) : Enc :=
  setIn (getEnc s n) p { crossedIn s n p false with los := false }

theorem getFault_losEnded : getFault (losEnded p t' (losExited s n p)) k = getFault (getEnc s n) k := by
  cases p <;> cases k <;> rfl

theorem encLosTicks_losEnded : encLosTicks (losEnded p t' (losExited s n p)) = encLosTicks (getEnc s n) := by
  cases p <;> rfl

section
variable (h : pinsLive s = true) (l : (getIn (getEnc s n) p).los = true) (d : losDue s n p false)
include h l d

theorem losExitEffect_leaves : losExitEffect n p s = losLeft (setEnc s n (losExited s n p)) n p := by
  have c : (!(getIn (getEnc s n) p).los || !(crossedIn s n p false).losRipe s.clock) = false := by
    simp [l, (losRipe_iff l).2 d]
  simp [losExitEffect_eq, h, crossLos_eq, crossedIn_los, c, losExited]

theorem losExitEffect_beside (q : p ≠ .z) (o : losBeside (getEnc s n) p = true) :
    losExitEffect n p s = setEnc s n (losExited s n p) :=
  (losExitEffect_leaves h l d).trans (losLeft_beside q rfl o)

variable (o : p = .z ∨ losBeside (getEnc s n) p = false)
include o

theorem losExitEffect_ends :
    losExitEffect n p s = losOver (setEnc s n (losEnded p s.clock (losExited s n p))) n (losKind p) :=
  (losExitEffect_leaves h l d).trans (losLeft_ends rfl o)

theorem losExitEffect_unfaulted (q : getFault (getEnc s n) (losKind p) = none) :
    losExitEffect n p s = setEnc s n (losEnded p s.clock (losExited s n p)) := by
  rw [losExitEffect_ends h l d o, losOver_none (getFault_losEnded.trans q)]

theorem losExitEffect_closes (q : getFault (getEnc s n) (losKind p) = some f) :
    losExitEffect n p s = encClose (setEnc s n (losEnded p s.clock (losExited s n p))) n (losKind p)
      (decide (f.start + encLosTicks (getEnc s n) < s.clock)) := by
  rw [losExitEffect_ends h l d o, losOver_some (getFault_losEnded.trans q), encLosTicks_losEnded]

end

/-- The kind of fault of the inputs A and B, or of Z. -/
def limitKind (z : Bool) : EncKind := if z then .losZ else .losAB

theorem losLimitEffect_none {z : Bool} (h : getFault (getEnc s n) (limitKind z) = none) : losLimitEffect n z s = s := by
  cases z <;> simp_all [losLimitEffect, limitKind]

theorem losLimitEffect_early {z : Bool} (h : getFault (getEnc s n) (limitKind z) = some f)
    (k : s.clock < f.start + encLosTicks (getEnc s n)) : losLimitEffect n z s = s := by
  cases z <;> simp_all [losLimitEffect, limitKind]

theorem losLimitEffect_expires {z : Bool} (h : getFault (getEnc s n) (limitKind z) = some f)
    (k : f.start + encLosTicks (getEnc s n) ≤ s.clock) :
    losLimitEffect n z s = encClose s n (limitKind z) true := by
  cases z <;> simp_all [losLimitEffect, limitKind]

/-! ### Illegal transitions and their window (R171, R178) -/

theorem closeIllegal_none (h : (getEnc s n).illegal = none) : closeIllegal s n = s := by
  simp [closeIllegal, h]

theorem closeIllegal_open (h : (getEnc s n).illegal = some f) (k : s.clock < f.start + tenMs) : closeIllegal s n = s := by
  simp [closeIllegal, h, Nat.not_le.2 k]

theorem closeIllegal_over (h : (getEnc s n).illegal = some f) (k : f.start + tenMs ≤ s.clock) :
    closeIllegal s n = encClose s n .illegal false := by
  simp [closeIllegal, h, k]

theorem encIllegal_absent (h : (getEnc s n).illegalNow ≠ some s.clock) : encIllegal s n = s := by
  simp [encIllegal, h]

/-- The illegal transition of the present tick is taken into account. -/
def illegalSeen (e : Enc) : Enc := { e with illegalNow := none }

/-- What an illegal transition that belongs to no LOS does: the 4th within the window makes its fault permanent. -/
def illegalTaken (s : State) (n : Fin 8) : State :=
  let s := encDetect (closeIllegal s n) n .illegal
  match (getEnc s n).illegal with
  | some f => if 3 ≤ f.events then encClose s n .illegal true else s
  | none => s

theorem underLos_iff : underLos s e = true ↔
    e.inA.los = true ∨ e.inB.los = true ∨ ∃ t, e.losEnd = some t ∧ s.clock ≤ t + 400 := by
  cases h : e.losEnd <;> simp [underLos, h, or_assoc]

theorem encIllegal_eq (s : State) (n : Fin 8) : encIllegal s n =
    if (getEnc s n).illegalNow != some s.clock then s
    else
      let t := s.modEnc n illegalSeen
      if underLos t (getEnc t n) then t else illegalTaken t n := rfl

theorem encIllegal_byLos (h : (getEnc s n).illegalNow = some s.clock) (u : underLos s (getEnc s n) = true) :
    encIllegal s n = setEnc s n (illegalSeen (getEnc s n)) := by
  have u' : underLos (setEnc s n (illegalSeen (getEnc s n))) (illegalSeen (getEnc s n)) = true := u
  simp [encIllegal_eq, h, modEnc_eq_setEnc, u']

theorem encIllegal_counts (h : (getEnc s n).illegalNow = some s.clock) (u : underLos s (getEnc s n) = false) :
    encIllegal s n = illegalTaken (setEnc s n (illegalSeen (getEnc s n))) n := by
  have u' : underLos (setEnc s n (illegalSeen (getEnc s n))) (illegalSeen (getEnc s n)) = false := u
  simp [encIllegal_eq, h, modEnc_eq_setEnc, u']

theorem illegalTaken_exhausted (h : e.illegal = none) (x : e.exIllegal ≠ none) :
    illegalTaken (setEnc s n e) n = setEnc s n e := by
  have x' : (exhaustedAt e .illegal).isSome = true := Option.isSome_iff_ne_none.2 x
  simp [illegalTaken, closeIllegal_none, h, encDetect_exhausted (e := e) (k := .illegal) h x']

theorem illegalTaken_starts (h : e.illegal = none) (x : e.exIllegal = none) :
    illegalTaken (setEnc s n e) n = setEnc s n { e with illegal := some ⟨s.clock, e.pos, 0⟩, suspect := true } := by
  simp [illegalTaken, closeIllegal_none, h, encDetect_starts (e := e) (k := .illegal) h x, setFault]

/-- A further illegal transition within the window: the fourth closes the fault as permanent, an earlier one is counted. -/
theorem illegalTaken_further (h : e.illegal = some f) (w : s.clock < f.start + tenMs) :
    let e' := setFault e .illegal (some { f with events := f.events + 1 })
    illegalTaken (setEnc s n e) n =
      if 2 ≤ f.events then encClose (setEnc s n e') n .illegal true else setEnc s n e' := by
  have k : closeIllegal (setEnc s n e) n = setEnc s n e := closeIllegal_open (by rwa [getEnc_setEnc]) w
  simp [illegalTaken, k, encDetect_further (e := e) (k := .illegal) h, setFault]

theorem illegalWindowEffect_absent (h : (getEnc s n).illegalNow ≠ some s.clock) :
    illegalWindowEffect n s = closeIllegal s n := by
  rw [illegalWindowEffect, encIllegal_absent h]

/-- An encoder without an illegal transition to judge, whose window is still open. -/
theorem closeIllegal_setEnc (h : e.illegal = none ∨ ∃ f, e.illegal = some f ∧ s.clock < f.start + tenMs) :
    closeIllegal (setEnc s n e) n = setEnc s n e := by
  rcases h with h | ⟨f, h, w⟩
  · exact closeIllegal_none (by rwa [getEnc_setEnc])
  · exact closeIllegal_open (by rwa [getEnc_setEnc]) w

theorem illegalWindowEffect_byLos (h : (getEnc s n).illegalNow = some s.clock) (u : underLos s (getEnc s n) = true)
    (q : (getEnc s n).illegal = none) : illegalWindowEffect n s = setEnc s n (illegalSeen (getEnc s n)) := by
  rw [illegalWindowEffect, encIllegal_byLos h u, closeIllegal_setEnc (e := illegalSeen _) (.inl q)]

section
variable (h : (getEnc s n).illegalNow = some s.clock) (u : underLos s (getEnc s n) = false)
include h u

theorem illegalWindowEffect_counts :
    illegalWindowEffect n s = closeIllegal (illegalTaken (setEnc s n (illegalSeen (getEnc s n))) n) n := by
  rw [illegalWindowEffect, encIllegal_counts h u]

theorem illegalWindowEffect_exhausted (q : (getEnc s n).illegal = none) (x : (getEnc s n).exIllegal ≠ none) :
    illegalWindowEffect n s = setEnc s n (illegalSeen (getEnc s n)) := by
  rw [illegalWindowEffect_counts h u, illegalTaken_exhausted (e := illegalSeen _) q x,
    closeIllegal_setEnc (e := illegalSeen _) (.inl q)]

theorem illegalWindowEffect_starts (q : (getEnc s n).illegal = none) (x : (getEnc s n).exIllegal = none) :
    illegalWindowEffect n s = setEnc s n
      { illegalSeen (getEnc s n) with illegal := some ⟨s.clock, (getEnc s n).pos, 0⟩, suspect := true } := by
  rw [illegalWindowEffect_counts h u, illegalTaken_starts (e := illegalSeen _) q x,
    closeIllegal_setEnc (.inr ⟨_, rfl, Nat.lt_add_of_pos_right (by decide)⟩)]
  rfl

variable (q : (getEnc s n).illegal = some f) (w : s.clock < f.start + tenMs)
include q w

theorem illegalWindowEffect_further (x : f.events < 2) : illegalWindowEffect n s =
    setEnc s n (setFault (illegalSeen (getEnc s n)) .illegal (some { f with events := f.events + 1 })) := by
  rw [illegalWindowEffect_counts h u, illegalTaken_further (e := illegalSeen _) q w, if_neg (Nat.not_le.2 x),
    closeIllegal_setEnc (.inr ⟨{ f with events := f.events + 1 }, rfl, w⟩)]

theorem illegalWindowEffect_fails (x : 2 ≤ f.events) : illegalWindowEffect n s =
    encClose (setEnc s n (setFault (illegalSeen (getEnc s n)) .illegal (some { f with events := f.events + 1 }))) n
      .illegal true := by
  rw [illegalWindowEffect_counts h u, illegalTaken_further (e := illegalSeen _) q w, if_pos x]
  exact closeIllegal_none (getFault_encClose (k' := .illegal) (.inl rfl) true)

end

/-! ### RESTORE (R172, R177) -/

/-- The encoder after RESTORE: FAILED and SUSPECT stay only for a fault of this tick, SUSPECT for an open one too. -/
def encRestored (s : State) (e : Enc) : Enc :=
  let kept := { e with exIllegal := restoreKept s e.exIllegal, exLosAB := restoreKept s e.exLosAB, exLosZ := restoreKept s e.exLosZ }
  let perm := kept.exIllegal.isSome || kept.exLosAB.isSome || kept.exLosZ.isSome
  { kept with failed := kept.failed && perm, suspect := kept.suspect && (encFaultOpen kept || perm) }

/-- The sequencers that the source's return lets go on change nothing but themselves. -/
theorem each_leaveSrcWait_only (l : List (Fin 16)) (s : State) :
    Only [.tsq] s (forEach l (fun m s => leaveSrcWait s m) s) :=
  (Moves.each (Moves.refl _ s) fun m t h => leaveSrcWait_moves t m h fun _ h => h).only

theorem restoreEffect_tbe (s : State) (n : Fin 8) :
    (restoreEffect n s).tbe = { s.tbe with enc := upd s.tbe.enc n fun _ => encRestored s (getEnc s n) } := by
  have e : restoreEffect n s = forEach (tsqsOfEnc (s.modEnc n (encRestored s)) n) (fun m s => leaveSrcWait s m)
      (s.modEnc n (encRestored s)) := rfl
  rw [e, modEnc_eq_setEnc]
  exact each_leaveSrcWait_only _ _ .tbe (by decide)

/-! ### The commit of an encoder's group (R179, R562) -/

/-- The encoder with its group applied at the safe point; a new F starts the filters again. -/
def encApplied (t : Nat) (e : Enc) : Enc :=
  let e' := { e with cfg := e.cfg.apply }
  if encFilter e' = encFilter e then e' else refilter e' t

theorem encApplied_cases (t : Nat) (e : Enc) :
    encApplied t e = { e with cfg := e.cfg.apply } ∨ encApplied t e = refilter { e with cfg := e.cfg.apply } t := by
  unfold encApplied; dsimp only; split
  · exact .inl rfl
  · exact .inr rfl

theorem encEn_encApplied (t : Nat) (e : Enc) : encEn (encApplied t e) = bit e.cfg.shadow 0 := by
  rcases encApplied_cases t e with h | h <;> rw [h] <;> rfl

/-- A commit changes neither the faults of an encoder nor the LOS of its inputs. -/
theorem encApplied_faults (t : Nat) (e : Enc) : (encApplied t e).illegalNow = e.illegalNow ∧
    (∀ k, getFault (encApplied t e) k = getFault e k) ∧ (encApplied t e).inA.los = e.inA.los ∧
    (encApplied t e).inB.los = e.inB.los ∧ (encApplied t e).inZ.los = e.inZ.los := by
  rcases encApplied_cases t e with h | h <;> rw [h] <;> exact ⟨rfl, fun k => by cases k <;> rfl, rfl, rfl, rfl⟩

theorem encClassAtStop_eq (h : e.illegalNow ≠ some s.clock) : encClassAtStop (setEnc s n e) n =
    encClose (encClose (encClose (setEnc s n e) n .illegal false) n .losAB (e.inA.los || e.inB.los)) n .losZ e.inZ.los := by
  have k : encIllegal (setEnc s n e) n = setEnc s n e := encIllegal_absent (by rwa [getEnc_setEnc])
  simp only [encClassAtStop, k, getEnc_setEnc]

theorem encClose_without (h : getFault e k = none) (perm : Bool) : encClose (setEnc s n e) n k perm = setEnc s n e :=
  encClose_none (by rwa [getEnc_setEnc]) perm

theorem encClassAtStop_quiet (h : e.illegalNow ≠ some s.clock) (i : e.illegal = none) (a : e.losAB = none)
    (z : e.losZf = none) : encClassAtStop (setEnc s n e) n = setEnc s n e := by
  rw [encClassAtStop_eq h, encClose_without (k := .illegal) i, encClose_without (k := .losAB) a,
    encClose_without (k := .losZ) z]

theorem encClassAtStop_illegal (h : e.illegalNow ≠ some s.clock) (a : e.losAB = none) (z : e.losZf = none) :
    encClassAtStop (setEnc s n e) n = encClose (setEnc s n e) n .illegal false := by
  rw [encClassAtStop_eq h, encClose_none (getFault_encClose (k' := .losAB) (.inr a) _),
    encClose_none (getFault_encClose (k' := .losZ) (.inr z) _)]

theorem encClassAtStop_losAB (h : e.illegalNow ≠ some s.clock) (i : e.illegal = none) (z : e.losZf = none) :
    encClassAtStop (setEnc s n e) n = encClose (setEnc s n e) n .losAB (e.inA.los || e.inB.los) := by
  rw [encClassAtStop_eq h, encClose_without (k := .illegal) i, encClose_none (getFault_encClose (k' := .losZ) (.inr z) _)]

theorem encClassAtStop_losZ (h : e.illegalNow ≠ some s.clock) (i : e.illegal = none) (a : e.losAB = none) :
    encClassAtStop (setEnc s n e) n = encClose (setEnc s n e) n .losZ e.inZ.los := by
  rw [encClassAtStop_eq h, encClose_without (k := .illegal) i, encClose_without (k := .losAB) a]

theorem encCommitEffect_none (h : (getEnc s n).cfg.pending = false) : encCommitEffect n s = s := by
  simp [encCommitEffect, h]

/-- What a change of EN brings after a commit that found the encoder as `old`. -/
def encSwitched (old : Enc) (s : State) (n : Fin 8) : State :=
  if encEn old && !encEn (getEnc s n) then encClassAtStop s n
  else if !encEn old && encEn (getEnc s n) then
    forEach (tsqsOfEnc s n) (fun m s => leaveSrcWait s m) (s.modEnc n fun e => { e with enAt := some s.clock })
  else s

theorem encCommitEffect_eq (h : (getEnc s n).cfg.pending = true) : encCommitEffect n s =
    let t := if encEn (getEnc s n) && !bit (getEnc s n).cfg.shadow 0 then encIllegal s n else s
    encSwitched (getEnc s n) (t.modEnc n fun e =>
      let e' := { e with cfg := e.cfg.apply }
      if encFilter e' = encFilter (getEnc s n) then e' else refilter e' t.clock) n := if_pos h

/-- A pending commit in a tick whose illegal transition is no longer to be judged. -/
theorem encCommitEffect_pending (h : (getEnc s n).cfg.pending = true)
    (k : encEn (getEnc s n) = false ∨ bit (getEnc s n).cfg.shadow 0 = true ∨ (getEnc s n).illegalNow ≠ some s.clock) :
    encCommitEffect n s = encSwitched (getEnc s n) (setEnc s n (encApplied s.clock (getEnc s n))) n := by
  have judged : (if encEn (getEnc s n) && !bit (getEnc s n).cfg.shadow 0 then encIllegal s n else s) = s := by
    rcases k with k | k | k
    · simp [k]
    · simp [k]
    · rw [encIllegal_absent k, ite_self]
  rw [encCommitEffect_eq h, judged]
  exact congrArg (encSwitched _ · n) (modEnc_eq_setEnc _ _ _)

theorem encSwitched_same {old : Enc} (h : encEn e = encEn old) : encSwitched old (setEnc s n e) n = setEnc s n e := by
  simp [encSwitched, h]

theorem encSwitched_off {old : Enc} (h : encEn old = true) (k : encEn e = false) :
    encSwitched old (setEnc s n e) n = encClassAtStop (setEnc s n e) n := by
  simp [encSwitched, h, k]

theorem encSwitched_on {old : Enc} (h : encEn old = false) (k : encEn e = true) :
    encSwitched old (setEnc s n e) n = forEach (tsqsOfEnc (setEnc s n e) n) (fun m s => leaveSrcWait s m)
      (setEnc s n { e with enAt := some s.clock }) := by
  simp [encSwitched, h, k]

/-- The encoder after a commit that classes no fault: EN that becomes active notes its tick. -/
def encCommitted (t : Nat) (e : Enc) : Enc :=
  { encApplied t e with enAt := if encEn e = false ∧ bit e.cfg.shadow 0 = true then some t else e.enAt }

theorem encCommitted_on (h : encEn e = false) (k : bit e.cfg.shadow 0 = true) :
    encCommitted t' e = { encApplied t' e with enAt := some t' } := by
  simp only [encCommitted, h, k, and_self, if_true]

theorem encCommitted_other (h : encEn e = true ∨ bit e.cfg.shadow 0 = false) : encCommitted t' e = encApplied t' e := by
  have c : ¬(encEn e = false ∧ bit e.cfg.shadow 0 = true) := fun ⟨x, y⟩ => by simp [x, y] at h
  have enAt : (encApplied t' e).enAt = e.enAt := by
    rcases encApplied_cases t' e with x | x
    · rw [x]
    · rw [x]; rfl
  rw [encCommitted, if_neg c, ← enAt]

/-- The encoder's group stops it in a tick without an open fault or an illegal transition, or does not stop it. -/
def encCommitQuiet (s : State) (e : Enc) : Prop :=
  ¬(encEn e = true ∧ bit e.cfg.shadow 0 = false) ∨
    (e.illegalNow ≠ some s.clock ∧ e.illegal = none ∧ e.losAB = none ∧ e.losZf = none)

theorem encCommitEffect_stops (h : (getEnc s n).cfg.pending = true) (en : encEn (getEnc s n) = true)
    (new : bit (getEnc s n).cfg.shadow 0 = false) (now : (getEnc s n).illegalNow ≠ some s.clock) :
    encCommitEffect n s = encClassAtStop (setEnc s n (encApplied s.clock (getEnc s n))) n := by
  rw [encCommitEffect_pending h (.inr (.inr now)), encSwitched_off en ((encEn_encApplied _ _).trans new)]

theorem encCommitEffect_quiet (h : (getEnc s n).cfg.pending = true) (q : encCommitQuiet s (getEnc s n)) :
    Only [.tbe, .tsq] s (encCommitEffect n s) ∧ (encCommitEffect n s).tbe =
      (setEnc s n (encCommitted s.clock (getEnc s n))).tbe := by
  have replaced (x : Enc) : Only [.tbe, .tsq] s (setEnc s n x) := ((Moves.refl _ s).modEnc (by decide) n _).only
  have shown := encEn_encApplied s.clock (getEnc s n)
  cases en : encEn (getEnc s n) <;> cases new : bit (getEnc s n).cfg.shadow 0
  case false.true =>
    obtain ⟨l, e⟩ : ∃ l, encCommitEffect n s =
        forEach l (fun m s => leaveSrcWait s m) (setEnc s n (encCommitted s.clock (getEnc s n))) :=
      ⟨_, by rw [encCommitEffect_pending h (.inl en), encSwitched_on en (shown.trans new), encCommitted_on en new]⟩
    have waiters := each_leaveSrcWait_only l (setEnc s n (encCommitted s.clock (getEnc s n)))
    rw [e]
    exact ⟨(replaced _).trans (waiters.weaken (by decide)), waiters .tbe (by decide)⟩
  case true.false =>
    obtain ⟨now, i, a, z⟩ := q.resolve_left (not_not_intro ⟨en, new⟩)
    obtain ⟨now', faults, -⟩ := encApplied_faults s.clock (getEnc s n)
    have e : encCommitEffect n s = setEnc s n (encCommitted s.clock (getEnc s n)) := by
      rw [encCommitEffect_stops h en new now, encCommitted_other (.inl en), encClassAtStop_quiet (now' ▸ now)
        ((faults .illegal).trans i) ((faults .losAB).trans a) ((faults .losZ).trans z)]
    rw [e]
    exact ⟨replaced _, rfl⟩
  all_goals
    have e : encCommitEffect n s = setEnc s n (encCommitted s.clock (getEnc s n)) := by
      rw [encCommitEffect_pending h (by simp [en, new]), encCommitted_other (by simp [en, new]),
        encSwitched_same (by rw [shown, en, new])]
    rw [e]
    exact ⟨replaced _, rfl⟩

/-- Settles O33, case by case from the equations above. -/
theorem encoderFaults : Obligations.EncoderFaults := by
  intro s n pin z hc e i enabled kind detects becomes crossed transient permanent limit zk
  have go (f : State → State) : onSys s f = .next (f s) := onSys_clocked hc f
  have self : setEnc s n e = s := setEnc_getEnc s n
  have used : encZused e = true ↔ fld e.cfg.active 15 14 = 1 ∨ fld e.cfg.active 15 14 = 2 := by
    simp [encZused, encZmode]
  have off {p : Prop} {b : Bool} (h : b = true ↔ p) (n : ¬p) : b = false := Bool.eq_false_iff.2 (mt h.1 n)
  have hd : losDetects e pin ↔ detects := and_congr_right' (imp_congr_right fun _ => used)
  refine ⟨fun h => ⟨?_, ?_⟩, fun h => ?_, fun h => ?_, fun f hf => ⟨fun h => ?_, fun h => ?_⟩,
    fun hi => ⟨fun h => ?_, fun f hf => ⟨fun h => ?_, fun h => ?_⟩⟩, fun hi => ?_, ?_, fun h => ?_, fun h => ?_⟩
  · exact (go _).trans (by rw [losEntryEffect_dead h])
  · exact (go _).trans (by rw [losExitEffect_dead h])
  · intro below above
    refine ⟨fun k => ?_, fun k d => ?_, fun k => ?_, fun k d => ?_⟩
    · exact (go _).trans (by rw [losEntryEffect_early h (k.imp id Nat.not_le.2)]; rfl)
    · refine ⟨fun x => ?_, fun x f hf => ?_, fun x hf hx => ?_, fun x hf hx => ?_⟩
      · exact (go _).trans (by rw [losEntryEffect_unnoticed h k d (mt hd.1 x)]; rfl)
      · exact (go _).trans (by rw [losEntryEffect_further h k d (hd.2 x) hf]; rfl)
      · exact (go _).trans (by rw [losEntryEffect_exhausted h k d (hd.2 x) hf hx]; rfl)
      · exact (go _).trans (by rw [losEntryEffect_starts h k d (hd.2 x) hf hx]; rfl)
    · exact (go _).trans (by rw [losExitEffect_early h (k.imp id Nat.not_le.2)]; rfl)
    · intro left other ended
      have fault : getFault ended kind = getFault e kind := getFault_losEnded
      refine ⟨fun x o => ?_, fun o hf => ?_, fun o f hf => ⟨fun x => ?_, fun x => ?_⟩⟩
      · exact (go _).trans (by rw [losExitEffect_beside h k d x o]; rfl)
      · exact (go _).trans (by rw [losExitEffect_unfaulted h k d o hf]; rfl)
      · have early : decide (f.start + encLosTicks (getEnc s n) < s.clock) = false := decide_eq_false (Nat.not_lt.2 x)
        exact closes_transient (fault.trans hf) ((go _).trans (by rw [losExitEffect_closes h k d o hf, early]; rfl))
      · have late : decide (f.start + encLosTicks (getEnc s n) < s.clock) = true := decide_eq_true x
        exact closes_permanent (fault.trans hf) ((go _).trans (by rw [losExitEffect_closes h k d o hf, late]; rfl))
  · exact (go _).trans (by rw [losLimitEffect_none h])
  · exact (go _).trans (by rw [losLimitEffect_early hf h])
  · exact closes_permanent hf ((go _).trans (by rw [losLimitEffect_expires hf h, self]; rfl))
  · exact (go _).trans (by rw [illegalWindowEffect_absent hi, closeIllegal_none h])
  · exact (go _).trans (by rw [illegalWindowEffect_absent hi, closeIllegal_open hf h])
  · exact closes_transient (k := .illegal) hf
      ((go _).trans (by rw [illegalWindowEffect_absent hi, closeIllegal_over hf h, self]))
  · intro noted byLos
    have under : underLos s e = true ↔ byLos := underLos_iff
    refine ⟨fun l hf => ?_, fun l hf => ⟨fun x => ?_, fun x => ?_⟩, fun l f hf w => ⟨fun x => ?_, fun x => ?_⟩⟩
    · exact (go _).trans (by rw [illegalWindowEffect_byLos hi (under.2 l) hf]; rfl)
    · exact (go _).trans (by rw [illegalWindowEffect_starts hi (off under l) hf x]; rfl)
    · exact (go _).trans (by rw [illegalWindowEffect_exhausted hi (off under l) hf x]; rfl)
    · exact (go _).trans (by rw [illegalWindowEffect_further hi (off under l) hf w x]; rfl)
    · exact closes_permanent (k := .illegal) (e := setFault noted .illegal (some { f with events := f.events + 1 })) rfl
        ((go _).trans (by rw [illegalWindowEffect_fails hi (off under l) hf w x]; rfl))
  · exact ⟨_, go _, (restoreEffect_moves n s (Moves.refl _ s) fun _ h => h).only,
      (restoreEffect_tbe s n).trans (congrArg (fun v => { s.tbe with enc := v }) (upd_congr _ _ _ _ rfl))⟩
  · exact (go _).trans (by rw [encCommitEffect_none h])
  · intro new stops from_ applied
    have isApplied : applied = encApplied s.clock e := by
      by_cases x : fld new 12 8 = fld e.cfg.active 12 8
      · simp only [applied, from_, if_pos x]; exact (if_pos x).symm
      · simp only [applied, from_, if_neg x]; exact (if_neg x).symm
    obtain ⟨now, faults, losA, losB, losZ⟩ := encApplied_faults s.clock e
    rw [← isApplied] at now faults losA losB losZ
    have classed (st : stops) (k : e.illegalNow ≠ some s.clock) :
        exec (.encCommitApply n) s = .next (encClassAtStop (setEnc s n applied) n) :=
      (go _).trans (by rw [encCommitEffect_stops h st.1 st.2 k, isApplied]; rfl)
    have los : (applied.inA.los || applied.inB.los) = (e.inA.los || e.inB.los) := by rw [losA, losB]
    refine ⟨fun k => ?_, fun st k f => ?_⟩
    · obtain ⟨only, tbe⟩ := encCommitEffect_quiet h k
      exact ⟨_, go _, only, tbe.trans (by rw [isApplied]; rfl)⟩
    · have k' : applied.illegalNow ≠ some s.clock := now ▸ k
      refine ⟨fun i a z => ?_, fun i a z => ?_, fun i a z => ?_⟩
      · exact closes_transient ((faults .illegal).trans i) ((classed st k).trans
          (by rw [encClassAtStop_illegal k' ((faults .losAB).trans a) ((faults .losZ).trans z)]))
      · have c := (classed st k).trans
          (congrArg _ (encClassAtStop_losAB k' ((faults .illegal).trans i) ((faults .losZ).trans z)))
        rw [los] at c
        exact ⟨fun x y => closes_transient ((faults .losAB).trans a) (c.trans (by rw [x, y]; rfl)),
          fun x => closes_permanent ((faults .losAB).trans a) (c.trans (by rw [Bool.or_eq_true_iff.2 x]))⟩
      · have c := (classed st k).trans
          (congrArg _ (encClassAtStop_losZ k' ((faults .illegal).trans i) ((faults .losAB).trans a)))
        rw [losZ] at c
        exact ⟨fun x => closes_transient ((faults .losZ).trans z) (c.trans (by rw [x])),
          fun x => closes_permanent ((faults .losZ).trans z) (c.trans (by rw [x]))⟩

end Sys2Proof.Machine
end

section
/-! Which commands answer (O7, O8): every command but the three of the rails and of RESET_N is a guard around one effect (R33, R152). -/

namespace Sys2Proof.Machine

/-- The commands that act on the rails and on RESET_N, which answer whatever has made the behaviour undefined. -/
def IsSupplyOrReset (c : Instr) : Prop :=
  c = .supplyOutOfRange ∨ (∃ n, c = .pinReset n) ∨ ∃ h p, c = .resetNRise h p

/-- The three ways in which a meaning guards its effect. -/
inductive Guarded (s : State) : Out → Prop where
  | sys (f : State → State) : Guarded s (onSys s f)
  | any (f : State → State) : Guarded s (onAny s f)
  | port (r : Bool) (f : State → State) : Guarded s (onPort s r f)

theorem exec_guarded (c : Instr) (s : State) : (IsSupplyOrReset c ∧ ∃ t, exec c s = .next t) ∨ Guarded s (exec c s) := by
  cases c with
  | supplyOutOfRange => exact .inl ⟨.inl rfl, _, rfl⟩
  | pinReset n => exact .inl ⟨.inr (.inl ⟨n, rfl⟩), _, rfl⟩
  | resetNRise h p => exact .inl ⟨.inr (.inr ⟨h, p, rfl⟩), _, rfl⟩
  | vbatPowerUp | pllLock | pllLossOfLock | pllRelock | kcEdge | alarmAccept | bkpCapture | bkpPairTake | logClear | bcLoad
  | kc0Clear | kc1Clear | bkpOscillatorStop | bkpOscillatorStart | extest | samplePreload | idcode | bypass | readback
  | pcStbByte => exact .inr (.any _)
  | directWrite | winDataWrite | directRead | stream | windowBurstWrite | windowBurstRead | unlistedOpcode | streamAbort
  | stickyClear | auth | debugBus | rlog => exact .inr (.port _ _)
  | postedWriteApply req blk ecc =>
    refine .inr (show Guarded s (if blk = .bkp then _ else _) from ?_)
    split
    · exact .any _
    · exact .sys _
  | accCommitApply => exact .inr (.sys fun s => noteFence s (accCommitEffect s))
  | returnRes res => exact .inr (.sys fun s => pwReturn s res)
  | trim h gen n => exact .inr (.sys fun s => pwTrim s h gen n)
  | hostAddref h gen => exact .inr (.sys fun s => hostCommand s (.addref .host h gen))
  | hostRelease h gen => exact .inr (.sys fun s => hostCommand s (.release .host h gen))
  | hostSeal h gen => exact .inr (.sys fun s => hostCommand s (.seal .host h gen))
  | hostAbandon h gen => exact .inr (.sys fun s => hostCommand s (.abandon .host h gen))
  | _ => exact .inr (.sys _)

theorem Guarded.next {s : State} {o : Out} (h : Clocked s) (g : Guarded s o) : ∃ t, o = .next t := by
  cases g with
  | sys f => exact ⟨_, onSys_clocked h f⟩
  | any f => exact ⟨_, onAny_powered (clocked_powered h) f⟩
  | port r f => exact ⟨_, onPort_defined h.1 r f⟩

theorem Guarded.railOut {s : State} {o : Out} (h : s.undef = some .railOut) (g : Guarded s o) :
    o = .fault (.undefinedBehaviour .railOut) := by
  cases g with
  | sys f => simp [onSys, h]
  | any f => simp [onAny, h]
  | port r f => simp [onPort, onAny, h]

/-- Settles O7: an unguarded command always answers, and a guard opens while PLL_SYS is locked and nothing is undefined. -/
theorem commandsComplete : Obligations.CommandsComplete := by
  intro c s h
  rcases exec_guarded c s with ⟨-, answers⟩ | guarded
  · exact answers
  · exact guarded.next h

/-- Settles O8: each of the three guards raises the fault once a rail is out. -/
theorem railsOutUndefined : Obligations.RailsOutUndefined := by
  intro s c h notSupply notReset notRise
  rcases exec_guarded c s with ⟨(e | ⟨n, e⟩ | ⟨m, p, e⟩), -⟩ | guarded
  · exact absurd e notSupply
  · exact absurd e (notReset n)
  · exact absurd e (notRise m p)
  · exact guarded.railOut h

end Sys2Proof.Machine
end

section
/-! The backup domain (O11 to O15): the oscillator edge (R55), alarms and their log (R50 to R52, R60), the pair (R53) and the keep-count
inputs (R49). -/

namespace Sys2Proof.Machine

variable {s : State} {n : Fin 4} {level : Bool}

/-! ### The oscillator edge and the actions -/

/-- Settles O12: what an edge does, field by field. -/
theorem backupOscillatorEdge : Obligations.BackupOscillatorEdge := by
  intro s
  refine ⟨(oscEdge_moves s (Moves.refl _ s) fun _ h => h).only, fun h => if_pos h, fun h => if_neg (by simp [h]), rfl, rfl,
    fun ch => ?_⟩
  exact Vector.getElem_ofFn ch.isLt

/-- Settles O13: the backup domain is not clocked by PLL_SYS, so each action takes place at once. -/
theorem backupActions : Obligations.BackupActions := by
  intro s h
  have go (f : State → State) : onAny s f = .next (f s) := onAny_powered h f
  exact ⟨go _, go _, go _, go _, go _, go _, go _⟩

/-! ### Alarms (R50 to R52, R60) -/

/-- The level that alarm n shows at an oscillator edge is kept as the sample of that edge. -/
def Bkp.sampled (b : Bkp) (n : Fin 4) (level : Bool) : Bkp :=
  { b with almSeen := setBit b.almSeen n.val, almSample := assignBit b.almSample n.val level }

/-- The second edge that agrees: the level is accepted. -/
def Bkp.accepted (b : Bkp) (n : Fin 4) (level : Bool) : Bkp :=
  { b.sampled n level with almLevel := assignBit b.almLevel n.val level }

/-- An active level is accepted: VBAT_ALARM or RUN_ALARM shows it. -/
def Bkp.alarmed (b : Bkp) (n : Fin 4) (level : Bool) : Bkp :=
  { b.accepted n level with alarms := b.alarms.set (if !b.mainRun then 0 else 1) }

/-- The alarm's entry in a log with room. -/
def Bkp.logged (b : Bkp) (n : Fin 4) (level : Bool) : Bkp :=
  { b.alarmed n level with
    log := upd b.log (Fin.ofNat 16 b.logCount) fun _ => ⟨b.bc, BitVec.ofNat 2 n.val, !b.mainRun, true⟩,
    logCount := b.logCount + 1 }

theorem alarmEffect_unsampled (h : almSampled s n = false) : alarmEffect n level s = s := by
  simp [alarmEffect, h]

/-- The first edge at a level, or an edge at the level accepted already. -/
theorem alarmEffect_first (h : almSampled s n = true)
    (k : bit s.bkp.almSample n.val ≠ level ∨ bit s.bkp.almLevel n.val = level) :
    alarmEffect n level s = { s with bkp := s.bkp.sampled n level } := by
  have c : (bit s.bkp.almSample n.val != level || bit s.bkp.almLevel n.val == level) = true := by simpa using k
  simp only [alarmEffect, h, c, Bool.not_true, Bool.false_eq_true, if_false, if_true]; rfl

/-- The second edge at a new level. -/
theorem alarmEffect_second (h : almSampled s n = true)
    (k : ¬(bit s.bkp.almSample n.val ≠ level ∨ bit s.bkp.almLevel n.val = level)) :
    alarmEffect n level s =
      if bit s.bkp.almCfg n.val && level == bit s.bkp.almCfg (4 + n.val)
      then logAlarm { s with bkp := s.bkp.accepted n level } n else { s with bkp := s.bkp.accepted n level } := by
  have c : ¬(bit s.bkp.almSample n.val != level || bit s.bkp.almLevel n.val == level) = true := by simpa using k
  simp only [alarmEffect, h, c, Bool.not_true, Bool.false_eq_true, if_false]; rfl

theorem logAlarm_stored (h : s.bkp.logCount < 16) :
    logAlarm { s with bkp := s.bkp.accepted n level } n = { s with bkp := s.bkp.logged n level } := by
  have k : ¬16 ≤ (s.bkp.accepted n level).logCount := Nat.not_le.2 h
  simp only [logAlarm, State.modBkp, k, if_false]; rfl

theorem logAlarm_full (h : 16 ≤ s.bkp.logCount) :
    logAlarm { s with bkp := s.bkp.accepted n level } n =
      { s with bkp := { s.bkp.alarmed n level with logLost := satInc s.bkp.logLost } } := by
  have k : 16 ≤ (s.bkp.accepted n level).logCount := h
  simp only [logAlarm, State.modBkp, k, if_true]; rfl

/-- The pair is taken at an oscillator edge with PLL_SYS locked (R53). -/
theorem pairTakeEffect_due (a : s.bkp.pairDue = true) (b : s.bkp.oscRunning = true) (c : s.bkp.edgeNow = true)
    (d : s.sys.sysLock = true) :
    pairTakeEffect s = { s.freeStep with bkp := { s.bkp with
      pairBc := s.bkp.bc, pairTick := s.time + BitVec.ofNat 64 (freeValue s % 4), pairKc := s.bkp.kc, pairValid := true,
      pairDue := false, kcShown := s.bkp.kc } } :=
  if_pos (by simp [a, b, c, d])

theorem pairTakeEffect_idle
    (h : s.bkp.pairDue = false ∨ s.bkp.oscRunning = false ∨ s.bkp.edgeNow = false ∨ s.sys.sysLock = false) :
    pairTakeEffect s = s :=
  if_neg (by simp only [Bool.and_eq_true]; rintro ⟨⟨⟨a, b⟩, c⟩, d⟩; simp [a, b, c, d] at h)

/-- Settles O15: the sample, the accepted level, the entry or the lost count, and the pair. -/
theorem alarmsAndPairs : Obligations.AlarmsAndPairs := by
  intro s n level p
  have go (f : State → State) : onAny s f = .next (f s) := onAny_powered p f
  have active_iff : (bit s.bkp.almCfg n.val && level == bit s.bkp.almCfg (4 + n.val)) = true ↔
      bit s.bkp.almCfg n.val = true ∧ level = bit s.bkp.almCfg (4 + n.val) := by simp
  refine ⟨fun h => ?_, fun h => ⟨fun k => ?_, fun k a => ?_, fun k a room => ?_, fun k a full => ?_⟩, fun h => ?_,
    fun a b c d => ⟨freeValue s % 4, Nat.mod_lt _ (by decide), ?_⟩⟩
  · exact (go _).trans (by rw [alarmEffect_unsampled h])
  · exact (go _).trans (by rw [alarmEffect_first h k]; rfl)
  · exact (go _).trans (by rw [alarmEffect_second h k, if_neg (mt active_iff.1 a)]; rfl)
  · exact (go _).trans (by rw [alarmEffect_second h k, if_pos (active_iff.2 a), logAlarm_stored room]; rfl)
  · exact (go _).trans (by rw [alarmEffect_second h k, if_pos (active_iff.2 a), logAlarm_full full]; rfl)
  · exact (go _).trans (by rw [pairTakeEffect_idle h])
  · exact (go _).trans (by rw [pairTakeEffect_due a b c d])

/-! ### The order of the log (R51) -/

theorem bit_assignBit_same {k : Nat} (w : BitVec k) {i : Nat} (h : i < k) (v : Bool) : bit (assignBit w i v) i = v := by
  have e : (BitVec.ofNat k (1 <<< i)).getLsbD i = true := by
    rw [BitVec.getLsbD_ofNat, Nat.one_shiftLeft, Nat.testBit_two_pow_self]; simp [h]
  cases v <;> simp [bit, assignBit, e]

theorem satInc_byte (c : Byte) : (satInc c).toNat = min 255 (c.toNat + 1) := by
  have lt := c.isLt
  unfold satInc
  split
  · next e => rw [e]; rfl
  · next e =>
    have ne : c.toNat ≠ 255 := fun k => e (BitVec.eq_of_toNat_eq k)
    have sum : (c + 1).toNat = (c.toNat + 1) % 256 := BitVec.toNat_add c 1
    omega

/-- Settles O11: an entry is the next of the log, or it is lost in a full one. -/
theorem alarmLog : Obligations.AlarmLog := by
  intro s n level p
  have go (f : State → State) : onAny s f = .next (f s) := onAny_powered p f
  refine ⟨fun h sample new enabled active => ?_, _, go _,
    (logClearEffect_moves s (Moves.refl _ s) fun _ h => h).only, rfl, rfl, fun k => ?_⟩
  · have only : Only [.bkp] s (alarmEffect n level s) := (alarmEffect_moves n level s (Moves.refl _ s) fun _ h => h).only
    have second : ¬(bit s.bkp.almSample n.val ≠ level ∨ bit s.bkp.almLevel n.val = level) := by simp [sample, new]
    have active_iff : (bit s.bkp.almCfg n.val && level == bit s.bkp.almCfg (4 + n.val)) = true := by
      simp [enabled, ← active]
    rw [alarmEffect_second h second, if_pos active_iff] at only
    have shown : bit (assignBit s.bkp.almLevel n.val level) n.val = level := bit_assignBit_same _ n.isLt level
    have off (m : s.bkp.mainRun = false) : (s.bkp.alarmed n level).alarms.on 0 = true := by
      simpa [Bkp.alarmed, m] using Flags.on_set_same s.bkp.alarms (by decide : 0 < 2)
    have answer := (go (alarmEffect n level)).trans (by rw [alarmEffect_second h second, if_pos active_iff])
    by_cases full : 16 ≤ s.bkp.logCount
    · rw [logAlarm_full full] at only answer
      exact ⟨_, answer, only, shown, fun k e => absurd k.isLt (by omega), fun _ => ⟨rfl, rfl, satInc_byte _⟩, off⟩
    · rw [logAlarm_stored (Nat.not_le.1 full)] at only answer
      refine ⟨_, answer, only, shown, fun k e => ?_, fun f => absurd f full, off⟩
      have at_k : Fin.ofNat 16 s.bkp.logCount = k := Fin.ext (by rw [← e]; exact Nat.mod_eq_of_lt k.isLt)
      have log : (s.bkp.logged n level).log = upd s.bkp.log k fun _ => ⟨s.bkp.bc, BitVec.ofNat 2 n.val, !s.bkp.mainRun, true⟩ :=
        congrArg (fun i => upd s.bkp.log i fun _ => _) at_k
      refine ⟨rfl, rfl, fun j ne => ?_, ?_, ?_, ?_⟩
      · simp only [log, upd_other _ _ _ _ ne.symm]
      · simp only [log, upd_same]
      · simp only [log, upd_same]
      · simp only [log, upd_same]
        exact Nat.mod_eq_of_lt n.isLt
  · simp [logClearEffect]

/-! ### Keep-count inputs (R49) -/

/-- What a change of the two inputs counts before DIR, by mode. -/
theorem kcStep_eq (mode : Nat) (a b a' b' : Bool) : kcStep mode a b a' b' =
    if mode = 1 ∧ a = false ∧ a' = true then some (!b')
    else if mode = 2 ∧ a' = !b ∧ b' = a then some true
    else if mode = 2 ∧ a' = b ∧ b' = !a then some false
    else none := by
  by_cases x1 : mode = 1
  · subst x1; revert a b a' b'; decide
  · by_cases x4 : mode = 2
    · subst x4; revert a b a' b'; decide
    · simp [kcStep, x1, x4]

/-- Counter ch with its pins at the levels a and b after an edge, which counts unless it is lost. -/
def Bkp.kcEdge (k : Bkp) (ch : Fin 2) (a b lost : Bool) : Bkp :=
  let pins := { k with kcA := assignBit k.kcA ch.val a, kcB := assignBit k.kcB ch.val b }
  match kcStep (kcMode k ch) (bit k.kcA ch.val) (bit k.kcB ch.val) a b with
  | none => pins
  | some up => if lost then pins else { pins with kc := upd k.kc ch fun v => if up != kcDir k ch then v + 1 else v - 1 }

/-- An edge outside the limits is lost, or not, as a free value says. -/
theorem kcEdgeEffect_eq (ch : Fin 2) (pin : KcPin) (level inLimits : Bool) (s : State) :
    kcEdgeEffect ch pin level inLimits s = (if inLimits then s else s.freeStep).modBkp fun _ =>
      s.bkp.kcEdge ch (if pin = .a then level else bit s.bkp.kcA ch.val) (if pin = .b then level else bit s.bkp.kcB ch.val)
        (!inLimits && freeValue s % 2 == 0) := by
  cases pin <;> cases inLimits <;> rfl

theorem Bkp.kcEdge_lost (k : Bkp) (ch : Fin 2) (a b : Bool) :
    k.kcEdge ch a b true = { k with kcA := assignBit k.kcA ch.val a, kcB := assignBit k.kcB ch.val b } := by
  unfold kcEdge
  split <;> rfl

theorem Bkp.kcEdge_counted (k : Bkp) (ch : Fin 2) (a b : Bool) :
    let plus := upd k.kc ch fun v => if kcDir k ch then v - 1 else v + 1
    let minus := upd k.kc ch fun v => if kcDir k ch then v + 1 else v - 1
    let pins := { k with kcA := assignBit k.kcA ch.val a, kcB := assignBit k.kcB ch.val b }
    k.kcEdge ch a b false =
      if kcMode k ch = 1 ∧ bit k.kcA ch.val = false ∧ a = true then { pins with kc := if b then minus else plus }
      else if kcMode k ch = 2 ∧ a = !bit k.kcB ch.val ∧ b = bit k.kcA ch.val then { pins with kc := plus }
      else if kcMode k ch = 2 ∧ a = bit k.kcB ch.val ∧ b = !bit k.kcA ch.val then { pins with kc := minus }
      else pins := by
  simp only [kcEdge, kcStep_eq]
  -- Whatever an edge counts, up or down, DIR turns.
  split_ifs <;> simp_all

/-- Settles O14: the mode's step counts with the sense of DIR. -/
theorem keepCountEdges : Obligations.KeepCountEdges := by
  intro s ch pin level p
  have go (f : State → State) : onAny s f = .next (f s) := onAny_powered p f
  refine ⟨(go _).trans ?_, ?_⟩
  · rw [kcEdgeEffect_eq, ← Bkp.kcEdge_counted]; rfl
  · cases lost : freeValue s % 2 == 0
    · refine .inl ((go _).trans ?_)
      rw [kcEdgeEffect_eq, lost, ← Bkp.kcEdge_counted]; rfl
    · refine .inr ((go _).trans ?_)
      rw [kcEdgeEffect_eq, lost, ← Bkp.kcEdge_lost]; rfl

end Sys2Proof.Machine
end

section
/-! Rails, the pin reset and the first power of the backup domain (O16): a pin reset settles what is in flight and then puts every block
at its reset values (R35, R36, R78). -/

namespace Sys2Proof.Machine

variable {s : State}

/-- Every block is as at reset; the parts of SYS stay, and the backup domain, OTP, the array and the buffered writes of BKP are taken
over (R36, R78, R393). -/
@[simp] theorem resetBlocks_fields (soft : Bool) (s : State) :
    (resetBlocks soft s).undef = s.undef ∧ (resetBlocks soft s).time = 0 ∧ (resetBlocks soft s).sys = s.sys ∧
    (resetBlocks soft s).mp = Mp.init ∧ (resetBlocks soft s).bus = resetBus soft s.bus ∧
    (resetBlocks soft s).acc = Acc.init ∧ (resetBlocks soft s).lcs = (lcsReset (s.freeSteps 2)).lcs ∧
    (resetBlocks soft s).tbe = Tbe.init ∧ (resetBlocks soft s).tsq = Vector.replicate 16 Tsq.init ∧
    (resetBlocks soft s).cap = capInit ∧ (resetBlocks soft s).tagBase = 7 ∧ (resetBlocks soft s).pw = Pw.init ∧
    (resetBlocks soft s).qe = Qe.init ∧ (resetBlocks soft s).egr = Vector.replicate 4 Egr.init ∧
    (resetBlocks soft s).hl = Hl.init ∧ (resetBlocks soft s).fsp = Vector.replicate 8 Fsp.init ∧
    (resetBlocks soft s).fab = Fab.init ∧ (resetBlocks soft s).cfg = cfgReset (cfgArray s) ∧
    (resetBlocks soft s).scb = Scb.init ∧ (resetBlocks soft s).ua = Vector.replicate 18 Ua.init ∧
    (resetBlocks soft s).spc = Vector.replicate 2 Spc.init ∧ (resetBlocks soft s).pio = Pio.init ∧
    (resetBlocks soft s).adc = Adc.init ∧ (resetBlocks soft s).dm = [] ∧ (resetBlocks soft s).fs = [] ∧
    (resetBlocks soft s).bkp = (pairClear s).bkp := by
  have kept := (lcsReset_moves (s.freeSteps 2) (Moves.refl _ _) fun _ h => h).only
  refine ⟨kept .undef (by decide), rfl, kept .sys (by decide), rfl, congrArg (resetBus soft) (kept .bus (by decide)), rfl, rfl,
    rfl, rfl, rfl, rfl, rfl, rfl, rfl, rfl, rfl, rfl, rfl, rfl, rfl, rfl, rfl, rfl, rfl, rfl, ?_⟩
  exact congrArg (fun b => (pairClear { s with bkp := b }).bkp) (kept .bkp (by decide))

/-- With no posted write in flight there is nothing to settle. -/
theorem drainAll_quiet (h : s.bus.inflight = []) : drainAll s = s := by
  simp [drainAll, drainWhere, h, forEach]

theorem settleWrites_quiet (h : s.bus.inflight = []) : settleWrites s = s := by
  simp [settleWrites, drainAll_quiet h]

/-- A reset that finds no fuse operation leaves the fuses as they are (R127). -/
theorem lcsReset_idle (h : s.lcs.running = none) :
    (lcsReset s).lcs.lcw = s.lcs.lcw ∧ (lcsReset s).lcs.keyHash = s.lcs.keyHash ∧
    (lcsReset s).lcs.keyLock = s.lcs.keyLock ∧ (lcsReset s).lcs.nfd = s.lcs.nfd := by
  have idle : lcsInterrupt s = s := by simp [lcsInterrupt, h]
  simp [lcsReset, idle]

theorem pinResetEffect_short {lowNs : Nat} (h : lowNs < 20) : pinResetEffect lowNs s = s := if_pos h

/-- A pulse between the limits acts whole or not at all (R543). -/
theorem pinResetEffect_between {lowNs : Nat} (h : 20 ≤ lowNs) (k : lowNs ≤ 1000) :
    pinResetEffect lowNs s = s.freeStep ∨ pinResetEffect lowNs s = pinResetFull s.freeStep := by
  simp only [pinResetEffect, Nat.not_lt.2 h, k, if_false, if_true]
  split
  · exact .inl rfl
  · exact .inr rfl

theorem pinResetEffect_long {lowNs : Nat} (h : 1000 < lowNs) : pinResetEffect lowNs s = pinResetFull s := by
  simp [pinResetEffect, Nat.not_le.2 h, Nat.not_lt.2 (Nat.le_trans (by decide : 20 ≤ 1001) h)]

theorem resetNRiseEffect_held {met pcEn : Bool} (h : s.sys.phase = .held) : resetNRiseEffect met pcEn s =
    { s with
      undef := if met then none else some .earlyReset, sys := { s.sys with resetN := true, phase := .waitLock },
      cfg := { s.cfg with pcpEn := pcEn } } :=
  if_pos (beq_iff_eq.2 h)

theorem resetNRiseEffect_running {met pcEn : Bool} (h : s.sys.phase ≠ .held) : resetNRiseEffect met pcEn s = s :=
  if_neg fun k => h (beq_iff_eq.1 k)

theorem exec_pinReset (n : Nat) (s : State) : exec (.pinReset n) s = .next (pinResetEffect n s) := rfl

/-- What a pin reset keeps when no posted write was in flight: TOTAL_US, the array, the buffered writes of BKP and the backup domain,
and the fuses where no operation on them ran (R36, R78, R127, R393). -/
theorem pinResetFull_keeps (q : s.bus.inflight = []) :
    let t := pinResetFull s
    t.sys.totalUs = s.sys.totalUs ∧ t.cfg.slots = s.cfg.slots ∧ t.cfg.pcpEn = s.cfg.pcpEn ∧
    t.bus.bkpBuf.map (fun a => (a.id, a.req, a.addr, a.data)) = s.bus.bkpBuf.map (fun a => (a.id, a.req, a.addr, a.data)) ∧
    t.bkp = (pairClear s).bkp ∧
    (s.lcs.running = none → t.lcs.lcw = s.lcs.lcw ∧ t.lcs.keyHash = s.lcs.keyHash ∧ t.lcs.keyLock = s.lcs.keyLock ∧
      t.lcs.nfd = s.lcs.nfd) := by
  intro t
  have full : t = ((resetBlocks false s).setUndef none).modSys fun y =>
      { Sys.init with resetN := false, phase := .held, totalUs := y.totalUs } := by
    simp only [t, pinResetFull, settleWrites_quiet q]
  simp only [full, State.modSys_fields, State.setUndef_fields, resetBlocks_fields]
  refine ⟨trivial, rfl, rfl, ?_, trivial, fun idle => lcsReset_idle (s := s.freeSteps 2) idle⟩
  simp [resetBus]

/-- Settles O16: a rail, a pin reset by its length, the rise of RESET_N and the first power of the backup domain. -/
theorem suppliesAndPinReset : Obligations.SuppliesAndPinReset := by
  intro s lowNs met pcEn
  refine ⟨fun h => congrArg Host.Outcome.next (if_pos h), fun h => congrArg Host.Outcome.next (if_neg (by simp [h])),
    fun h => ?_, fun h k => ?_, fun h => ⟨pinResetFull s, ?_, ?_⟩,
    fun h => congrArg Host.Outcome.next (resetNRiseEffect_held h),
    fun h => congrArg Host.Outcome.next (resetNRiseEffect_running h),
    fun p => ⟨_, onAny_powered p _, (vbatEffect_moves s (Moves.refl _ s) (by decide)).only, rfl, rfl, rfl, rfl⟩⟩
  · rw [exec_pinReset, pinResetEffect_short h]
  · simp only [exec_pinReset, pinResetEffect_long (by decide : 1000 < 1001)]
    exact (pinResetEffect_between h k).imp (congrArg _) (congrArg _)
  · rw [exec_pinReset, pinResetEffect_long h]
  · obtain ⟨-, time, sys, mp, bus, acc, lcs, tbe, tsq, cap, tagBase, pw, qe, egr, hl, fsp, fab, cfg, scb, ua, spc, pio, adc, dm,
      fs, bkp⟩ := resetBlocks_fields false (settleWrites s)
    refine ⟨rfl, time, rfl, fun q => ?_, mp, acc, tbe, tsq, cap, tagBase, pw, qe, egr, hl, fsp, fab, scb, ua, spc, pio, adc, dm,
      fs, congrArg Bus.inflight bus, congrArg Bus.owed bus, congrArg Bus.hiLatches bus, congrArg Lcs.dbg lcs,
      congrArg Lcs.scope lcs, fun q => ?_⟩
    · exact (pinResetFull_keeps q).1
    · exact (pinResetFull_keeps q).2

end Sys2Proof.Machine
end

section
/-! The PLLs (O17): the first lock, the loss and the relock of each (R38, R152, R368, R561). -/

namespace Sys2Proof.Machine

variable {s : State} {us : Nat} {n : Fin 4}

/-! ### Lock -/

theorem pllLockEffect_sys (h : s.sys.phase = .waitLock) : pllLockEffect .sys us s = { s with
    time := 0, lcs := { s.lcs with latched := fusedState s.lcs.lcw },
    sys := { s.sys with sysLock := true, lockUs := us, phase := .bootSelect }, bkp := { s.bkp with pairDue := true } } :=
  if_pos h

theorem pllLockEffect_eth (h : s.sys.phase ≠ .held) (k : s.sys.ethFirst = false) :
    pllLockEffect .eth us s = egrRising s (s.modSys fun y => { y with ethLock := true, ethFirst := true }) :=
  if_neg (by simp [held, h, k])

theorem pllLockEffect_eth_idle (h : s.sys.phase = .held ∨ s.sys.ethFirst = true) : pllLockEffect .eth us s = s :=
  if_pos (by simpa [held] using h)

theorem pllLockEffect_hl (h : s.sys.phase ≠ .held) (k : s.sys.hlFirst = false) :
    pllLockEffect .hl us s = { s with sys := { s.sys with hlLock := true, hlFirst := true } } :=
  if_neg (by simp [held, h, k])

theorem pllLockEffect_fcg (h : s.sys.phase ≠ .held) :
    pllLockEffect (.fcg n) us s = { s with sys := { s.sys with fcgLock := setBit s.sys.fcgLock n.val } } :=
  if_neg (by simp [held, h])

/-- The links that come up touch only their ports. -/
theorem egrRising_only (f : Sys → Sys) :
    Only [.sys, .egr] s (egrRising s (s.modSys f)) ∧ (egrRising s (s.modSys f)).sys = f s.sys :=
  ⟨(egrRising_moves s _ ((Moves.refl _ s).modSys (by decide) f) (by decide)).only,
    (egrRising_moves s _ (Moves.refl [.egr] (s.modSys f)) fun _ h => h).only .sys (by decide)⟩

/-! ### Loss -/

theorem pllLossEffect_sys (h : s.sys.sysLock = true) : pllLossEffect .sys s = { s with
    undef := some .pllSysLost,
    sys := { s.sys with lol := s.sys.lol.set 0, clkFlag := s.sys.clkFlag.set 0, sysLock := false } } :=
  if_pos h

/-- The loss of PLL_ETH takes the links of the ports down, which leaves SYS alone. -/
theorem pllLossEffect_eth_sys (h : s.sys.ethLock = true) : (pllLossEffect .eth s).sys =
    { s.sys with lol := s.sys.lol.set 1, clkFlag := s.sys.clkFlag.set 0, ethLock := false } := by
  simp only [pllLossEffect, h, if_true]
  exact (Moves.each (Moves.refl [.qe, .egr, .dm] _) fun n t k => egrLoss_moves t n k fun _ h => h).only .sys (by decide)

theorem pllLossEffect_hl (h : s.sys.hlLock = true) : pllLossEffect .hl s =
    { s with sys := { s.sys with lol := s.sys.lol.set 2, clkFlag := s.sys.clkFlag.set 0, hlLock := false } } :=
  if_pos h

theorem pllLossEffect_fcg (h : bit s.sys.fcgLock n.val = true) : pllLossEffect (.fcg n) s = { s with sys := { s.sys with
    lol := s.sys.lol.set (4 + n.val), clkFlag := s.sys.clkFlag.set 0, fcgLock := assignBit s.sys.fcgLock n.val false } } :=
  if_pos h

/-! ### Relock -/

theorem pllRelockEffect_eth (h : s.sys.ethFirst = true) (k : s.sys.ethLock = false) :
    pllRelockEffect .eth s = egrRising s (s.modSys fun y => { y with ethLock := true }) :=
  if_pos (by simp [h, k])

theorem pllRelockEffect_hl (h : s.sys.hlFirst = true) (k : s.sys.hlLock = false) :
    pllRelockEffect .hl s = hlRetrain (s.modSys fun y => { y with hlLock := true }) :=
  if_pos (by simp [h, k])

theorem pllRelockEffect_fcg (h : s.sys.phase ≠ .held) :
    pllRelockEffect (.fcg n) s = { s with sys := { s.sys with fcgLock := setBit s.sys.fcgLock n.val } } :=
  if_neg (by simp [held, h])

/-- Training the ports of a list puts these into TRAIN and no other. -/
theorem forEach_portTrain_st (l : List (Fin 2)) (s : State) (p : Fin 2) :
    (getPort (forEach l (fun q s => s.modPort q portTrain) s) p).st = if p ∈ l then .train else (getPort s p).st := by
  unfold forEach
  induction l generalizing s with
  | nil => rfl
  | cons q r ih =>
    rw [List.foldl_cons, ih]
    by_cases e : p = q
    · subst e
      have trained : (getPort (s.modPort p portTrain) p).st = .train := congrArg HlPort.st (upd_same _ _ _)
      simp [trained]
    · have other : getPort (s.modPort q portTrain) p = getPort s p := upd_other _ _ _ _ fun k => e k.symm
      simp [other, e]

/-- After the relock of PLL_HL a port that was up trains again (R368). -/
theorem hlRetrain_st (s : State) (p : Fin 2) :
    (getPort (hlRetrain s) p).st = if (getPort s p).st = .up then .train else (getPort s p).st := by
  have listed : p ∈ (allFin 2).filter (fun p => (getPort s p).st == .up || (getPort s p).st == .train) ↔
      (getPort s p).st = .up ∨ (getPort s p).st = .train := by simp [allFin]
  unfold hlRetrain
  rw [forEach_portTrain_st]
  simp only [listed]
  by_cases up : (getPort s p).st = .up
  · simp [up]
  · simp only [up, false_or, if_false]
    exact ite_eq_right_iff.2 fun train => train.symm

/-- Settles O17: one equation per PLL for each of the three events. -/
theorem pllEvents : Obligations.PllEvents := by
  intro s us n p
  have go (f : State → State) : onAny s f = .next (f s) := onAny_powered p f
  refine ⟨fun h => ?_, fun h => ?_, fun h k => ⟨_, go _, ?_⟩, fun h => ?_, fun h k => ?_, fun h => ⟨?_, ?_⟩, fun h => ?_, go _,
    fun h => ⟨_, go _, pllLossEffect_eth_sys h⟩, fun h => ?_, fun h => ?_, fun h k => ⟨_, go _, ?_⟩,
    fun h k => ⟨_, go _, ?_⟩⟩
  · exact (go _).trans (by rw [pllLockEffect_sys h])
  · exact (go _).trans (congrArg _ (if_neg h))
  · rw [pllLockEffect_eth h k]; exact egrRising_only _
  · exact (go _).trans (by rw [pllLockEffect_eth_idle h])
  · exact (go _).trans (by rw [pllLockEffect_hl h k])
  · exact (go _).trans (by rw [pllLockEffect_fcg h])
  · exact (go _).trans (by rw [pllRelockEffect_fcg h])
  · exact (go _).trans (by rw [pllLossEffect_sys h])
  · exact (go _).trans (by rw [pllLossEffect_hl h])
  · exact (go _).trans (by rw [pllLossEffect_fcg h])
  · rw [pllRelockEffect_eth h k]; exact egrRising_only _
  · rw [pllRelockEffect_hl h k]
    exact ⟨(hlRetrain_moves _ ((Moves.refl _ s).modSys (by decide) _) (by decide)).only,
      (hlRetrain_moves _ (Moves.refl [.hl] _) fun _ h => h).only .sys (by decide), fun p => hlRetrain_st _ p⟩

end Sys2Proof.Machine
end

section
/-! Boot selection, against O18. -/

namespace Sys2Proof.Machine

/-- Boot selection with no slot to try, in the tick in which a frame scrub waits for the end of its zone's operation (R448). -/
def bootWithoutImage : State :=
  { State.reset with
    sys := { Sys.init with phase := .bootSelect, sysLock := true }
    moment := { Moment.init with scrub := some [] } }

/-- A configuration that fails gives up the visit, for it halts the scrubber. -/
theorem bootWithoutImage_moment : (bootSelectionEffect bootWithoutImage).moment.scrub = none := by decide

/-- Refutes O18: boot selection without a candidate fails the configuration, which halts the scrubber (R434) and so drops the frame
visit that the tick still owes. The clause's frame leaves the tick's own record (`Part.moment`) out. -/
theorem not_bootAndSoftReset : ¬ Obligations.BootAndSoftReset := by
  unfold Obligations.BootAndSoftReset
  intro h
  have clocked : Clocked bootWithoutImage := by decide
  obtain ⟨-, selects, -⟩ := h bootWithoutImage false clocked
  obtain ⟨t, answer, only, -⟩ := selects rfl (by decide)
  have next : t = bootSelectionEffect bootWithoutImage := by
    rw [show exec .bootSelection bootWithoutImage = _ from onSys_clocked clocked bootSelectionEffect] at answer
    injection answer with e
    exact e.symm
  have kept : t.moment = bootWithoutImage.moment := only .moment (by decide)
  rw [next] at kept
  exact absurd (congrArg Moment.scrub kept) (by rw [bootWithoutImage_moment]; decide)

end Sys2Proof.Machine
end

section
/-! The links of the egress ports (O45): the link as its receiver reports it (R306), its losses and the LINK fault that counts them (R319,
R324 to R326), and the settings (R323). -/

namespace Sys2Proof.Machine

variable {s : State} {n : Fin 4} {rx : LinkRx} {f : EgrFault}

/-! ### One port -/

/-- The state in which port n has become p. -/
def withEgr (s : State) (n : Fin 4) (p : Egr) : State := { s with egr := upd s.egr n fun _ => p }

theorem modEgr_eq (s : State) (n : Fin 4) (f : Egr → Egr) : s.modEgr n f = withEgr s n (f (getEgr s n)) := rfl

theorem getEgr_withEgr (s : State) (n : Fin 4) (p : Egr) : getEgr (withEgr s n p) n = p := upd_same _ _ _

theorem getElem_withEgr (s : State) (n : Fin 4) (p : Egr) : (withEgr s n p).egr[n.val] = p := upd_same _ _ _

theorem withEgr_others (s : State) (n : Fin 4) (p : Egr) : Others n s.egr (withEgr s n p).egr :=
  fun _ ne => upd_other _ _ _ _ ne.symm

theorem withEgr_withEgr (s : State) (n : Fin 4) (p q : Egr) : withEgr (withEgr s n p) n q = withEgr s n q := by
  simp only [withEgr, upd_upd]

theorem withEgr_self (s : State) (n : Fin 4) : withEgr s n (getEgr s n) = s :=
  congrArg (fun v => { s with egr := v }) (upd_id _ _ _ rfl)

/-! ### The link -/

/-- The receiver of a port finds a clear link. -/
def Egr.clear (p : Egr) : Prop :=
  p.blockLock = true ∧ p.hiBer = false ∧ p.rxLocalFault = false ∧ p.rxRemoteFault = false

theorem egrUp_iff : egrUp s n = true ↔ (getEgr s n).clear ∧ s.sys.ethLock = true := by
  simp [egrUp, egrDeaf, Egr.clear, and_assoc]

/-- What the receiver of a port reports from now on. -/
def Egr.reports (p : Egr) (rx : LinkRx) : Egr :=
  { p with blockLock := rx.blockLock, hiBer := rx.hiBer, rxLocalFault := rx.localFault, rxRemoteFault := rx.remoteFault }

/-- Only one report keeps the link up. -/
theorem reports_clear_iff (p : Egr) : (p.reports rx).clear ↔ rx = LinkRx.good := by
  cases rx
  simp [Egr.clear, Egr.reports, LinkRx.good]

theorem egrUp_reports : egrUp (withEgr s n ((getEgr s n).reports rx)) n = true ↔ rx = LinkRx.good ∧ s.sys.ethLock = true := by
  rw [egrUp_iff, getEgr_withEgr, reports_clear_iff]; rfl

/-- The link is lost, comes up, or stays as it was. -/
theorem egrReceiver_eq : egrReceiver n rx s =
    let t := withEgr s n ((getEgr s n).reports rx)
    if egrUp s n && !egrUp t n then egrLoss t n else if !egrUp s n && egrUp t n then egrRisen t n else t := rfl

theorem egrReceiver_stays (h : egrUp s n = true ↔ rx = LinkRx.good ∧ s.sys.ethLock = true) :
    egrReceiver n rx s = withEgr s n ((getEgr s n).reports rx) := by
  have same : egrUp (withEgr s n ((getEgr s n).reports rx)) n = egrUp s n := Bool.eq_iff_iff.2 (egrUp_reports.trans h.symm)
  simp only [egrReceiver_eq, same]
  cases egrUp s n <;> rfl

/-- A link that comes up arms the port and ends the time in which an open fault counts it as down (R324). -/
theorem egrReceiver_rises (h : egrUp s n = false) (k : s.sys.ethLock = true) :
    egrReceiver n LinkRx.good s = withEgr s n { (getEgr s n).reports LinkRx.good with
      armed := (getEgr s n).armed || (egrEn (getEgr s n).group.active && !(getEgr s n).retired)
      fault := (getEgr s n).fault.map fun f => { f with downTicks := egrDownTicks s f, downSince := none } } := by
  have up : egrUp (withEgr s n ((getEgr s n).reports LinkRx.good)) n = true := egrUp_reports.2 ⟨rfl, k⟩
  simp only [egrReceiver_eq, up, h, Bool.not_true, Bool.not_false, Bool.and_self, Bool.false_eq_true, if_false, if_true]
  simp only [egrRisen, modEgr_eq, getEgr_withEgr, withEgr_withEgr]
  rfl

theorem egrReceiver_falls (h : egrUp s n = true) (k : rx ≠ LinkRx.good) :
    egrReceiver n rx s = egrLoss (withEgr s n ((getEgr s n).reports rx)) n := by
  have down : egrUp (withEgr s n ((getEgr s n).reports rx)) n = false :=
    Bool.eq_false_iff.2 fun u => k (egrUp_reports.1 u).1
  simp only [egrReceiver_eq, down, h, Bool.not_false, Bool.and_self, if_true]

theorem linkUpEffect_dark (h : pinsLive s = false) : linkUpEffect n s = s := if_neg (by simp [h])
theorem linkUpEffect_live (h : pinsLive s = true) : linkUpEffect n s = egrReceiver n LinkRx.good s := if_pos h
theorem linkDownEffect_none (h : rx = LinkRx.good ∨ pinsLive s = false) : linkDownEffect n rx s = s :=
  if_pos (by simpa using h)
theorem linkDownEffect_live (h : rx ≠ LinkRx.good) (k : pinsLive s = true) : linkDownEffect n rx s = egrReceiver n rx s :=
  if_neg (by simp [h, k])

/-! ### The LINK fault (R324 to R326) -/

/-- A port whose LINK fault is closed. -/
def Egr.closed (p : Egr) : Egr := { p with fault := none, flags := p.flags.set 1 }

/-- A port that a permanent LINK fault retires; seq is the number of the fault's record. -/
def Egr.retire (p : Egr) (seq : Word) : Egr :=
  { p.closed with retired := true, armed := false, faultSeq := seq, flags := p.closed.flags.set 2, group := p.group.drop }

theorem egrClose_egr (perm r : Bool) : (egrClose s n f perm r).egr = (withEgr s n (getEgr s n).closed).egr := by
  have kept (g : FaultRec) : (recordFault s g).egr = s.egr :=
    (recordFault_moves s g (Moves.refl _ s) fun _ h => h).only .egr (by decide)
  unfold egrClose
  rw [modEgr_eq, getEgr, withEgr, kept]; rfl

theorem egrPermanent_retires (h : (getEgr s n).retired = false) :
    (egrPermanent s n f).egr = (withEgr s n ((getEgr s n).retire s.qe.seq)).egr := by
  have closed := egrClose_egr (s := s) (n := n) (f := f) true true
  have now : getEgr (egrClose s n f true true) n = (getEgr s n).closed := by
    rw [getEgr, closed]; exact getEgr_withEgr s n _
  simp only [egrPermanent, h, Bool.not_false, if_true, modEgr_eq, now]
  simp only [withEgr, closed, upd_upd]
  rfl

theorem egrPermanent_retired (h : (getEgr s n).retired = true) : egrPermanent s n f = egrClose s n f true false := by
  simp [egrPermanent, h]

/-- A port that has lost its link: the frame on the wire is cut and counts as discarded (R319). -/
def Egr.lost (p : Egr) : Egr :=
  { p with linkLoss := p.linkLoss + 1, flags := p.flags.set 0, wire := none,
           discFrames := if p.wire.isSome then p.discFrames + 1 else p.discFrames }

variable {q : Egr}

theorem egrLoss_unwatched (h : q.armed = false ∨ q.retired = true) : egrLoss (withEgr s n q) n = withEgr s n q.lost := by
  simp only [egrLoss, modEgr_eq, getEgr_withEgr, withEgr_withEgr]
  exact if_pos (by simpa using h)

/-- A loss of a port that watches its link opens a LINK fault. -/
theorem egrLoss_first (h : q.armed = true) (k : q.retired = false) (e : q.fault = none) :
    egrLoss (withEgr s n q) n = withEgr s n { q.lost with
      fault := some { start := s.clock, losses := 1, downTicks := 0, downSince := some s.clock } } := by
  simp only [egrLoss, modEgr_eq, getEgr_withEgr, withEgr_withEgr]
  rw [if_neg (by simp [h, k])]
  split
  · rfl
  · next g => cases e.symm.trans g

/-- A port whose open LINK fault counts one loss more. -/
def Egr.lostAgain (q : Egr) (f : EgrFault) (clock : Nat) : Egr :=
  { q.lost with fault := some { f with losses := f.losses + 1, downSince := some clock } }

/-- A further loss counts, and the fourth makes the fault permanent (R325). -/
theorem egrLoss_further (h : q.armed = true) (k : q.retired = false) (e : q.fault = some f) :
    egrLoss (withEgr s n q) n =
      if 4 ≤ f.losses + 1
      then egrPermanent (withEgr s n (q.lostAgain f s.clock)) n { f with losses := f.losses + 1, downSince := some s.clock }
      else withEgr s n (q.lostAgain f s.clock) := by
  simp only [egrLoss, modEgr_eq, getEgr_withEgr, withEgr_withEgr]
  rw [if_neg (by simp [h, k])]
  split
  · next g => cases e.symm.trans g
  · next g =>
    cases e.symm.trans g
    rfl

/-! ### LINK_DOWN on a port whose link was up -/

section
variable (h : rx ≠ LinkRx.good) (live : pinsLive s = true) (up : egrUp s n = true)
include h live up

theorem linkDownEffect_falls : linkDownEffect n rx s = egrLoss (withEgr s n ((getEgr s n).reports rx)) n :=
  (linkDownEffect_live h live).trans (egrReceiver_falls up h)

theorem linkDownEffect_unwatched (w : (getEgr s n).armed = false ∨ (getEgr s n).retired = true) :
    linkDownEffect n rx s = withEgr s n ((getEgr s n).reports rx).lost := by
  rw [linkDownEffect_falls h live up]
  exact egrLoss_unwatched w

theorem linkDownEffect_first (a : (getEgr s n).armed = true) (r : (getEgr s n).retired = false)
    (e : (getEgr s n).fault = none) : linkDownEffect n rx s = withEgr s n { ((getEgr s n).reports rx).lost with
      fault := some { start := s.clock, losses := 1, downTicks := 0, downSince := some s.clock } } := by
  rw [linkDownEffect_falls h live up]
  exact egrLoss_first a r e

theorem linkDownEffect_further (a : (getEgr s n).armed = true) (r : (getEgr s n).retired = false)
    (e : (getEgr s n).fault = some f) (few : f.losses < 3) :
    linkDownEffect n rx s = withEgr s n (((getEgr s n).reports rx).lostAgain f s.clock) := by
  rw [linkDownEffect_falls h live up, egrLoss_further (q := (getEgr s n).reports rx) a r e, if_neg (by omega)]

theorem linkDownEffect_last (a : (getEgr s n).armed = true) (r : (getEgr s n).retired = false)
    (e : (getEgr s n).fault = some f) (many : 3 ≤ f.losses) : (linkDownEffect n rx s).egr =
      (withEgr s n ((((getEgr s n).reports rx).lostAgain f s.clock).retire s.qe.seq)).egr := by
  have watched : (getEgr (withEgr s n (((getEgr s n).reports rx).lostAgain f s.clock)) n).retired = false := by
    rw [getEgr_withEgr]; exact r
  rw [linkDownEffect_falls h live up, egrLoss_further (q := (getEgr s n).reports rx) a r e, if_pos (by omega),
    egrPermanent_retires watched, getEgr_withEgr, withEgr_withEgr]
  rfl

end

/-! ### The window and the end of a fault -/

theorem egrWindowEndEffect_none (e : (getEgr s n).fault = none) : egrWindowEndEffect n s = s := by
  simp only [egrWindowEndEffect, e]

theorem egrWindowEndEffect_early (e : (getEgr s n).fault = some f)
    (h : s.clock < f.start + egrLimit (getEgr s n).group.active * tenMs) : egrWindowEndEffect n s = s := by
  simp only [egrWindowEndEffect, e, h, if_true]

theorem egrClassAtStop_none (e : (getEgr s n).fault = none) : egrClassAtStop s n = s := by
  simp only [egrClassAtStop, e]

/-- At the end of its window a fault is classed as when the port stops detecting faults (R324, R562). -/
theorem egrWindowEndEffect_over (e : (getEgr s n).fault = some f)
    (h : f.start + egrLimit (getEgr s n).group.active * tenMs ≤ s.clock) : egrWindowEndEffect n s = egrClassAtStop s n := by
  simp only [egrWindowEndEffect, egrClassAtStop, e, Nat.not_lt.2 h, if_false]

/-- A transient fault, or one of a port that is retired already, is closed alone. -/
theorem egrClassAtStop_closes (e : (getEgr s n).fault = some f)
    (h : (egrUp s n = true ∧ f.losses ≤ 3) ∨ (getEgr s n).retired = true) :
    (egrClassAtStop s n).egr = (withEgr s n (getEgr s n).closed).egr := by
  simp only [egrClassAtStop, e]
  split
  · exact egrClose_egr _ _
  · next permanent =>
    rw [egrPermanent_retired (h.resolve_left fun k => permanent (by simpa using k))]
    exact egrClose_egr _ _

theorem egrClassAtStop_retires (e : (getEgr s n).fault = some f) (h : ¬(egrUp s n = true ∧ f.losses ≤ 3))
    (k : (getEgr s n).retired = false) :
    (egrClassAtStop s n).egr = (withEgr s n ((getEgr s n).retire s.qe.seq)).egr := by
  simp only [egrClassAtStop, e]
  rw [if_neg (by simpa using h), egrPermanent_retires k]

/-! ### REVIVE and the settings (R323, R325, R331) -/

theorem egrReviveEffect_idle (h : (getEgr s n).retired = false) : egrReviveEffect n s = s := if_pos (by simp [h])

theorem egrReviveEffect_retired (h : (getEgr s n).retired = true) : egrReviveEffect n s = withEgr s n { getEgr s n with
    retired := false, armed := false, pseq := Vector.replicate 8 0, gapLast := Vector.replicate 16 none } :=
  if_neg (by simp [h])

theorem rxCiEffect_inside {ci : Byte} (h : (ci - (getEgr s n).rxCi).toNat ≤ ((getEgr s n).rxPi - (getEgr s n).rxCi).toNat) :
    rxCiEffect n ci s = withEgr s n { getEgr s n with rxCi := ci } := by
  rw [rxCiEffect, modEgr_eq, if_pos h]

theorem rxCiEffect_beyond {ci : Byte} (h : ((getEgr s n).rxPi - (getEgr s n).rxCi).toNat < (ci - (getEgr s n).rxCi).toNat) :
    rxCiEffect n ci s = s := by
  rw [rxCiEffect, modEgr_eq, if_neg (Nat.not_le.2 h), withEgr_self]

theorem egrApply_none (h : (getEgr s n).group.pending = false) : egrApply n s = s := if_pos (by simp [h])

/-- A commit waits while the port holds entries and can start no frame. -/
theorem egrCommitEffect_waits (h : egrCanStart s n = false) (k : (getEgr s n).held ≠ []) : egrCommitEffect n s = s :=
  if_neg (by simp [h, k])

theorem egrCommitEffect_idle (h : (getEgr s n).group.pending = false) : egrCommitEffect n s = s := by
  unfold egrCommitEffect
  split
  · exact egrApply_none h
  · rfl

theorem egrCommitEffect_safe (h : egrCanStart s n = true ∨ (getEgr s n).held = []) : egrCommitEffect n s = egrApply n s :=
  if_pos (by simpa using h)

theorem egrCanStart_iff : egrCanStart s n = true ↔
    ¬((∃ f ∈ (getEgr s n).frames, f.ready = false) ∨ (egrDiscards s n = false ∧ 2 ≤ buffersUsed (getEgr s n))) := by
  have building : (∃ f ∈ (getEgr s n).frames, f.ready = false) ↔ egrBuilding (getEgr s n) = true := by simp [egrBuilding]
  rw [building]
  simp [egrCanStart, or_iff_not_imp_left]

/-- The port with its pending group applied; up says whether its link is up. -/
def Egr.applied (p : Egr) (old new : EgrGroup) (up : Bool) : Egr :=
  { p with
    group := p.group.apply
    armed := egrEn new && (if egrEn old then p.armed else up && !p.retired)
    gapLast := Vector.ofFn fun i : Fin 16 =>
      if bit old.gap[i.val] 31 = bit new.gap[i.val] 31 ∧ fld old.gap[i.val] 9 0 = fld new.gap[i.val] 9 0 then p.gapLast[i.val]
      else none }

theorem applied_unarmed {old new : EgrGroup} {up : Bool} (off : egrEn new = false) :
    (q.applied old new up).armed = false := by
  simp [Egr.applied, off]

theorem egrApply_quiet (h : (getEgr s n).group.pending = true)
    (k : egrEn (getEgr s n).group.active = false ∨ egrEn (getEgr s n).group.shadow = true ∨ (getEgr s n).fault = none) :
    egrApply n s = withEgr s n
      ((getEgr s n).applied (getEgr s n).group.active (getEgr s n).group.shadow (egrUp s n)) := by
  have stop : (if egrEn (getEgr s n).group.active && !egrEn (getEgr s n).group.shadow then egrClassAtStop s n else s) = s := by
    split
    · next c =>
      obtain ⟨on, off⟩ : egrEn (getEgr s n).group.active = true ∧ egrEn (getEgr s n).group.shadow = false := by simpa using c
      exact egrClassAtStop_none (by simpa [on, off] using k)
    · rfl
  simp only [egrApply, h, Bool.not_true, Bool.false_eq_true, if_false, stop, modEgr_eq, Prod.mk.injEq]
  rfl

/-- A port disabled with a LINK fault open classes it first (R562); q is the port with its fault closed. -/
theorem egrApply_stops (h : (getEgr s n).group.pending = true) (on : egrEn (getEgr s n).group.active = true)
    (off : egrEn (getEgr s n).group.shadow = false) (closed : (egrClassAtStop s n).egr = (withEgr s n q).egr) :
    ∃ up, (egrApply n s).egr =
      (withEgr s n (q.applied (getEgr s n).group.active (getEgr s n).group.shadow up)).egr := by
  have stop : (egrEn (getEgr s n).group.active && !egrEn (getEgr s n).group.shadow) = true := by simp [on, off]
  have port : getEgr (egrClassAtStop s n) n = q := by
    rw [getEgr, closed]; exact getEgr_withEgr s n q
  refine ⟨egrUp (egrClassAtStop s n) n, ?_⟩
  simp only [egrApply, h, stop, Bool.not_true, Bool.false_eq_true, if_false, if_true, modEgr_eq, port, Prod.mk.injEq]
  simp only [withEgr, closed, upd_upd]
  rfl

/-- What a port disabled with a LINK fault open keeps of it: the fault is closed, and retires the port unless it was transient. -/
theorem egrApply_disables (h : (getEgr s n).group.pending = true) (on : egrEn (getEgr s n).group.active = true)
    (off : egrEn (getEgr s n).group.shadow = false) (e : (getEgr s n).fault = some f) :
    let p := getEgr s n
    let t := egrApply n s
    let transient := egrUp s n && decide (f.losses ≤ 3)
    Others n s.egr t.egr ∧ t.egr[n.val].fault = none ∧ t.egr[n.val].armed = false ∧
      t.egr[n.val].group.active = p.group.shadow ∧ t.egr[n.val].group.pending = (p.group.again && (transient || p.retired)) ∧
      t.egr[n.val].retired = (p.retired || !transient) := by
  intro p t transient
  have transient_iff : transient = true ↔ egrUp s n = true ∧ f.losses ≤ 3 := by simp [transient]
  cases alive : p.retired <;> cases cls : transient
  case false.false =>
    have permanent : ¬(egrUp s n = true ∧ f.losses ≤ 3) := fun u => by simp [transient_iff.2 u] at cls
    obtain ⟨up, egr⟩ := egrApply_stops h on off (egrClassAtStop_retires e permanent alive)
    simp only [t, egr, getElem_withEgr, Bool.or_self, Bool.and_false]
    exact ⟨withEgr_others _ _ _, rfl, applied_unarmed off, rfl, rfl, rfl⟩
  all_goals
    have closes : (egrUp s n = true ∧ f.losses ≤ 3) ∨ p.retired = true := by simp [← transient_iff, cls, alive]
    obtain ⟨up, egr⟩ := egrApply_stops h on off (egrClassAtStop_closes e closes)
    simp only [t, egr, getElem_withEgr, Bool.or_true, Bool.true_or, Bool.and_true]
    exact ⟨withEgr_others _ _ _, rfl, applied_unarmed off, rfl, rfl, alive⟩

/-- Settles O45: the link, its fault, REVIVE, the counters and the settings, case by case. -/
theorem egressLinks : Obligations.EgressLinks := by
  intro s n rx mask ci c p g becomes good clear link reports lost
  have go (f : State → State) : onSys s f = .next (f s) := onSys_clocked c f
  have answer {f : State → State} {t : State} (h : f s = t) : onSys s f = .next t := (go f).trans (congrArg _ h)
  have up_iff : egrUp s n = true ↔ link := egrUp_iff
  refine ⟨fun dark => ⟨answer (linkUpEffect_dark dark), answer (linkDownEffect_none (.inr dark))⟩,
    answer (linkDownEffect_none (.inl rfl)), fun live => ⟨fun h => ?_, fun h e => ?_, fun h k => ?_, fun h k => ?_⟩,
    fun e => answer (egrWindowEndEffect_none e), fun f e => ?_, fun h => answer (egrReviveEffect_idle h),
    fun h => answer (egrReviveEffect_retired h), go _, go _, fun h => answer (rxCiEffect_inside h),
    fun h => answer (rxCiEffect_beyond h), ?_⟩
  · refine answer ((linkUpEffect_live live).trans (egrReceiver_stays ⟨fun u => ⟨rfl, (up_iff.1 u).2⟩, fun k => ?_⟩))
    exact up_iff.2 (h.resolve_right (by simp [k.2]))
  · exact answer ((linkUpEffect_live live).trans (egrReceiver_rises (Bool.eq_false_iff.2 (mt up_iff.1 h)) e))
  · exact answer ((linkDownEffect_live h live).trans
      (egrReceiver_stays ⟨fun u => absurd (up_iff.1 u) k, fun u => absurd u.1 h⟩))
  · have up := up_iff.2 k
    exact ⟨fun w => answer (linkDownEffect_unwatched h live up w), fun a r =>
      ⟨fun e => answer (linkDownEffect_first h live up a r e),
        fun f e few => answer (linkDownEffect_further h live up a r e few),
        fun f e many => ⟨_, go _, (linkDownEffect_moves n rx s (Moves.refl _ s) (by decide)).only,
          linkDownEffect_last h live up a r e many⟩⟩⟩
  · have only := (egrWindowEndEffect_moves n s (Moves.refl [.egr, .qe, .dm] s) (by decide)).only
    refine ⟨fun h => answer (egrWindowEndEffect_early e h), fun h k => ⟨_, go _, only, ?_⟩, fun h k r => ⟨_, go _, only, ?_⟩⟩
    · rw [egrWindowEndEffect_over e h]
      exact egrClassAtStop_closes e (k.imp (And.imp_left up_iff.2) id)
    · rw [egrWindowEndEffect_over e h]
      refine egrClassAtStop_retires e (fun u => ?_) r
      exact k.elim (fun down => down (up_iff.1 u.1)) (fun many => absurd u.2 (Nat.not_le.2 many))
  · intro building full new applied
    have start_iff : egrCanStart s n = true ↔ ¬(building ∨ full) := egrCanStart_iff
    have up_eq : egrUp s n = decide link := Bool.eq_iff_iff.2 (up_iff.trans decide_eq_true_iff.symm)
    refine ⟨fun h => answer ?_, fun h k => ⟨fun q => answer ?_, fun f on off e => ⟨_, go _, ?_, ?_⟩⟩⟩
    · rcases h with h | ⟨held, busy⟩
      · exact egrCommitEffect_idle h
      · exact egrCommitEffect_waits (Bool.eq_false_iff.2 fun u => start_iff.1 u busy) held
    · rw [egrCommitEffect_safe (k.symm.imp_left start_iff.2), egrApply_quiet h q, up_eq]
      rfl
    · exact (egrCommitEffect_moves n s (Moves.refl _ s) (by decide)).only
    · rw [egrCommitEffect_safe (k.symm.imp_left start_iff.2), Bool.decide_and, ← up_eq]
      exact egrApply_disables h on off e

end Sys2Proof.Machine
end

section
/-! What one access meets (R73, R74, R76, R110): its check, whether a block answers, the earlier writes it waits for, and the fence. -/

namespace Sys2Proof.Machine

variable {s t : State} {r : Req} {wr : Bool} {a w : Word} {ecc : Ecc}

/-! ### What the check and the answer of an access depend on -/

theorem checkAccess_congr (g : t.acc.group.active = s.acc.group.active) (l : t.lcs = s.lcs) :
    checkAccess t r wr a = checkAccess s r wr a := by
  unfold checkAccess fixedRule tableWhy accActive scopeHas stateOpens
  rw [g, l]

theorem responds_congr (y : t.sys = s.sys) (b : t.bkp = s.bkp) : responds t a = responds s a := by
  simp only [responds, y, b]

/-- While PLL_SYS is locked every block but the backup domain answers (R73, R75, R90). -/
theorem responds_clocked {b : Block} (c : Clocked s) (h : blockOf a = some b) (k : b ≠ .bkp) : responds s a = true := by
  cases b <;> simp_all [responds]

/-! ### FENCE (R110) -/

/-- While no access has retired or been issued, FENCE does not change. -/
theorem noteFence_same (o : unretired t = unretired s) (e : t.bus.epochOrder = s.bus.epochOrder) : noteFence s t = t := by
  have same : fence t = fence s := by simp only [fence, o, e]
  simp [noteFence, same]

theorem noteFence_of_only {ps : List Part} (o : Only ps s t) (b : Part.bus ∉ ps) (q : Part.qe ∉ ps) : noteFence s t = t :=
  noteFence_same (by simp only [unretired, show t.bus = s.bus from o .bus b, show t.qe = s.qe from o .qe q])
    (congrArg Bus.epochOrder (o .bus b))

theorem noteFence_only (s t : State) : Only [.acc] t (noteFence s t) :=
  (noteFence_moves s t (Moves.refl _ t) fun _ h => h).only

/-! ### Earlier writes of the requester (R76) -/

theorem drainWhere_none {p : Access → Bool} (h : ∀ x ∈ s.bus.inflight, p x = false) : drainWhere p s = s := by
  have none_left : s.bus.inflight.filter p = [] := List.filter_eq_nil_iff.2 fun x m => by simp [h x m]
  simp [drainWhere, none_left, forEach]

theorem settleBlock_settled (h : Settled s r a) : settleBlock r a s = s := by
  refine drainWhere_none fun x m => Bool.eq_false_iff.2 fun k => ?_
  obtain ⟨q, b⟩ : x.req = r ∧ blockOf x.addr = blockOf a := by simpa using k
  exact h x m q b

theorem settleBefore_settled (h : Settled s r a) (d : isDoorbell a = false) : settleBefore r a s = s := by
  simp [settleBefore, settleBlock_settled h, d]

/-! ### One read -/

theorem issueRead_refused {why : BitVec 4} (h : checkAccess s r false a = some why) :
    issueRead r a ecc s = ((.denied, 0), logRefusal s r false a why) := by
  simp [issueRead, h]

theorem issueRead_taken (h : checkAccess s r false a = none) (k : responds s a = true) (q : Settled s r a) :
    issueRead r a ecc s = ((.ok, (takeRead r a ecc s).1), noteFence s (takeRead r a ecc s).2) := by
  simp [issueRead, h, k, settleBlock_settled q]

theorem takeRead_plain (h : PlainRead a) : takeRead r a ecc s = (regWord r s a, s) := by
  obtain ⟨lo, hi, plain⟩ := h
  simp only [takeRead, lo, hi, Bool.false_eq_true, if_false]
  split
  · next e => exact absurd rfl (plain _ e).2.1
  · next e => exact absurd rfl (plain _ e).2.2.1
  · next e => exact absurd rfl (plain _ e).2.2.2.1
  · next e => exact absurd rfl (plain _ e).2.2.2.2.1
  · next e => exact absurd rfl (plain _ e).2.2.2.2.2
  · rfl

theorem issueRead_plain (h : checkAccess s r false a = none) (k : responds s a = true) (q : Settled s r a)
    (p : PlainRead a) : issueRead r a ecc s = ((.ok, regWord r s a), s) := by
  simp only [issueRead_taken h k q, takeRead_plain p, noteFence_self]

/-! ### One write -/

theorem issueWrite_refused {why : BitVec 4} (h : checkAccess s r true a = some why) :
    issueWrite s r a w = (.denied, logRefusal s r true a why) := by
  simp [issueWrite, h]

theorem issueWrite_unanswered (h : checkAccess s r true a = none)
    (k : responds s a = false ∨ (blockOf a = some .bkp ∧ 8 ≤ s.bus.bkpBuf.length)) :
    issueWrite s r a w = (.noresp, s) := by
  rcases k with k | ⟨b, k⟩
  · simp [issueWrite, h, k]
  · simp only [issueWrite, h, b, k, if_true, ite_self]

theorem issueWrite_posted (h : checkAccess s r true a = none) (k : responds s a = true) (b : blockOf a ≠ some .bkp) :
    issueWrite s r a w = (.ok, postWrite s r a w) := by
  simp [issueWrite, h, k, b]

theorem issueWrite_buffered (h : checkAccess s r true a = none) (k : responds s a = true) (b : blockOf a = some .bkp)
    (room : s.bus.bkpBuf.length < 8) : issueWrite s r a w = (.ok, postBkp s r a w) := by
  simp [issueWrite, h, k, b, Nat.not_le.2 room]

/-! ### A write as it acts in descriptor memory -/

/-- The map of R89: the first and the last address of each block. -/
def blockRows : List (Nat × Nat × Block) :=
  [(0, 0x3FF, .mirror), (0x1_0000, 0x1_FFFF, .sys), (0x2_0000, 0x2_FFFF, .acc), (0x3_0000, 0x3_FFFF, .lcs),
   (0x4_0000, 0x4_FFFF, .tbe), (0x5_0000, 0x5_FFFF, .tsq), (0x6_0000, 0x6_FFFF, .cap), (0x7_0000, 0x7_FFFF, .pw),
   (0x8_0000, 0xF_FFFF, .qe), (0x10_0000, 0x1F_FFFF, .desc), (0x20_0000, 0x20_3FFF, .egr), (0x21_0000, 0x21_FFFF, .hl),
   (0x22_0000, 0x22_11FF, .ua), (0x23_0000, 0x23_01FF, .spc), (0x24_0000, 0x24_FFFF, .pio), (0x25_0000, 0x25_FFFF, .hkadc),
   (0x26_0000, 0x26_FFFF, .cfg), (0x27_0000, 0x27_FFFF, .scb), (0x28_0000, 0x28_FFFF, .bkp), (0x100_0000, 0x1FF_FFFF, .fs)]

/-- The first row that holds an address. -/
def blockIn (n : Nat) : List (Nat × Nat × Block) → Option Block
  | [] => none
  | (lo, hi, b) :: rest => if lo ≤ n ∧ n ≤ hi then some b else blockIn n rest

theorem blockOf_eq_blockIn (a : Word) : blockOf a = blockIn a.toNat blockRows := by
  simp only [blockIn, blockRows, Nat.zero_le, true_and]
  rfl

theorem mem_of_blockIn {n : Nat} {b : Block} {rows : List (Nat × Nat × Block)} (h : blockIn n rows = some b) :
    ∃ lo hi, (lo, hi, b) ∈ rows ∧ lo ≤ n ∧ n ≤ hi := by
  induction rows with
  | nil => cases h
  | cons row rest ih =>
    obtain ⟨lo, hi, c⟩ := row
    by_cases k : lo ≤ n ∧ n ≤ hi
    · obtain rfl : c = b := by simpa [blockIn, k] using h
      exact ⟨lo, hi, List.mem_cons_self .., k⟩
    · obtain ⟨lo', hi', m, range⟩ := ih ((if_neg k).symm.trans h)
      exact ⟨lo', hi', List.mem_cons_of_mem _ m, range⟩

theorem blockIn_of_mem {n lo hi : Nat} {b : Block} {rows : List (Nat × Nat × Block)}
    (sorted : rows.Pairwise fun x y => x.2.1 < y.1) (m : (lo, hi, b) ∈ rows) (h : lo ≤ n) (k : n ≤ hi) :
    blockIn n rows = some b := by
  induction rows with
  | nil => cases m
  | cons row rest ih =>
    obtain ⟨first, tail⟩ := List.pairwise_cons.1 sorted
    rcases List.mem_cons.1 m with rfl | m
    · exact if_pos ⟨h, k⟩
    · have below : row.2.1 < lo := first _ m
      exact (if_neg fun c => absurd (Nat.le_trans h c.2) (Nat.not_le.2 below)).trans (ih tail m)

/-- An address within a row of R89 lies in that row's block. -/
theorem blockOf_of_row {lo hi : Nat} {b : Block} (m : (lo, hi, b) ∈ blockRows) (h : lo ≤ a.toNat) (k : a.toNat ≤ hi) :
    blockOf a = some b := (blockOf_eq_blockIn a).trans (blockIn_of_mem (by decide) m h k)

theorem desc_range (h : blockOf a = some .desc) : 0x10_0000 ≤ a.toNat ∧ a.toNat ≤ 0x1F_FFFF := by
  obtain ⟨lo, hi, m, range⟩ := mem_of_blockIn ((blockOf_eq_blockIn a).symm.trans h)
  obtain ⟨rfl, rfl⟩ : lo = 0x10_0000 ∧ hi = 0x1F_FFFF := by simpa [blockRows] using m
  exact range

theorem desc_no_doorbell (h : blockOf a = some .desc) : isDoorbell a = false := by
  have := desc_range h
  refine Bool.eq_false_iff.2 fun k => ?_
  rw [beq_iff_eq.1 k] at this
  simp [doorbellAddr] at this

theorem desc_no_out (h : blockOf a = some .desc) : pioOutBank a = none := by
  have := desc_range h
  exact if_neg (by omega)

theorem desc_lasting (h : blockOf a = some .desc) : lasting a = 0xFFFF_FFFF := by
  simp [lasting, isAction, commitGroup, h]

theorem blockWrite_desc (h : blockOf a = some .desc) :
    blockWrite r a w ecc s = dmWrite s (a.toNat - 0x10_0000) (leBytes 4 w.toNat) := by
  simp [blockWrite, scrapDrops, enables, commitGroup, h]

/-- A write that MP has not written over in this tick acts alone. -/
theorem regWrite_alone (out : pioOutBank a = none) (k : r = .mp ∨ mpWrote s a = none) :
    regWrite r a w ecc s = noteWrote r a w (blockWrite r a w ecc s) := by
  simp only [regWrite, out, ite_self]
  rcases k with k | k
  · simp only [k, if_true]; split <;> rfl
  · simp only [k]

theorem regWrite_desc (h : blockOf a = some .desc) (k : r = .mp ∨ mpWrote s a = none) :
    regWrite r a w ecc s = noteWrote r a w (dmWrite s (a.toNat - 0x10_0000) (leBytes 4 w.toNat)) := by
  rw [regWrite_alone (desc_no_out h) k, blockWrite_desc h]

/-- Of two writes of one tick, that of MP remains (R94). -/
theorem regWrite_desc_mp {v : Word} (h : blockOf a = some .desc) (k : r ≠ .mp) (e : mpWrote s a = some v) :
    regWrite r a w ecc s = dmWrite (noteWrote r a w (dmWrite s (a.toNat - 0x10_0000) (leBytes 4 w.toNat)))
      (a.toNat - 0x10_0000) (leBytes 4 v.toNat) := by
  have bell : a ≠ doorbellAddr := by simpa [isDoorbell] using desc_no_doorbell h
  have all : (0xFFFF_FFFF : Word) ≠ 0 := by decide
  have kept : v &&& (0xFFFF_FFFF : Word) = v := BitVec.and_allOnes
  simp only [regWrite, blockWrite_desc h, desc_no_out h, ite_self, e, k, bell, desc_lasting h, all, kept, if_false]

/-! ### A word in a memory (R3) -/

theorem leBytes_length (n v : Nat) : (leBytes n v).length = n := by
  induction n generalizing v with
  | zero => rfl
  | succ n ih => simp [leBytes, ih]

theorem leBytes_getElem {n v i : Nat} (h : i < (leBytes n v).length) : (leBytes n v)[i] = BitVec.ofNat 8 (v / 256 ^ i) := by
  induction n generalizing v i with
  | zero => cases h
  | succ n ih =>
    cases i with
    | zero => simp [leBytes]
    | succ i => simp only [leBytes, List.getElem_cons_succ, ih, Nat.div_div_eq_div_mul, pow_succ']

theorem leBytes_extract {i : Nat} (h : i < (leBytes 4 w.toNat).length) :
    (leBytes 4 w.toNat)[i] = w.extractLsb' (8 * i) 8 := by
  apply BitVec.eq_of_toNat_eq
  simp [leBytes_getElem, Nat.shiftRight_eq_div_pow, pow_mul]

theorem memRead_word {m : List Host.Cell} (wf : Memory.wf m = true) (lo : Nat) {i : Nat} (h : i < 4) :
    memRead (memWriteBytes m lo (leBytes 4 w.toNat)) (lo + i) = w.extractLsb' (8 * i) 8 := by
  have inside : i < (leBytes 4 w.toNat).length := by rwa [leBytes_length]
  rw [memRead_memWriteBytes_inside _ _ _ wf inside, leBytes_extract]

theorem sameOutside_word {m : List Host.Cell} (wf : Memory.wf m = true) (lo v : Nat) :
    SameOutside m (memWriteBytes m lo (leBytes 4 v)) lo 4 := fun x hx =>
  memRead_memWriteBytes_outside _ _ _ wf (by rwa [leBytes_length])

theorem SameOutside.trans {l m n : List Host.Cell} {lo k : Nat} (h : SameOutside l m lo k) (j : SameOutside m n lo k) :
    SameOutside l n lo k := fun x hx => (j x hx).trans (h x hx)

/-! ### REGISTER_WRITE into descriptor memory -/

theorem registerWriteEffect_desc {addr : Word} (c : Clocked s) (d : blockOf (wordAddr addr) = some .desc)
    (h : checkAccess s r true (wordAddr addr) = none) (q : Settled s r (wordAddr addr)) :
    registerWriteEffect r addr w ecc s = noteFence s (regWrite r (wordAddr addr) w ecc s) := by
  have notBkp : ¬(blockOf (wordAddr addr) = some .bkp ∧ s.bus.bkpBuf ≠ []) := by simp [d]
  rw [registerWriteEffect_acts h (responds_clocked c d (by decide)) notBkp,
    settleBefore_settled q (desc_no_doorbell d)]

/-- What a write into descriptor memory leaves there: its own word, or the word MP wrote in this tick (R94). -/
theorem regWrite_desc_stores (m : MemInv s) (h : blockOf a = some .desc) :
    let t := regWrite r a w ecc s
    let v := if r = .mp then w else (mpWrote s a).getD w
    Only [.moment, .dm] s t ∧ SameOutside s.dm t.dm (a.toNat - 0x10_0000) 4 ∧
      (∀ i, i < 4 → memRead t.dm (a.toNat - 0x10_0000 + i) = v.extractLsb' (8 * i) 8) ∧
      t.moment.wrote = ⟨r, a, w⟩ :: s.moment.wrote := by
  intro t v
  have first : Moves [.moment, .dm] s (noteWrote r a w (dmWrite s (a.toNat - 0x10_0000) (leBytes 4 w.toNat))) :=
    noteWrote_moves _ _ _ _ (dmWrite_moves _ _ _ (Moves.refl _ s) (by decide)) (by decide)
  by_cases k : r = .mp ∨ mpWrote s a = none
  · have word : v = w := by rcases k with k | k <;> simp [v, k]
    simp only [t, regWrite_desc h k, word]
    exact ⟨first.only, sameOutside_word m.1 _ _, fun i => memRead_word m.1 _, rfl⟩
  · obtain ⟨notMp, wrote⟩ := not_or.1 k
    obtain ⟨x, e⟩ := Option.ne_none_iff_exists'.1 wrote
    have word : v = x := by simp [v, notMp, e]
    have wf := (first.mem m).1
    simp only [t, regWrite_desc_mp h notMp e, word]
    exact ⟨(dmWrite_moves _ _ _ first (by decide)).only, (sameOutside_word m.1 _ _).trans (sameOutside_word wf _ _),
      fun i => memRead_word wf _, rfl⟩

/-- Settles O22: the write finds no earlier one to wait for, and stores its word or that of MP. -/
theorem descriptorWindowFrame : Obligations.DescriptorWindowFrame := by
  intro s req addr data ecc c m a w d h q
  obtain ⟨only, rest⟩ := regWrite_desc_stores (r := req) (w := data) (ecc := ecc) m d
  have acts : registerWriteEffect req addr data ecc s = regWrite req a data ecc s :=
    (registerWriteEffect_desc c d h q).trans (noteFence_of_only only (by decide) (by decide))
  exact ⟨_, (onSys_clocked c _).trans (congrArg _ acts), only, rest⟩

end Sys2Proof.Machine
end

section
/-! Posted writes and the answers owed to FRP, ICP and JTAG (O23): a posted write by its own command (R77, R90), an access of the fabric
(R373, R426), and an answer in its time (R113). -/

namespace Sys2Proof.Machine

variable {s t : State} {r : Req} {wr : Bool} {addr data w : Word} {ecc : Ecc} {blk : Block} {a : Access} {o : Owed}

/-! ### Posted writes -/

theorem postedApplyEffect_none (b : blk ≠ .bkp)
    (h : (s.bus.inflight.find? fun a => a.req == r && blockOf a.addr == some blk) = none) :
    postedApplyEffect r blk ecc s = s := by
  simp [postedApplyEffect, b, h]

theorem postedApplyEffect_oldest (b : blk ≠ .bkp)
    (h : (s.bus.inflight.find? fun a => a.req == r && blockOf a.addr == some blk) = some a) :
    postedApplyEffect r blk ecc s = noteFence s (applyPosted ecc a s) := by
  simp [postedApplyEffect, b, h]

theorem postedApplyEffect_bkp_waits
    (h : s.bus.bkpBuf = [] ∨ s.bkp.oscRunning = false ∨ (∃ a rest, s.bus.bkpBuf = a :: rest ∧ a.req ≠ r)) :
    postedApplyEffect r .bkp ecc s = s := by
  rcases h with h | h | ⟨a, rest, h, k⟩
  · simp [postedApplyEffect, h]
  · simp only [postedApplyEffect, h, if_true, Bool.false_eq_true, and_false, if_false]
    split <;> rfl
  · simp [postedApplyEffect, h, k]

theorem postedApplyEffect_bkp {rest : List Access} (h : s.bus.bkpBuf = a :: rest) (k : a.req = r) (run : s.bkp.oscRunning = true) :
    postedApplyEffect r .bkp ecc s = noteFence s ((applyPosted ecc a s).modBus fun b => { b with bkpEdges := 0 }) := by
  simp [postedApplyEffect, h, k, run]

/-- The access taken off the lists of posted writes. -/
def retired (a : Access) (s : State) : State :=
  s.modBus fun b =>
    { b with inflight := b.inflight.filter fun x => x.id != a.id, bkpBuf := b.bkpBuf.filter fun x => x.id != a.id }

theorem applyPosted_plain (h : isDoorbell a.addr = false) :
    applyPosted ecc a s = regWrite a.req a.addr a.data ecc (retired a s) := by
  simp only [applyPosted, h, Bool.false_eq_true, if_false]
  rfl

/-- A posted write of descriptor memory retires and stores its word. -/
theorem applyPosted_desc (m : MemInv s) (d : blockOf a.addr = some .desc) (k : a.req = .mp ∨ mpWrote s a.addr = none) :
    let t := applyPosted ecc a s
    Only [.moment, .bus, .dm] s t ∧ t.bus = (retired a s).bus ∧ SameOutside s.dm t.dm (a.addr.toNat - 0x10_0000) 4 ∧
      ∀ i, i < 4 → memRead t.dm (a.addr.toNat - 0x10_0000 + i) = a.data.extractLsb' (8 * i) 8 := by
  obtain ⟨only, outside, inside, _⟩ := regWrite_desc_stores (s := retired a s) (r := a.req) (w := a.data) (ecc := ecc) m d
  have word : (if a.req = .mp then a.data else (mpWrote (retired a s) a.addr).getD a.data) = a.data := by
    rcases k with k | k
    · simp [k]
    · simp [show mpWrote (retired a s) a.addr = none from k]
  rw [word] at inside
  have off : Only [.bus] s (retired a s) := ((Moves.refl _ s).modBus (by decide) _).only
  intro t
  rw [show t = _ from applyPosted_plain (desc_no_doorbell d)]
  exact ⟨(off.weaken (by decide)).trans (only.weaken (by decide)), only .bus (by decide), outside, inside⟩

/-! ### A scratch word of the backup domain -/

theorem blockWrite_bkp {x : Word} (h : blockOf x = some .bkp) :
    blockWrite r x w ecc s = bkpWrite (x.toNat - 0x28_0000) w s := by
  simp [blockWrite, scrapDrops, enables, commitGroup, h]

theorem bkpWrite_scratch (k : Fin 32) : (bkpWrite (0x100 + 4 * k.val) w s).bkp.scratch[k.val] = w := by
  have at_k : Fin.ofNat 32 ((0x100 + 4 * k.val - 0x100) / 4) = k := by ext; simp
  unfold bkpWrite
  dsimp only
  iterate 8 rw [if_neg (by omega)]
  rw [if_pos (by omega), at_k]
  exact upd_same _ _ _

theorem applyPosted_scratch (k : Fin 32) (h : a.addr = BitVec.ofNat 32 (0x28_0100 + 4 * k.val))
    (q : a.req = .mp ∨ mpWrote s a.addr = none) :
    (applyPosted ecc a s).bkp.scratch[k.val] = a.data := by
  have place : a.addr.toNat = 0x28_0100 + 4 * k.val := by rw [h]; simp; omega
  have bell : isDoorbell a.addr = false := Bool.eq_false_iff.2 fun e => by
    rw [beq_iff_eq.1 e] at place
    simp [doorbellAddr] at place
    omega
  have out : pioOutBank a.addr = none := if_neg (by omega)
  have off : a.addr.toNat - 0x28_0000 = 0x100 + 4 * k.val := by omega
  have block : blockOf a.addr = some .bkp :=
    blockOf_of_row (lo := 0x28_0000) (hi := 0x28_FFFF) (by decide) (by omega) (by omega)
  rw [applyPosted_plain bell, regWrite_alone (s := retired a s) out q, blockWrite_bkp block, off]
  exact bkpWrite_scratch k

/-! ### Accesses of FRP and ICP -/

theorem frpAccessEffect_idle (h : frpReady s = false ∨ 8 ≤ (owedTo s .frp).length) : frpAccessEffect wr addr data ecc s = s :=
  if_neg (by rcases h with h | h <;> simp [h])

theorem frpAccessEffect_issues (h : frpReady s = true) (k : (owedTo s .frp).length < 8) :
    frpAccessEffect wr addr data ecc s = issueAccess .frp wr addr data ecc s := if_pos (by simp [h, k])

theorem icpAccessEffect_idle (h : icpReady s = false ∨ 8 ≤ (owedTo s .icp).length) : icpAccessEffect wr addr data ecc s = s :=
  if_neg (by rcases h with h | h <;> simp [h])

theorem icpAccessEffect_issues (h : icpReady s = true) (k : (owedTo s .icp).length < 8) :
    icpAccessEffect wr addr data ecc s = issueAccess .icp wr addr data ecc s := if_pos (by simp [h, k])

theorem issueAccess_write {i : Issue} (e : issueWrite s r (wordAddr addr) data = (i, t)) :
    issueAccess r true addr data ecc s =
      oweAnswer ⟨r, true, wordAddr addr, s.clock, s.bus.epochOrder, i == .denied, respOf i, 0⟩ t := by
  simp only [issueAccess, e, if_true]

theorem issueAccess_read {i : Issue} (e : issueRead r (wordAddr addr) ecc s = ((i, w), t)) :
    issueAccess r false addr data ecc s =
      oweAnswer ⟨r, false, wordAddr addr, s.clock + 48, s.bus.epochOrder, true, respOf i, w⟩ t := by
  simp only [issueAccess, e, Bool.false_eq_true, if_false, answerTicks]

theorem oweAnswer_given (h : o.write = true) (k : owedTo s o.req = []) : oweAnswer o s = giveAnswer o s :=
  if_pos (by simp [h, k])

theorem oweAnswer_owed (h : o.write = false ∨ owedTo s o.req ≠ []) :
    oweAnswer o s = s.modBus fun b => { b with owed := b.owed ++ [o] } :=
  if_neg (by rcases h with h | h <;> simp [h])

theorem giveAnswer_only (o : Owed) (s : State) : Only [.bus, .jtag] s (giveAnswer o s) :=
  (giveAnswer_moves o s (Moves.refl _ s) fun _ h => h).only

theorem giveAnswer_lists (o : Owed) (s : State) :
    (giveAnswer o s).bus.owed = s.bus.owed ∧ (giveAnswer o s).bus.inflight = s.bus.inflight := by
  unfold giveAnswer
  split <;> exact ⟨rfl, rfl⟩

theorem giveAnswer_frp (h : o.req = .frp) :
    giveAnswer o s = s.modBus fun b => { b with frpAnswer := some (o.code, o.data) } := by
  simp only [giveAnswer, h]

theorem giveAnswer_icp (h : o.req = .icp) :
    giveAnswer o s = s.modBus fun b => { b with icpAnswer := some (o.code, o.data) } := by
  simp only [giveAnswer, h]

theorem giveAnswer_jtag (h : o.req = .jtag) :
    (o.write = false → (giveAnswer o s).jtag.lastData = o.data) ∧ (giveAnswer o s).jtag.ok = (o.code == .ok) ∧
      (giveAnswer o s).jtag.denied = (o.code == .denied) := by
  simp +contextual [giveAnswer, h]

/-! ### What an access of the fabric does -/

/-- The answer register of a fabric requester. -/
def fabricAnswer (r : Req) (t : State) : Option (RespCode × Word) := if r = .frp then t.bus.frpAnswer else t.bus.icpAnswer

theorem giveAnswer_fabric (h : o.req = .frp ∨ o.req = .icp) :
    Only [.bus] s (giveAnswer o s) ∧ fabricAnswer o.req (giveAnswer o s) = some (o.code, o.data) := by
  rcases h with h | h
  · rw [giveAnswer_frp h, h]; exact ⟨((Moves.refl _ s).modBus (by decide) _).only, rfl⟩
  · rw [giveAnswer_icp h, h]; exact ⟨((Moves.refl _ s).modBus (by decide) _).only, rfl⟩

/-- A permitted write is posted, and answered at once when no answer is owed. -/
theorem issueAccess_posts (hr : r = .frp ∨ r = .icp) (h : checkAccess s r true (wordAddr addr) = none)
    (k : responds s (wordAddr addr) = true) (b : blockOf (wordAddr addr) ≠ some .bkp) :
    let t := issueAccess r true addr data ecc s
    Only [.bus] s t ∧
      t.bus.inflight = s.bus.inflight ++ [⟨s.bus.nextId, r, wordAddr addr, data, s.bus.epochOrder, s.clock⟩] ∧
      (owedTo s r = [] → fabricAnswer r t = some (.ok, 0) ∧ t.bus.owed = s.bus.owed) ∧
      (owedTo s r ≠ [] → fabricAnswer r t = fabricAnswer r s ∧
        t.bus.owed = s.bus.owed ++ [⟨r, true, wordAddr addr, s.clock, s.bus.epochOrder, false, .ok, 0⟩]) := by
  intro t
  have posted : Only [.bus] s (postWrite s r (wordAddr addr) data) := (postWrite_moves _ _ _ _ (Moves.refl _ s) fun _ h => h).only
  have issued : t = _ := issueAccess_write (issueWrite_posted h k b)
  by_cases e : owedTo s r = []
  · rw [issued, oweAnswer_given rfl e]
    obtain ⟨only, answer⟩ := giveAnswer_fabric (s := postWrite s r (wordAddr addr) data)
      (o := ⟨r, true, wordAddr addr, s.clock, s.bus.epochOrder, .ok == Issue.denied, respOf .ok, 0⟩) hr
    obtain ⟨owed, inflight⟩ := giveAnswer_lists
      ⟨r, true, wordAddr addr, s.clock, s.bus.epochOrder, .ok == Issue.denied, respOf .ok, 0⟩ (postWrite s r (wordAddr addr) data)
    exact ⟨posted.trans only, inflight, fun _ => ⟨answer, owed⟩, fun k => absurd e k⟩
  · rw [issued, oweAnswer_owed (.inr e)]
    exact ⟨posted.trans ((Moves.refl _ _).modBus (by decide) _).only, rfl, fun k => absurd k e, fun _ => ⟨rfl, rfl⟩⟩

/-- A refused access is logged and answered DENIED with 0: a write at once when no answer is owed, a read after 120 ns. -/
theorem issueAccess_refused {why : BitVec 4} (hr : r = .frp ∨ r = .icp) (h : checkAccess s r wr (wordAddr addr) = some why) :
    let t := issueAccess r wr addr data ecc s
    Only [.bus, .acc] s t ∧ t.acc.rlogNext = s.acc.rlogNext + 1 ∧
      (wr = true → owedTo s r = [] → fabricAnswer r t = some (.denied, 0)) ∧
      (wr = false → t.bus = { s.bus with owed :=
        s.bus.owed ++ [⟨r, false, wordAddr addr, s.clock + 48, s.bus.epochOrder, true, .denied, 0⟩] }) := by
  intro t
  have logged : Only [.bus, .acc] s (logRefusal s r wr (wordAddr addr) why) :=
    (logRefusal_moves _ _ _ _ _ (Moves.refl _ s) (by decide)).only
  have owes (x : Owed) : Only [.bus, .acc] s ((logRefusal s r wr (wordAddr addr) why).modBus fun b =>
      { b with owed := b.owed ++ [x] }) := logged.trans ((Moves.refl _ _).modBus (by decide) _).only
  cases wr with
  | false =>
    have issued : t = _ := issueAccess_read (issueRead_refused h)
    rw [issued, oweAnswer_owed (.inl rfl)]
    exact ⟨owes _, rfl, by simp, fun _ => rfl⟩
  | true =>
    have issued : t = _ := issueAccess_write (issueWrite_refused h)
    by_cases e : owedTo s r = []
    · rw [issued, oweAnswer_given rfl e]
      obtain ⟨only, answer⟩ := giveAnswer_fabric (s := logRefusal s r true (wordAddr addr) why)
        (o := ⟨r, true, wordAddr addr, s.clock, s.bus.epochOrder, .denied == Issue.denied, respOf .denied, 0⟩) hr
      refine ⟨logged.trans (only.weaken (by decide)), ?_, fun _ _ => answer, by simp⟩
      rw [show (giveAnswer _ _).acc = _ from only .acc (by decide)]; rfl
    · rw [issued, oweAnswer_owed (.inr e)]
      exact ⟨owes _, rfl, fun _ k => absurd k e, by simp⟩

theorem issueAccess_reads (h : checkAccess s r false (wordAddr addr) = none) (k : responds s (wordAddr addr) = true)
    (p : PlainRead (wordAddr addr)) (q : Settled s r (wordAddr addr)) : issueAccess r false addr data ecc s =
      { s with bus := { s.bus with owed := s.bus.owed ++ [owedRead s r (wordAddr addr) (regWord r s (wordAddr addr))] } } := by
  rw [issueAccess_read (issueRead_plain h k q p), oweAnswer_owed (.inl rfl)]
  rfl

/-! ### Answers in their time -/

theorem accessAnswerEffect_none (h : owedTo s r = []) : accessAnswerEffect r s = s := by
  simp [accessAnswerEffect, h]

theorem accessAnswerEffect_waits {rest : List Owed} (h : owedTo s r = o :: rest)
    (k : s.clock < o.due ∨ answerClock s r = false) : accessAnswerEffect r s = s := by
  simp only [accessAnswerEffect, h]
  exact if_pos (by simpa using k)

theorem accessAnswerEffect_gives {rest : List Owed} (h : owedTo s r = o :: rest) (k : o.due ≤ s.clock)
    (run : answerClock s r = true) : accessAnswerEffect r s =
      noteFence s (giveAnswer o (s.modBus fun b => { b with owed := b.owed.erase o })) := by
  simp only [accessAnswerEffect, h]
  exact if_neg (by simp [run, Nat.not_lt.2 k])

theorem owedTo_head {rest : List Owed} (h : owedTo s r = o :: rest) : o.req = r := by
  have mem : o ∈ owedTo s r := h ▸ List.mem_cons_self ..
  simpa using (List.mem_filter.1 mem).2

/-- Settles O23: posted writes, the accesses of the fabric and the answers, case by case. -/
theorem postedWritesAndAnswers : Obligations.PostedWritesAndAnswers := by
  intro s req blk ecc addr data c m first w
  have go (f : State → State) : onSys s f = .next (f s) := onSys_clocked c f
  have goBkp : exec (.postedWriteApply req .bkp ecc) s = .next (postedApplyEffect req .bkp ecc s) :=
    onAny_powered (clocked_powered c) _
  have goOther (b : blk ≠ .bkp) : exec (.postedWriteApply req blk ecc) s = .next (postedApplyEffect req blk ecc s) :=
    (if_neg b).trans (go _)
  refine ⟨fun b h => ?_, fun a b h => ?_, fun a b h k => ?_, fun h => ?_, fun a rest h k run => ⟨?_, fun n e q => ?_⟩,
    ?_, fun h => ?_, fun o rest h => ⟨fun k => ?_, fun k run => ?_⟩⟩
  · rw [goOther b, postedApplyEffect_none b h]
  · rw [goOther b, postedApplyEffect_oldest b h]
  · have notBkp : blk ≠ .bkp := by simp [b]
    obtain ⟨asked, d⟩ : a.req = req ∧ blockOf a.addr = some .desc := by simpa [b] using List.find?_some h
    obtain ⟨only, bus, outside, inside⟩ := applyPosted_desc (ecc := ecc) m d (asked ▸ k)
    have fenced := noteFence_only s (applyPosted ecc a s)
    have dm : (noteFence s (applyPosted ecc a s)).dm = (applyPosted ecc a s).dm := fenced .dm (by decide)
    refine ⟨_, (goOther notBkp).trans (congrArg _ (postedApplyEffect_oldest notBkp h)), ?_, ?_, ?_⟩
    · exact (only.weaken (by decide)).trans (fenced.weaken (by decide))
    · exact (fenced .bus (by decide)).trans bus
    · rw [dm]; exact ⟨outside, inside⟩
  · rw [goBkp, postedApplyEffect_bkp_waits h]
  · rw [goBkp, postedApplyEffect_bkp h k run]
  · refine ⟨_, goBkp.trans (congrArg _ (postedApplyEffect_bkp h k run)), ?_⟩
    have bkp : (noteFence s ((applyPosted ecc a s).modBus fun b => { b with bkpEdges := 0 })).bkp = (applyPosted ecc a s).bkp :=
      noteFence_only _ _ .bkp (by decide)
    rw [bkp]
    exact applyPosted_scratch n e (k ▸ q)
  · intro r hr cmd given ready
    have idle (wr : Bool) (h : ready = false ∨ 8 ≤ (owedTo s r).length) : exec (cmd wr) s = .next s := by
      rcases hr with rfl | rfl
      · exact (go _).trans (congrArg _ (frpAccessEffect_idle h))
      · exact (go _).trans (congrArg _ (icpAccessEffect_idle h))
    have issues (wr : Bool) (h : ready = true) (k : (owedTo s r).length < 8) :
        exec (cmd wr) s = .next (issueAccess r wr addr data ecc s) := by
      rcases hr with rfl | rfl
      · exact (go _).trans (congrArg _ (frpAccessEffect_issues h k))
      · exact (go _).trans (congrArg _ (icpAccessEffect_issues h k))
    exact ⟨idle, fun rdy room => ⟨fun h k b => ⟨_, issues true rdy room, issueAccess_posts hr h k b⟩,
      fun why wr h => ⟨_, issues wr rdy room, issueAccess_refused hr h⟩,
      fun h k p q => (issues false rdy room).trans (congrArg _ (issueAccess_reads h k p q))⟩⟩
  · exact (go _).trans (congrArg _ (accessAnswerEffect_none h))
  · exact (go _).trans (congrArg _ (accessAnswerEffect_waits h k))
  · have asked := owedTo_head h
    have taken : Only [.bus] s (s.modBus fun b => { b with owed := b.owed.erase o }) :=
      ((Moves.refl _ s).modBus (by decide) _).only
    have gives := giveAnswer_only o (s.modBus fun b => { b with owed := b.owed.erase o })
    have fenced := noteFence_only s (giveAnswer o (s.modBus fun b => { b with owed := b.owed.erase o }))
    have bus := fenced .bus (by decide)
    have jtag := fenced .jtag (by decide)
    refine ⟨_, (go _).trans (congrArg _ (accessAnswerEffect_gives h k run)), ?_, ?_, fun e => ?_, fun e => ?_, fun e => ?_⟩
    · exact ((taken.weaken (by decide)).trans (gives.weaken (by decide))).trans (fenced.weaken (by decide))
    · exact (congrArg Bus.owed bus).trans (giveAnswer_lists o _).1
    · rw [show (noteFence s _).bus = _ from bus, giveAnswer_frp (asked.trans e)]; rfl
    · rw [show (noteFence s _).bus = _ from bus, giveAnswer_icp (asked.trans e)]; rfl
    · rw [show (noteFence s _).jtag = _ from jtag]; exact giveAnswer_jtag (asked.trans e)

end Sys2Proof.Machine
end

section
/-! Reads with effects (O24): the pairs of R156 with their latch, and the RX FIFOs (R471, R503), for each requester. -/

namespace Sys2Proof.Machine

variable {s t u v : State} {r : Req} {addr w lo x : Word} {ecc : Ecc} {n : Fin 18} {m : Fin 2}

/-! ### The registers of a pair -/

/-- The address lies where the registers of the pairs of R156 lie. -/
def PairWord (x : Word) : Prop :=
  blockOf x = some .tbe ∨ blockOf x = some .bkp ∨ blockOf x = some .egr ∨ blockOf x = some .hl ∨
    (blockOf x = some .pio ∧ 0x24_0400 ≤ x.toNat ∧ x.toNat < 0x24_0600)

theorem pairWord_near (h : isPairLo lo = true) (near : x.toNat = lo.toNat ∨ x.toNat = lo.toNat + 4) : PairWord x := by
  simp only [isPairLo, Bool.or_eq_true, Bool.and_eq_true, decide_eq_true_eq, beq_iff_eq] at h
  have row {first last : Nat} {b : Block} (k : (first, last, b) ∈ blockRows) (low : first ≤ x.toNat) (high : x.toNat ≤ last) :
      blockOf x = some b := blockOf_of_row k low high
  rcases h with (((((((h | h) | h) | h) | h) | h) | h) | h)
  · exact .inl (row (first := 0x4_0000) (last := 0x4_FFFF) (by decide) (by omega) (by omega))
  · exact .inl (row (first := 0x4_0000) (last := 0x4_FFFF) (by decide) (by omega) (by omega))
  · exact .inr (.inl (row (first := 0x28_0000) (last := 0x28_FFFF) (by decide) (by omega) (by omega)))
  · exact .inl (row (first := 0x4_0000) (last := 0x4_FFFF) (by decide) (by omega) (by omega))
  · exact .inl (row (first := 0x4_0000) (last := 0x4_FFFF) (by decide) (by omega) (by omega))
  · exact .inr (.inr (.inl (row (first := 0x20_0000) (last := 0x20_3FFF) (by decide) (by omega) (by omega))))
  · exact .inr (.inr (.inr (.inl (row (first := 0x21_0000) (last := 0x21_FFFF) (by decide) (by omega) (by omega)))))
  · exact .inr (.inr (.inr (.inr ⟨row (first := 0x24_0000) (last := 0x24_FFFF) (by decide) (by omega) (by omega),
      by omega, by omega⟩)))

theorem isPairLo_small (h : isPairLo lo = true) : lo.toNat < 0x28_0009 := by
  simp only [isPairLo, Bool.or_eq_true, Bool.and_eq_true, decide_eq_true_eq, beq_iff_eq] at h
  omega

theorem pairWord_lo (h : isPairLo addr = true) : PairWord addr := pairWord_near h (.inl rfl)

/-- The _HI register lies 4 above its _LO. -/
theorem pairWord_lo_next (h : isPairLo addr = true) : PairWord (addr + 4) := by
  have := isPairLo_small h
  exact pairWord_near h (.inr (by simp [BitVec.toNat_add]; omega))

theorem pairWord_hi (h : isPairHi addr = true) : PairWord addr := by
  obtain ⟨four, lo⟩ : 4 ≤ addr.toNat ∧ isPairLo (addr - 4) = true := by simpa [isPairHi] using h
  have := addr.isLt
  exact pairWord_near lo (.inr (by simp [BitVec.toNat_sub]; omega))

/-! ### The state in which a read is issued -/

/-- A new read of JTAG discards the answers it had not captured (R133); the other requesters find the state as it is. -/
def asks (r : Req) (addr : Word) (s : State) : State :=
  match r with
  | .jtag =>
    ((s.modBus fun b => { b with owed := b.owed.filter fun o => o.req != .jtag }).freeStep).modJtag fun j =>
      { j with lastWrite := false, lastAddr := wordAddr addr, lastData := BitVec.ofNat 32 (freeValue s), ok := false,
               denied := false, pendingAnswer := true }
  | _ => s

theorem asks_only (r : Req) (addr : Word) (s : State) : Only [.free, .bus, .jtag] s (asks r addr s) := by
  cases r
  case jtag => exact ((((Moves.refl _ s).modBus (by decide) _).freeStep (by decide)).modJtag (by decide) _).only
  all_goals exact Only.refl _ s

theorem asks_lists (r : Req) (addr : Word) (s : State) : (asks r addr s).bus.inflight = s.bus.inflight ∧
    (asks r addr s).bus.hiLatches = s.bus.hiLatches ∧ (asks r addr s).bus.epochOrder = s.bus.epochOrder := by
  cases r <;> exact ⟨rfl, rfl, rfl⟩

theorem asks_other (h : r ≠ .jtag) : asks r addr s = s := by
  cases r
  case jtag => exact absurd rfl h
  all_goals rfl

theorem tbeRead_asks (off : Nat) : tbeRead (asks .jtag addr s) off = tbeRead s off := rfl
theorem bkpRead_asks (off : Nat) : bkpRead (asks .jtag addr s) off = bkpRead s off := rfl
theorem egrRead_asks (k : Fin 4) (off : Nat) : egrRead (asks .jtag addr s) k off = egrRead s k off := rfl
theorem hlRead_asks (off : Nat) : hlRead (asks .jtag addr s) off = hlRead s off := rfl

theorem pioRead_asks {off : Nat} (h : 0x400 ≤ off) : pioRead (asks .jtag addr s) off = pioRead s off := by
  have out : ¬(off < 0x180) := by omega
  have shown : ¬(0x200 ≤ off ∧ off < 0x2C0) := by omega
  simp only [pioRead, out, shown, if_false]
  rfl

/-- What the registers of a pair hold does not depend on the accesses under way. -/
theorem regWord_asks (h : PairWord x) : regWord r (asks r addr s) x = regWord r s x := by
  by_cases k : r = .jtag
  · subst k
    rcases h with h | h | h | h | ⟨h, low, high⟩
    · simp only [regWord, h]; exact tbeRead_asks _
    · simp only [regWord, h]; exact bkpRead_asks _
    · simp only [regWord, h]; exact egrRead_asks _ _
    · simp only [regWord, h]; exact hlRead_asks _
    · simp only [regWord, h]; exact pioRead_asks (by omega)
  · rw [asks_other k]

/-! ### How the requester learns the word -/

/-- A permitted read in the state in which it is issued. -/
theorem issueRead_asks (h : checkAccess s r false addr = none) (k : responds s addr = true) (q : Settled s r addr)
    (e : takeRead r addr ecc (asks r addr s) = (w, v)) :
    issueRead r addr ecc (asks r addr s) = ((.ok, w), noteFence (asks r addr s) v) := by
  have only := asks_only r addr s
  have settled : Settled (asks r addr s) r addr := by rwa [Settled, (asks_lists r addr s).1]
  have check : checkAccess (asks r addr s) r false addr = none :=
    (checkAccess_congr (congrArg (·.group.active) (only .acc (by decide))) (only .lcs (by decide))).trans h
  have answers : responds (asks r addr s) addr = true :=
    (responds_congr (only .sys (by decide)) (only .bkp (by decide))).trans k
  rw [issueRead_taken check answers settled, e]

/-- What taking the word leaves alone: the answers owed and, but for the RX FIFOs, every block. -/
structure Takes (u v : State) : Prop where
  only : Only [.bus, .ua, .spc] u v
  owed : v.bus.owed = u.bus.owed

/-- Every requester of a permitted read learns its word, and nothing but the delivery follows the word's own effect. -/
theorem requestRead_delivers (c : CanRead s r) (aligned : wordAddr addr = addr) (h : checkAccess s r false addr = none)
    (k : responds s addr = true) (q : Settled s r addr) (e : takeRead r addr .clean (asks r addr s) = (w, v))
    (takes : Takes (asks r addr s) v) :
    let t := requestRead r addr s
    Only [.mp, .bus, .acc, .jtag] v t ∧ Learns s t r addr w ∧ t.bus.hiLatches = v.bus.hiLatches := by
  have issued := issueRead_asks h k q e
  have fenced := noteFence_only (asks r addr s) v
  have bus : (noteFence (asks r addr s) v).bus = v.bus := fenced .bus (by decide)
  obtain ⟨only, owed⟩ := takes
  have mp : v.mp = (asks r addr s).mp := only .mp (by decide)
  -- an answer owed to the requester joins those owed before
  have owes (o : Owed) : Only [.mp, .bus, .acc, .jtag] v ((noteFence (asks r addr s) v).modBus fun b => { b with owed := b.owed ++ [o] }) :=
    (fenced.weaken (by decide)).trans ((Moves.refl _ _).modBus (by decide) _).only
  intro t
  cases r with
  | mp =>
    have told : t = (noteFence s v).modMp fun m => { m with winData := w } := by
      simp only [t, requestRead, show issueRead .mp addr .clean s = _ from issued]; rfl
    rw [told]
    refine ⟨(fenced.weaken (by decide)).trans ((Moves.refl _ _).modMp (by decide) _).only, ?_, congrArg (·.hiLatches) bus⟩
    exact congrArg (fun m : Mp => { m with winData := w }) ((fenced .mp (by decide)).trans mp)
  | frp =>
    have told : t = (noteFence s v).modBus fun b => { b with owed := b.owed ++ [owedRead s .frp addr w] } := by
      have asked := issueAccess_read (data := 0) (aligned.symm ▸ issued : issueRead .frp (wordAddr addr) .clean s = _)
      rw [oweAnswer_owed (.inl rfl), aligned] at asked
      exact (frpAccessEffect_issues c.1 c.2).trans asked
    rw [told]
    exact ⟨owes _, congrArg (· ++ _) ((congrArg Bus.owed bus).trans owed), congrArg (·.hiLatches) bus⟩
  | icp =>
    have told : t = (noteFence s v).modBus fun b => { b with owed := b.owed ++ [owedRead s .icp addr w] } := by
      have asked := issueAccess_read (data := 0) (aligned.symm ▸ issued : issueRead .icp (wordAddr addr) .clean s = _)
      rw [oweAnswer_owed (.inl rfl), aligned] at asked
      exact (icpAccessEffect_issues c.1 c.2).trans asked
    rw [told]
    exact ⟨owes _, congrArg (· ++ _) ((congrArg Bus.owed bus).trans owed), congrArg (·.hiLatches) bus⟩
  | jtag =>
    have told : t = noteFence s ((noteFence (asks .jtag addr s) v).modBus fun b =>
        { b with owed := b.owed ++ [owedRead s .jtag addr w] }) := by
      have asked := issueAccess_read (data := 0) (aligned.symm ▸ issued : issueRead .jtag (wordAddr addr) .clean _ = _)
      rw [oweAnswer_owed (.inl rfl), aligned] at asked
      exact congrArg (noteFence s) asked
    have last := noteFence_only s ((noteFence (asks .jtag addr s) v).modBus fun b =>
        { b with owed := b.owed ++ [owedRead s .jtag addr w] })
    have lastBus := last .bus (by decide)
    rw [told]
    refine ⟨(owes _).trans (last.weaken (by decide)), ⟨?_, ?_⟩, ?_⟩
    · exact (congrArg Bus.owed lastBus).trans (congrArg (· ++ _) ((congrArg Bus.owed bus).trans owed))
    · exact congrArg Jtag.pendingAnswer ((last .jtag (by decide)).trans ((fenced .jtag (by decide)).trans (only .jtag (by decide))))
    · exact (congrArg Bus.hiLatches lastBus).trans (congrArg (·.hiLatches) bus)
  | qe =>
    have told : t = noteFence s v := congrArg Prod.snd issued
    rw [told]
    exact ⟨fenced.weaken (by decide), trivial, congrArg (·.hiLatches) bus⟩

/-! ### The latch of a pair (R156) -/

theorem findLatch_congr (h : t.bus.hiLatches = u.bus.hiLatches) : findLatch t r lo = findLatch u r lo := by
  simp only [findLatch, h]

theorem findLatch_dropLatch : findLatch (dropLatch u r lo) r lo = none := by
  simp only [findLatch, dropLatch, State.modBus, Option.map_eq_none_iff, List.find?_eq_none]
  exact fun l mem => by simpa [imp_iff_not_or] using (List.mem_filter.1 mem).2

theorem findLatch_setLatch : findLatch (setLatch u r lo w) r lo = some w := by
  have dropped : ((dropLatch u r lo).bus.hiLatches.find? fun l => l.req == r && l.addr == lo) = none :=
    Option.map_eq_none_iff.1 findLatch_dropLatch
  simp [findLatch, setLatch, List.find?_append, dropped]

theorem dropLatch_only : Only [.bus] u (dropLatch u r lo) := (dropLatch_moves _ _ _ (Moves.refl _ u) fun _ h => h).only
theorem setLatch_only : Only [.bus] u (setLatch u r lo w) := (setLatch_moves _ _ _ _ (Moves.refl _ u) fun _ h => h).only

/-! ### What each read takes -/

theorem takeRead_lo (h : isPairLo addr = true) :
    takeRead r addr ecc u = (regWord r u addr, setLatch u r addr (regWord r u (addr + 4))) := if_pos h

theorem takeRead_hi_latched (h : isPairHi addr = true) (k : isPairLo addr = false) (f : findLatch u r (addr - 4) = some w) :
    takeRead r addr ecc u = (w, dropLatch u r (addr - 4)) := by
  simp only [takeRead, h, k, f, Bool.false_eq_true, if_false, if_true]

theorem takeRead_hi_unlatched (h : isPairHi addr = true) (k : isPairLo addr = false) (f : findLatch u r (addr - 4) = none) :
    takeRead r addr ecc u = (regWord r u addr, u) := by
  simp only [takeRead, h, k, f, Bool.false_eq_true, if_false, if_true]

/-- The serial blocks have no pairs. -/
theorem serial_no_pair (h : blockOf addr = some .ua ∨ blockOf addr = some .spc) :
    isPairLo addr = false ∧ isPairHi addr = false := by
  have notPair : ¬PairWord addr := by rcases h with h | h <;> simp [PairWord, h]
  exact ⟨Bool.eq_false_iff.2 fun k => notPair (pairWord_lo k), Bool.eq_false_iff.2 fun k => notPair (pairWord_hi k)⟩

/-- The address of UA_RXDATA(n). -/
def uaRxAddr (n : Fin 18) : Word := BitVec.ofNat 32 (0x22_001C + 0x100 * n.val)

theorem takeRead_uaRx : takeRead r (uaRxAddr n) ecc u = uaRxRead u n := by
  have place : (uaRxAddr n).toNat = 0x22_001C + 0x100 * n.val := by simp [uaRxAddr]; omega
  have block : blockOf (uaRxAddr n) = some .ua := blockOf_of_row (lo := 0x22_0000) (hi := 0x22_11FF) (by decide) (by omega) (by omega)
  have inst : instAt (n := 18) (uaRxAddr n).toNat 0x22_0000 0x100 = n := by
    ext; simp only [instAt, Fin.val_ofNat, place]; omega
  obtain ⟨lo, hi⟩ := serial_no_pair (.inl block)
  simp only [takeRead, lo, hi, block, inst, Bool.false_eq_true, if_false]
  exact if_pos (by omega)

/-- The address of SPC_RXDATA(m). -/
def spcRxAddr (m : Fin 2) : Word := BitVec.ofNat 32 (0x23_0020 + 0x100 * m.val)

theorem takeRead_spcRx : takeRead r (spcRxAddr m) ecc u = spcRxRead u m := by
  have place : (spcRxAddr m).toNat = 0x23_0020 + 0x100 * m.val := by simp [spcRxAddr]; omega
  have block : blockOf (spcRxAddr m) = some .spc := blockOf_of_row (lo := 0x23_0000) (hi := 0x23_01FF) (by decide) (by omega) (by omega)
  have inst : instAt (n := 2) (spcRxAddr m).toNat 0x23_0000 0x100 = m := by
    ext; simp only [instAt, Fin.val_ofNat, place]; omega
  obtain ⟨lo, hi⟩ := serial_no_pair (.inr block)
  simp only [takeRead, lo, hi, block, inst, Bool.false_eq_true, if_false]
  exact if_pos (by omega)

/-- A receiver whose oldest entry was read. -/
def uaTaken (rest : List RxChar) (x : Ua) : Ua := uaSettle { x with rx := rest }

/-- A controller whose oldest entry was read. -/
def spcTaken (rest : List SpcRx) (x : Spc) : Spc := spcSettle { x with rx := rest }

theorem uaRxRead_empty (h : (getUa u n).rx = []) : uaRxRead u n = (0, u) := by simp [uaRxRead, h]

theorem uaRxRead_oldest {c : RxChar} {rest : List RxChar} (h : (getUa u n).rx = c :: rest) :
    uaRxRead u n = (rxWord c, u.modUa n (uaTaken rest)) := by simp only [uaRxRead, h]; rfl

theorem spcRxRead_none (h : ∀ c rest, (getSpc u m).rx = c :: rest → c.committed = false) : spcRxRead u m = (0, u) := by
  unfold spcRxRead
  split
  · next c rest e => exact if_neg (by simp [h c rest e])
  · rfl

theorem spcRxRead_oldest {c : SpcRx} {rest : List SpcRx} (h : (getSpc u m).rx = c :: rest) (k : c.committed = true) :
    spcRxRead u m = (c.data.setWidth 32 ||| putB 8 c.frameEnd ||| putB 31 true, u.modSpc m (spcTaken rest)) := by
  simp only [spcRxRead, h, k, if_true]; rfl

/-! ### The statement -/

theorem upd_others {α : Type} {k : Nat} (v : Vector α k) (i : Fin k) (f : α → α) : Others i v (upd v i f) :=
  fun _ hj => upd_other _ _ _ _ (Ne.symm hj)

/-- What the parts of a read's frame leave alone, from the state before to the delivered word. -/
theorem readFrame {ps : List Part} (o : Only (.bus :: ps) (asks r addr s) v) (d : Only [.mp, .bus, .acc, .jtag] v t) :
    Only (ps ++ [.free, .mp, .bus, .acc, .jtag]) s t :=
  (((asks_only r addr s).weaken (by simp)).trans (o.weaken (by simp +contextual))).trans (d.weaken (by simp))

/-- Settles O24: what each read takes, and how its requester learns it. -/
theorem readsWithEffects : Obligations.ReadsWithEffects := by
  intro s r addr n m c can permitted ua spc frame
  have go (f : State → State) : onSys s f = .next (f s) := onSys_clocked c f
  have latches (a : Word) : (asks r a s).bus.hiLatches = s.bus.hiLatches := (asks_lists r a s).2.1
  refine ⟨fun h => (go _).trans (congrArg _ (if_neg (by simp [h]))), fun h => (go _).trans (congrArg _ (if_neg (by simp [h]))),
    fun h ⟨check, answers, settled, aligned⟩ => ?_, fun h k ⟨check, answers, settled, aligned⟩ => ⟨fun w f => ?_, fun f => ?_⟩,
    fun ⟨check, answers, settled, aligned⟩ => ⟨fun e => ?_, fun x rest e => ?_⟩,
    fun ⟨check, answers, settled, aligned⟩ => ⟨fun e => ?_, fun x rest e q => ?_⟩⟩
  · obtain ⟨d, learns, latch⟩ := requestRead_delivers can aligned check answers settled (takeRead_lo h)
      ⟨setLatch_only.weaken (by decide), rfl⟩
    rw [regWord_asks (pairWord_lo h)] at learns
    refine ⟨_, (go _).trans (congrArg _ (if_pos h)), readFrame (ps := []) setLatch_only d, learns, ?_⟩
    rw [findLatch_congr latch, findLatch_setLatch, regWord_asks (pairWord_lo_next h)]
  · have latched : findLatch (asks r addr s) r (addr - 4) = some w := (findLatch_congr (latches addr)).trans f
    obtain ⟨d, learns, latch⟩ := requestRead_delivers can aligned check answers settled (takeRead_hi_latched h k latched)
      ⟨dropLatch_only.weaken (by decide), rfl⟩
    refine ⟨_, (go _).trans (congrArg _ (if_pos h)), readFrame (ps := []) dropLatch_only d, learns, ?_⟩
    rw [findLatch_congr latch, findLatch_dropLatch]
  · have unlatched : findLatch (asks r addr s) r (addr - 4) = none := (findLatch_congr (latches addr)).trans f
    obtain ⟨d, learns, _⟩ := requestRead_delivers can aligned check answers settled (takeRead_hi_unlatched h k unlatched)
      ⟨Only.refl _ _, rfl⟩
    rw [regWord_asks (pairWord_hi h)] at learns
    exact ⟨_, (go _).trans (congrArg _ (if_pos h)), readFrame (ps := []) (Only.refl _ _) d, learns⟩
  · have fifo : (asks r ua s).ua = s.ua := asks_only r ua s .ua (by decide)
    have empty : (getUa (asks r ua s) n).rx = [] := by rwa [getUa, fifo]
    obtain ⟨d, learns, _⟩ := requestRead_delivers can aligned check answers settled (takeRead_uaRx.trans (uaRxRead_empty empty))
      ⟨Only.refl _ _, rfl⟩
    exact ⟨_, go _, readFrame (ps := []) (Only.refl _ _) d, learns⟩
  · have fifo : (asks r ua s).ua = s.ua := asks_only r ua s .ua (by decide)
    have oldest : (getUa (asks r ua s) n).rx = x :: rest := by rwa [getUa, fifo]
    have pop := ((Moves.refl [.ua] (asks r ua s)).modUa (by decide) n (uaTaken rest)).only
    obtain ⟨d, learns, _⟩ := requestRead_delivers can aligned check answers settled
      (takeRead_uaRx.trans (uaRxRead_oldest oldest)) ⟨pop.weaken (by decide), rfl⟩
    have popped : (uaRxdataEffect n r s).ua = upd s.ua n (uaTaken rest) :=
      (d .ua (by decide)).trans (congrArg (upd · n (uaTaken rest)) fifo)
    refine ⟨_, go _, readFrame (ps := [.ua]) (pop.weaken (by decide)) d, ?_, ?_, learns⟩
    · rw [popped]; exact upd_others _ _ _
    · rw [getUa, popped]; exact upd_same _ _ _
  · have fifo : (asks r spc s).spc = s.spc := asks_only r spc s .spc (by decide)
    have none : ∀ c rest, (getSpc (asks r spc s) m).rx = c :: rest → c.committed = false := by rwa [getSpc, fifo]
    obtain ⟨d, learns, _⟩ := requestRead_delivers can aligned check answers settled (takeRead_spcRx.trans (spcRxRead_none none))
      ⟨Only.refl _ _, rfl⟩
    exact ⟨_, go _, readFrame (ps := []) (Only.refl _ _) d, learns⟩
  · have fifo : (asks r spc s).spc = s.spc := asks_only r spc s .spc (by decide)
    have oldest : (getSpc (asks r spc s) m).rx = x :: rest := by rwa [getSpc, fifo]
    have pop := ((Moves.refl [.spc] (asks r spc s)).modSpc (by decide) m (spcTaken rest)).only
    obtain ⟨d, learns, _⟩ := requestRead_delivers can aligned check answers settled
      (takeRead_spcRx.trans (spcRxRead_oldest oldest q)) ⟨pop.weaken (by decide), rfl⟩
    have popped : (spcRxdataEffect m r s).spc = upd s.spc m (spcTaken rest) :=
      (d .spc (by decide)).trans (congrArg (upd · m (spcTaken rest)) fifo)
    refine ⟨_, go _, readFrame (ps := [.spc]) (pop.weaken (by decide)) d, ?_, ?_, learns⟩
    · rw [popped]; exact upd_others _ _ _
    · rw [getSpc, popped]; exact upd_same _ _ _

end Sys2Proof.Machine
end

section
/-! Transactions of the management port (O19, O20): what a transaction records, a window write, and the words of a burst (R67 to R74). -/

namespace Sys2Proof.Machine

variable {s t v : State} {cycles : Nat} {f : State → State} {a addr data : Word} {reg op : Byte}

/-! ### How far a transaction comes (R62, R68) -/

theorem transaction_none (h : cycles = 0 ∨ held s = true) : transaction cycles f s = s :=
  if_pos (by rcases h with h | h <;> simp [h])

theorem transaction_short (h : 0 < cycles) (k : cycles < 8) (up : held s = false) : transaction cycles f s = sampleViews s := by
  simp [transaction, Nat.ne_of_gt h, up, k]

theorem transaction_acts (h : 8 ≤ cycles) (up : held s = false) : transaction cycles f s = f (sampleViews s) := by
  simp [transaction, show cycles ≠ 0 by omega, up, Nat.not_lt.2 h]

theorem sampleViews_only (s : State) : Only [.mp] s (sampleViews s) := (sampleViews_moves s (Moves.refl _ s) fun _ h => h).only

theorem unlistedEffect_listed (h : listedOpcode op = true) : unlistedEffect op cycles s = s := if_pos h

theorem unlistedEffect_unlisted (h : listedOpcode op = false) : unlistedEffect op cycles s =
    transaction cycles (fun s => record op false 0 false false (shiftOut s [] s)) s := if_neg (by simp [h])

/-! ### What a transaction records (R68, R79) -/

/-- A void transaction. -/
def Mp.void (out : Miso) (op : Byte) (m : Mp) : Mp :=
  { m with miso := some out, fresh := false, lastOpcode := op, wellFormed := false, lastWords := 0, lastOk := false, denied := false,
           noresp := false, voidSeen := true }

/-- A well-formed transaction in which every access was permitted and answered. -/
def Mp.good (out : Miso) (op : Byte) (n : BitVec 16) (m : Mp) : Mp :=
  { m with miso := some out, fresh := false, lastOpcode := op, wellFormed := true, lastWords := n, lastOk := true, denied := false,
           noresp := false }

theorem record_void (op : Byte) (v t : State) : record op false 0 false false (shiftOut v [] t) = t.modMp (Mp.void ⟨statusByte v, []⟩ op) := by
  simp [record, shiftOut, State.modMp, Mp.void, satWords]

theorem record_good (op : Byte) (n : Nat) (ws : List Word) (v t : State) :
    record op true n false false (shiftOut v ws t) = t.modMp (Mp.good ⟨statusByte v, ws⟩ op (satWords n)) := by
  simp [record, shiftOut, State.modMp, Mp.good]

/-! ### A write of WIN_DATA (R69, R74) -/

/-- WIN_ADDR after a window write. -/
def Mp.next (m : Mp) : Mp := { m with winAddr := if m.autoinc then m.winAddr + 4 else m.winAddr }

theorem autoinc_next (t : State) : (if t.mp.autoinc then nextWin t else t) = t.modMp Mp.next := by
  cases h : t.mp.autoinc with
  | true => simp [nextWin, State.modMp, Mp.next, h]
  | false =>
    have stays : Mp.next t.mp = t.mp := congrArg (fun a => { t.mp with winAddr := a }) (if_neg (by simp [h]))
    exact (congrArg (fun m => { t with mp := m }) stays).symm

theorem winDataWriteAt_eq {i : Issue} (e : issueWrite s .mp (wordAddr s.mp.winAddr) data = (i, t)) :
    winDataWriteAt data s = (i, t.modMp Mp.next) := by
  simp only [winDataWriteAt, winWrite, e, autoinc_next]

theorem directWriteEffect_winData (h : 48 ≤ cycles) (up : held s = false) {i : Issue}
    (e : issueWrite (sampleViews s) .mp (wordAddr s.mp.winAddr) data = (i, t)) :
    directWriteEffect 0x09 data cycles s = record 0x02 true 1 (i == .denied) (i == .noresp)
      (shiftOut (sampleViews s) [] (t.modMp Mp.next)) := by
  rw [directWriteEffect, transaction_acts (by omega) up, if_neg (Nat.not_lt.2 h), if_pos rfl, winDataWriteAt_eq e]

theorem directWriteEffect_register (h : 48 ≤ cycles) (up : held s = false) (k : reg ≠ 0x09) :
    directWriteEffect reg data cycles s = (mpWrite reg data (sampleViews s)).modMp
      (Mp.good ⟨statusByte (sampleViews s), []⟩ 0x02 0) := by
  rw [directWriteEffect, transaction_acts (by omega) up, if_neg (Nat.not_lt.2 h), if_neg k, record_good]
  rfl

theorem directReadEffect_whole (h : 48 ≤ cycles) (up : held s = false) :
    directReadEffect reg cycles s = (sampleViews s).modMp
      (Mp.good ⟨statusByte (sampleViews s), [mpRead (sampleViews s) reg.toNat]⟩ 0x03 0) := by
  rw [directReadEffect, transaction_acts (by omega) up, if_neg (Nat.not_lt.2 h), record_good]
  rfl

theorem directWriteEffect_cut (h : 8 ≤ cycles) (k : cycles < 48) (up : held s = false) : directWriteEffect reg data cycles s =
    (sampleViews s).modMp (Mp.void ⟨statusByte (sampleViews s), []⟩ 0x02) := by
  rw [directWriteEffect, transaction_acts h up, if_pos k, record_void]

theorem directReadEffect_cut (h : 8 ≤ cycles) (k : cycles < 48) (up : held s = false) : directReadEffect reg cycles s =
    (sampleViews s).modMp (Mp.void ⟨statusByte (sampleViews s), []⟩ 0x03) := by
  rw [directReadEffect, transaction_acts h up, if_pos k, record_void]

/-! ### STREAM_ABORT (R87, R404) -/

/-- The stream buffer stays empty whatever the controller discards of it. -/
theorem discardIdle_empty (h : s.mp.buffer = []) : (discardIdle s).mp.buffer = [] := by
  unfold discardIdle
  split
  · rfl
  · split
    · simp [State.modMp, dropFront, h]
    · exact h

/-- A failed stream, before the halted controller discards what is in the buffer (R400, R404). -/
def failState (s : State) (why : WReason) : State :=
  (match targetSlot s with
    | some b => if writeRuns s then refreshView s b else s
    | none => s).modCfg fun c => { c with phase := .failed, reason := why, flags := c.flags.set 1 }

theorem failState_mp (s : State) (why : WReason) : (failState s why).mp = s.mp ∧ cfgRuns (failState s why) = cfgRuns s := by
  unfold failState
  split
  · split <;> exact ⟨rfl, rfl⟩
  · exact ⟨rfl, rfl⟩

theorem failState_cfg (s : State) (why : WReason) : (failState s why).cfg.phase = .failed ∧ (failState s why).cfg.reason = why ∧
    (failState s why).cfg.pcpEn = s.cfg.pcpEn := by
  unfold failState
  split
  · split <;> exact ⟨rfl, rfl, rfl⟩
  · exact ⟨rfl, rfl, rfl⟩

theorem cfgFail_eq (s : State) (why : WReason) :
    cfgFail s why = if cfgRuns s then discardIdle (failState s why) else failState s why := by
  rw [← (failState_mp s why).2]
  rfl

theorem cfgFail_empty {why : WReason} (h : s.mp.buffer = []) : (cfgFail s why).mp.buffer = [] := by
  have empty : (failState s why).mp.buffer = [] := (failState_mp s why).1 ▸ h
  rw [cfgFail_eq]
  split
  · exact discardIdle_empty empty
  · exact empty

theorem endEarly_empty (h : s.mp.buffer = []) : (endEarly s).mp.buffer = [] := by
  unfold endEarly
  split
  · exact h
  · split
    · exact cfgFail_empty h
    · exact h

theorem streamAbortEffect_empty (s : State) : (streamAbortEffect s).mp.buffer = [] := by
  unfold streamAbortEffect endHalt
  dsimp only
  split
  · exact endEarly_empty rfl
  · split <;> rfl

/-- The halt ends. -/
theorem streamAbortEffect_halted (h : cfgHalted s = true) : (streamAbortEffect s).cfg.phase = .search := by
  have phase : s.cfg.phase = .failed := beq_iff_eq.1 h
  have shut : streamOpen (s.modMp emptyBuffer) = false := by simp [streamOpen, phase]
  have halted : cfgHalted (s.modMp emptyBuffer) = true := h
  simp [streamAbortEffect, shut, endHalt, halted]

/-- Settles O19: by how far the transaction comes, and what its window write meets. -/
theorem portTransactions : Obligations.PortTransactions := by
  intro s reg op data cycles undef v at_ shifted void good next
  have go (reaches : Bool) (f : State → State) : onPort s reaches f = .next (f s) := onPort_defined undef reaches f
  have answer {reaches : Bool} {f : State → State} {t : State} (h : f s = t) : onPort s reaches f = .next t :=
    (go _ _).trans (congrArg _ h)
  have winData (up : held s = false) {i : Issue} {t : State} (e : issueWrite v .mp at_ data = (i, t)) :
      exec (.winDataWrite data) s = .next (record 0x02 true 1 (i == .denied) (i == .noresp) (shiftOut v [] (t.modMp Mp.next))) :=
    answer (directWriteEffect_winData (Nat.le_refl 48) up e)
  refine ⟨fun h => ⟨answer (transaction_none h), answer (transaction_none h), answer ?_⟩,
    fun h k up => ⟨answer (transaction_short h k up), answer (transaction_short h k up)⟩,
    fun h k up => ⟨answer (directWriteEffect_cut h k up), answer (directReadEffect_cut h k up)⟩, fun h up k => answer ?_,
    fun h up => ⟨answer (directReadEffect_whole h up), fun k => answer (directWriteEffect_register h up k), ?_⟩,
    ⟨rfl, rfl, rfl, rfl⟩, fun up => ⟨fun why h => ?_, fun h => ⟨fun k => ?_, fun k b => ?_, fun k b room => ?_⟩⟩, go _ _,
    _, go _ _, ?_, streamAbortEffect_empty s, streamAbortEffect_halted⟩
  · cases listed : listedOpcode op with
    | true => exact unlistedEffect_listed listed
    | false => exact (unlistedEffect_unlisted listed).trans (transaction_none h)
  · rw [unlistedEffect_unlisted k, transaction_acts h up]
    exact record_void ..
  · refine (go _ _).trans (Eq.trans (congrArg _ ?_) (go _ _).symm)
    simp only [directWriteEffect, transaction_acts (show 8 ≤ cycles by omega) up, transaction_acts (show 8 ≤ 48 by decide) up,
      if_neg (Nat.not_lt.2 h), if_neg (Nat.lt_irrefl 48)]
  · rw [winData up (issueWrite_refused (s := v) h)]
    simp [record, shiftOut, State.modMp, Mp.next, satWords, shifted, next]
  · rw [winData up (issueWrite_unanswered (s := v) h k)]
    simp [record, shiftOut, State.modMp, Mp.next, satWords, shifted, next]
  · rw [winData up (issueWrite_posted (s := v) h k b)]
    exact congrArg _ (record_good ..)
  · rw [winData up (issueWrite_buffered (s := v) h k b room)]
    exact congrArg _ (record_good ..)
  · exact (mpCommand_moves 0x01 s (Moves.refl _ s) (by decide)).only

end Sys2Proof.Machine
end

section
/-! Window bursts (O20): the addresses of their words, and what they issue (R67, R70, R71, R73, R74). -/

namespace Sys2Proof.Machine

variable {s t u v : State} {cycles n k : Nat} {f : Mp → Mp} {a b x addr w : Word} {r : Req} {wr : Bool} {ws : List Word} {m : Met}
  {es : List Ecc}

/-! ### The addresses of a burst (R70) -/

theorem wordAddr_toNat (a : Word) : (wordAddr a).toNat = a.toNat / 4 * 4 := by
  have mask : ∀ i : Fin 32, (0xFFFF_FFFC#32)[i.val] = decide (2 ≤ i.val) := by decide
  have shifts : wordAddr a = (a >>> 2) <<< 2 := by
    apply BitVec.eq_of_getElem_eq
    intro i hi
    have bit := mask ⟨i, hi⟩
    by_cases k : 2 ≤ i
    · have : 2 + (i - 2) = i := by omega
      simp [wordAddr, bit, k, this, show ¬i ≤ 1 by omega, BitVec.getLsbD_eq_getElem hi]
    · simp [wordAddr, bit, k, show i < 2 by omega]
  rw [shifts]
  simp [Nat.shiftRight_eq_div_pow, Nat.shiftLeft_eq]
  omega

theorem wordAddr_idem (a : Word) : wordAddr (wordAddr a) = wordAddr a := by
  apply BitVec.eq_of_toNat_eq
  simp only [wordAddr_toNat]
  omega

/-- The address of word k of a burst from a on. -/
def burstAt (a : Word) (k : Nat) : Word := a + BitVec.ofNat 32 (4 * k)

theorem burstAt_zero (a : Word) : burstAt a 0 = a := by simp [burstAt]

theorem burstAt_next (a : Word) (k : Nat) : burstAt (a + 4) k = burstAt a (k + 1) := by
  simp only [burstAt, Nat.mul_succ]
  bv_omega

theorem wordAddr_next (h : wordAddr a = a) : wordAddr (a + 4) = a + 4 := by
  have whole := wordAddr_toNat a
  rw [h] at whole
  apply BitVec.eq_of_toNat_eq
  rw [wordAddr_toNat, BitVec.toNat_add]
  simp
  omega

/-! ### What the port's own registers leave alone -/

theorem nextWin_eq (s : State) : nextWin s = s.modMp fun m => { m with winAddr := m.winAddr + 4 } := rfl

theorem checkAccess_modMp (s : State) (f : Mp → Mp) : checkAccess (s.modMp f) r wr a = checkAccess s r wr a :=
  checkAccess_congr rfl rfl

theorem responds_modMp (s : State) (f : Mp → Mp) : responds (s.modMp f) a = responds s a := responds_congr rfl rfl

/-- No block but the mirror shows anything of the management port. -/
theorem blockReads_modMp (s : State) (f : Mp → Mp) (r : Req) :
    (∀ o, sysRead (s.modMp f) o = sysRead s o) ∧ (∀ o, accRead (s.modMp f) o = accRead s o) ∧
    (∀ o, lcsRead r (s.modMp f) o = lcsRead r s o) ∧ (∀ o, tbeRead (s.modMp f) o = tbeRead s o) ∧
    (∀ n o, tsqRead (s.modMp f) n o = tsqRead s n o) ∧ (∀ n o, capRead (s.modMp f) n o = capRead s n o) ∧
    (∀ o, pwRead (s.modMp f) o = pwRead s o) ∧ (∀ p i, fspRegRead (s.modMp f) p i = fspRegRead s p i) ∧
    (∀ o, qeRead (s.modMp f) o = qeRead s o) ∧ (∀ n o, egrRead (s.modMp f) n o = egrRead s n o) ∧
    (∀ o, hlRead (s.modMp f) o = hlRead s o) ∧ (∀ o, adcRead (s.modMp f) o = adcRead s o) ∧
    (∀ o, cfgRead (s.modMp f) o = cfgRead s o) ∧ (∀ o, bkpRead (s.modMp f) o = bkpRead s o) :=
  ⟨fun _ => rfl, fun _ => rfl, fun _ => rfl, fun _ => rfl, fun _ _ => rfl, fun _ _ => rfl, fun _ => rfl, fun _ _ => rfl,
    fun _ => rfl, fun _ _ => rfl, fun _ => rfl, fun _ => rfl, fun _ => rfl, fun _ => rfl⟩

theorem regWord_modMp (f : Mp → Mp) (h : PlainRead x) : regWord r (s.modMp f) x = regWord r s x := by
  obtain ⟨_, _, plain⟩ := h
  obtain ⟨sys, acc, lcs, tbe, tsq, cap, pw, fsp, qe, egr, hl, adc, cfg, bkp⟩ := blockReads_modMp s f r
  rcases e : blockOf x with _ | b
  · simp only [regWord, e]
  · have kept := plain b e
    cases b
    case mirror | ua | spc | pio | scb | fs => simp at kept
    all_goals simp only [regWord, e, sys, acc, lcs, tbe, tsq, cap, pw, fsp, qe, egr, hl, adc, cfg, bkp, State.modMp_fields]

/-! ### Write bursts -/

theorem Met.with_ok (m : Met) : m.with .ok = m := by
  simp [Met.with, show (Issue.ok == Issue.denied) = false from rfl, show (Issue.ok == Issue.noresp) = false from rfl]

theorem Met.with_denied (m : Met) : (m.with .denied).denied = true := Bool.or_true _

theorem issueWrite_denies : ((issueWrite s r a w).1 == .denied) = (checkAccess s r true a).isSome := by
  unfold issueWrite
  split
  · next h => rw [h]; rfl
  · next h => rw [h]; split_ifs <;> rfl

theorem issueWrite_keeps_check : checkAccess (issueWrite s r a w).2 r wr b = checkAccess s r wr b := by
  apply checkAccess_congr
  · unfold issueWrite
    split
    · rfl
    · split_ifs <;> rfl
  · exact (issueWrite_moves s r a w (Moves.refl [.bus, .acc] s) (by decide)).only .lcs (by decide)

theorem issueWrite_mp : (issueWrite s r a w).2.mp = s.mp :=
  (issueWrite_moves s r a w (Moves.refl [.bus, .acc] s) (by decide)).only .mp (by decide)

/-- The port with WIN_ADDR at an address. -/
def Mp.at (a : Word) (m : Mp) : Mp := { m with winAddr := a }

/-- A write burst checks each of its words and leaves WIN_ADDR past the last. -/
theorem burstWrite_walks (al : wordAddr s.mp.winAddr = s.mp.winAddr) :
    (burstWrite ws m s).2.mp = s.mp.at (burstAt s.mp.winAddr ws.length) ∧
      (burstWrite ws m s).1.denied =
        (m.denied || (List.range ws.length).any fun k => (checkAccess s .mp true (burstAt s.mp.winAddr k)).isSome) := by
  induction ws generalizing m s with
  | nil => simp [burstWrite, burstAt_zero, Mp.at]
  | cons w ws ih =>
    rw [burstWrite, winWrite, al]
    rcases e : issueWrite s .mp s.mp.winAddr w with ⟨i, t⟩
    have kept : t.mp = s.mp := by simpa only [e] using issueWrite_mp (s := s) (r := .mp) (a := s.mp.winAddr) (w := w)
    have mp : (nextWin t).mp = s.mp.at (s.mp.winAddr + 4) := congrArg (fun m : Mp => m.at (m.winAddr + 4)) kept
    have checks (b : Word) : checkAccess (nextWin t) .mp true b = checkAccess s .mp true b := by
      rw [nextWin_eq, checkAccess_modMp, ← issueWrite_keeps_check (s := s) (a := s.mp.winAddr) (w := w), e]
    have denies : (i == .denied) = (checkAccess s .mp true s.mp.winAddr).isSome := by
      rw [← issueWrite_denies (w := w), e]
    obtain ⟨walks, later⟩ := ih (m := m.with i) (s := nextWin t) (by rw [mp]; exact wordAddr_next al)
    refine ⟨by rw [walks, mp]; exact congrArg (Mp.at · s.mp) (burstAt_next ..), ?_⟩
    rw [later, mp, List.length_cons, List.range_succ_eq_map]
    simp only [Mp.at, burstAt_next, checks]
    simp [Met.with, denies, burstAt_zero, Bool.or_assoc, List.any_map, Function.comp_def]

/-- A window write that is posted at once. -/
def Posts (s : State) (a : Word) : Prop :=
  checkAccess s .mp true a = none ∧ responds s a = true ∧ blockOf a ≠ some .bkp

/-- The state after the words of a burst were posted from address a on. -/
def posted (ws : List Word) (a : Word) (s : State) : State :=
  (s.modMp (Mp.at (burstAt a ws.length))).modBus fun b =>
    { b with
      nextId := b.nextId + ws.length
      inflight := b.inflight ++ ws.zipIdx.map fun w => ⟨b.nextId + w.2, .mp, burstAt a w.2, w.1, b.epochOrder, s.clock⟩ }

theorem posted_cons : posted ws (a + 4) (nextWin (postWrite s .mp a w)) = posted (w :: ws) a s := by
  simp only [posted, Mp.at, nextWin, State.modMp, State.modBus, postWrite, burstAt_next, burstAt_zero, List.zipIdx_cons, List.zipIdx_succ,
    List.map_cons, List.map_map, Function.comp_def, List.length_cons, List.append_assoc, List.cons_append, List.nil_append,
    Nat.add_assoc, Nat.add_comm 1, Nat.zero_add, Nat.add_zero]

theorem burstWrite_posts (al : wordAddr s.mp.winAddr = s.mp.winAddr)
    (h : ∀ k, k < ws.length → Posts s (burstAt s.mp.winAddr k)) :
    burstWrite ws m s = (m, posted ws s.mp.winAddr s) := by
  induction ws generalizing s with
  | nil => simp [burstWrite, posted, burstAt_zero, Mp.at, State.modMp, State.modBus]
  | cons w ws ih =>
    obtain ⟨check, answers, block⟩ := burstAt_zero s.mp.winAddr ▸ h 0 (by simp)
    rw [burstWrite, winWrite, al, issueWrite_posted check answers block, Met.with_ok, ← posted_cons]
    refine ih (s := nextWin (postWrite s .mp s.mp.winAddr w)) (wordAddr_next al) fun k hk => ?_
    obtain ⟨check, answers, block⟩ := h (k + 1) (by simpa using hk)
    rw [← burstAt_next] at check answers block
    exact ⟨(checkAccess_congr rfl rfl).trans check, (responds_congr rfl rfl).trans answers, block⟩

/-! ### Read bursts -/

/-- The state in which a burst reads its next word (R71). -/
def burstNext (ws : List Word) (s : State) : State := if ws.isEmpty then s else nextWin s

theorem burstNext_append : burstNext (ws ++ [w]) s = nextWin s := by simp [burstNext]

theorem burstRead_step {i : Issue} (hu : burstNext ws s = u) (ha : u.mp.winAddr = a) (al : wordAddr a = a)
    (e : issueRead .mp a (es.headD .clean) u = ((i, w), t)) :
    burstRead (n + 1) es m ws s = burstRead n es.tail (m.with i) (ws ++ [w]) t := by
  have read : winRead (es.headD .clean) (burstNext ws s) = ((i, w), t) := by rw [hu, winRead, ha, al, e]
  exact congrArg (fun x : (Issue × Word) × State => burstRead n es.tail (m.with x.1.1) (ws ++ [x.1.2]) x.2) read

theorem burstRead_length : (burstRead n es m ws s).1.2.length = ws.length + n := by
  induction n generalizing es m ws s with
  | zero => rfl
  | succ n ih => rw [burstRead, ih]; simp; omega

/-- A read burst of refused words reads zeros. -/
theorem burstRead_refused (hu : burstNext ws s = u) (ha : u.mp.winAddr = a) (al : wordAddr a = a)
    (h : ∀ k, k < n + 1 → checkAccess u .mp false (burstAt a k) ≠ none) :
    let x := burstRead (n + 1) es m ws s
    Only [.mp, .acc] u x.2 ∧ x.2.mp.winAddr = burstAt a n ∧ x.1.2 = ws ++ List.replicate (n + 1) 0 ∧ x.1.1.denied = true := by
  induction n generalizing es m ws s u a with
  | zero =>
    obtain ⟨why, refused⟩ := Option.ne_none_iff_exists'.1 (burstAt_zero a ▸ h 0 (by omega))
    rw [burstRead_step hu ha al (issueRead_refused refused), burstAt_zero]
    exact ⟨(logRefusal_moves _ _ _ _ _ (Moves.refl _ _) (by decide)).only, ha, rfl, Met.with_denied m⟩
  | succ n ih =>
    obtain ⟨why, refused⟩ := Option.ne_none_iff_exists'.1 (burstAt_zero a ▸ h 0 (by omega))
    have moved : (nextWin (logRefusal u .mp false a why)).mp.winAddr = a + 4 := congrArg (· + 4) ha
    have logged : Only [.mp, .acc] u (nextWin (logRefusal u .mp false a why)) :=
      (nextWin_moves _ (logRefusal_moves _ _ _ _ _ (Moves.refl _ _) (by decide)) (by decide)).only
    have later (k : Nat) (hk : k < n + 1) : checkAccess (nextWin (logRefusal u .mp false a why)) .mp false (burstAt (a + 4) k) ≠ none := by
      rw [burstAt_next, checkAccess_congr (s := u) (t := nextWin (logRefusal u .mp false a why)) rfl rfl]
      exact h (k + 1) (by omega)
    obtain ⟨only, next, words, denied⟩ := ih (es := es.tail) (m := m.with .denied) (ws := ws ++ [0])
      burstNext_append moved (wordAddr_next al) later
    rw [burstRead_step hu ha al (issueRead_refused refused)]
    refine ⟨logged.trans only, next.trans (burstAt_next ..), ?_, denied⟩
    rw [words, List.append_assoc, List.singleton_append, ← List.replicate_succ]

/-- A window read of a register without read effects. -/
def ReadsPlain (s : State) (a : Word) : Prop :=
  checkAccess s .mp false a = none ∧ responds s a = true ∧ PlainRead a ∧ Settled s .mp a

theorem readsPlain_modMp (h : ReadsPlain s a) : ReadsPlain (s.modMp f) a := by
  obtain ⟨check, answers, plain, settled⟩ := h
  exact ⟨(checkAccess_modMp s f).trans check, (responds_modMp s f).trans answers, plain, settled⟩

/-- A read burst of plain registers reads what they hold. -/
theorem burstRead_plain (hu : burstNext ws s = u) (ha : u.mp.winAddr = a) (al : wordAddr a = a)
    (h : ∀ k, k < n + 1 → ReadsPlain u (burstAt a k)) :
    burstRead (n + 1) es m ws s =
      ((m, ws ++ (List.range (n + 1)).map fun k => regWord .mp u (burstAt a k)), u.modMp (Mp.at (burstAt a n))) := by
  induction n generalizing es ws s u a with
  | zero =>
    obtain ⟨check, answers, plain, settled⟩ := burstAt_zero a ▸ h 0 (by omega)
    rw [burstRead_step hu ha al (issueRead_plain check answers settled plain), Met.with_ok, burstAt_zero, ← ha]
    simp [burstRead, burstAt_zero, State.modMp, Mp.at]
  | succ n ih =>
    obtain ⟨check, answers, plain, settled⟩ := burstAt_zero a ▸ h 0 (by omega)
    have moved : (nextWin u).mp.winAddr = a + 4 := congrArg (· + 4) ha
    have later (k : Nat) (hk : k < n + 1) : ReadsPlain (nextWin u) (burstAt (a + 4) k) := by
      rw [burstAt_next]
      exact readsPlain_modMp (h (k + 1) (by omega))
    have words : (List.range (n + 1)).map (fun k => regWord .mp (nextWin u) (burstAt (a + 4) k)) =
        (List.range (n + 1)).map fun k => regWord .mp u (burstAt a (k + 1)) := List.map_congr_left fun k hk => by
      obtain ⟨_, _, plain, _⟩ := later k (List.mem_range.1 hk)
      rw [nextWin_eq, regWord_modMp _ plain, burstAt_next]
    rw [burstRead_step hu ha al (issueRead_plain check answers settled plain), Met.with_ok,
      ih burstNext_append moved (wordAddr_next al) later, words, burstAt_next, List.range_succ_eq_map (n := n + 1), List.map_cons,
      List.map_map, burstAt_zero, List.append_assoc]
    rfl

/-! ### The statement -/

theorem burstWriteEffect_cut {words : List Word} (h : 8 ≤ cycles) (k : cycles < 40) (up : held s = false) :
    burstWriteEffect addr words cycles s = (sampleViews s).modMp (Mp.void ⟨statusByte (sampleViews s), []⟩ 0x0B) := by
  rw [burstWriteEffect, transaction_acts h up, if_pos k, record_void]

theorem burstReadEffect_cut (h : 8 ≤ cycles) (k : cycles < 40) (up : held s = false) :
    burstReadEffect addr es cycles s = (sampleViews s).modMp (Mp.void ⟨statusByte (sampleViews s), []⟩ 0x0C) := by
  rw [burstReadEffect, transaction_acts h up, if_pos k, record_void]

/-- A burst of whole words, by what its words met and the state they left. -/
theorem burstWriteEffect_whole {words : List Word} (h : 40 ≤ cycles) (k : words.length = (cycles - 40) / 32) (up : held s = false)
    (e : burstWrite words ⟨false, false⟩ (loadWin addr (sampleViews s)) = (m, t)) :
    burstWriteEffect addr words cycles s = record 0x0B (decide (1 ≤ words.length) && (cycles - 40) % 32 == 0) words.length
      m.denied m.noresp (shiftOut (sampleViews s) [] t) := by
  rw [burstWriteEffect, transaction_acts (by omega) up, if_neg (Nat.not_lt.2 h)]
  simp only [← k, List.take_length, e]

/-- How many words a burst read has captured. -/
def capturedBy (cycles : Nat) : Nat := if cycles < 48 then 0 else 1 + (cycles - 48) / 32

/-- The port with the last captured word in WIN_DATA. -/
def Mp.capture (k : Nat) (ws : List Word) (m : Mp) : Mp := if k = 0 then m else { m with winData := ws.getD (k - 1) 0 }

theorem Mp.capture_winAddr (k : Nat) (ws : List Word) (m : Mp) : (m.capture k ws).winAddr = m.winAddr := by
  unfold Mp.capture
  split <;> rfl

theorem Mp.capture_winData {k : Nat} (h : k ≠ 0) (ws : List Word) (m : Mp) : (m.capture k ws).winData = ws.getD (k - 1) 0 := by
  rw [Mp.capture, if_neg h]

theorem answered_only {op : Byte} {wf denied noresp : Bool} : Only [.mp] t (record op wf n denied noresp (shiftOut v ws t)) :=
  (record_moves op wf n denied noresp _ (shiftOut_moves v ws t (Moves.refl _ t) (by decide)) (by decide)).only

theorem burstReadEffect_whole (h : 40 ≤ cycles) (up : held s = false)
    (e : burstRead ((cycles - 40) / 32 + 1) es ⟨false, false⟩ [] (loadWin addr (sampleViews s)) = ((m, ws), t)) :
    burstReadEffect addr es cycles s = record 0x0C (decide (80 ≤ cycles) && (cycles - 48) % 32 == 0) ((cycles - 40) / 32 + 1)
      m.denied m.noresp (shiftOut (sampleViews s) (ws.take ((cycles - 48) / 32)) (t.modMp (Mp.capture (capturedBy cycles) ws))) := by
  have keeps : (if capturedBy cycles = 0 then t else t.modMp fun m => { m with winData := ws.getD (capturedBy cycles - 1) 0 }) =
      t.modMp (Mp.capture (capturedBy cycles) ws) := by
    by_cases k : capturedBy cycles = 0 <;> simp [k, Mp.capture, State.modMp]
  rw [burstReadEffect, transaction_acts (by omega) up, if_neg (Nat.not_lt.2 h)]
  simp only [Nat.add_comm 1 ((cycles - 40) / 32), e]
  exact congrArg (fun u => record 0x0C _ _ m.denied m.noresp (shiftOut (sampleViews s) _ u)) keeps

/-- Settles O20: by the words of each burst. -/
theorem windowBursts : Obligations.WindowBursts := by
  intro s addr words ecc cycles undef up v at_ n issued captured shown
  have go (reaches : Bool) (f : State → State) : onPort s reaches f = .next (f s) := onPort_defined undef reaches f
  have aligned : wordAddr (wordAddr addr) = wordAddr addr := wordAddr_idem addr
  have views : Only [.mp] s v := sampleViews_only s
  have checks (wr : Bool) (a : Word) : checkAccess (loadWin addr v) .mp wr a = checkAccess s .mp wr a := checkAccess_congr rfl rfl
  refine ⟨fun h k => ⟨_, _, (go _ _).trans (congrArg _ (burstWriteEffect_cut h k up)),
    (go _ _).trans (congrArg _ (burstReadEffect_cut h k up)), views.trans ((Moves.refl _ v).modMp (by decide) _).only,
    views.trans ((Moves.refl _ v).modMp (by decide) _).only, rfl, rfl, rfl, rfl, rfl, rfl⟩, fun h k => ?_, fun h => ?_⟩
  · have frame := (burstWriteEffect_moves addr words cycles s (Moves.refl [.mp, .bus, .acc] s) (by decide)).only
    rcases e : burstWrite words ⟨false, false⟩ (loadWin addr v) with ⟨m, t⟩
    obtain ⟨walks, denies⟩ := burstWrite_walks (ws := words) (m := ⟨false, false⟩) (s := loadWin addr v) aligned
    rw [e] at walks denies
    have acts := burstWriteEffect_whole h k up e
    rw [k] at walks denies acts
    refine ⟨_, (go _ _).trans (congrArg _ acts), acts ▸ frame, congrArg Mp.winAddr walks, rfl, rfl, rfl, rfl, fun wf => ?_,
      fun all => ?_⟩
    · have met : m.denied = (List.range n).any fun k => (checkAccess s .mp true (at_ k)).isSome := by
        rw [denies, Bool.false_or]
        exact congrArg _ (funext fun k => congrArg Option.isSome (checks true (at_ k)))
      exact (congrArg (· && m.denied) wf).trans ((Bool.true_and _).trans met)
    · have posts := burstWrite_posts (ws := words) (m := ⟨false, false⟩) (s := loadWin addr v) aligned fun j hj => by
        obtain ⟨check, answers, block⟩ := all j (k ▸ hj)
        exact ⟨(checks true _).trans check, (responds_congr rfl rfl).trans answers, block⟩
      obtain ⟨rfl, rfl⟩ := Prod.mk.inj (e.symm.trans posts)
      have sent : Only [.mp, .bus] v (posted words (wordAddr addr) (loadWin addr v)) :=
        ((((Moves.refl _ v).modMp (by decide) _).modMp (by decide) _).modBus (by decide) _).only
      refine ⟨((views.weaken (by decide)).trans sent).trans (answered_only.weaken (by decide)), ?_, ?_⟩
      · simp [record, shiftOut, State.modMp]
      · rw [← k]
        rfl
  · rcases e : burstRead (n + 1) ecc ⟨false, false⟩ [] (loadWin addr v) with ⟨⟨m, ws⟩, t⟩
    have acts := burstReadEffect_whole h up e
    have length : ws.length = n + 1 := by
      have := burstRead_length (n := n + 1) (es := ecc) (m := ⟨false, false⟩) (ws := []) (s := loadWin addr v)
      simpa [e] using this
    have fits : shown ≤ n + 1 := by simp only [shown, n]; omega
    refine ⟨_, ws.take shown, (go _ _).trans (congrArg _ acts), rfl, ?_, rfl, rfl, ?_, fun all => ?_, fun all => ?_⟩
    · rw [show issued = n + 1 from Nat.add_comm 1 n]; rfl
    · rw [List.length_take, length, Nat.min_eq_left fits]
    · obtain ⟨only, next, words, denied⟩ := burstRead_refused (n := n) (es := ecc) (m := ⟨false, false⟩) (ws := [])
        (a := wordAddr addr) (s := loadWin addr v) rfl rfl aligned fun k hk e => all k (by omega) ((checks false _).symm.trans e)
      simp only [e] at only next words denied
      have loaded : Only [.mp] s (loadWin addr v) := views.trans ((Moves.refl _ v).modMp (by decide) _).only
      refine ⟨((loaded.weaken (by decide)).trans only).trans
        ((((Moves.refl [.mp] t).modMp (by decide) _).only.trans answered_only).weaken (by decide)), ?_, ?_, ?_⟩
      · exact (Mp.capture_winAddr ..).trans next
      · intro w hw
        rw [words] at hw
        exact List.eq_of_mem_replicate (List.mem_of_mem_take hw)
      · exact fun wf => (congrArg (· && m.denied) wf).trans ((Bool.true_and _).trans denied)
    · have plain := burstRead_plain (n := n) (es := ecc) (m := ⟨false, false⟩) (ws := []) (a := wordAddr addr) (s := loadWin addr v)
        rfl rfl aligned fun k hk => by
          obtain ⟨check, answers, plain, settled⟩ := all k (by omega)
          exact ⟨(checks false _).trans check, (responds_congr rfl rfl).trans answers, plain, settled⟩
      obtain ⟨ends, rfl⟩ := Prod.mk.inj (e.symm.trans plain)
      obtain ⟨rfl, rfl⟩ := Prod.mk.inj ends
      have word (k : Nat) (hk : k < n + 1) : ((List.range (n + 1)).map fun k => regWord .mp (loadWin addr v) (at_ k)).getD k 0 =
          regWord .mp s (at_ k) := by
        obtain ⟨_, _, plain, _⟩ := all k (by omega)
        rw [List.getD_eq_getElem _ _ (by simpa using hk), List.getElem_map, List.getElem_range]
        exact (regWord_modMp _ plain).trans (regWord_modMp _ plain)
      refine ⟨?_, Mp.capture_winAddr .., ?_, fun k hk => ?_, fun h48 => ?_⟩
      · exact views.trans ((((((Moves.refl [.mp] v).modMp (by decide) _).modMp (by decide) _).modMp (by decide) _).only).trans
          answered_only)
      · simp [record, shiftOut, State.modMp]
      · rw [List.getD_eq_getElem?_getD, List.getElem?_take_of_lt hk, ← List.getD_eq_getElem?_getD]
        exact word k (by omega)
      · have last : capturedBy cycles = captured := if_neg (Nat.not_lt.2 h48)
        exact (Mp.capture_winData (by omega) ..).trans (last ▸ word (captured - 1) (by omega))

end Sys2Proof.Machine
end

section
/-! Bytes of a configuration stream (O25): what the controller does by itself with the buffer, and the bytes that enter it (R85, R86,
R88, R393, R394, R396, R404). -/

namespace Sys2Proof.Machine

variable {s : State} {bytes bs : List Byte} {b : Byte} {on part : Bool} {free k : Nat}

/-! ### Where the controller stands -/

/-- A controller that is halted or looks for the sync word has no stream open. -/
theorem open_iff : streamOpen s = true ↔ searching s = false ∧ cfgHalted s = false := by
  simp only [streamOpen, searching, cfgHalted]
  cases s.cfg.phase <;> decide

theorem lossCheck_none (h : s.mp.losses = []) : lossCheck s = s := by simp [lossCheck, lossReached, h]

theorem lossCheck_shut (h : streamOpen s = false) : lossCheck s = s := by
  have unreached : lossReached s = false := by
    unfold lossReached
    split
    · rfl
    · cases e : s.cfg.phase <;> simp [streamOpen, e] at h ⊢
  simp [lossCheck, unreached]

theorem discardIdle_open (h : streamOpen s = true) : discardIdle s = s := by
  obtain ⟨search, halt⟩ := open_iff.1 h
  simp [discardIdle, search, halt]

/-- All of the buffer discarded and counted (R404). -/
def discardAll (s : State) : State :=
  (s.modCfg fun c => { c with cntDisc := c.cntDisc + BitVec.ofNat 32 s.mp.buffer.length }).modMp emptyBuffer

theorem discardIdle_halted (h : cfgHalted s = true) : discardIdle s = discardAll s := if_pos h

/-- The bytes before a sync word discarded (R396). -/
def Mp.trim (m : Mp) : Mp :=
  { dropFront (m.buffer.length - (trimSearch m.buffer).length) m with
    losses := (dropFront (m.buffer.length - (trimSearch m.buffer).length) m).losses.filter (· != 0) }

theorem discardIdle_searching (h : searching s = true) : discardIdle s = s.modMp Mp.trim := by
  have running : cfgHalted s = false := Bool.eq_false_iff.2 fun k => by simp [searching, beq_iff_eq.1 k] at h
  simp only [discardIdle, running, h, if_true, Bool.false_eq_true, if_false]
  rfl

/-! ### What the controller does by itself -/

theorem settle_stopped (h : cfgRuns s = false) : settle s = s := by simp [settle, h]

theorem settle_open (h : streamOpen s = true) (k : s.mp.losses = []) : settle s = s := by
  rw [settle, discardIdle_open h, lossCheck_none k, ite_self]

/-- The controller takes nothing of the buffer by itself. -/
def Still (s : State) : Prop := cfgRuns s = false ∨ (streamOpen s = true ∧ s.mp.losses = [])

theorem settle_still (h : Still s) : settle s = s := by
  rcases h with h | ⟨h, k⟩
  · exact settle_stopped h
  · exact settle_open h k

theorem settle_halted (run : cfgRuns s = true) (h : cfgHalted s = true) : settle s = discardAll s := by
  have shut : streamOpen (discardAll s) = false := by
    simp [streamOpen, discardAll, State.modCfg, State.modMp, show s.cfg.phase = .failed from beq_iff_eq.1 h]
  rw [settle, if_pos run, discardIdle_halted h, lossCheck_shut shut]

theorem settle_searching (run : cfgRuns s = true) (h : searching s = true) : settle s = s.modMp Mp.trim := by
  have shut : streamOpen (s.modMp Mp.trim) = false := Bool.eq_false_iff.2 fun k => by
    obtain ⟨search, _⟩ := open_iff.1 k
    exact absurd h (by rw [show searching s = false from search]; decide)
  rw [settle, if_pos run, discardIdle_searching h, lossCheck_shut shut]

/-- A byte that is missing while the slot is erased ends the stream at the end of the erase (R411). -/
theorem settle_erasing (run : cfgRuns s = true) (h : s.cfg.phase = .erasing) (k : s.mp.losses ≠ []) :
    settle s = (s.modMp fun m => { m with losses := m.losses.tail }).modCfg fun c =>
      { c with parse := { c.parse with aborting := true } } := by
  obtain ⟨p, rest, e⟩ := List.exists_cons_of_ne_nil k
  have reached : lossReached s = true := by simp [lossReached, e, h]
  have isOpen : streamOpen s = true := by simp [streamOpen, h]
  rw [settle, if_pos run, discardIdle_open isOpen, lossCheck, if_pos reached]
  exact if_pos h

/-! ### What stays -/

theorem trimSearch_suffix (bs : List Byte) : trimSearch bs <:+ bs := by
  induction bs with
  | nil => exact List.suffix_refl _
  | cons b bs ih =>
    unfold trimSearch
    split
    · exact List.suffix_refl _
    · exact ih.trans (List.suffix_cons b bs)

theorem trimSearch_sync (h : bs.take 4 = syncBytes) : trimSearch bs = bs := by
  cases bs with
  | nil => rfl
  | cons b bs => exact if_pos (by rw [h]; decide)

theorem trim_buffer (m : Mp) : m.trim.buffer = trimSearch m.buffer :=
  (List.suffix_iff_eq_drop.1 (trimSearch_suffix m.buffer)).symm

/-- A buffer that begins with the sync word keeps all of it. -/
theorem trim_sync {m : Mp} (h : m.buffer.take 4 = syncBytes) (k : m.losses = []) : m.trim = m := by
  have stays : dropFront 0 m = m := by cases m; simp_all [dropFront]
  have none_lost : m.losses.filter (· != 0) = m.losses := by rw [k]; rfl
  rw [Mp.trim, trimSearch_sync h, Nat.sub_self, stays, none_lost]

theorem discardIdle_overflow : (discardIdle s).mp.overflow = s.mp.overflow := by
  unfold discardIdle
  split
  · rfl
  · split <;> rfl

theorem cfgFail_overflow {why : WReason} : (cfgFail s why).mp.overflow = s.mp.overflow := by
  rw [cfgFail_eq, ← (failState_mp s why).1]
  split
  · exact discardIdle_overflow
  · rfl

theorem endEarly_overflow : (endEarly s).mp.overflow = s.mp.overflow := by
  unfold endEarly
  split
  · rfl
  · split
    · exact cfgFail_overflow
    · rfl

theorem settle_overflow : (settle s).mp.overflow = s.mp.overflow := by
  unfold settle lossCheck
  split
  · split
    · exact endEarly_overflow.trans discardIdle_overflow
    · exact discardIdle_overflow
  · rfl

theorem cfgFail_cfg (s : State) (why : WReason) : (cfgFail s why).cfg.phase = .failed ∧ (cfgFail s why).cfg.reason = why ∧
    (cfgFail s why).cfg.pcpEn = s.cfg.pcpEn := by
  have failed := failState_cfg s why
  rw [cfgFail_eq]
  split
  · rw [discardIdle_halted (beq_iff_eq.2 failed.1)]
    exact failed
  · exact failed

theorem searching_endEarly (h : searching s = false) : searching (endEarly s) = false := by
  unfold endEarly
  split
  · exact h
  · split
    · simp [searching, (cfgFail_cfg s .aborted).1]
    · exact h

/-- The controller by itself neither begins nor leaves its search for a sync word. -/
theorem searching_settle : searching (settle s) = searching s := by
  cases run : cfgRuns s with
  | false => rw [settle_stopped run]
  | true =>
    cases h : searching s with
    | true => rw [settle_searching run h]; exact h
    | false =>
      cases halt : cfgHalted s with
      | true => rw [settle_halted run halt]; exact h
      | false =>
        rw [settle, if_pos run, discardIdle_open (open_iff.2 ⟨h, halt⟩), lossCheck]
        split
        · exact searching_endEarly h
        · exact h

/-! ### Bytes that enter the buffer (R86, R88) -/

/-- Bytes that found room. -/
def Mp.enter (bs : List Byte) (m : Mp) : Mp := { m with buffer := m.buffer ++ bs }

/-- The bytes that found room, and the place of the first that did not. -/
def Mp.spill (bs : List Byte) (free : Nat) (m : Mp) : Mp :=
  { m with buffer := m.buffer ++ bs.take free, overflow := true, losses := m.losses ++ [m.buffer.length + free] }

/-- The place of a partial byte. -/
def Mp.cutHere (m : Mp) : Mp := { m with cut := true, losses := m.losses ++ [m.buffer.length] }

theorem Mp.enter_cutHere_losses (bs : List Byte) (m : Mp) :
    (m.enter bs).cutHere.losses = m.losses ++ [m.buffer.length + bs.length] := by simp [Mp.enter, Mp.cutHere]

theorem enterBytes_fits (h : bs.length ≤ free) : enterBytes s bs free = settle (s.modMp (Mp.enter bs)) := by
  simp only [enterBytes, Nat.not_lt.2 h, if_false, List.take_of_length_le h]
  rfl

theorem enterBytes_still (q : Still s) (h : bs.length ≤ free) : enterBytes s bs free = s.modMp (Mp.enter bs) :=
  (enterBytes_fits h).trans (settle_still q)

theorem enterBytes_spills (h : free < bs.length) : enterBytes s bs free = settle (s.modMp (Mp.spill bs free)) := by
  simp only [enterBytes, h, if_true, List.length_append, List.length_take, Nat.min_eq_left h.le]
  rfl

theorem enterBytes_stopped (q : cfgRuns s = false) (h : free < bs.length) : enterBytes s bs free = s.modMp (Mp.spill bs free) :=
  (enterBytes_spills h).trans (settle_stopped q)

theorem cutByte_stopped (q : cfgRuns s = false) : cutByte s = s.modMp Mp.cutHere := settle_stopped q

theorem streamTake_port (h : s.cfg.pcpEn = true) : streamTake bs part s =
    s.modCfg fun c => { c with cntDisc := c.cntDisc + BitVec.ofNat 32 bs.length } := if_pos h

theorem streamTake_whole (h : s.cfg.pcpEn = false) :
    streamTake bs false (sampleViews s) = enterBytes (sampleViews s) bs (streamFree s) := if_neg (by simp [sampleViews, State.modMp, h])

theorem streamTake_cut (h : s.cfg.pcpEn = false) :
    streamTake bs true (sampleViews s) = cutByte (enterBytes (sampleViews s) bs (streamFree s)) :=
  if_neg (by simp [sampleViews, State.modMp, h])

/-! ### The transaction (R85) -/

/-- A stream transaction of whole bytes and k cycles of the next. -/
theorem streamEffect_taken (ne : bytes ≠ []) (h : k < 8) (up : held s = false)
    (check : checkAccess s .mp true 0x0026_0000 = none) : streamEffect bytes (8 + 8 * bytes.length + k) s =
      record 0x0A (k == 0) bytes.length false false (shiftOut (sampleViews s) [] (streamTake bytes (k != 0) (sampleViews s))) := by
  have permitted : checkAccess (sampleViews s) .mp true 0x0026_0000 = none := (checkAccess_congr rfl rfl).trans check
  have whole : (8 + 8 * bytes.length + k - 8) / 8 = bytes.length := by omega
  have rest : (8 + 8 * bytes.length + k - 8) % 8 = k := by omega
  have some_byte : 1 ≤ bytes.length := List.length_pos_of_ne_nil ne
  rw [streamEffect, transaction_acts (by omega) up]
  simp only [permitted, whole, rest, List.take_length, decide_eq_true some_byte, Bool.and_true, bne, Bool.not_not]

theorem streamEffect_refused {why : BitVec 4} (ne : bytes ≠ []) (up : held s = false)
    (check : checkAccess s .mp true 0x0026_0000 = some why) : streamEffect bytes (8 + 8 * bytes.length) s =
      record 0x0A true bytes.length true false
        (shiftOut (sampleViews s) [] (logRefusal (sampleViews s) .mp true 0x0026_0000 why)) := by
  have refused : checkAccess (sampleViews s) .mp true 0x0026_0000 = some why := (checkAccess_congr rfl rfl).trans check
  have whole : (8 + 8 * bytes.length - 8) / 8 = bytes.length := by omega
  have rest : (8 + 8 * bytes.length - 8) % 8 = 0 := by omega
  have some_byte : 1 ≤ bytes.length := List.length_pos_of_ne_nil ne
  rw [streamEffect, transaction_acts (by omega) up]
  simp only [refused, whole, rest, decide_eq_true some_byte]
  rfl

/-! ### The other sources -/

theorem pcStbByteEffect_port (h : s.cfg.pcpEn = true) (up : held s = false) :
    pcStbByteEffect b s = enterBytes s [b] (streamFree s) := by simp [pcStbByteEffect, h, up]

theorem pcpEnWriteEffect_changes (h : s.cfg.pcpEn ≠ on) : pcpEnWriteEffect on s = endEarly (s.modCfg fun c => { c with pcpEn := on }) :=
  if_neg (by simpa using h)

/-- A stream that is open ends early: at once, or at the end of the erase (R402, R411). -/
theorem endEarly_opened (h : streamOpen s = true) : (endEarly s).cfg.pcpEn = s.cfg.pcpEn ∧
    (s.cfg.phase = .erasing → (endEarly s).cfg.phase = .erasing ∧ (endEarly s).cfg.parse.aborting = true) ∧
    (s.cfg.phase ≠ .erasing → (endEarly s).cfg.phase = .failed ∧ (endEarly s).cfg.reason = .aborted) := by
  by_cases e : s.cfg.phase = .erasing
  · rw [endEarly, if_pos e]
    exact ⟨rfl, fun _ => ⟨e, rfl⟩, fun k => absurd e k⟩
  · obtain ⟨phase, reason, on⟩ := cfgFail_cfg s .aborted
    rw [endEarly, if_neg e, if_pos h]
    exact ⟨on, fun k => absurd k e, fun _ => ⟨phase, reason⟩⟩

theorem endEarly_shut (h : streamOpen s = false) : endEarly s = s := by
  have settled : s.cfg.phase ≠ .erasing := fun e => by simp [streamOpen, e] at h
  simp [endEarly, settled, h]

theorem syncWordEffect_found (run : cfgRuns s = true) (h : searching s = true) (sync : s.mp.buffer.take 4 = syncBytes)
    (k : s.mp.losses = []) : syncWordEffect s =
      (s.modMp fun m => { m with buffer := m.buffer.drop 4 }).modCfg fun c =>
        { c with phase := .header, reason := .none, parse := { Parse.init with stage := 1, crcBytes := syncBytes } } := by
  have stays : settle s = s := by rw [settle_searching run h, State.modMp, trim_sync sync k]
  have taken : dropFront 4 s.mp = { s.mp with buffer := s.mp.buffer.drop 4 } := by simp [dropFront, k]
  rw [syncWordEffect, stays, if_pos (by simp [run, h, sync]), lossCheck_none (by simp [State.modMp, State.modCfg, dropFront, k])]
  simp only [State.modMp, taken]

theorem cfgRuns_settle : cfgRuns (settle s) = cfgRuns s :=
  congrArg (fun y : Sys => y.phase == .released || y.phase == .failed)
    ((settle_moves s (Moves.refl [.mp, .cfg] s) (by decide)).only .sys (by decide))

theorem syncWordEffect_missing (h : ¬(cfgRuns s = true ∧ searching s = true ∧ (trimSearch s.mp.buffer).take 4 = syncBytes)) :
    syncWordEffect s = settle s := by
  refine if_neg fun found => ?_
  simp only [cfgRuns_settle, searching_settle, Bool.and_eq_true, beq_iff_eq] at found
  obtain ⟨⟨run, search⟩, sync⟩ := found
  have front : s.mp.trim.buffer.take 4 = syncBytes := by rwa [settle_searching run search] at sync
  exact h ⟨run, search, trim_buffer s.mp ▸ front⟩

/-- Settles O25: by what the controller does with each source's bytes. -/
theorem streamSources : Obligations.StreamSources := by
  intro s bytes b v undef up ne cycles c free still
  have port (reaches : Bool) (f : State → State) : onPort s reaches f = .next (f s) := onPort_defined undef reaches f
  have any (f : State → State) : onAny s f = .next (f s) := onAny_powered (by simp [Powered, undef]) f
  have sys (c : Clocked s) (f : State → State) : onSys s f = .next (f s) := onSys_clocked c f
  have views : Only [.mp] s (sampleViews s) := sampleViews_only s
  have took {k : Nat} {w : State} (small : k < 8) (h : checkAccess s .mp true 0x0026_0000 = none)
      (e : streamTake bytes (k != 0) (sampleViews s) = w) : exec (.stream bytes (cycles + k)) s =
        .next (record 0x0A (k == 0) bytes.length false false (shiftOut (sampleViews s) [] w)) :=
    (port _ _).trans (congrArg _ (e ▸ streamEffect_taken ne small up h))
  have tookWhole {w : State} (h : checkAccess s .mp true 0x0026_0000 = none) (e : streamTake bytes false (sampleViews s) = w) :
      exec (.stream bytes cycles) s = .next (record 0x0A true bytes.length false false (shiftOut (sampleViews s) [] w)) :=
    took (k := 0) (by decide) h e
  have entered (f : Mp → Mp) (wf : Bool) : Only [.mp] s
      (record 0x0A wf bytes.length false false (shiftOut (sampleViews s) [] ((sampleViews s).modMp f))) :=
    (views.trans ((Moves.refl _ (sampleViews s)).modMp (by decide) f).only).trans answered_only
  have portByte (on : c.pcpEn = true) : exec (.pcStbByte b) s = .next (enterBytes s [b] free) :=
    (any _).trans (congrArg _ (pcStbByteEffect_port on up))
  refine ⟨fun why h => ?_, fun h => ⟨fun on => ?_, fun off quiet fits => ?_, fun off full => ⟨?_, fun stopped => ?_⟩,
    fun k pos small off stopped fits => ?_⟩, fun off => ?_, fun on room => ⟨fun quiet => ?_, fun run halt => ?_, fun run search => ?_⟩,
    fun on full stopped => ?_, fun clocked => ⟨fun same => ?_, fun change shut => ?_, fun change isOpen => ?_,
      fun run search sync none => ?_, fun missing => ?_⟩⟩
  · have logged := (logRefusal_moves (sampleViews s) .mp true 0x0026_0000 why (Moves.refl [.mp, .acc] _) (by decide)).only
    exact ⟨_, (port _ _).trans (congrArg _ (streamEffect_refused ne up h)),
      ((views.weaken (by decide)).trans logged).trans (answered_only.weaken (by decide)), rfl, rfl, rfl, rfl⟩
  · have counted := ((Moves.refl [.mp, .cfg] (sampleViews s)).modCfg (by decide) fun c =>
      { c with cntDisc := c.cntDisc + BitVec.ofNat 32 bytes.length }).only
    exact ⟨_, tookWhole h (streamTake_port on),
      ((views.weaken (by decide)).trans counted).trans (answered_only.weaken (by decide)), rfl, rfl⟩
  · exact ⟨_, tookWhole h ((streamTake_whole off).trans (enterBytes_still quiet fits)), entered _ _, rfl, rfl, rfl, rfl⟩
  · refine ⟨_, tookWhole h ((streamTake_whole off).trans (enterBytes_spills full)), settle_overflow,
      fun run erase => ?_⟩
    exact congrArg (·.cfg.parse.aborting) (settle_erasing (s := (sampleViews s).modMp (Mp.spill bytes free)) run erase (by
      simp [State.modMp, Mp.spill]))
  · exact ⟨_, tookWhole h ((streamTake_whole off).trans (enterBytes_stopped stopped full)), entered _ _, rfl, rfl, rfl⟩
  · have part : (k != 0) = true := by simp; omega
    have void : (k == 0) = false := by simp; omega
    have cut : streamTake bytes (k != 0) (sampleViews s) = (sampleViews s).modMp fun m => (m.enter bytes).cutHere := by
      rw [part, streamTake_cut off, enterBytes_still (s := sampleViews s) (.inl stopped) fits]
      exact cutByte_stopped stopped
    refine ⟨_, took small h cut, entered _ _, rfl, ?_, ?_, rfl, ?_⟩
    · simp [void, record, State.modMp]
    · simp [void, record, State.modMp]
    · exact Mp.enter_cutHere_losses bytes _
  · exact (any _).trans (congrArg _ (if_neg (by simp [show s.cfg.pcpEn = false from off])))
  · rw [portByte on, enterBytes_still quiet room]
    rfl
  · refine ⟨_, portByte on, ?_⟩
    rw [enterBytes_fits room, settle_halted (s := s.modMp (Mp.enter [b])) run halt]
    refine ⟨((((Moves.refl _ s).modMp (by decide) _).modCfg (by decide) _).modMp (by decide) _).only, rfl, ?_⟩
    simp [discardAll, State.modCfg, State.modMp, Mp.enter, c]
  · refine ⟨_, portByte on, ?_⟩
    rw [enterBytes_fits room, settle_searching (s := s.modMp (Mp.enter [b])) run search]
    exact ⟨(((Moves.refl _ s).modMp (by decide) _).modMp (by decide) _).only, trim_buffer _⟩
  · rw [portByte on, full, enterBytes_stopped stopped Nat.one_pos]
    simp [State.modMp, Mp.spill]
  · exact (sys clocked _).trans (congrArg _ (if_pos (beq_iff_eq.2 same)))
  · exact (sys clocked _).trans (congrArg _ ((pcpEnWriteEffect_changes change).trans (endEarly_shut shut)))
  · refine ⟨_, sys clocked _, (pcpEnWriteEffect_moves v s (Moves.refl [.mp, .cfg] s) (by decide)).only, ?_⟩
    rw [pcpEnWriteEffect_changes change]
    exact endEarly_opened (s := s.modCfg fun c => { c with pcpEn := v }) isOpen
  · exact (sys clocked _).trans (congrArg _ (syncWordEffect_found run search sync none))
  · exact (sys clocked _).trans (congrArg _ (syncWordEffect_missing missing))

end Sys2Proof.Machine
end

section
/-! The management engine (O44): a word of an operation, and an entry completed by the Queue Engine (R112, R113, R282, R283, R286,
R292). -/

namespace Sys2Proof.Machine

variable {s t u : State} {o x : MgmtOp} {w : Word} {ecc : Ecc} {fabric : Bool} {e : Taken} {r : Fin 1024} {i : BitVec 16}
  {f : MgmtOp → MgmtOp} {ps : List Part} {code : Byte} {ref : Option (Fin 2048 × BitVec 7)}

/-! ### A word that is due (R113) -/

theorem wordDue_iff (s : State) (o : MgmtOp) : wordDue s o = true ↔
    o.poisoned = false ∧ o.stale = false ∧ o.next < o.nwords ∧ (o.next = 0 ∨ o.lastAt + 48 ≤ s.clock) := by
  simp only [wordDue, opEnded, Bool.and_eq_true, Bool.not_eq_true', Bool.or_eq_false_iff, Bool.or_eq_true, decide_eq_true_eq,
    beq_iff_eq, and_assoc]
  exact Iff.rfl

theorem mgmtWordEffect_none (h : ∀ o ∈ s.qe.ops, (o.fabric == fabric && wordDue s o) = false) : mgmtWordEffect fabric ecc s = s := by
  have idle : s.qe.ops.find? (fun o => o.fabric == fabric && wordDue s o) = none :=
    List.find?_eq_none.2 fun o m => by simp [h o m]
  simp only [mgmtWordEffect, idle]

/-- The only operation replaced. -/
theorem setOp_single (h : t.qe.ops = [x]) (k : x.ring = o.ring ∧ x.idx = o.idx) :
    setOp o f t = t.modQe fun q => { q with ops := [f x] } := by
  simp only [setOp, State.modQe, h, List.map_cons, List.map_nil, k.1, k.2, beq_self_eq_true, Bool.and_self, if_true]

/-- An operation after one more word. -/
def MgmtOp.stepped (now : Nat) (o : MgmtOp) : MgmtOp := { o with next := o.next + 1, lastAt := now }

/-- The word of the only operation, by what it leaves. -/
theorem mgmtWordEffect_steps (h : s.qe.ops = [o]) (due : (o.fabric == fabric && wordDue s o) = true) (acts : opWord o ecc s = u)
    (only : Only ps s u) (qe : u.qe = { s.qe with ops := [x] }) (k : x.ring = o.ring ∧ x.idx = o.idx) :
    Only (.acc :: .qe :: ps) s (mgmtWordEffect fabric ecc s) ∧ (mgmtWordEffect fabric ecc s).bus = u.bus ∧
      (mgmtWordEffect fabric ecc s).pw = u.pw ∧ (mgmtWordEffect fabric ecc s).qe = { s.qe with ops := [x.stepped s.clock] } := by
  have found : s.qe.ops.find? (fun o => o.fabric == fabric && wordDue s o) = some o := by simp [h, due]
  have step : mgmtWordEffect fabric ecc s = noteFence s (u.modQe fun q => { q with ops := [x.stepped s.clock] }) := by
    simp only [mgmtWordEffect, found, acts, setOp_single (show u.qe.ops = [x] by rw [qe]) k]
    rfl
  have fenced := noteFence_only s (u.modQe fun q => { q with ops := [x.stepped s.clock] })
  have replaced : Only [.qe] u (u.modQe fun q => { q with ops := [x.stepped s.clock] }) := ((Moves.refl _ u).modQe (by decide) _).only
  rw [step]
  refine ⟨((only.weaken (by simp +contextual)).trans (replaced.weaken (by simp))).trans (fenced.weaken (by simp)),
    (fenced .bus (by decide)), (fenced .pw (by decide)), (fenced .qe (by decide)).trans ?_⟩
  show ({ u.qe with ops := [x.stepped s.clock] } : Qe) = _
  rw [qe]

/-! ### The words of an operation -/

theorem opWord_writes (h : o.inline = true) (k : o.write = true) : opWord o ecc s = opWrite o (o.inlineData.getD o.next 0) s := by
  simp [opWord, h, k]

theorem opWord_reads (h : o.inline = true) (k : o.write = false) (e : opRead o ecc s = (w, t)) :
    opWord o ecc s = setOp o (fun y => { y with inlineData := y.inlineData.set o.next w }) t := by
  simp [opWord, h, k, e]

theorem opWrite_refused (h : o.refused = true) : opWrite o w s = s := by simp [opWrite, h]

theorem opWrite_unanswered (h : o.refused = false) (k : responds s (opAddr o) = false) :
    opWrite o w s = setOp o (fun x => { x with noresp := true }) s := by simp [opWrite, h, k]

theorem opWrite_posted (h : o.refused = false) (k : responds s (opAddr o) = true) (b : blockOf (opAddr o) ≠ some .bkp) :
    opWrite o w s = s.modBus fun b =>
      { b with nextId := b.nextId + 1, inflight := b.inflight ++ [⟨s.bus.nextId, .qe, opAddr o, w, o.order, s.clock⟩] } := by
  simp [opWrite, h, k, b]

theorem opRead_refused (h : o.refused = true) : opRead o ecc s = (0, s) := by simp [opRead, h]

theorem opRead_unanswered (h : o.refused = false) (k : responds s (opAddr o) = false) :
    opRead o ecc s = (0, setOp o (fun x => { x with noresp := true }) s) := by simp [opRead, h, k]

theorem opRead_plain (h : o.refused = false) (k : responds s (opAddr o) = true) (p : PlainRead (opAddr o))
    (q : Settled s .qe (opAddr o)) : opRead o ecc s = (regWord .qe s (opAddr o), s) := by
  simp [opRead, h, k, settleBlock_settled q, takeRead_plain p]

theorem modQe_ops (h : s.qe.ops = [o]) : (s.modQe fun q => { q with ops := [o] }) = s := by
  rw [← h]
  rfl

theorem opWord_stale (h : o.inline = false) (k : s.pw.map[o.handle.val].st = .free ∨ s.pw.map[o.handle.val].gen ≠ o.gen) :
    opWord o ecc s = setOp o (fun x => { x with stale := true }) (pwStale s) := by
  have gone : objOf s o.handle o.gen = none := if_pos k
  simp [opWord, h, gone]

/-! ### An entry that the Queue Engine completes (R283, R286) -/

/-- Descriptor memory, the operations and the entries taken are as they were. -/
def SameWork (s t : State) : Prop := t.dm = s.dm ∧ t.qe.ops = s.qe.ops ∧ t.qe.taken = s.qe.taken

theorem SameWork.trans (h : SameWork s t) (k : SameWork t u) : SameWork s u :=
  ⟨k.1.trans h.1, k.2.1.trans h.2.1, k.2.2.trans h.2.2⟩

theorem sameWork_of_only (h : Only ps s t) (d : Part.dm ∉ ps) (q : Part.qe ∉ ps) : SameWork s t := by
  have qe : t.qe = s.qe := h .qe q
  exact ⟨h .dm d, by rw [qe], by rw [qe]⟩

theorem joinTurn_work (s : State) (r : Fin 1024) : SameWork s (joinTurn s r) := by
  unfold joinTurn
  dsimp only
  split
  · exact ⟨rfl, rfl, rfl⟩
  · split <;> exact ⟨rfl, rfl, rfl⟩

theorem forEach_work {β : Type} {g : β → State → State} (h : ∀ b s, SameWork s (g b s)) (l : List β) (s : State) :
    SameWork s (forEach l g s) := by
  induction l generalizing s with
  | nil => exact ⟨rfl, rfl, rfl⟩
  | cons b l ih => exact (h b s).trans (ih (g b s))

theorem afterTagFreed_work (before s : State) (c : Consumer) : SameWork s (afterTagFreed before s c) := by
  unfold afterTagFreed
  split
  · exact ⟨rfl, rfl, rfl⟩
  · split
    · exact forEach_work (fun r s => joinTurn_work s r) _ s
    · exact ⟨rfl, rfl, rfl⟩

/-- A completed entry is taken off, and its STATUS stands in it. -/
theorem completeEntry_work : (completeEntry s e code ref).dm = memWriteBytes s.dm (e.addr + 1) [code] ∧
    (completeEntry s e code ref).qe.ops = s.qe.ops ∧
    (completeEntry s e code ref).qe.taken = s.qe.taken.filter fun u => !(u.ring == e.ring && u.idx == e.idx) := by
  have noted (v : State) := sameWork_of_only (noteEgress_moves v e.cons code (Moves.refl [.egr] v) (by decide)).only (by decide) (by decide)
  have released (v : State) := sameWork_of_only (pwReleaseRef_moves v ref (Moves.refl [.pw] v) (by decide)).only (by decide) (by decide)
  exact ((noted _).trans (released _)).trans (afterTagFreed_work s _ e.cons)

theorem findTaken_names (h : findTaken s r i = some e) : e.ring = r ∧ e.idx = i := by
  simpa using List.find?_some h

theorem entryCompleteEffect_waits (h : findTaken s r i = some e) (k : endStatus s e = none) : entryCompleteEffect r i s = s := by
  simp only [entryCompleteEffect, h, k]

/-- The words that the operation of an entry read, in the entry. -/
def inlined (s : State) (e : Taken) : State :=
  match findOp s e with
  | some o => if e.verdict = 0 then inlineWords e o s else s
  | none => s

theorem inlined_work (s : State) (e : Taken) : (inlined s e).qe = s.qe := by
  unfold inlined inlineWords
  split
  · split
    · split <;> rfl
    · rfl
  · rfl

theorem inlined_verdict (h : e.verdict ≠ 0) : inlined s e = s := by
  unfold inlined
  split
  · exact if_neg h
  · rfl

theorem inlined_op (h : e.verdict = 0) (k : findOp s e = some o) : inlined s e = inlineWords e o s := by simp [inlined, h, k]

/-- An entry completed with its STATUS is taken no longer, and its operation is gone. -/
theorem entryCompleteEffect_ends (h : findTaken s r i = some e) (k : endStatus s e = some code) :
    findTaken (entryCompleteEffect r i s) r i = none ∧
      (entryCompleteEffect r i s).dm = memWriteBytes (inlined s e).dm (e.addr + 1) [code] ∧
      (entryCompleteEffect r i s).qe.ops = s.qe.ops.filter (fun o => !(o.ring == r && o.idx == i)) := by
  obtain ⟨rfl, rfl⟩ := findTaken_names h
  have ends : entryCompleteEffect e.ring e.idx s = noteFence s (endTaken s e code) := by simp only [entryCompleteEffect, h, k]
  have fenced := noteFence_only s (endTaken s e code)
  have qe : (noteFence s (endTaken s e code)).qe = (endTaken s e code).qe := fenced .qe (by decide)
  obtain ⟨dm, ops, taken⟩ := completeEntry_work (s := dropOp (inlined s e) e) (e := e) (code := code) (ref := e.ref)
  rw [ends]
  refine ⟨?_, (fenced .dm (by decide)).trans dm, ?_⟩
  · rw [findTaken, qe, show (endTaken s e code).qe.taken = _ from taken]
    refine List.find?_eq_none.2 fun u m => ?_
    simpa [← not_and_or] using (List.mem_filter.1 m).2
  · rw [qe, show (endTaken s e code).qe.ops = _ from ops]
    exact congrArg (fun q : Qe => q.ops.filter fun o => !(o.ring == e.ring && o.idx == e.idx)) (inlined_work s e)

/-! ### The STATUS of an entry (R283) -/

theorem endStatus_verdict (h : e.verdict ≠ 0) : endStatus s e = some e.verdict := if_pos h

theorem endStatus_none (h : e.verdict = 0) (k : ∀ o ∈ s.qe.ops, o.ring ≠ e.ring ∨ o.idx ≠ e.idx) : endStatus s e = none := by
  have missing : findOp s e = none := List.find?_eq_none.2 fun o m => by simpa [← not_and_or] using k o m
  simp [endStatus, h, missing]

theorem findOp_single (h : s.qe.ops = [o]) (k : o.ring = e.ring ∧ o.idx = e.idx) : findOp s e = some o := by
  simp [findOp, h, k.1, k.2]

theorem endStatus_op (h : e.verdict = 0) (k : findOp s e = some o) :
    endStatus s e = if opRetired s o then some (opStatus o) else none := by simp [endStatus, h, k]

theorem opStatus_eq (o : MgmtOp) : opStatus o =
    if o.refused then 2 else if o.stale then 4 else if o.poisoned then 5 else if o.noresp then 8 else 1 := by
  have codes : ∀ refused stale poisoned noresp : Bool,
      (let c := lowestCode ((if refused then [stDenied] else []) ++ (if stale then [stStale] else []) ++
          (if poisoned then [stPoison] else []) ++ (if noresp then [stNoresp] else []))
        if c = 0 then stOk else c) =
        if refused then 2 else if stale then 4 else if poisoned then 5 else if noresp then 8 else 1 := by decide
  exact codes o.refused o.stale o.poisoned o.noresp

theorem entryCompleteEffect_only (r : Fin 1024) (i : BitVec 16) (s : State) :
    Only [.acc, .pw, .qe, .egr, .dm] s (entryCompleteEffect r i s) :=
  (entryCompleteEffect_moves r i s (Moves.refl _ s) (by decide)).only

/-- Settles O44: the word of the only operation, and the entry by its STATUS. -/
theorem mgmtEntries : Obligations.MgmtEntries := by
  intro s fabric ecc r i c due frame
  have go (f : State → State) : onSys s f = .next (f s) := onSys_clocked c f
  refine ⟨fun h => (go _).trans (congrArg _ (mgmtWordEffect_none h)), wordDue_iff s, fun o ops now => ?_,
    fun h => (go _).trans (congrArg _ ?_), fun e h => ⟨fun k => ?_, fun k none => ?_, fun o k ops ring idx => ?_⟩⟩
  · intro stepped a read leaves
    -- an operation that leaves the rest alone but for the parts ps
    have word {u : State} {x : MgmtOp} {ps : List Part} (acts : opWord o ecc s = u) (only : Only ps s u)
        (qe : u.qe = { s.qe with ops := [x] }) (k : x.ring = o.ring ∧ x.idx = o.idx) :=
      mgmtWordEffect_steps ops now acts only qe k
    have same {x : MgmtOp} (acts : opWord o ecc s = s.modQe fun q => { q with ops := [x] })
        (k : x.ring = o.ring ∧ x.idx = o.idx) : leaves (x.stepped s.clock) := by
      obtain ⟨only, _, _, qe⟩ := word acts ((Moves.refl [.qe] s).modQe (by decide) _).only rfl k
      exact ⟨_, go _, only.weaken (by decide), qe⟩
    refine ⟨fun refused inl => ?_, fun permitted inl writes => ⟨fun answers block => ?_, fun silent => ?_⟩,
      fun permitted inl reads => ⟨fun answers plain settled => ?_, fun silent => ?_⟩, fun obj gone => ?_⟩
    · cases writes : o.write with
      | true => exact same ((opWord_writes inl writes).trans ((opWrite_refused refused).trans (modQe_ops ops).symm)) ⟨rfl, rfl⟩
      | false => exact same ((opWord_reads inl writes (opRead_refused refused)).trans (setOp_single ops ⟨rfl, rfl⟩)) ⟨rfl, rfl⟩
    · obtain ⟨only, bus, _, qe⟩ := word ((opWord_writes inl writes).trans (opWrite_posted permitted answers block))
        ((Moves.refl [.bus] s).modBus (by decide) _).only (congrArg State.qe (modQe_ops ops)).symm ⟨rfl, rfl⟩
      exact ⟨_, go _, only.weaken (by decide), qe, bus⟩
    · exact same ((opWord_writes inl writes).trans ((opWrite_unanswered permitted silent).trans (setOp_single ops ⟨rfl, rfl⟩)))
        ⟨rfl, rfl⟩
    · exact same ((opWord_reads inl reads (opRead_plain permitted answers plain settled)).trans (setOp_single ops ⟨rfl, rfl⟩))
        ⟨rfl, rfl⟩
    · have silenced := opRead_unanswered (ecc := ecc) permitted silent
      rw [setOp_single ops ⟨rfl, rfl⟩] at silenced
      exact same ((opWord_reads inl reads silenced).trans (setOp_single rfl ⟨rfl, rfl⟩)) ⟨rfl, rfl⟩
    · obtain ⟨only, _, pw, qe⟩ := word ((opWord_stale obj gone).trans (setOp_single (t := pwStale s) ops ⟨rfl, rfl⟩))
        ((pwStale_moves s (Moves.refl [.pw, .qe] s) (by decide)).modQe (by decide) _).only rfl ⟨rfl, rfl⟩
      exact ⟨_, go _, only.weaken (by decide), congrArg Pw.cntStale pw, qe⟩
  · simp only [entryCompleteEffect, h, countLate]
    rfl
  · obtain ⟨gone, dm, ops⟩ := entryCompleteEffect_ends h (endStatus_verdict k)
    exact ⟨_, go _, entryCompleteEffect_only r i s, gone, by rw [dm, inlined_verdict k], ops⟩
  · obtain ⟨ring, idx⟩ := findTaken_names h
    exact (go _).trans (congrArg _ (entryCompleteEffect_waits h (endStatus_none k (ring ▸ idx ▸ none))))
  · intro status
    obtain ⟨eRing, eIdx⟩ := findTaken_names h
    have found : findOp s e = some o := findOp_single ops ⟨ring.trans eRing.symm, idx.trans eIdx.symm⟩
    have statusIs := endStatus_op k found
    refine ⟨fun early => (go _).trans (congrArg _ (entryCompleteEffect_waits h (by simpa [early] using statusIs))), fun done => ?_⟩
    rw [if_pos done, opStatus_eq] at statusIs
    obtain ⟨gone, dm, left⟩ := entryCompleteEffect_ends h statusIs
    refine ⟨_, go _, entryCompleteEffect_only r i s, gone, ?_, fun kind => ?_, fun inl reads => ?_⟩
    · rw [left, ops]
      simp [ring, idx]
    · rw [dm, inlined_op k found, inlineWords, if_neg (by rcases kind with kind | kind <;> simp [kind])]
    · rw [dm, inlined_op k found, inlineWords, if_pos (by simp [inl, reads])]
      rfl

end Sys2Proof.Machine
end

section
/-! The state right after reset (O2): the registers of the mirror and of each block, evaluated at `State.reset`. -/

namespace Sys2Proof.Machine

/-- Settles O2: each register by its address, and the rest of the state by its definition. -/
theorem resetState : Obligations.ResetState := by
  unfold Obligations.ResetState
  refine ⟨by decide +kernel, ?registers, rfl, rfl, by decide, rfl, rfl, rfl, rfl, rfl, rfl, rfl⟩
  case registers =>
    -- one closed equation per register
    refine List.forall_iff_forall_mem.1 ?_
    decide +kernel

end Sys2Proof.Machine
end

section
/-! The access table after a reset (O3): the table of R106 and what it grants, the resets that put it there (R36), and a reconfiguration,
which keeps it. -/

namespace Sys2Proof.Machine

variable {s t : State} {r : Req} {write : Bool} {a : Word}

/-! ### The table of R106 -/

/-- Entry 0 of R106, and every other entry. -/
def openEntry : AccEntry := ⟨0, 0xFFFF_FFFC, 0x0000_0907⟩
def zeroEntry : AccEntry := ⟨0, 0, 0⟩

theorem accTable_toList : accTable.toList = openEntry :: List.replicate 63 zeroEntry := rfl

theorem accTable_zero {n : Fin 64} (h : n ≠ 0) : accTable[n.val] = zeroEntry := by
  have other : (0 : Nat) ≠ n.val := fun e => h (Fin.ext e.symm)
  simp [accTable, zeroEntry, Vector.getElem_set_ne, other]

theorem accPermits_zero : accPermits zeroEntry r write a = false := by
  have disabled : accEn zeroEntry = false := by decide
  simp [accPermits, accCovers, disabled]

theorem accCovers_open (a : Word) : accCovers openEntry a = true := by
  have top : fld a 31 2 ≤ fld openEntry.limit 31 2 := Nat.le_of_lt_succ (Nat.mod_lt _ (by decide))
  exact decide_eq_true ⟨Nat.zero_le _, top⟩

/-- REQ of entry 0 names MP and JTAG, and R and W are both 1. -/
theorem accPermits_open : accPermits openEntry r write a = (r == .mp || r == .jtag) := by
  simp only [accPermits, accCovers_open]
  cases r <;> cases write <;> decide

theorem accTable_permits : (accTable.toList.any fun e => accPermits e r write a) = (r == .mp || r == .jtag) := by
  simp [accTable_toList, accPermits_open, accPermits_zero]

/-- The table permits an access exactly where some entry does (R103). -/
theorem tableWhy_eq_none : tableWhy s r write a = none ↔ ((accActive s).any fun e => accPermits e r write a) = true := by
  unfold tableWhy
  by_cases permits : ((accActive s).any fun e => accPermits e r write a) = true
  · simp [permits]
  · rw [if_neg permits]
    dsimp only
    split
    · simp [permits]
    · split <;> simp [permits]

theorem tableWhy_fresh (h : t.acc = Acc.init) : tableWhy t r write a = none ↔ (r == .mp || r == .jtag) = true := by
  have active : accActive t = accTable.toList := congrArg (·.group.active.toList) h
  rw [tableWhy_eq_none, active, accTable_permits]

/-! ### The fixed rules of the block ACC (R102) -/

theorem fixedRule_outside (h : a.toNat < 0x20000 ∨ 0x30000 ≤ a.toNat) : fixedRule s r write a = none := by
  simp only [fixedRule]
  rw [if_neg (by omega), if_neg (by omega)]

/-- With no debug session open the fixed rules permit MP and JTAG at most. -/
theorem fixedRule_requester (k : s.lcs.scope = none) (h : fixedRule s r write a = some true) :
    (r == .mp || r == .jtag) = true := by
  simp only [fixedRule] at h
  split at h
  · have jtag : r = .jtag := by simp_all [scopeHas]
    simp [jtag]
  · split at h
    · exact Option.some.inj h
    · contradiction

/-! ### What the table grants (R106) -/

/-- What O3 says of the state after a reset: the table, the epoch, and what they grant. -/
def FreshTable (t : State) : Prop :=
  t.acc.group.active[0] = ⟨0, 0xFFFF_FFFC, 0x0000_0907⟩ ∧ (∀ n : Fin 64, n ≠ 0 → t.acc.group.active[n.val] = ⟨0, 0, 0⟩) ∧
  t.acc.epoch = 0 ∧
  ∀ (write : Bool) (addr : Word), (∀ r, r = .frp ∨ r = .icp ∨ r = .qe → checkAccess t r write addr ≠ none) ∧
    (addr.toNat < 0x20000 ∨ 0x30000 ≤ addr.toNat → checkAccess t .mp write addr = none ∧ checkAccess t .jtag write addr = none)

/-- MP and JTAG alone reach anything, by the table or by a fixed rule. -/
theorem checkAccess_requester (h : t.acc = Acc.init) (k : t.lcs.scope = none) (p : checkAccess t r write a = none) :
    (r == .mp || r == .jtag) = true := by
  unfold checkAccess at p
  split at p
  · next permits => exact fixedRule_requester k permits
  · contradiction
  · exact (tableWhy_fresh h).1 p

theorem checkAccess_outside (h : t.acc = Acc.init) (outside : a.toNat < 0x20000 ∨ 0x30000 ≤ a.toNat)
    (q : (r == .mp || r == .jtag) = true) : checkAccess t r write a = none := by
  simp only [checkAccess, fixedRule_outside outside]
  exact (tableWhy_fresh h).2 q

theorem freshTable_of_init (h : t.acc = Acc.init) (k : t.lcs.scope = none) : FreshTable t := by
  have active : t.acc.group.active = accTable := congrArg (·.group.active) h
  refine ⟨by rw [active]; rfl, fun n other => by rw [active]; exact accTable_zero other, congrArg Acc.epoch h, fun write addr =>
    ⟨fun r fabric permits => ?_, fun outside => ⟨checkAccess_outside h outside rfl, checkAccess_outside h outside rfl⟩⟩⟩
  have reaches := checkAccess_requester h k permits
  rcases fabric with rfl | rfl | rfl <;> exact absurd reaches (by decide)

/-! ### The resets (R36, R37) -/

theorem lcsReset_scope (s : State) : (lcsReset s).lcs.scope = none := rfl

theorem pinResetFull_fresh (s : State) : FreshTable (pinResetFull s) := by
  obtain ⟨-, -, -, -, -, acc, lcs, -⟩ := resetBlocks_fields false (settleWrites s)
  exact freshTable_of_init acc ((congrArg Lcs.scope lcs).trans (lcsReset_scope _))

theorem softResetEffect_fresh (h : (drainAll s).sys.softReq ≠ none) : FreshTable (softResetEffect s) := by
  have asked : ¬(drainAll s).sys.softReq.isNone = true := by simpa using h
  obtain ⟨-, -, -, -, -, acc, lcs, -⟩ := resetBlocks_fields true (drainAll s)
  simp only [softResetEffect, if_neg asked]
  exact freshTable_of_init acc ((congrArg Lcs.scope lcs).trans (lcsReset_scope _))

/-! ### A reconfiguration -/

/-- The table and the epoch of one state are those of another. -/
def SameTable (s t : State) : Prop := t.acc.group = s.acc.group ∧ t.acc.epoch = s.acc.epoch

theorem SameTable.trans {u : State} (h : SameTable s t) (k : SameTable t u) : SameTable s u :=
  ⟨k.1.trans h.1, k.2.trans h.2⟩

theorem Only.sameTable {ps : List Part} (h : Only ps s t) (m : Part.acc ∉ ps) : SameTable s t :=
  ⟨congrArg Acc.group (h .acc m), congrArg Acc.epoch (h .acc m)⟩

theorem dropAnswers_sameTable (s : State) : SameTable s (dropAnswers s) :=
  ⟨(noteFence_acc s _).1, (noteFence_acc s _).2.1⟩

/-- A reconfiguration as far as the drop of the answers of FRP and ICP (R380). -/
def reconfDropped (s : State) : State :=
  dropAnswers (forEach (allFin 8) (fun p s => fspReconfigure s p) (lcsReconf (s.modSys fun y =>
    { y with reconfReq := false, cause := 0b100, reconfCount := satInc y.reconfCount })))

/-- Of the table's block only the fence can move, by the answers that are dropped (R110). -/
theorem reconfDropped_sameTable (s : State) : SameTable s (reconfDropped s) := by
  refine SameTable.trans (Only.sameTable (ps := [.sys, .lcs, .pw, .qe, .egr, .fsp, .dm]) ?ports (by decide))
    (dropAnswers_sameTable _)
  exact ((lcsReconf_moves _ ((Moves.refl _ s).modSys (by decide) _) (by decide)).each fun p u k =>
    fspReconfigure_moves u p k (by decide)).only

theorem loadLatches_sameTable (s : State) (b : Fin 3) : SameTable s (loadLatches s b) := ⟨rfl, rfl⟩

/-- A reconfiguration ends in a failed configuration or starts the fabric anew (R410). -/
theorem reconfEnd_sameTable {failed : Prop} [Decidable failed] (s : State) (f : Sys → Sys) :
    SameTable s (if failed then configFail s else startFabric (s.freeStep.modSys f)) := by
  have start := Moves.refl [.moment, .free, .sys, .mp, .fsp, .fab, .cfg, .scb] s
  have fails := configFail_moves s start (by decide)
  have starts := startFabric_moves _ ((start.freeStep (by decide)).modSys (by decide) f) (by decide)
  exact (fails.ite starts).only.sameTable (by decide)

theorem reconfigurationEffect_sameTable (mismatch : Bool) (s : State) : SameTable s (reconfigurationEffect mismatch s) := by
  have dropped := reconfDropped_sameTable s
  unfold reconfigurationEffect
  split
  · exact ⟨rfl, rfl⟩
  · dsimp only
    split
    · exact (dropped.trans (loadLatches_sameTable _ _)).trans (reconfEnd_sameTable _ _)
    · exact dropped.trans (reconfEnd_sameTable _ _)

/-- Settles O3: each reset leaves the table of R106 with no session open, and a reconfiguration moves nothing of its block but the fence. -/
theorem accessTableAfterReset : Obligations.AccessTableAfterReset := by
  unfold Obligations.AccessTableAfterReset
  refine ⟨freshTable_of_init rfl rfl, fun s n long => ⟨_, exec_pinReset n s, ?_⟩,
    fun s clocked asked => ⟨_, onSys_clocked clocked softResetEffect, softResetEffect_fresh asked⟩,
    fun s mismatch clocked => ⟨_, onSys_clocked clocked (reconfigurationEffect mismatch),
      reconfigurationEffect_sameTable mismatch s⟩⟩
  rw [pinResetEffect_long long]
  exact pinResetFull_fresh s

end Sys2Proof.Machine
end

section
/-! Debug challenges and tickets (O30): a challenge asked for and made (R134, R135), the VERIFY that consumes it (R139, R147), the verdict
on a ticket (R140, R146) and the end of a lockout (R141). -/

namespace Sys2Proof.Machine

variable {s : State} {r : Req} {healthy : Bool} {l : Lcs} {v : Verifying} {nonce : List Byte}

/-! ### A challenge -/

theorem newChallengeEffect_asks (h : lcsAllowed r = true)
    (k : s.lcs.dbg = .idle ∨ s.lcs.dbg = .challengeReady ∨ s.lcs.dbg = .session) :
    newChallengeEffect r s = s.modLcs fun l => { l with
      dbg := .generating, nonce := [], replaced := if s.lcs.dbg = .challengeReady then l.nonce else [], genAt := s.clock } := by
  rcases k with k | k | k <;> simp [newChallengeEffect, h, k]

theorem newChallengeEffect_idle (h : lcsAllowed r = false ∨
      s.lcs.dbg = .generating ∨ s.lcs.dbg = .verifying ∨ s.lcs.dbg = .lockout ∨ s.lcs.dbg = .trngFault) :
    newChallengeEffect r s = s := by
  rcases h with h | h | h | h | h <;> simp [newChallengeEffect, h]

theorem challengeReadyEffect_early (h : s.lcs.dbg ≠ .generating ∨ s.clock < s.lcs.genAt + 80000) :
    challengeReadyEffect healthy s = s :=
  if_neg fun k => h.elim (absurd k.1) (Nat.not_lt.2 k.2)

/-- A challenge is 32 free values (R134). -/
theorem challengeReadyEffect_healthy (h : s.lcs.dbg = .generating) (k : s.lcs.genAt + 80000 ≤ s.clock) :
    challengeReadyEffect true s = (s.freeSteps 32).modLcs fun l => { l with
      dbg := .challengeReady, nonce := (List.range 32).map fun k => BitVec.ofNat 8 (Config.freeNat (s.freeCtr + k)) } :=
  if_pos ⟨h, k⟩

theorem challengeReadyEffect_faulty (h : s.lcs.dbg = .generating) (k : s.lcs.genAt + 80000 ≤ s.clock) :
    challengeReadyEffect false s =
      (recordFault s { perm := true, blk := blkLcs, kind := 1, inst := 0 }).modLcs fun l => { l with dbg := .trngFault } :=
  if_pos ⟨h, k⟩

theorem recordFault_lcs (s : State) (f : FaultRec) : (recordFault s f).lcs = s.lcs :=
  (recordFault_moves s f (Moves.refl _ s) fun _ h => h).only .lcs (by decide)

/-! ### VERIFY -/

theorem verifiable_ready (h : s.lcs.dbg = .challengeReady) : verifiable s = some s.lcs.nonce := if_pos h

/-- A challenge that a NEW_CHALLENGE of the same tick replaced can still be consumed (R147). -/
theorem verifiable_replaced (h : s.lcs.dbg = .generating) (k : s.lcs.genAt = s.clock) (e : s.lcs.replaced ≠ []) :
    verifiable s = some s.lcs.replaced := by
  simp [verifiable, h, k, e]

theorem verifiable_none (h : s.lcs.dbg ≠ .challengeReady)
    (k : s.lcs.dbg ≠ .generating ∨ s.lcs.genAt ≠ s.clock ∨ s.lcs.replaced = []) : verifiable s = none :=
  (if_neg h).trans (if_neg fun ⟨g, c, e⟩ => k.elim (absurd g) fun k => k.elim (absurd c) e)

/-- A VERIFY consumes the challenge and copies key and ticket. -/
theorem verifyEffect_consumes (h : lcsAllowed r = true) (k : verifiable s = some nonce) :
    verifyEffect r s = s.modLcs fun l => { l with
      dbg := .verifying, nonce := []
      verifying := some ⟨s.clock, nonce ++ uidBytes, structBytes l.pubkey.toList, structBytes l.ticket.toList⟩ } := by
  simp only [verifyEffect, k, h, if_true, challengeBytes]

theorem verifyEffect_idle (h : lcsAllowed r = false ∨ verifiable s = none) : verifyEffect r s = s := by
  rcases h with h | h
  · simp only [verifyEffect, h, Bool.false_eq_true, if_false]
    split <;> rfl
  · simp only [verifyEffect, h]

/-! ### The verdict -/

theorem keyHashZero_iff : keyHashZero l = true ↔ ∀ i : Fin 8, l.keyHash[i.val] = 0 := by
  simp [keyHashZero, Fin.forall_iff]

/-- Once NO_FIELD_DEBUG is blown no ticket passes (R146). -/
theorem ticketPasses_noFieldDebug (h : majority l.nfd = true) : ticketPasses l v = false := by
  simp [ticketPasses, h]

/-- Without a key hash in the fuses no ticket passes (R139); that they are read at the release of the verdict is log entry 95. -/
theorem ticketPasses_keyHashZero (h : keyHashZero l = true) : ticketPasses l v = false := by
  simp [ticketPasses, h]

theorem verdictEffect_none (h : s.lcs.verifying = none) : verdictEffect s = s := by
  simp only [verdictEffect, h]

theorem verdictEffect_early (h : s.lcs.verifying = some v) (k : s.clock < v.at_ + 4800000) : verdictEffect s = s := by
  simp only [verdictEffect, h, k, if_true]

/-- What the release of a verdict leaves (R140): a session of the ticket's scope, or a lockout of one second. -/
theorem verdictEffect_over (h : s.lcs.verifying = some v) (k : v.at_ + 4800000 ≤ s.clock) :
    verdictEffect s = s.modLcs fun l => { l with
      verifying := none, flags := l.flags.set 0, lastVerdict := ticketPasses s.lcs v
      dbg := if ticketPasses s.lcs v then .session else .lockout
      scope := if ticketPasses s.lcs v then some (BitVec.ofNat 32 (ofBe ((v.ticket.drop 64).take 4))) else l.scope
      lockoutEnd := if ticketPasses s.lcs v then l.lockoutEnd else s.clock + oneSecond } := by
  simp only [verdictEffect, h, if_neg (Nat.not_lt.2 k)]

/-! ### The end of a lockout -/

theorem lockoutEndEffect_early (h : s.lcs.dbg ≠ .lockout ∨ s.clock < s.lcs.lockoutEnd) : lockoutEndEffect s = s :=
  if_neg fun k => h.elim (absurd k.1) (Nat.not_lt.2 k.2)

theorem lockoutEndEffect_over (h : s.lcs.dbg = .lockout) (k : s.lcs.lockoutEnd ≤ s.clock) :
    lockoutEndEffect s = s.modLcs fun l => { l with dbg := if s.lcs.scope.isSome then .session else .idle } :=
  if_pos ⟨h, k⟩

theorem lockoutEndEffect_closed (h : s.lcs.dbg = .lockout) (k : s.lcs.lockoutEnd ≤ s.clock) (n : s.lcs.scope = none) :
    lockoutEndEffect s = s.modLcs fun l => { l with dbg := .idle } := by
  rw [lockoutEndEffect_over h k, n]; rfl

theorem lockoutEndEffect_open {x : Word} (h : s.lcs.dbg = .lockout) (k : s.lcs.lockoutEnd ≤ s.clock)
    (n : s.lcs.scope = some x) : lockoutEndEffect s = s.modLcs fun l => { l with dbg := .session } := by
  rw [lockoutEndEffect_over h k, n]; rfl

/-- Settles O30: the challenge, its verification, the verdict and the lockout, case by case. -/
theorem debugTickets : Obligations.DebugTickets := by
  intro s req healthy hc l sent consumes
  have go (f : State → State) : onSys s f = .next (f s) := onSys_clocked hc f
  have answer {f : State → State} {t : State} (h : f s = t) : onSys s f = .next t := (go f).trans (congrArg _ h)
  have allowed : sent → lcsAllowed req = true := lcsAllowed_iff.2
  have denied (h : ¬sent) : lcsAllowed req = false := Bool.eq_false_iff.2 (mt lcsAllowed_iff.1 h)
  refine ⟨fun h k => answer (newChallengeEffect_asks (allowed h) k), fun h => answer (newChallengeEffect_idle (h.imp_left denied)),
    fun h => answer (challengeReadyEffect_early h), fun h k => ⟨⟨_, ?_, answer (challengeReadyEffect_healthy h k)⟩,
      _, answer (challengeReadyEffect_faulty h k), ?_, ?_, rfl⟩,
    fun h k => answer (verifyEffect_consumes (allowed h) (verifiable_ready k)),
    fun h g c e => answer (verifyEffect_consumes (allowed h) (verifiable_replaced g c e)),
    fun h => answer (verifyEffect_idle (h.imp denied fun k => verifiable_none k.1 k.2)),
    fun h => answer (verdictEffect_none h), fun v h => ⟨fun k => answer (verdictEffect_early h k),
      fun k => ⟨fun p => ?_, fun p => ?_⟩, ticketPasses_noFieldDebug, fun z => ticketPasses_keyHashZero (keyHashZero_iff.2 z)⟩,
    fun h => answer (lockoutEndEffect_early h), fun h k => ⟨fun n => answer (lockoutEndEffect_closed h k n),
      fun x n => answer (lockoutEndEffect_open h k n)⟩⟩
  · simp
  · exact ((recordFault_moves s _ (Moves.refl _ s) (by decide)).modLcs (by decide) _).only
  · exact congrArg (fun l : Lcs => { l with dbg := .trngFault }) (recordFault_lcs s _)
  · exact answer (by rw [verdictEffect_over h k, p]; rfl)
  · exact answer (by rw [verdictEffect_over h k, p]; rfl)

end Sys2Proof.Machine
end

section
/-! The JTAG instructions (O31): the bypass register and the registers of IEEE 1149.1 (R132), the accesses of AUTH, DEBUG_BUS and RLOG
(R133), and a readback (R447, R456). -/

namespace Sys2Proof.Machine

variable {s : State} {r : Req} {a addr data : Word} {wr : Bool} {ecc : Ecc} {op : Byte} {chain : List Bool} {n lo hi : Nat}

/-! ### Which instruction is open (R123, R132) -/

theorem privateOpen_iff : privateOpen s n = true ↔
    s.lcs.latched ≠ 5 ∧ (s.lcs.latched = 0 ∨ s.lcs.latched = 1 ∨ s.lcs.latched = 4 ∨ scopeHas s n = true) := by
  simp [privateOpen, scrapped, stateOpens, lcScrapped, lcBlank, lcFactory, lcReturn, or_assoc]

theorem selectsBypass_unlisted (h : op ∉ [opExtest, opSample, opIdcode, opAuth, opDebugBus, opReadback, opRlog]) :
    selectsBypass s op = true := by
  simp only [List.mem_cons, List.not_mem_nil, or_false, not_or] at h
  simp [selectsBypass, h]

/-- Each private opcode selects the bypass register while its instruction is closed. -/
theorem selectsBypass_closed : (privateOpen s 0 = false → selectsBypass s opDebugBus = true) ∧
    (privateOpen s 1 = false → selectsBypass s opReadback = true) ∧ (privateOpen s 2 = false → selectsBypass s opRlog = true) :=
  ⟨congrArg not, congrArg not, congrArg not⟩

theorem exec_bypass (p : Powered s) (h : selectsBypass s op = true) : exec (.bypass op) s = .next (bypassEffect op s) :=
  (onAny_powered p _).trans (congrArg _ (if_pos h))

/-- What the boundary-scan register captures are free values, as many words as the chain needs. -/
theorem scanCapture_length : (scanCapture chain s).1.length = (chain.length + 31) / 32 := by simp [scanCapture]

/-! ### A scan of the access register that issues nothing -/

/-- The access register as Capture-DR takes it under an instruction. -/
def Jtag.captured (op : Byte) (j : Jtag) : Jtag :=
  { j with
    ir := op
    dr := [j.lastData, j.lastAddr, putB 0 j.lastWrite ||| putB 2 j.ok ||| putB 3 j.denied ||| putB 4 j.pendingAnswer] }

theorem captureAccess_eq : captureAccess op s = (accessAnswerEffect .jtag s).modJtag (Jtag.captured op) := rfl

theorem captureAccess_alone (h : owedTo s .jtag = []) : captureAccess op s = s.modJtag (Jtag.captured op) := by
  rw [captureAccess_eq, accessAnswerEffect_none h]

theorem held_captureAccess : held (captureAccess op s) = held s := by
  have moves : Moves [.bus, .acc, .jtag] s (captureAccess op s) := captureAccess_moves op s (Moves.refl _ s) fun _ h => h
  simp only [held, show (captureAccess op s).sys = s.sys from moves.only .sys (by decide)]

theorem updateAccess_noGo : updateAccess lo hi false wr addr data ecc s = s := by simp [updateAccess]

/-- No access is issued while RESET_N is low (the model's choice, log entry 53). -/
theorem updateAccess_held (h : held s = true) : updateAccess lo hi true wr addr data ecc s = s := by simp [updateAccess, h]

theorem updateAccess_inside (h : held s = false) (k : lo ≤ addr.toNat) (m : addr.toNat ≤ hi) :
    updateAccess lo hi true wr addr data ecc s = jtagIssue wr addr data ecc s := by
  simp [updateAccess, h, k, m]

theorem updateAccess_outside (h : held s = false) (k : addr.toNat < lo ∨ hi < addr.toNat) :
    updateAccess lo hi true wr addr data ecc s = jtagRefuse wr addr s := by
  have limits : ¬(lo ≤ addr.toNat ∧ addr.toNat ≤ hi) := by omega
  simp [updateAccess, h, limits]

/-! ### What a register shows of the port -/

/-- The registers of most blocks show nothing of the JTAG port and of the free values. -/
theorem blockReads_port (s : State) (j : Jtag) (n : Nat) :
    let t : State := { s with jtag := j, freeCtr := n }
    (∀ off, sysRead t off = sysRead s off) ∧ (∀ off, accRead t off = accRead s off) ∧
      (∀ r off, lcsRead r t off = lcsRead r s off) ∧ (∀ off, tbeRead t off = tbeRead s off) ∧
      (∀ i off, tsqRead t i off = tsqRead s i off) ∧ (∀ i off, capRead t i off = capRead s i off) ∧
      (∀ i off, fspRegRead t i off = fspRegRead s i off) ∧ (∀ off, pwRead t off = pwRead s off) ∧
      (∀ off, qeRead t off = qeRead s off) ∧ (∀ i off, egrRead t i off = egrRead s i off) ∧
      (∀ off, hlRead t off = hlRead s off) ∧ (∀ off, adcRead t off = adcRead s off) ∧
      (∀ off, cfgRead t off = cfgRead s off) ∧ (∀ off, bkpRead t off = bkpRead s off) :=
  ⟨fun _ => rfl, fun _ => rfl, fun _ _ => rfl, fun _ => rfl, fun _ _ => rfl, fun _ _ => rfl, fun _ _ => rfl, fun _ => rfl,
    fun _ => rfl, fun _ _ => rfl, fun _ => rfl, fun _ => rfl, fun _ => rfl, fun _ => rfl⟩

/-- Neither does the word of a plain read. -/
theorem regWord_port (p : PlainRead a) (j : Jtag) (n : Nat) :
    regWord r { s with jtag := j, freeCtr := n } a = regWord r s a := by
  obtain ⟨-, -, plain⟩ := p
  cases e : blockOf a with
  | none => simp only [regWord, e]
  | some b =>
    obtain ⟨notMirror, notUa, notSpc, notPio, notScb, notFs⟩ := plain b e
    cases b with
    | mirror | ua | spc | pio | scb | fs => contradiction
    | _ => simp only [regWord, e, blockReads_port s j n]

/-! ### One access of JTAG -/

/-- An access as Update-DR takes it: until its answer the data word is a free value (log entry 73), before which k others are read. -/
def jtagAsked (wr : Bool) (addr : Word) (k : Nat) (s : State) : State :=
  (s.freeSteps (k + 1)).modJtag fun j =>
    { j with lastWrite := wr, lastAddr := wordAddr addr, lastData := BitVec.ofNat 32 (Config.freeNat (s.freeCtr + k)), ok := false,
             denied := false, pendingAnswer := !wr }

/-- The end of a refused access: logged, and answered DENIED. -/
def jtagDenied (wr : Bool) (addr : Word) (k : Nat) (why : BitVec 4) (s : State) : State :=
  noteFence s (oweAnswer ⟨.jtag, wr, wordAddr addr, if wr then s.clock else s.clock + 48, s.bus.epochOrder, true, .denied, 0⟩
    (logRefusal (jtagAsked wr addr k s) .jtag wr (wordAddr addr) why))

theorem jtagAsked_moves {ps : List Part} (wr : Bool) (addr : Word) (k : Nat) (s : State)
    (m : ∀ p ∈ [Part.free, .jtag], p ∈ ps) : Moves ps s (jtagAsked wr addr k s) :=
  ((Moves.refl _ s).freeSteps (m _ (by decide)) (k + 1)).modJtag (m _ (by decide)) _

/-- A change of FENCE shows in FENCE_DONE alone (R110). -/
theorem noteFence_keeps (s t : State) : (noteFence s t).acc.rlogNext = t.acc.rlogNext ∧ (noteFence s t).bus = t.bus ∧
    (noteFence s t).jtag = t.jtag := by
  unfold noteFence
  split <;> exact ⟨rfl, rfl, rfl⟩

section
variable (h : owedTo s .jtag = [])
include h

theorem owed_jtag_none : s.bus.owed.filter (fun o => o.req != .jtag) = s.bus.owed := by
  refine List.filter_eq_self.2 fun o m => ?_
  simpa using List.filter_eq_nil_iff.1 h o m

/-- With no answer owed a new access has none to discard. -/
theorem jtagIssue_alone : jtagIssue wr addr data ecc s =
    noteFence s (issueAccess .jtag wr addr data ecc (jtagAsked wr addr 0 s)) := by
  simp only [jtagIssue, State.modBus, owed_jtag_none h]
  rfl

theorem jtagRefuse_alone : ∃ k why, jtagRefuse wr addr s = jtagDenied wr addr k why s := by
  refine ⟨1, (checkAccess s .jtag wr (wordAddr addr)).getD (BitVec.ofNat 4 (freeValue s)), ?_⟩
  unfold jtagRefuse
  simp only [State.modBus, logRefusal, State.modAcc, State.freeStep, owed_jtag_none h]
  rfl

theorem jtagIssue_refused (k : checkAccess s .jtag wr (wordAddr addr) ≠ none) :
    ∃ k why, jtagIssue wr addr data ecc s = jtagDenied wr addr k why s := by
  obtain ⟨why, k⟩ := Option.ne_none_iff_exists'.1 k
  have refused : checkAccess (jtagAsked wr addr 0 s) .jtag wr (wordAddr addr) = some why := k
  refine ⟨0, why, (jtagIssue_alone h).trans (congrArg _ ?_)⟩
  cases wr with
  | false => exact issueAccess_read (issueRead_refused refused)
  | true => exact issueAccess_write (issueWrite_refused refused)

/-- An access outside the limits of its instruction or against the rules is refused. -/
theorem updateAccess_refused (run : held s = false)
    (k : addr.toNat < lo ∨ hi < addr.toNat ∨ checkAccess s .jtag wr (wordAddr addr) ≠ none) :
    ∃ k why, updateAccess lo hi true wr addr data ecc s = jtagDenied wr addr k why s := by
  by_cases out : addr.toNat < lo ∨ hi < addr.toNat
  · rw [updateAccess_outside run out]
    exact jtagRefuse_alone h
  · obtain ⟨low, high⟩ := not_or.1 out
    rw [updateAccess_inside run (Nat.le_of_not_lt low) (Nat.le_of_not_lt high)]
    exact jtagIssue_refused h ((k.resolve_left low).resolve_left high)

theorem jtagDenied_shows (k : Nat) (why : BitVec 4) :
    let t := jtagDenied wr addr k why s
    Only [.jtag, .bus, .acc, .free] s t ∧ t.jtag.dr = s.jtag.dr ∧ t.jtag.lastAddr = wordAddr addr ∧ t.jtag.lastWrite = wr ∧
      t.acc.rlogNext = s.acc.rlogNext + 1 ∧
      (wr = true → t.jtag.denied = true ∧ t.jtag.ok = false ∧ t.bus.owed = s.bus.owed) ∧
      (wr = false → t.jtag.pendingAnswer = true ∧ t.bus.owed =
        s.bus.owed ++ [⟨.jtag, false, wordAddr addr, s.clock + 48, s.bus.epochOrder, true, .denied, 0⟩]) := by
  intro t
  have only : Only [.jtag, .bus, .acc, .free] s t :=
    (noteFence_moves _ _ (oweAnswer_moves _ _ (logRefusal_moves _ _ _ _ _ (jtagAsked_moves _ _ _ _ (by decide)) (by decide))
      (by decide)) (by decide)).only
  obtain ⟨rlog, bus, jtag⟩ := noteFence_keeps s (oweAnswer
    ⟨.jtag, wr, wordAddr addr, if wr then s.clock else s.clock + 48, s.bus.epochOrder, true, .denied, 0⟩
    (logRefusal (jtagAsked wr addr k s) .jtag wr (wordAddr addr) why))
  refine ⟨only, ?_⟩
  simp only [t, jtagDenied, rlog, bus, jtag]
  cases wr with
  | true =>
    rw [oweAnswer_given rfl h]
    exact ⟨rfl, rfl, rfl, rfl, fun _ => ⟨rfl, rfl, rfl⟩, nofun⟩
  | false =>
    rw [oweAnswer_owed (.inl rfl)]
    exact ⟨rfl, rfl, rfl, rfl, nofun, fun _ => ⟨rfl, rfl⟩⟩

/-- A permitted write is posted, and answered at once. -/
theorem jtagIssue_writes (k : checkAccess s .jtag true (wordAddr addr) = none) (up : responds s (wordAddr addr) = true)
    (b : blockOf (wordAddr addr) ≠ some .bkp) :
    let t := jtagIssue true addr data ecc s
    Only [.jtag, .bus, .acc, .free] s t ∧ t.acc.rlogNext = s.acc.rlogNext ∧ t.jtag.ok = true ∧ t.jtag.denied = false ∧
      t.bus.inflight = s.bus.inflight ++ [⟨s.bus.nextId, .jtag, wordAddr addr, data, s.bus.epochOrder, s.clock⟩] := by
  intro t
  let posted := giveAnswer ⟨.jtag, true, wordAddr addr, s.clock, s.bus.epochOrder, false, .ok, 0⟩
    (postWrite (jtagAsked true addr 0 s) .jtag (wordAddr addr) data)
  have permitted : checkAccess (jtagAsked true addr 0 s) .jtag true (wordAddr addr) = none := k
  have issued : t = noteFence s posted := (jtagIssue_alone h).trans
    (congrArg _ ((issueAccess_write (issueWrite_posted permitted up b)).trans (oweAnswer_given rfl h)))
  obtain ⟨rlog, bus, jtag⟩ := noteFence_keeps s posted
  rw [issued]
  refine ⟨(noteFence_moves _ _ (giveAnswer_moves _ _ (postWrite_moves _ _ _ _ (jtagAsked_moves _ _ _ _ (by decide))
    (by decide)) (by decide)) (by decide)).only, rlog, ?_, ?_, ?_⟩
  · rw [jtag]; rfl
  · rw [jtag]; rfl
  · rw [bus]; rfl

/-- A permitted read of a register without effects gives its word by an answer. -/
theorem jtagIssue_reads (k : checkAccess s .jtag false (wordAddr addr) = none) (up : responds s (wordAddr addr) = true)
    (p : PlainRead (wordAddr addr)) (q : Settled s .jtag (wordAddr addr)) :
    let t := jtagIssue false addr data ecc s
    Only [.jtag, .bus, .acc, .free] s t ∧ t.jtag.lastAddr = wordAddr addr ∧
      Learns s t .jtag (wordAddr addr) (regWord .jtag s (wordAddr addr)) := by
  intro t
  let owing := (jtagAsked false addr 0 s).modBus fun b =>
    { b with owed := b.owed ++ [owedRead s .jtag (wordAddr addr) (regWord .jtag s (wordAddr addr))] }
  have issued : t = noteFence s owing := by
    have word := regWord_port (s := s) (r := .jtag) p (jtagAsked false addr 0 s).jtag (s.freeCtr + 1)
    have permitted : checkAccess (jtagAsked false addr 0 s) .jtag false (wordAddr addr) = none := k
    simp only [owing, ← word]
    exact (jtagIssue_alone h).trans (congrArg _ (issueAccess_reads permitted up p q))
  obtain ⟨-, bus, jtag⟩ := noteFence_keeps s owing
  rw [issued]
  refine ⟨(noteFence_moves _ _ ((jtagAsked_moves _ _ _ _ (by decide)).modBus (by decide) _) (by decide)).only, ?_, ?_, ?_⟩
  · rw [jtag]; rfl
  · rw [bus, owed_jtag_none h]; rfl
  · rw [jtag]; rfl

end

/-! ### The three instructions with an access register -/

theorem authEffect_noGo : authEffect false wr addr data s = captureAccess opAuth s := updateAccess_noGo

theorem debugBusEffect_open {go : Bool} (h : privateOpen s 0 = true) : debugBusEffect go wr addr data ecc s =
    updateAccess 0 0xFFFF_FFFF go wr addr data ecc (captureAccess opDebugBus s) := if_pos h

theorem debugBusEffect_closed {go : Bool} (h : privateOpen s 0 = false) :
    debugBusEffect go wr addr data ecc s = bypassEffect opDebugBus s := if_neg (by simp [h])

theorem rlogEffect_open {go : Bool} (h : privateOpen s 2 = true) : rlogEffect go wr addr data s =
    updateAccess 0x2_0800 0x2_0BFF go wr addr data .clean (captureAccess opRlog s) := if_pos h

theorem rlogEffect_closed {go : Bool} (h : privateOpen s 2 = false) :
    rlogEffect go wr addr data s = bypassEffect opRlog s := if_neg (by simp [h])

/-! ### Readback -/

theorem readbackEffect_closed {frame : Word} (h : privateOpen s 1 = false) : readbackEffect frame s = bypassEffect opReadback s :=
  if_neg (by simp [h])

theorem readbackEffect_open {frame : Word} (h : privateOpen s 1 = true) : readbackEffect frame s = s.modJtag fun j => { j with
    ir := opReadback
    dr := j.rbFrame :: (putB 0 j.rbReady ||| putB 1 (j.rbReady && j.rbInvalid)) ::
      (if j.rbReady then j.rbWords else List.replicate 97 0)
    rbFrame := frame, rbRequested := true, rbReady := false, rbInvalid := false, rbWords := [] } := if_pos h

/-- A reload or the restoring of a zone names the frame, which is read after its repair (R456). -/
def Repairs (s : State) (frame : Word) : Prop :=
  (∃ x, s.scb.reload = some x ∧ x.frame = frame) ∨ ∃ z : Fin 8, s.scb.zones[z.val].restoreFrom = some frame

theorem repairs_iff {frame : Word} : (s.scb.reload.any (fun x => x.frame == frame) ||
    s.scb.zones.toList.any fun z => z.restoreFrom == some frame) = true ↔ Repairs s frame := by
  simp [Repairs, Option.any_eq_true, Vector.any_eq_true, Fin.exists_iff]

theorem readbackFrameReadEffect_waits (h : s.jtag.rbRequested = false ∨ Repairs s s.jtag.rbFrame) :
    readbackFrameReadEffect s = s := by
  refine if_pos ?_
  rw [Bool.or_assoc, Bool.or_eq_true, repairs_iff]
  exact h.imp_left (by simp +contextual)

section
variable (asked : s.jtag.rbRequested = true) (free : ¬Repairs s s.jtag.rbFrame)
include asked free

theorem readbackFrameReadEffect_runs : readbackFrameReadEffect s =
    if isConfigFrame s.jtag.rbFrame then
      s.modJtag fun j => { j with
        rbRequested := false, rbReady := true, rbInvalid := false, rbWords := (latchFrame s j.rbFrame).words }
    else
      (s.freeSteps 97).modJtag fun j => { j with
        rbRequested := false, rbReady := true, rbInvalid := true
        rbWords := (List.range 97).map fun k => BitVec.ofNat 32 (Config.freeNat (s.freeCtr + k)) } := by
  refine if_neg ?_
  rw [Bool.or_assoc, Bool.or_eq_true, repairs_iff]
  simp [asked, free]

theorem readbackFrameReadEffect_frame (h : isConfigFrame s.jtag.rbFrame = true) : readbackFrameReadEffect s =
    s.modJtag fun j => { j with
      rbRequested := false, rbReady := true, rbInvalid := false, rbWords := (latchFrame s j.rbFrame).words } :=
  (readbackFrameReadEffect_runs asked free).trans (if_pos h)

theorem readbackFrameReadEffect_noFrame (h : isConfigFrame s.jtag.rbFrame = false) :
    ∃ ws : List Word, ws.length = 97 ∧ readbackFrameReadEffect s = (s.freeSteps 97).modJtag fun j => { j with
      rbRequested := false, rbReady := true, rbInvalid := true, rbWords := ws } :=
  ⟨_, by simp, (readbackFrameReadEffect_runs asked free).trans (if_neg (by simp [h]))⟩

end

/-- Settles O31: the scans of each instruction, the accesses of the three that have an access register, and the readback. -/
theorem jtagInstructions : Obligations.JtagInstructions := by
  intro s chain op frame addr data write ecc power j opens bypassed scanned captured a register
  have scan (f : State → State) : onAny s f = .next (f s) := onAny_powered power f
  have short {f : State → State} {t : State} (h : f s = t) : onPort s false f = .next t :=
    (onPort_short power f).trans (congrArg _ h)
  have long (clk : Clocked s) {f : State → State} {t : State} (h : f s = t) : onPort s true f = .next t :=
    (onPort_defined clk.1 true f).trans (congrArg _ h)
  have opened {n : Nat} (h : opens n) : privateOpen s n = true := privateOpen_iff.2 h
  have closed {n : Nat} (h : ¬opens n) : privateOpen s n = false := Bool.eq_false_iff.2 (mt privateOpen_iff.1 h)
  obtain ⟨noDebugBus, noReadback, noRlog⟩ := selectsBypass_closed (s := s)
  -- The accesses are judged and issued in the state that Capture-DR leaves, which differs from s in the JTAG port alone.
  have access (c : Bool → Instr) {op : Byte} {lo hi : Nat} {e : Ecc} (still : exec (c false) s = .next (captureAccess op s))
      (goes : Clocked s → exec (c true) s = .next (updateAccess lo hi true write addr data e (captureAccess op s))) :
      register c op lo hi := by
    refine ⟨still, fun clk h => (goes clk).trans (congrArg _ (updateAccess_held (held_captureAccess.trans h))),
      fun clk run quiet => ?_⟩
    have alone : captured op = s.modJtag (Jtag.captured op) := captureAccess_alone quiet
    have from_s {t : State} : Only [.jtag, .bus, .acc, .free] (s.modJtag (Jtag.captured op)) t →
        Only [.jtag, .bus, .acc, .free] s t := ((Moves.refl _ s).modJtag (by decide) _).only.trans
    have run' : held (s.modJtag (Jtag.captured op)) = false := run
    have quiet' : owedTo (s.modJtag (Jtag.captured op)) .jtag = [] := quiet
    replace goes := goes clk
    rw [captureAccess_alone quiet] at goes
    rw [alone]
    refine ⟨fun bad => ?_, fun low high ok up => ?_⟩
    · obtain ⟨k, why, refused⟩ := updateAccess_refused quiet' run' bad
      obtain ⟨only, rest⟩ := jtagDenied_shows (wr := write) (addr := addr) quiet' k why
      exact ⟨_, goes.trans (congrArg _ refused), from_s only, rest⟩
    · rw [updateAccess_inside run' low high] at goes
      refine ⟨?_, ?_⟩
      · rintro rfl b
        obtain ⟨only, rest⟩ := jtagIssue_writes quiet' ok up b
        exact ⟨_, goes, from_s only, rest⟩
      · rintro rfl p q
        obtain ⟨only, last, learns⟩ := jtagIssue_reads quiet' ok up p q
        rw [show regWord .jtag (s.modJtag (Jtag.captured op)) a = _ from regWord_port p _ s.freeCtr] at learns
        exact ⟨_, goes, from_s only, last, learns⟩
  refine ⟨⟨_, scanCapture_length, scan _⟩, ⟨_, scanCapture_length, scan _⟩, scan _,
    fun h => exec_bypass power (selectsBypass_unlisted h),
    fun h => ⟨exec_bypass power (noDebugBus (closed h)), short (debugBusEffect_closed (closed h))⟩,
    fun h => ⟨exec_bypass power (noReadback (closed h)), (scan _).trans (congrArg _ (readbackEffect_closed (closed h)))⟩,
    fun h => ⟨exec_bypass power (noRlog (closed h)), short (rlogEffect_closed (closed h))⟩,
    fun clk => ⟨fun h => long clk (debugBusEffect_closed (closed h)), fun h => long clk (rlogEffect_closed (closed h))⟩,
    access (.auth · write addr data) (short authEffect_noGo) fun clk => long clk rfl, fun h => ?_, fun h => ?_,
    fun h => (scan _).trans (congrArg _ (readbackEffect_open (opened h))), fun clk => ?_⟩
  · have effect {go : Bool} := debugBusEffect_open (go := go) (wr := write) (addr := addr) (data := data) (ecc := ecc) (opened h)
    exact access (.debugBus · write addr data ecc) (short (effect.trans updateAccess_noGo)) fun clk => long clk effect
  · have effect {go : Bool} := rlogEffect_open (go := go) (wr := write) (addr := addr) (data := data) (opened h)
    exact access (.rlog · write addr data) (short (effect.trans updateAccess_noGo)) fun clk => long clk effect
  · have reads {t : State} (h : readbackFrameReadEffect s = t) : exec .readbackFrameRead s = .next t :=
      (onSys_clocked clk _).trans (congrArg _ h)
    refine ⟨fun h => reads (readbackFrameReadEffect_waits h), fun h k f => reads (readbackFrameReadEffect_frame h k f),
      fun h k f => ?_⟩
    obtain ⟨ws, size, e⟩ := readbackFrameReadEffect_noFrame h k f
    exact ⟨ws, size, reads e⟩

end Sys2Proof.Machine
end

section
/-! The time base (O9): the end of a tick (R155), the resets and the first lock that leave it at 0 (R36, R38), and the TIME message of a
follower (R345), the only other command that moves it. -/

namespace Sys2Proof.Machine

variable {s : State} {c : Instr}

/-! ### Ticks -/

theorem step_empty (h : s.pending = []) : step s = .next (tick s) := by
  simp only [step, h]

theorem tickEnd_pending (s : State) : (tickEnd s).pending = s.pending :=
  (tickEnd_moves s (Moves.refl _ s) fun _ h => h).only .queue (by decide)

/-- What the tick has seen is forgotten at its end. -/
theorem tickEnd_moment (s : State) : (tickEnd s).moment = .init := by
  unfold tickEnd
  exact (oscTurn_moves _ (Moves.refl [.bus, .bkp] _) (by decide)).only .moment (by decide)

/-! ### Resets -/

theorem pinResetFull_time (s : State) : (pinResetFull s).time = 0 := by
  obtain ⟨-, time, -⟩ := resetBlocks_fields false (settleWrites s)
  exact time

theorem softResetEffect_time (h : (drainAll s).sys.softReq ≠ none) : (softResetEffect s).time = 0 := by
  have asked : ¬(drainAll s).sys.softReq.isNone = true := by simpa using h
  obtain ⟨-, time, -⟩ := resetBlocks_fields true (drainAll s)
  simp only [softResetEffect, if_neg asked]
  exact time

/-! ### The TIME message -/

/-- The lead of the time and a port that is not UP take no TIME message: it is forwarded, or only counted as good (R345). -/
theorem timeMessageEffect_time {head : HlHead} {value r : Tick} (h : isTimeLead s = true ∨ portUp s head.port = false) :
    (timeMessageEffect head value r s).time = s.time := by
  have good (u : State) (k : Moves [.qe, .hl, .dm] s u) : Moves [.qe, .hl, .dm] s (goodMessage u head.port) :=
    goodMessage_moves _ _ k (by decide)
  have passed (u : State) (k : Moves [.qe, .hl, .dm] s u) (body : List Byte) :
      Moves [.qe, .hl, .dm] s (forward (goodMessage u head.port) head 3 body) :=
    forward_moves _ _ _ _ (good u k) (by decide)
  suffices beside : Moves [.qe, .hl, .dm] s (timeMessageEffect head value r s) from beside.only .time (by decide)
  simp only [timeMessageEffect, onUp]
  split
  · exact Moves.refl _ s
  split
  case isTrue up =>
    have lead : isTimeLead s = true := h.resolve_right (by simp [up])
    rw [if_pos lead]
    exact (passed _ ((Moves.refl _ s).modHl (by decide) _) _).ite (passed _ (Moves.refl _ s) _)
  case isFalse => exact good _ (Moves.refl _ s)

/-! ### Every other command -/

/-- Only the resets, the lock of a PLL and the TIME message have the time base in their frame. -/
theorem time_notMem_frameOf (pin : ∀ n, c ≠ .pinReset n) (soft : c ≠ .softReset) (lock : ∀ p us, c ≠ .pllLock p us)
    (msg : ∀ head value r, c ≠ .timeMessage head value r) : Part.time ∉ frameOf c := by
  cases c with
  | pinReset n => exact absurd rfl (pin n)
  | softReset => exact absurd rfl soft
  | pllLock p us => exact absurd rfl (lock p us)
  | timeMessage head value r => exact absurd rfl (msg head value r)
  | _ => exact of_decide_eq_false rfl

/-- Settles O9: the end of a tick, what leaves the time base at 0, and by its frame every command that does not move it. -/
theorem timeBase : Obligations.TimeBase := by
  refine ⟨fun s clocked empty => ⟨fun ends => ?_, fun early due => ?_⟩, fun s n long => ⟨_, exec_pinReset n s, ?_⟩,
    fun s clocked asked => ⟨_, onSys_clocked clocked softResetEffect, softResetEffect_time asked⟩,
    fun s us powered waits => ⟨_, onAny_powered powered (pllLockEffect .sys us), ?_⟩,
    fun s t head value r run stays => ?_, fun c s t run pin soft lock msg => ?_⟩
  · exact ⟨tickEnd s, (step_empty empty).trans (congrArg _ (tick_end ends)), tickEnd_time clocked,
      (tickEnd_pending s).trans empty, tickEnd_moment s⟩
  · exact (step_empty empty).trans (congrArg _ (tick_due early due))
  · rw [pinResetEffect_long long]
    exact pinResetFull_time s
  · rw [pllLockEffect_sys waits]
  · obtain ⟨-, answer⟩ := onSys_next run
    rw [answer]
    split
    · exact timeMessageEffect_time stays
    · rfl
  · exact (exec_moves run).only .time (time_notMem_frameOf pin soft lock msg)

end Sys2Proof.Machine
end

section
/-! Encoder counting (O32): the samples that the filters agree on (R159, R160), a change of A and B as one count or an illegal
transition (R162, R163, R167, R174), the index of Z (R165), and LOAD with the count of its tick (R164, R175). -/

namespace Sys2Proof.Machine

variable {s : State} {n : Fin 8} {e : Enc} {t : Nat} {v u : Bool}

/-! ### A sample -/

theorem EncIn.sample_raw (i : EncIn) (t : Nat) (v : Bool) : (i.sample t v).raw = v := by
  by_cases h : i.raw = v <;> simp [EncIn.sample, h]

/-- The level accepted after a sample is the sampled one. -/
theorem EncIn.accept_sample (i : EncIn) (t : Nat) (v : Bool) : (i.sample t v).accept = { i.sample t v with level := v } := by
  simp only [EncIn.accept, EncIn.sample_raw]

theorem EncIn.sample_level (i : EncIn) (t : Nat) (v : Bool) : (i.sample t v).level = i.level := by
  unfold EncIn.sample; split <;> rfl

/-! ### One count -/

/-- One count up or down with the direction after it (R163, R167). -/
def Enc.count (e : Enc) (up : Bool) : Enc :=
  let b : Int := encBacklash e + 1
  let pos := if up then e.pos + 1 else e.pos - 1
  let d := (pos - e.extreme).toInt
  let declared := if e.rev then decide (b ≤ d) else decide (d ≤ -b)
  let further := if e.rev then decide (d < 0) else decide (0 < d)
  { e with
    pos := pos
    wrap := if up then (if e.pos = 0xFFFF_FFFF then e.wrap + 1 else e.wrap) else (if e.pos = 0 then e.wrap - 1 else e.wrap)
    rev := if declared then !e.rev else e.rev
    extreme := if declared || further then pos else e.extreme }

/-- The direction state as it follows from the distance to the extreme: a new extreme and a declared reversal exclude each other. -/
theorem declareDir_eq (e : Enc) : declareDir e =
    let b : Int := encBacklash e + 1
    let d := (e.pos - e.extreme).toInt
    let declared := if e.rev then decide (b ≤ d) else decide (d ≤ -b)
    let further := if e.rev then decide (d < 0) else decide (0 < d)
    { e with rev := if declared then !e.rev else e.rev, extreme := if declared || further then e.pos else e.extreme } := by
  have wide : (0 : Int) < encBacklash e + 1 := by omega
  unfold declareDir
  dsimp only
  generalize (e.pos - e.extreme).toInt = d
  cases rev : e.rev with
  | true =>
    have same : e = { e with rev := true } := congrArg (fun r => { e with rev := r }) rev
    by_cases h : d < 0
    · have k : ¬(encBacklash e + 1 : Int) ≤ d := by omega
      simp only [h, k, decide_true, decide_false, if_true, Bool.false_or, Bool.false_eq_true, if_false]
    · by_cases k : (encBacklash e + 1 : Int) ≤ d
      · simp only [h, k, decide_true, decide_false, if_true, if_false, Bool.true_or, Bool.not_true]
      · simp only [h, k, decide_false, if_true, if_false, Bool.or_false, Bool.false_eq_true]
        exact same
  | false =>
    have same : e = { e with rev := false } := congrArg (fun r => { e with rev := r }) rev
    by_cases h : 0 < d
    · have k : ¬d ≤ -(encBacklash e + 1 : Int) := by omega
      simp only [h, k, decide_true, decide_false, if_true, Bool.false_or, Bool.false_eq_true, if_false]
    · by_cases k : d ≤ -(encBacklash e + 1 : Int)
      · simp only [h, k, decide_true, decide_false, if_true, if_false, Bool.true_or, Bool.not_false, Bool.false_eq_true]
      · simp only [h, k, decide_false, if_false, Bool.or_false, Bool.false_eq_true]
        exact same

theorem declareDir_countEnc (e : Enc) (up : Bool) : declareDir (countEnc e up) = e.count up := by
  rw [declareDir_eq]
  cases up <;> rfl

theorem countTick_alone (h : ∀ x, e.zIndex ≠ some (t, x)) : countTick e t u = e.count u := by
  rw [← declareDir_countEnc]
  cases z : e.zIndex with
  | none => simp only [countTick, z]
  | some p =>
    have other : p.1 ≠ t := fun k => h p.2 (by rw [z, ← k])
    simp only [countTick, z, if_pos other]

theorem countTick_indexed (h : e.zIndex = some (t, false)) : countTick e t u = { e.count u with zpos := (e.count u).pos } := by
  simp [countTick, h, declareDir_countEnc]

theorem countTick_loaded (h : e.zIndex = some (t, true)) :
    countTick e t u = { e with zpos := if u then e.zpos + 1 else e.zpos - 1 } := by
  simp [countTick, h]

/-! ### A change of A and B -/

/-- In tick t the filter accepts the level of input i, which is A or B of encoder e. -/
def Enc.takesAB (e : Enc) (t : Nat) (i : EncIn) : Bool := i.ripe (encFilter e) t && e.accAt != some t

/-- Encoder e with the levels of A and B that tick t accepts. -/
def Enc.acceptedAB (e : Enc) (t : Nat) : Enc :=
  { e with
    accAt := some t
    inA := if e.takesAB t e.inA then e.inA.accept else e.inA
    inB := if e.takesAB t e.inB then e.inB.accept else e.inB }

/-- The encoder decodes what tick t accepts: it is enabled, and was so before this tick (R162). -/
def Enc.decodes (e : Enc) (t : Nat) : Bool := encEn e && e.enAt != some t

/-- The change that tick t accepts counts up (R162). -/
def Enc.countsUp (e : Enc) (t : Nat) : Bool :=
  quadForward e.inA.level e.inB.level (e.acceptedAB t).inA.level (e.acceptedAB t).inB.level != encDir e

/-- Encoder e with the levels that tick t accepts, and the count of that tick noted. -/
def Enc.moved (e : Enc) (t : Nat) (time : Tick) (up : Bool) : Enc :=
  { e.acceptedAB t with last := time, counted := some (t, up) }

theorem abRipe_setEnc : abRipe (setEnc s n e) n = (e.takesAB s.clock e.inA || e.takesAB s.clock e.inB) := by
  simp only [abRipe, getEnc_setEnc, setEnc_clock, Enc.takesAB, Bool.and_or_distrib_left, Bool.and_comm]

theorem acceptAB_none (a : e.takesAB s.clock e.inA = false) (b : e.takesAB s.clock e.inB = false) :
    acceptAB (setEnc s n e) n = setEnc s n e := by
  simp [acceptAB, abRipe_setEnc, a, b]

/-- What happens once something is accepted, with each input's acceptance said by `takesAB`. -/
theorem acceptAB_some (h : e.takesAB s.clock e.inA = true ∨ e.takesAB s.clock e.inB = true) : acceptAB (setEnc s n e) n =
    if e.decodes s.clock = false then setEnc s n (e.acceptedAB s.clock)
    else if e.takesAB s.clock e.inA && e.takesAB s.clock e.inB then
      setEnc s n { e.acceptedAB s.clock with
        last := s.time, cntIllegal := satInc e.cntIllegal, illegalNow := some s.clock }
    else
      let e' := countTick (e.moved s.clock s.time (e.countsUp s.clock)) s.clock (e.countsUp s.clock)
      encMoved (setEnc s n e') n (e'.rev != e.rev) := by
  have ripe : abRipe (setEnc s n e) n = true := by simpa [abRipe_setEnc] using h
  have new : (e.accAt != some s.clock) = true := by
    rcases h with h | h <;> exact (Bool.and_eq_true_iff.1 h).2
  have takes (i : EncIn) : e.takesAB s.clock i = i.ripe (encFilter e) s.clock := by simp [Enc.takesAB, new]
  have stopped : (!encEn e || e.enAt == some s.clock) = !e.decodes s.clock := by simp [Enc.decodes, bne]
  simp only [acceptAB, ripe, Bool.not_true, Bool.false_eq_true, if_false, getEnc_setEnc, modEnc_setEnc, setEnc_clock, stopped,
    Bool.not_eq_true', ← takes]
  rfl

theorem acceptAB_undecoded (h : e.takesAB s.clock e.inA = true ∨ e.takesAB s.clock e.inB = true)
    (d : e.decodes s.clock = false) : acceptAB (setEnc s n e) n = setEnc s n (e.acceptedAB s.clock) := by
  rw [acceptAB_some h, if_pos d]

theorem acceptAB_both (a : e.takesAB s.clock e.inA = true) (b : e.takesAB s.clock e.inB = true) (d : e.decodes s.clock = true) :
    acceptAB (setEnc s n e) n = setEnc s n { e.acceptedAB s.clock with
      last := s.time, cntIllegal := satInc e.cntIllegal, illegalNow := some s.clock } := by
  rw [acceptAB_some (.inl a), if_neg (by simp [d]), if_pos (by simp [a, b])]

/-- A change of one input is one count; beside the encoder it changes only what the sequencers see (R162, R187). -/
theorem acceptAB_one (h : e.takesAB s.clock e.inA = !e.takesAB s.clock e.inB) (d : e.decodes s.clock = true) :
    ∃ turned, acceptAB (setEnc s n e) n = encMoved
      (setEnc s n (countTick (e.moved s.clock s.time (e.countsUp s.clock)) s.clock (e.countsUp s.clock))) n turned := by
  have some_ : e.takesAB s.clock e.inA = true ∨ e.takesAB s.clock e.inB = true := by
    cases b : e.takesAB s.clock e.inB <;> simp [h, b]
  exact ⟨_, by rw [acceptAB_some some_, if_neg (by simp [d]), if_neg (by simp [h])]⟩

/-- Encoder e with the samples of A and B in tick t. -/
def Enc.sampledAB (e : Enc) (t : Nat) (a b : Bool) : Enc := { e with inA := e.inA.sample t a, inB := e.inB.sample t b }

/-- The accepted levels are the sampled ones. -/
theorem acceptedAB_sampledAB (e : Enc) (t : Nat) (a b : Bool) :
    let x := e.sampledAB t a b
    x.acceptedAB t = { x with
      accAt := some t
      inA := if x.takesAB t x.inA then { x.inA with level := a } else x.inA
      inB := if x.takesAB t x.inB then { x.inB with level := b } else x.inB } := by
  intro x
  have levelA : x.inA.accept = { x.inA with level := a } := EncIn.accept_sample _ _ _
  have levelB : x.inB.accept = { x.inB with level := b } := EncIn.accept_sample _ _ _
  rw [Enc.acceptedAB, levelA, levelB]

/-- The sense of a count by the places of the AB states, before and after, in the forward order (R162, R163). -/
theorem countsUp_sampledAB {a b : Bool} {e' : Enc} (h : (e.sampledAB t a b).acceptedAB t = e') :
    (e.sampledAB t a b).countsUp t = true ↔
      ((quad e'.inA.level e'.inB.level + 4 - quad e.inA.level e.inB.level) % 4 = 1 ↔ encDir e = false) := by
  have levelA : (e.sampledAB t a b).inA.level = e.inA.level := EncIn.sample_level _ _ _
  have levelB : (e.sampledAB t a b).inB.level = e.inB.level := EncIn.sample_level _ _ _
  have dir : encDir (e.sampledAB t a b) = encDir e := rfl
  rw [Enc.countsUp, h, levelA, levelB, dir, quadForward]
  cases encDir e <;> simp

theorem encoderTransitionEffect_live (h : pinsLive s = true) (a b : Bool) :
    encoderTransitionEffect n a b s = acceptAB (setEnc s n ((getEnc s n).sampledAB s.clock a b)) n := by
  rw [encoderTransitionEffect, if_pos h, modEnc_eq_setEnc]; rfl

theorem encoderTransitionEffect_dead (h : pinsLive s = false) (a b : Bool) : encoderTransitionEffect n a b s = s :=
  if_neg (by simp [h])

/-! ### What the sequencers see -/

theorem setEnc_only (s : State) (n : Fin 8) (e : Enc) : Only [.tbe] s (setEnc s n e) :=
  ((Moves.refl _ s).modEnc (by decide) n _).only

/-- A count reaches the sequencers and leaves the encoders alone (R187, R191). -/
theorem becomes_moved {o : Out} {w : State} {turned : Bool} (k : Only [.tbe] s w) (x : o = .next (encMoved w n turned)) :
    ∃ t, o = .next t ∧ Only [.tbe, .tsq, .pw] s t ∧ t.tbe = w.tbe := by
  have beside : Only [.tsq, .pw] w (encMoved w n turned) := (encMoved_moves w n turned (Moves.refl _ w) fun _ h => h).only
  exact ⟨_, x, (k.weaken (by decide)).trans (beside.weaken (by decide)), beside .tbe (by decide)⟩

/-- A position step reaches the sequencers and leaves the encoders alone (R166, R191). -/
theorem becomes_stepped {o : Out} {w : State} (k : Only [.tbe] s w) (x : o = .next (encStepped w n)) :
    ∃ t, o = .next t ∧ Only [.tbe, .tsq] s t ∧ t.tbe = w.tbe := by
  have beside : Only [.tsq] w (encStepped w n) := (encStepped_moves w n (Moves.refl _ w) fun _ h => h).only
  exact ⟨_, x, (k.weaken (by decide)).trans (beside.weaken (by decide)), beside .tbe (by decide)⟩

/-! ### A change of Z -/

/-- In tick t the filter accepts the level of Z. -/
def Enc.takesZ (e : Enc) (t : Nat) : Bool := e.inZ.ripe (encFilter e) t && e.accZ != some t

/-- The accepted level of Z is an index: the input is in use, and the level is the active one (R165). -/
def Enc.indexes (e : Enc) : Bool := encZused e && e.inZ.raw == encZpol e

/-- Encoder e with the level of Z that tick t accepts. -/
def Enc.acceptedZ (e : Enc) (t : Nat) : Enc := { e with accZ := some t, inZ := e.inZ.accept }

/-- Encoder e with the index of tick t latched and counted (R165). -/
def Enc.indexed (e : Enc) (t : Nat) (time : Tick) (loads : Bool) : Enc :=
  { e.acceptedZ t with zpos := e.pos, ztime := time, cntIndex := e.cntIndex + 1, zIndex := some (t, loads) }

/-- Encoder n replaced by e, and the flag of its index set. -/
def setIndexed (s : State) (n : Fin 8) (e : Enc) : State :=
  setEnc (s.modTbe fun t => { t with flags := t.flags.set (8 + n.val) }) n e

theorem acceptZ_eq : acceptZ (setEnc s n e) n =
    if e.takesZ s.clock = false then setEnc s n e
    else if e.indexes then
      let loads := encZmode e == 2 && e.zarmed
      if loads then
        encStepped (setIndexed s n { placeEnc (e.indexed s.clock s.time loads) e.zload with zarmed := false }) n
      else setIndexed s n (e.indexed s.clock s.time loads)
    else setEnc s n (e.acceptedZ s.clock) := by
  have ripe : zRipe (setEnc s n e) n = e.takesZ s.clock := by
    simp only [zRipe, getEnc_setEnc, setEnc_clock, Enc.takesZ, Bool.and_comm]
  have marked (x : Enc) : ((setEnc s n x).modTbe fun t => { t with flags := t.flags.set (8 + n.val) }) = setIndexed s n x := rfl
  have replaced (x : Enc) (g : Enc → Enc) : (setIndexed s n x).modEnc n g = setIndexed s n (g x) := modEnc_setEnc _ _ _ _
  simp only [acceptZ, ripe, Bool.not_eq_true', getEnc_setEnc, modEnc_setEnc, setEnc_clock, marked, replaced]
  rfl

theorem acceptZ_none (h : e.takesZ s.clock = false) : acceptZ (setEnc s n e) n = setEnc s n e := by
  rw [acceptZ_eq, if_pos h]

section
variable (h : e.takesZ s.clock = true)
include h

theorem acceptZ_shown (x : e.indexes = false) : acceptZ (setEnc s n e) n = setEnc s n (e.acceptedZ s.clock) := by
  rw [acceptZ_eq, if_neg (by simp [h]), if_neg (by simp [x])]

variable (x : e.indexes = true)
include x

theorem acceptZ_latched (l : (encZmode e == 2 && e.zarmed) = false) :
    acceptZ (setEnc s n e) n = setIndexed s n (e.indexed s.clock s.time false) := by
  rw [acceptZ_eq, if_neg (by simp [h]), if_pos x, l]; rfl

theorem acceptZ_loaded (l : (encZmode e == 2 && e.zarmed) = true) : acceptZ (setEnc s n e) n =
    encStepped (setIndexed s n { placeEnc (e.indexed s.clock s.time true) e.zload with zarmed := false }) n := by
  rw [acceptZ_eq, if_neg (by simp [h]), if_pos x, l]; rfl

end

/-- Encoder e with the sample of Z in tick t. -/
def Enc.sampledZ (e : Enc) (t : Nat) (v : Bool) : Enc := { e with inZ := e.inZ.sample t v }

theorem acceptedZ_sampledZ (e : Enc) (t : Nat) (v : Bool) :
    (e.sampledZ t v).acceptedZ t = { e with accZ := some t, inZ := { e.inZ.sample t v with level := v } } := by
  simp only [Enc.acceptedZ, Enc.sampledZ, EncIn.accept_sample]

theorem indexes_sampledZ : (e.sampledZ t v).indexes = true ↔ (encZmode e = 1 ∨ encZmode e = 2) ∧ v = encZpol e := by
  have mode : encZmode (e.sampledZ t v) = encZmode e := rfl
  have pol : encZpol (e.sampledZ t v) = encZpol e := rfl
  have raw : (e.sampledZ t v).inZ.raw = v := EncIn.sample_raw _ _ _
  simp [Enc.indexes, encZused, mode, pol, raw]

theorem indexEffect_live (h : pinsLive s = true) (v : Bool) :
    indexEffect n v s = acceptZ (setEnc s n ((getEnc s n).sampledZ s.clock v)) n := by
  rw [indexEffect, if_pos h, modEnc_eq_setEnc]; rfl

theorem indexEffect_dead (h : pinsLive s = false) (v : Bool) : indexEffect n v s = s := if_neg (by simp [h])

/-! ### LOAD -/

theorem loadEffect_alone (h : ∀ u, (getEnc s n).counted ≠ some (s.clock, u)) :
    loadEffect n s = encStepped (setEnc s n (placeEnc (getEnc s n) (getEnc s n).load)) n := by
  rw [loadEffect, modEnc_eq_setEnc]
  cases c : (getEnc s n).counted with
  | none => rfl
  | some p =>
    have other : p.1 ≠ s.clock := fun k => h p.2 (by rw [c, ← k])
    simp only [if_neg other]

theorem loadEffect_counted (h : (getEnc s n).counted = some (s.clock, u)) :
    loadEffect n s = encStepped (setEnc s n ((placeEnc (getEnc s n) (getEnc s n).load).count u)) n := by
  rw [loadEffect, modEnc_eq_setEnc]
  simp only [h, if_true, declareDir_countEnc]

/-! ### The statement -/

/-- Settles O32: A and B, then Z, then LOAD and the other actions, case by case. -/
theorem encoderCounts : Obligations.EncoderCounts := by
  intro s n a b level hc e enabled becomes set sampled agreed ia ib iz seen takenA takenB takenZ accepted order forward up B count
    zmode placed
  have go (f : State → State) : onSys s f = .next (f s) := onSys_clocked hc f
  have order_eq : order = quad := by funext x y; cases x <;> cases y <;> rfl
  let x := e.sampledAB s.clock a b
  let y := e.sampledZ s.clock level
  have isAccepted : x.acceptedAB s.clock = accepted := acceptedAB_sampledAB _ _ _ _
  have changes (h : pinsLive s = true) {w : State} (q : acceptAB (setEnc s n x) n = w) : exec (.encoderTransition n a b) s = .next w :=
    (go _).trans (congrArg _ ((encoderTransitionEffect_live h a b).trans q))
  have indexes (h : pinsLive s = true) {w : State} (q : acceptZ (setEnc s n y) n = w) : exec (.index n level) s = .next w :=
    (go _).trans (congrArg _ ((indexEffect_live h level).trans q))
  refine ⟨fun h => ⟨(go _).trans (congrArg _ (encoderTransitionEffect_dead h a b)),
      (go _).trans (congrArg _ (indexEffect_dead h level))⟩,
    fun h => ⟨fun ta tb => changes h (acceptAB_none (e := x) ta tb),
      fun taken off => changes h ((acceptAB_undecoded (e := x) taken off).trans (congrArg _ isAccepted)),
      fun ta tb on => changes h ((acceptAB_both (e := x) ta tb on).trans ?_), fun one on u hu => ?_,
      fun tz => indexes h (acceptZ_none (e := y) tz), fun tz => ?_⟩, fun h => ?_, fun u h => ?_, go _, go _, go _⟩
  · rw [isAccepted]; rfl
  · intro moved
    have isUp : x.countsUp s.clock = u := by
      rw [Bool.eq_iff_iff, countsUp_sampledAB isAccepted, ← order_eq]
      exact hu.symm
    have isMoved : x.moved s.clock s.time u = moved :=
      congrArg (fun e : Enc => { e with last := s.time, counted := some (s.clock, u) }) isAccepted
    obtain ⟨turned, q⟩ := acceptAB_one (s := s) (n := n) (e := x) one on
    rw [isUp, isMoved] at q
    have ends {e' : Enc} (k : countTick moved s.clock u = e') : becomes (.encoderTransition n a b) [.tbe, .tsq, .pw] e' :=
      becomes_moved (setEnc_only s n e') (changes h (k ▸ q))
    exact ⟨fun z => ends (countTick_alone z), fun z => ends (countTick_indexed z), fun z => ends (countTick_loaded z)⟩
  · intro shown latched
    replace tz : y.takesZ s.clock = true := tz
    have isShown : y.acceptedZ s.clock = shown := acceptedZ_sampledZ _ _ _
    have isLatched (loads : Bool) : y.indexed s.clock s.time loads = { latched with zIndex := some (s.clock, loads) } :=
      congrArg (fun e' : Enc => { e' with
        zpos := e.pos, ztime := s.time, cntIndex := e.cntIndex + 1, zIndex := some (s.clock, loads) }) isShown
    refine ⟨fun no => ?_, fun mode active => ?_, fun two armed active => ?_⟩
    · have unused : y.indexes = false := Bool.eq_false_iff.2 (mt indexes_sampledZ.1 no)
      exact indexes h ((acceptZ_shown tz unused).trans (congrArg _ isShown))
    · have used : y.indexes = true := indexes_sampledZ.2 ⟨mode.imp id And.left, active⟩
      have stays : (encZmode y == 2 && y.zarmed) = false := by
        rcases mode with one | ⟨-, unarmed⟩
        · simp [show encZmode y = 1 from one]
        · simp [show y.zarmed = false from unarmed]
      exact indexes h ((acceptZ_latched tz used stays).trans (congrArg _ (isLatched false)))
    · have used : y.indexes = true := indexes_sampledZ.2 ⟨.inr two, active⟩
      have loads : (encZmode y == 2 && y.zarmed) = true := by
        simp [show encZmode y = 2 from two, show y.zarmed = true from armed]
      have q := acceptZ_loaded (s := s) (n := n) tz used loads
      rw [isLatched] at q
      exact becomes_stepped (n := n) (((Moves.refl _ s).modTbe (by decide) _).modEnc (by decide) n _).only (indexes h q)
  · exact becomes_stepped (n := n) (setEnc_only _ _ _) ((go _).trans (by rw [loadEffect_alone h]; rfl))
  · exact becomes_stepped (n := n) (setEnc_only _ _ _) ((go _).trans (by rw [loadEffect_counted h]; rfl))

end Sys2Proof.Machine
end

section
/-! The state of one trigger sequencer (O34, O35): the sequencer replaced as a whole, its slots by their state, and the edges that rise. -/

namespace Sys2Proof.Machine

variable {s t : State} {n : Fin 16} {i j : Fin 64} {x : Tsq} {st : SlotState} {e : Edge} {p : Edge → Bool}

/-! ### One sequencer replaced -/

/-- Sequencer n replaced by x. -/
def setTsq (s : State) (n : Fin 16) (x : Tsq) : State := s.modTsq n fun _ => x

theorem getTsq_modTsq (s : State) (n : Fin 16) (g : Tsq → Tsq) : getTsq (s.modTsq n g) n = g (getTsq s n) :=
  upd_same _ _ _

@[simp] theorem getTsq_setTsq (s : State) (n : Fin 16) (x : Tsq) : getTsq (setTsq s n x) n = x := getTsq_modTsq _ _ _

/-- Sequencer n as the statements name it. -/
theorem setTsq_get (s : State) (n : Fin 16) (x : Tsq) : (setTsq s n x).tsq[n.val] = x := getTsq_setTsq s n x

theorem modTsq_eq_setTsq (s : State) (n : Fin 16) (g : Tsq → Tsq) : s.modTsq n g = setTsq s n (g (getTsq s n)) :=
  congrArg (fun v => { s with tsq := v }) (upd_congr _ _ _ _ rfl)

@[simp] theorem modTsq_setTsq (s : State) (n : Fin 16) (x : Tsq) (g : Tsq → Tsq) :
    (setTsq s n x).modTsq n g = setTsq s n (g x) := by
  simp only [setTsq, State.modTsq, upd_upd]

@[simp] theorem setTsq_getTsq (s : State) (n : Fin 16) : setTsq s n (getTsq s n) = s :=
  congrArg (fun v => { s with tsq := v }) (upd_id _ _ _ rfl)

@[simp] theorem setTsq_clock (s : State) (n : Fin 16) (x : Tsq) : (setTsq s n x).clock = s.clock := rfl

@[simp] theorem now_setTsq (s : State) (n : Fin 16) (x : Tsq) : now (setTsq s n x) = now s := rfl

@[simp] theorem tsqAct_setTsq (s : State) (n : Fin 16) (x : Tsq) : tsqAct (setTsq s n x) n = x.group.active := by
  simp only [tsqAct, getTsq_setTsq]

theorem modTsq_modTsq (s : State) (n : Fin 16) (f g : Tsq → Tsq) :
    (s.modTsq n f).modTsq n g = s.modTsq n fun x => g (f x) := by
  simp only [State.modTsq, upd_upd]

/-- An update of a sequencer that changes nothing of it. -/
theorem modTsq_id {g : Tsq → Tsq} (h : g (getTsq s n) = getTsq s n) : s.modTsq n g = s := by
  rw [modTsq_eq_setTsq, h, setTsq_getTsq]

theorem setTsq_only (s : State) (n : Fin 16) (x : Tsq) : Only [.tsq] s (setTsq s n x) :=
  ((Moves.refl _ s).modTsq (by decide) n _).only

theorem setTsq_others (s : State) (n : Fin 16) (x : Tsq) : Others n s.tsq (setTsq s n x).tsq :=
  fun _ h => upd_other _ _ _ _ (Ne.symm h)

theorem getTsq_congr (h : t.tsq = s.tsq) : getTsq t n = getTsq s n := by
  simp only [getTsq, h]

/-- A further replacement of sequencer n is the only one that is seen of the sequencers. -/
theorem setTsq_tsq_congr (h : t.tsq = (setTsq s n x).tsq) (y : Tsq) : (setTsq t n y).tsq = (setTsq s n y).tsq :=
  (congrArg (upd · n fun _ => y) h).trans (upd_upd s.tsq n (fun _ => x) fun _ => y)

/-- Without a waiting position step the sequencer is settled already (R174). -/
theorem settleSteps_none (h : (getTsq s n).steps = []) : settleSteps s n = s := by
  simp only [settleSteps, h, forEach, List.foldl_nil]
  exact modTsq_id (by rw [← h])

/-! ### Slots by their state -/

theorem mem_insertAge (l : List (Fin 64)) : j ∈ insertAge x i l ↔ j = i ∨ j ∈ l := by
  induction l with
  | nil => simp [insertAge]
  | cons k r ih =>
    unfold insertAge
    split
    · simp
    · simp only [List.mem_cons, ih, or_left_comm]

theorem mem_byAge (l : List (Fin 64)) : j ∈ byAge x l ↔ j ∈ l := by
  induction l with
  | nil => simp [byAge]
  | cons k r ih => simpa [byAge, mem_insertAge] using or_congr_right ih

theorem mem_slotsIn : i ∈ slotsIn s n st ↔ (getSlot s n i).st = st := by
  simp [slotsIn, mem_byAge, allFin, getSlot]

theorem mem_slotsUsed : i ∈ slotsUsed s n ↔ (getSlot s n i).st ≠ .free := by
  simp [slotsUsed, mem_byAge, allFin, getSlot]

theorem slotsIn_eq_nil_iff : slotsIn s n st = [] ↔ ∀ i, (getSlot s n i).st ≠ st := by
  simp only [List.eq_nil_iff_forall_not_mem, mem_slotsIn, ne_eq]

theorem slotsIn_of_slotsUsed_nil (h : slotsUsed s n = []) (k : st ≠ .free) : slotsIn s n st = [] := by
  refine slotsIn_eq_nil_iff.2 fun i hi => ?_
  have used : i ∈ slotsUsed s n := mem_slotsUsed.2 (hi ▸ k)
  simp [h] at used

theorem getSlot_of_slotsIn (h : slotsIn s n st = [i]) : (getSlot s n i).st = st := mem_slotsIn.1 (by simp [h])

/-! ### Edges that rise (R183, R192) -/

/-- The slots of the commit numbered `no` learn the tick in which their STROBE rose (R192). -/
def strobedSlots (v : Vector Slot 64) (no : Nat) (tick : Int) : Vector Slot 64 :=
  v.map fun sl => if sl.st = .committed ∧ sl.no = no then { sl with strobeAt := tick } else sl

/-- Sequencer x after edge e rose in tick `tick`, at count `t` of the clock. -/
def Tsq.rises (x : Tsq) (t : Nat) (tick : Int) (e : Edge) : Tsq :=
  if e.strobe then { x with strobe := x.strobe.rise t e.width, slots := strobedSlots x.slots e.no tick }
  else { x with pretrig := x.pretrig.rise t e.width }

theorem riseEdge_eq (s : State) (n : Fin 16) (e : Edge) :
    riseEdge s n e = setTsq s n ((getTsq s n).rises s.clock (now s) e) := modTsq_eq_setTsq _ _ _

theorem riseEdges_none (h : ∀ e ∈ (getTsq s n).edges, p e = false) : riseEdges s n p = s := by
  have due : (getTsq s n).edges.filter p = [] := by simpa using h
  have rest : ((getTsq s n).edges.filter fun e => !p e) = (getTsq s n).edges := by simpa using h
  simp only [riseEdges, due, forEach, List.foldl_nil]
  exact modTsq_id (by rw [rest])

theorem riseEdges_one (h : (getTsq s n).edges = [e]) (k : p e = true) :
    riseEdges s n p = setTsq s n ({ getTsq s n with edges := [] }.rises s.clock (now s) e) := by
  simp only [riseEdges, h, List.filter_singleton, k, Bool.not_true, cond_true, cond_false, forEach, List.foldl_cons, List.foldl_nil,
    modTsq_eq_setTsq, riseEdge_eq, getTsq_setTsq, setTsq_clock, now_setTsq]
  exact modTsq_setTsq s n _ _

theorem riseDue_none {strobe : Bool} (h : ∀ e ∈ (getTsq s n).edges, e.strobe = strobe → (now s : Int) < e.at_) :
    riseDue s n strobe = s := by
  refine riseEdges_none fun e he => ?_
  by_cases k : e.strobe = strobe
  · simpa [k] using h e he k
  · simp [k]

theorem riseDue_one (h : (getTsq s n).edges = [e]) (k : e.at_ ≤ (now s : Int)) :
    riseDue s n e.strobe = setTsq s n ({ getTsq s n with edges := [] }.rises s.clock (now s) e) :=
  riseEdges_one h (by simp [k])

end Sys2Proof.Machine
end

section
/-! Slots and pulses of a sequencer (O34): a slot opened (R189, R199), a slot committed with the prediction of its tick (R187, R192), and
the ends of the pulses (R183). -/

namespace Sys2Proof.Machine

variable {s : State} {n : Fin 16} {i : Fin 64} {tExp : Int}

/-! ### A slot opened (R189) -/

theorem slotOpenEffect_none (q : (getTsq s n).steps = []) (h : running s n = false ∨ (getTsq s n).openedAt = some s.clock ∨
    tsqDepth (tsqAct s n) ≤ (slotsUsed s n).length) : slotOpenEffect n s = s := by
  rw [slotOpenEffect, settleSteps_none q]
  refine if_neg fun k => ?_
  simp only [Bool.and_eq_true, bne_iff_ne, decide_eq_true_eq] at k
  obtain ⟨⟨run, new⟩, room⟩ := k
  rcases h with h | h | h
  · exact absurd run (by simp [h])
  · exact new h
  · exact Nat.not_le.2 room h

theorem slotOpenEffect_opens (q : (getTsq s n).steps = []) (run : running s n = true) (new : (getTsq s n).openedAt ≠ some s.clock)
    (room : (slotsUsed s n).length < tsqDepth (tsqAct s n))
    (free : ((allFin 64).find? fun i => (getTsq s n).slots[i.val].st == .free) = some i) :
    slotOpenEffect n s =
      let g := tsqAct s n
      pwAsk (s.modTsq n fun x => { x with
        nextId := x.nextId + 1, nextTarget := nextAfter g x.nextTarget, openedAt := some s.clock
        slots := upd x.slots i fun _ => { Slot.init with st := .open_, id := x.nextId, target := x.nextTarget, res := .waiting,
                                                         src := tsqSrc g, rev := tsqRev g, herd := tsqHerd g } })
        (.reserve (.tsqSlot n i) .capture n (capPages (getCap s n).group.active)) := by
  have opens : (running s n && (getTsq s n).openedAt != some s.clock &&
      decide ((slotsUsed s n).length < tsqDepth (getTsq s n).group.active)) = true := by
    simp only [run, Bool.true_and, bne_iff_ne.2 new]
    exact decide_eq_true room
  simp only [slotOpenEffect, settleSteps_none q, opens, if_true, free, modSlot, modTsq_modTsq]
  exact congrArg (pwAsk · _) (congrArg (fun v => { s with tsq := v }) (upd_congr _ _ _ _ rfl))

/-! ### A slot committed (R187, R192) -/

theorem slotCommitEffect_none (q : (getTsq s n).steps = []) (h : slotsUsed s n = []) : slotCommitEffect n s = s := by
  have opened : slotsIn s n .open_ = [] := slotsIn_of_slotsUsed_nil h (by decide)
  simp only [slotCommitEffect, settleSteps_none q, gateCheck, h, opened, forEach, List.foldl_nil]

/-- The only slot in use is OPEN, and its target is not reached: it commits when its time has come (R187). -/
theorem slotCommitEffect_one (q : (getTsq s n).steps = []) (used : slotsUsed s n = [i]) (opened : slotsIn s n .open_ = [i])
    (away : reached (tsqRev (tsqAct s n)) (gatePos s (tsqSrc (tsqAct s n))) (getSlot s n i).target = false) :
    slotCommitEffect n s = (commitDue s n i).elim s (commitSlot s n i) := by
  have gate : gateCheck s n = s := by
    simp only [gateCheck, used, forEach, List.foldl_cons, List.foldl_nil, gateSlot, getSlot_of_slotsIn opened, away,
      Bool.false_eq_true, if_false]
  simp only [slotCommitEffect, settleSteps_none q, gate, opened, forEach, List.foldl_cons, List.foldl_nil]
  cases commitDue s n i <;> rfl

theorem commitDue_never (h : (getTsq s n).interval = none) : commitDue s n i = none := by
  simp only [commitDue, predict, effInterval, h, Option.map_none]

theorem commitDue_early (h : predict s n (getSlot s n i).target = some tExp) (k : (now s : Int) < tExp - tsqLead (tsqAct s n)) :
    commitDue s n i = none := by
  simp only [commitDue, h, if_neg (Int.not_le.2 k)]

theorem commitDue_come (h : predict s n (getSlot s n i).target = some tExp) (k : tExp - tsqLead (tsqAct s n) ≤ (now s : Int)) :
    commitDue s n i = some tExp := by
  simp only [commitDue, h, if_pos k]

/-- Slot sl committed with T_exp as the commit numbered `no`, under the settings g; its STROBE rises at `rise`. -/
def Slot.commit (sl : Slot) (g : TsqGroup) (tExp rise : Int) (no : Nat) : Slot :=
  { sl with
    st := .committed, tExp := some tExp, strobeAt := rise, hold := tsqHold g, expWidth := tsqExpWidth g, stbWidth := tsqStbWidth g
    preWidth := tsqPreWidth g, strobeLead := tsqStrobeLead g, src := tsqSrc g, rev := tsqRev g, herd := tsqHerd g, no := no }

/-- A commit without PRETRIG whose STROBE is due raises it in the same tick, and leaves no edge scheduled (R192). -/
theorem commitSlot_due (pre : tsqPreEn (tsqAct s n) = false) (edges : (getTsq s n).edges = [])
    (due : tExp - tsqStrobeLead (tsqAct s n) ≤ (now s : Int)) :
    let x := getTsq s n
    let g := tsqAct s n
    ∃ v, commitSlot s n i tExp = setTsq s n { x with
        slots := v, lastCommit := some (getSlot s n i).target, commits := x.commits + 1
        strobe := { x.strobe with active := true, end_ := s.clock + tsqStbWidth g } } ∧
      v[i.val] = (getSlot s n i).commit g tExp (now s) x.commits := by
  intro x g
  let stb : Edge := { strobe := true, at_ := tExp - tsqStrobeLead g, width := tsqStbWidth g, no := x.commits }
  let y : Tsq := { x with
    slots := upd x.slots i fun sl => sl.commit g tExp stb.at_ x.commits
    commits := x.commits + 1, lastCommit := some (getSlot s n i).target, edges := [stb] }
  have scheduled : commitSlot s n i tExp = riseDue (riseDue (setTsq s n y) n true) n false := by
    simp only [commitSlot, modSlot, modTsq_eq_setTsq s, modTsq_setTsq, pre, edges, Bool.false_eq_true, if_false, List.nil_append]
    rfl
  have strobe : riseDue (setTsq s n y) n true = setTsq s n ({ y with edges := [] }.rises s.clock (now s) stb) := by
    have one := riseDue_one (s := setTsq s n y) (n := n) (e := stb) (congrArg Tsq.edges (getTsq_setTsq s n y)) due
    rw [getTsq_setTsq] at one
    exact one.trans (modTsq_setTsq s n y _)
  refine ⟨strobedSlots y.slots x.commits (now s), ?_, ?_⟩
  · rw [scheduled, strobe, riseDue_none (by simp [Tsq.rises, stb])]
    have left : ([] : List Edge) = x.edges := edges.symm
    simp only [Tsq.rises, stb, if_true, y, left]
    rfl
  · simp [strobedSlots, y, upd_same, Slot.commit, getSlot, x]

/-! ### The end of a pulse (R183) -/

theorem pulseEndEffect_eq {out : TsqOut} {x : Tsq} (h : getTsq (pulseEndEffect n out s) n = x) :
    pulseEndEffect n out s = setTsq s n x := by
  rw [pulseEndEffect, getTsq_modTsq] at h
  rw [pulseEndEffect, modTsq_eq_setTsq, h]

theorem pulseEndEffect_strobe (s : State) (n : Fin 16) : getTsq (pulseEndEffect n .strobe s) n =
    if (getTsq s n).strobe.active ∧ (getTsq s n).strobe.end_ ≤ s.clock then
      { getTsq s n with strobe := { (getTsq s n).strobe with active := false, pol := tsqStbPol (tsqAct s n) } }
    else getTsq s n := getTsq_modTsq _ _ _

theorem pulseEndEffect_pretrig (s : State) (n : Fin 16) : getTsq (pulseEndEffect n .pretrig s) n =
    if (getTsq s n).pretrig.active ∧ (getTsq s n).pretrig.end_ ≤ s.clock then
      { getTsq s n with pretrig := { (getTsq s n).pretrig with active := false, pol := tsqPrePol (tsqAct s n) } }
    else getTsq s n := getTsq_modTsq _ _ _

theorem pulseEndEffect_expose_none (h : ∀ p ∈ (getTsq s n).expose, s.clock < p.end_) :
    getTsq (pulseEndEffect n .expose s) n = getTsq s n := by
  have ended : ((getTsq s n).expose.any fun p => decide (p.end_ ≤ s.clock)) = false := by simpa using h
  rw [pulseEndEffect, getTsq_modTsq]
  simp only [ended, Bool.false_eq_true, if_false]

/-- The last pulse of EXPOSE ends: the output is inactive and takes the polarity in force. -/
theorem pulseEndEffect_expose_last {p : ExpPulse} (h : (getTsq s n).expose = [p]) (k : p.end_ ≤ s.clock) :
    getTsq (pulseEndEffect n .expose s) n = { getTsq s n with expose := [], exposePol := tsqExpPol (tsqAct s n) } := by
  rw [pulseEndEffect, getTsq_modTsq]
  simp [h, k, Nat.not_lt.2 k]

/-- Settles O34: the opening of a slot, its commit, the edges, and the ends of the pulses, case by case. -/
theorem slotsAndPulses : Obligations.SlotsAndPulses := by
  intro s n i hc q t g sl becomes
  have go (f : State → State) : onSys s f = .next (f s) := onSys_clocked hc f
  have keeps {f : State → State} (h : f s = s) : onSys s f = .next s := (go f).trans (congrArg _ h)
  have ends {out : TsqOut} {x : Tsq} (h : getTsq (pulseEndEffect n out s) n = x) :
      exec (.pulseEnd n out) s = becomes x := (go _).trans (congrArg _ (pulseEndEffect_eq h))
  have still {out : TsqOut} (h : getTsq (pulseEndEffect n out s) n = t) : exec (.pulseEnd n out) s = .next s :=
    (ends h).trans (congrArg _ (setTsq_getTsq s n))
  refine ⟨fun h => keeps (slotOpenEffect_none q h), fun run new room free => ?_, fun h => keeps (slotCommitEffect_none q h),
    fun used opened away => ⟨fun never => ?_, fun I hI => ?_⟩, fun h => keeps (riseDue_none h), fun h => keeps (riseDue_none h),
    fun e h due => ⟨fun k => ?_, fun k => ?_⟩, fun a k => ends ((pulseEndEffect_strobe s n).trans (if_pos ⟨a, k⟩)),
    fun a k => ends ((pulseEndEffect_pretrig s n).trans (if_pos ⟨a, k⟩)), fun h => still ?_, fun h => still ?_,
    fun h => still (pulseEndEffect_expose_none h), fun p h k => ends (pulseEndEffect_expose_last h k)⟩
  · exact (go _).trans (congrArg _ (slotOpenEffect_opens q run new room free))
  · exact keeps ((slotCommitEffect_one q used opened away).trans (by rw [commitDue_never never]; rfl))
  · intro ahead T
    have predicted : predict s n (getSlot s n i).target = some T := by
      simp only [predict, effInterval, show (getTsq s n).interval = some I from hI, Option.map_some]
      rfl
    have one := slotCommitEffect_one q used opened away
    refine ⟨fun early => keeps (one.trans (by rw [commitDue_early predicted early]; rfl)), fun due pre edges => ?_⟩
    have lead : tsqLead (tsqAct s n) = tsqStrobeLead (tsqAct s n) := by simp [tsqLead, show tsqPreEn (tsqAct s n) = false from pre]
    obtain ⟨v, commits, slot⟩ := commitSlot_due (i := i) pre edges (lead ▸ due)
    rw [commitDue_come predicted due] at one
    refine ⟨_, (go _).trans (congrArg _ (one.trans commits)), setTsq_only _ _ _, setTsq_others _ _ _, ?_, ?_⟩
    · rw [setTsq_get]; rfl
    · rw [setTsq_get]; exact slot
  · have one := riseDue_one h due
    rw [k, Tsq.rises, if_pos k] at one
    exact (go _).trans (congrArg _ one)
  · have one := riseDue_one h due
    rw [k, Tsq.rises, if_neg (by simp [k])] at one
    exact (go _).trans (congrArg _ one)
  · exact (pulseEndEffect_strobe s n).trans (if_neg fun ⟨a, k⟩ => h.elim (ne_true_of_eq_false · a) (Nat.not_lt.2 k))
  · exact (pulseEndEffect_pretrig s n).trans (if_neg fun ⟨a, k⟩ => h.elim (ne_true_of_eq_false · a) (Nat.not_lt.2 k))

end Sys2Proof.Machine
end

section
/-! Exposures that are released or cancelled (O35): a post to a ring (R277, R279), the ghost record of a cancellation (R198), the release of
an exposure (R193 to R197), and the end of a hold window (R195). -/

namespace Sys2Proof.Machine

variable {s u : State} {n : Fin 16} {i : Fin 64} {x y z : Tsq} {r : Fin 1024} {reason : Nat} {T : Int}

/-! ### A post to a ring (R277, R279) -/

theorem ringPost_stored (on : ringOn (getRing s r) = true) (room : ringFull (getRing s r) = false) (bs : List Byte) :
    (ringPost s r bs).1 = true ∧
      (ringPost s r bs).2.dm = memWriteBytes s.dm (entryAt (getRing s r) (getRing s r).pi) bs := by
  simp only [ringPost, on, room, Bool.not_false, Bool.and_self, if_true, true_and]
  exact (joinTurn_moves _ r (Moves.refl [.qe] _) (by decide)).only .dm (by decide)

/-- A disabled ring is handled as a full one (R279). -/
theorem ringPost_lost (h : ringOn (getRing s r) = false ∨ ringFull (getRing s r) = true) (bs : List Byte) :
    ringPost s r bs = (false, s.modRing r fun g => { g with full := g.full + 1 }) := by
  refine if_neg fun k => ?_
  simp only [Bool.and_eq_true, Bool.not_eq_true'] at k
  rcases h with h | h
  · exact absurd k.1 (by simp [h])
  · exact absurd k.2 (by simp [h])

theorem getRing_ghostRing (s : State) (n : Fin 16) : getRing s (ghostRing n) = s.qe.rings[16 + n.val] := by
  have place : (ghostRing n).val = 16 + n.val := Nat.mod_eq_of_lt (by omega)
  simp only [getRing, place]

/-! ### A slot that becomes FREE -/

/-- In sequencer z slot i is FREE, and every other slot is in the state that it has in x. -/
structure Tsq.Frees (x z : Tsq) (i : Fin 64) : Prop where
  free : z.slots[i.val] = Slot.init
  others : ∀ j, j ≠ i → z.slots[j.val].st = x.slots[j.val].st

/-- The only COMMITTED slot becomes FREE: none is left. -/
theorem Tsq.Frees.slotsIn_nil (h : (getTsq s n).Frees (getTsq u n) i) (one : slotsIn s n .committed = [i]) :
    slotsIn u n .committed = [] := by
  refine slotsIn_eq_nil_iff.2 fun j hj => ?_
  by_cases k : j = i
  · have free : (getSlot u n j).st = .free := by rw [k]; exact congrArg Slot.st h.free
    rw [free] at hj
    cases hj
  · have mem : j ∈ slotsIn s n .committed := mem_slotsIn.2 ((h.others j k).symm.trans hj)
    rw [one] at mem
    exact k (List.mem_singleton.1 mem)

theorem upd_frees (same : ∀ j : Fin 64, y.slots[j.val].st = x.slots[j.val].st) (slots : z.slots = upd y.slots i fun _ => Slot.init) :
    x.Frees z i := by
  refine ⟨?_, fun j hj => ?_⟩
  · rw [slots, upd_same]
  · rw [slots, upd_other _ _ _ _ (Ne.symm hj)]
    exact same j

/-! ### Cancellation (R198) -/

/-- The ghost record of slot i posted for a reason; whether it was stored. -/
def ghostPost (s : State) (n : Fin 16) (reason : Nat) (i : Fin 64) : Bool × State :=
  ringPost s (ghostRing n) (ghostBytes s n (getSlot s n i) reason)

/-- Sequencer x after the exposure of slot i was cancelled at count t of the clock. -/
def Tsq.cancelled (x : Tsq) (i : Fin 64) (t : Nat) (stored : Bool) : Tsq :=
  { x with
    slots := upd x.slots i fun _ => Slot.init, cntGhost := x.cntGhost + 1, lineBoundary := some t
    cntGhostLost := if stored then x.cntGhostLost else x.cntGhostLost + 1
    flags := if stored then x.flags.set 0 else (x.flags.set 0).set 5 }

theorem ghostPost_only (s : State) (n : Fin 16) (reason : Nat) (i : Fin 64) : Only [.qe, .dm] s (ghostPost s n reason i).2 :=
  (ringPost_moves s _ _ (Moves.refl _ s) (by decide)).only

theorem giveBack_only (s : State) (n : Fin 16) (slot : Option (Fin 64)) (res : ResState) : Only [.pw] s (giveBack s n slot res) :=
  (giveBack_moves s n slot res (Moves.refl _ s) (by decide)).only

/-- Nothing goes back for a reservation that is refused or was never asked. -/
theorem giveBack_absent {res : ResState} (h : res = .refused ∨ res = .none) (slot : Option (Fin 64)) : giveBack s n slot res = s := by
  rcases h with h | h <;> rw [h] <;> rfl

theorem cancelSlot_eq (s : State) (n : Fin 16) (reason : Nat) (i : Fin 64) : cancelSlot s n reason i =
    (giveBack (ghostPost s n reason i).2 n (some i) (getSlot s n i).res).modTsq n fun x =>
      x.cancelled i s.clock (ghostPost s n reason i).1 := by
  have clock : (giveBack (ghostPost s n reason i).2 n (some i) (getSlot s n i).res).clock = s.clock :=
    (giveBack_only _ _ _ _ .clock (by decide)).trans (ghostPost_only s n reason i .clock (by decide))
  rw [← clock]
  exact modTsq_modTsq _ _ _ _

theorem cancelSlot_tsq (s : State) (n : Fin 16) (reason : Nat) (i : Fin 64) : (cancelSlot s n reason i).tsq =
    upd s.tsq n fun x => x.cancelled i s.clock (ghostPost s n reason i).1 := by
  have tsq : (giveBack (ghostPost s n reason i).2 n (some i) (getSlot s n i).res).tsq = s.tsq :=
    (giveBack_only _ _ _ _ .tsq (by decide)).trans (ghostPost_only s n reason i .tsq (by decide))
  rw [cancelSlot_eq, ← tsq]
  rfl

theorem cancelSlot_frees (s : State) (n : Fin 16) (reason : Nat) (i : Fin 64) :
    (getTsq s n).Frees (getTsq (cancelSlot s n reason i) n) i := by
  have mine : getTsq (cancelSlot s n reason i) n = (getTsq s n).cancelled i s.clock (ghostPost s n reason i).1 := by
    rw [getTsq, cancelSlot_tsq, upd_same]; rfl
  rw [mine]
  exact upd_frees (y := getTsq s n) (fun _ => rfl) rfl

section
variable (absent : (getSlot s n i).res = .refused ∨ (getSlot s n i).res = .none)
include absent

/-- A cancellation whose ghost record is stored. -/
theorem cancelSlot_stored (on : ringOn (getRing s (ghostRing n)) = true) (room : ringFull (getRing s (ghostRing n)) = false) :
    Only [.tsq, .qe, .dm] s (cancelSlot s n reason i) ∧
      (cancelSlot s n reason i).tsq = (upd s.tsq n fun x => x.cancelled i s.clock true) ∧
      (cancelSlot s n reason i).dm =
        memWriteBytes s.dm (entryAt (getRing s (ghostRing n)) (getRing s (ghostRing n)).pi) (ghostBytes s n (getSlot s n i) reason) := by
  obtain ⟨stored, dm⟩ := ringPost_stored on room (ghostBytes s n (getSlot s n i) reason)
  have eq := cancelSlot_eq s n reason i
  rw [giveBack_absent absent] at eq
  refine ⟨?_, ?_, ?_⟩
  · rw [eq]
    exact ((ringPost_moves s _ _ (Moves.refl _ s) (by decide)).modTsq (by decide) n _).only
  · rw [cancelSlot_tsq, show (ghostPost s n reason i).1 = true from stored]
  · rw [eq]
    exact dm

/-- A cancellation whose ghost record is lost. -/
theorem cancelSlot_lost (h : ringOn (getRing s (ghostRing n)) = false ∨ ringFull (getRing s (ghostRing n)) = true) :
    Only [.tsq, .qe] s (cancelSlot s n reason i) ∧
      (cancelSlot s n reason i).tsq = upd s.tsq n fun x => x.cancelled i s.clock false := by
  have lost : ghostPost s n reason i = (false, s.modRing (ghostRing n) fun g => { g with full := g.full + 1 }) := ringPost_lost h _
  have eq := cancelSlot_eq s n reason i
  rw [giveBack_absent absent, lost] at eq
  refine ⟨?_, ?_⟩
  · rw [eq]
    exact (((Moves.refl _ s).modRing (by decide) _ _).modTsq (by decide) n _).only
  · rw [cancelSlot_tsq, lost]

end

theorem cancelWhere_none (h : slotsIn s n .committed = []) (p : Slot → Bool) : cancelWhere s n reason p = s := by
  simp only [cancelWhere, h, List.filter_nil, forEach, List.foldl_nil]

theorem cancelWhere_one (h : slotsIn s n .committed = [i]) (p : Slot → Bool) :
    cancelWhere s n reason p = if p (getSlot s n i) then cancelSlot s n reason i else s := by
  cases k : p (getSlot s n i) <;> simp [cancelWhere, h, k, forEach]

/-! ### Release (R193 to R197) -/

/-- What edges that rise leave alone: every slot but the tick of its STROBE, EXPOSE, and the count of the releases. -/
structure Tsq.RiseKeeps (x y : Tsq) : Prop where
  slot : ∀ j : Fin 64, y.slots[j.val] = { x.slots[j.val] with strobeAt := y.slots[j.val].strobeAt }
  expose : y.expose = x.expose
  cntFired : y.cntFired = x.cntFired

theorem Tsq.RiseKeeps.refl (x : Tsq) : x.RiseKeeps x := ⟨fun _ => rfl, rfl, rfl⟩

theorem Tsq.RiseKeeps.trans (h : x.RiseKeeps y) (k : y.RiseKeeps z) : x.RiseKeeps z :=
  ⟨fun j => by rw [k.slot j, h.slot j], k.expose.trans h.expose, k.cntFired.trans h.cntFired⟩

theorem Tsq.rises_keeps (x : Tsq) (t : Nat) (tick : Int) (e : Edge) : x.RiseKeeps (x.rises t tick e) := by
  unfold Tsq.rises
  split
  · refine ⟨fun j => ?_, rfl, rfl⟩
    simp only [strobedSlots, Vector.getElem_map]
    split <;> rfl
  · exact ⟨fun _ => rfl, rfl, rfl⟩

theorem riseEdges_keeps (s : State) (n : Fin 16) (p : Edge → Bool) :
    ∃ y, riseEdges s n p = setTsq s n y ∧ (getTsq s n).RiseKeeps y := by
  have rise (l : List Edge) (x : Tsq) : ∃ y, forEach l (fun e s => riseEdge s n e) (setTsq s n x) = setTsq s n y ∧ x.RiseKeeps y := by
    induction l generalizing x with
    | nil => exact ⟨x, rfl, .refl x⟩
    | cons e l ih =>
      obtain ⟨y, eq, keeps⟩ := ih (x.rises s.clock (now s) e)
      refine ⟨y, ?_, (x.rises_keeps _ _ _).trans keeps⟩
      rw [← eq, forEach, List.foldl_cons, riseEdge_eq, getTsq_setTsq]
      exact congrArg (List.foldl _ · l) (modTsq_setTsq s n x _)
  obtain ⟨y, eq, keeps⟩ := rise ((getTsq s n).edges.filter p) { getTsq s n with edges := (getTsq s n).edges.filter fun e => !p e }
  refine ⟨y, ?_, keeps.slot, keeps.expose, keeps.cntFired⟩
  rw [← eq, riseEdges, modTsq_eq_setTsq]

/-- Sequencer x after the exposure of slot i was released at count t of the clock, marked SHORT_LEAD or NORES where it is so (R194,
R199). -/
def Tsq.fired (x : Tsq) (i : Fin 64) (t : Nat) (short nores : Bool) : Tsq :=
  { x with
    slots := upd x.slots i fun _ => Slot.init, expose := x.expose ++ [⟨t + 3, t + 3 + x.slots[i.val].expWidth⟩]
    lineBoundary := some t, cntFired := x.cntFired + 1, cntShort := if short then x.cntShort + 1 else x.cntShort
    cntNores := if nores then x.cntNores + 1 else x.cntNores, flags := (x.flags.setIf short 1).setIf nores 2 }

theorem takeRelease_tsq (s : State) (n : Fin 16) (rel : Release) : (takeRelease s n rel).tsq = s.tsq :=
  (takeRelease_moves s n rel (Moves.refl _ s) fun _ h => h).only .tsq (by decide)

/-- The exposure is released while EXPOSE is not active in the tick of its rise (R195, R196). -/
theorem releaseSlot_tsq (h : exposeBusy (getTsq s n) (s.clock + 3) = false) : ∃ y short nores, (getTsq s n).RiseKeeps y ∧
    (releaseSlot s n i).tsq = (setTsq s n (y.fired i s.clock short nores)).tsq := by
  obtain ⟨y, rises, keeps⟩ := riseEdges_keeps s n fun e => e.no == (getSlot s n i).no
  have slot : getSlot (setTsq s n y) n i = y.slots[i.val] := by rw [getSlot, getTsq_setTsq]
  let w := if y.slots[i.val].res = .waiting then giveBack (setTsq s n y) n (some i) .waiting else setTsq s n y
  have only : Only [.pw] (setTsq s n y) w := by
    unfold w; split
    · exact giveBack_only _ _ _ _
    · exact Only.refl _ _
  obtain ⟨short, nores, rel, eq⟩ : ∃ short nores rel, releaseSlot s n i = takeRelease ((freeSlotAt w n i).modTsq n fun x =>
      { x with
        expose := x.expose ++ [⟨s.clock + 3, s.clock + 3 + y.slots[i.val].expWidth⟩], lineBoundary := some w.clock
        cntFired := x.cntFired + 1, cntShort := if short then x.cntShort + 1 else x.cntShort
        cntNores := if nores then x.cntNores + 1 else x.cntNores, flags := (x.flags.setIf short 1).setIf nores 2 }) n rel := by
    simp only [releaseSlot, h, Bool.false_eq_true, if_false, rises, slot]
    exact ⟨_, _, _, rfl⟩
  have mine : getTsq w n = y := (getTsq_congr (only .tsq (by decide))).trans (getTsq_setTsq s n y)
  have clock : w.clock = s.clock := only .clock (by decide)
  refine ⟨y, short, nores, keeps, ?_⟩
  rw [eq, takeRelease_tsq, freeSlotAt, modSlot, modTsq_modTsq, modTsq_eq_setTsq, mine, clock]
  exact setTsq_tsq_congr (only .tsq (by decide)) _

/-- A release counts, ends the line, schedules EXPOSE three ticks later and leaves its slot FREE (R194, R195, R202). -/
theorem releaseSlot_fires (h : exposeBusy (getTsq s n) (s.clock + 3) = false) :
    let x := getTsq s n
    let z := getTsq (releaseSlot s n i) n
    Others n s.tsq (releaseSlot s n i).tsq ∧ x.Frees z i ∧ z.cntFired = x.cntFired + 1 ∧ z.lineBoundary = some s.clock ∧
      z.expose = x.expose ++ [⟨s.clock + 3, s.clock + 3 + x.slots[i.val].expWidth⟩] := by
  intro x z
  obtain ⟨y, short, nores, keeps, tsq⟩ := releaseSlot_tsq (i := i) h
  have mine : z = y.fired i s.clock short nores := (getTsq_congr tsq).trans (getTsq_setTsq s n _)
  have frees : x.Frees z i := mine ▸ upd_frees (fun j => by rw [keeps.slot j]) rfl
  refine ⟨tsq ▸ setTsq_others s n _, frees, ?_, ?_, ?_⟩ <;> rw [mine]
  · exact congrArg (· + 1) keeps.cntFired
  · rfl
  · have width : y.slots[i.val].expWidth = x.slots[i.val].expWidth := by rw [keeps.slot i]
    rw [← width, ← keeps.expose]
    rfl

theorem releaseSlot_busy (h : exposeBusy (getTsq s n) (s.clock + 3) = true) : releaseSlot s n i = cancelSlot s n reasonBusy i := if_pos h

theorem releaseSlot_frees (s : State) (n : Fin 16) (i : Fin 64) : (getTsq s n).Frees (getTsq (releaseSlot s n i) n) i := by
  cases h : exposeBusy (getTsq s n) (s.clock + 3) with
  | false => exact (releaseSlot_fires h).2.1
  | true => rw [releaseSlot_busy h]; exact cancelSlot_frees s n reasonBusy i

/-! ### The end of a hold window (R195) -/

theorem holdExpiryEffect_none (q : (getTsq s n).steps = []) (h : slotsIn s n .committed = []) : holdExpiryEffect n s = s := by
  have gate : gateCommitted s n = s := by simp only [gateCommitted, h, forEach, List.foldl_nil]
  rw [holdExpiryEffect, settleSteps_none q, gate, cancelWhere_none h]

section
variable (q : (getTsq s n).steps = []) (one : slotsIn s n .committed = [i]) (tExp : (getSlot s n i).tExp = some T)
include q one tExp

/-- The target is reached within the hold window: the exposure is released, and no other waits. -/
theorem holdExpiryEffect_released (r : reached (getSlot s n i).rev (gatePos s (getSlot s n i).src) (getSlot s n i).target = true)
    (k : (now s : Int) ≤ T + (getSlot s n i).hold) : holdExpiryEffect n s = releaseSlot s n i := by
  have gate : gateCommitted s n = releaseSlot s n i := by
    simp [gateCommitted, one, forEach, gateSlot, getSlot_of_slotsIn one, r, tExp, k]
  rw [holdExpiryEffect, settleSteps_none q, gate, cancelWhere_none ((releaseSlot_frees s n i).slotsIn_nil one)]

/-- The target is not reached: after the hold window the exposure is cancelled. -/
theorem holdExpiryEffect_away (r : reached (getSlot s n i).rev (gatePos s (getSlot s n i).src) (getSlot s n i).target = false) :
    holdExpiryEffect n s = if T + (getSlot s n i).hold < (now s : Int) then cancelSlot s n reasonHold i else s := by
  have gate : gateCommitted s n = s := by
    simp [gateCommitted, one, forEach, gateSlot, getSlot_of_slotsIn one, r]
  simp only [holdExpiryEffect, settleSteps_none q, gate, cancelWhere_one one, tExp, Option.getD_some, decide_eq_true_eq]

end

end Sys2Proof.Machine
end

section
/-! Stops and commits of a sequencer (O35): OPEN slots squashed (R191), the stop count, the predictor view of a follower (R348), and the
group applied at its safe point (R202). -/

namespace Sys2Proof.Machine

variable {s : State} {n : Fin 16} {i : Fin 64} {h : Fin 4} {x : Tsq}

/-! ### OPEN slots squashed (R188, R191) -/

/-- Sequencer x with its history emptied at count t of the clock, where the predictor view shows p (R188). -/
def Tsq.emptied (x : Tsq) (p : Word) (t : Nat) : Tsq := { x with hist := [], interval := none, frontier := p, stopFrom := t }

theorem emptyHist_eq (s : State) (n : Fin 16) :
    emptyHist s n = setTsq s n ((getTsq s n).emptied (predPos s (tsqSrc (tsqAct s n))) s.clock) := modTsq_eq_setTsq _ _ _

theorem emptyHist_setTsq (s : State) (n : Fin 16) (x : Tsq) :
    emptyHist (setTsq s n x) n = setTsq s n (x.emptied (predPos s (tsqSrc x.group.active)) s.clock) := by
  rw [emptyHist_eq, getTsq_setTsq, tsqAct_setTsq]
  exact modTsq_setTsq s n x _

theorem squashAll_none (opened : slotsIn s n .open_ = []) : squashAll s n = emptyHist s n := by
  rw [squashAll, opened, squashList]

/-- The only OPEN slot, whose reservation was refused, is squashed: its target and identity are opened again (R191). -/
theorem squashAll_one (opened : slotsIn s n .open_ = [i]) (refused : (getSlot s n i).res = .refused) :
    squashAll s n = emptyHist (setTsq s n { getTsq s n with
      slots := upd (getTsq s n).slots i fun _ => Slot.init, cntSquash := (getTsq s n).cntSquash + 1
      nextId := (getSlot s n i).id, nextTarget := (getSlot s n i).target }) n := by
  rw [squashAll, opened]
  simp only [squashList, forEach, List.foldl_cons, List.foldl_nil, squashSlot, giveBack_absent (.inl refused), freeSlotAt, modSlot,
    modTsq_eq_setTsq s, modTsq_setTsq]

/-! ### The stop count (R191) -/

theorem stopDue_iff : stopDue s n = true ↔ tsqEn (tsqAct s n) = true ∧ tsqStop (tsqAct s n) ≠ 0 ∧ gangOdd s n = false ∧
    (getTsq s n).retired = false ∧ (getTsq s n).stopped = false ∧ (getTsq s n).srcWait = false ∧ (getTsq s n).herdWait = false ∧
    (getTsq s n).stopFrom + tsqStop (tsqAct s n) ≤ s.clock := by
  simp [stopDue, tsqAct, and_assoc]

theorem stopExpiryEffect_early (q : (getTsq s n).steps = []) (h : ¬stopDue s n = true) : stopExpiryEffect n s = s := by
  rw [stopExpiryEffect, settleSteps_none q]
  exact if_neg h

theorem stopExpiryEffect_due (q : (getTsq s n).steps = []) (h : stopDue s n = true) : stopExpiryEffect n s =
    (squashAll s n).modTsq n fun x => { x with stopped := true, flags := x.flags.set 3 } := by
  rw [stopExpiryEffect, settleSteps_none q]
  exact if_pos h

/-! ### The predictor view of a follower (R348) -/

theorem predictorEntryEffect_none (early : ∀ e ∈ (getRem s h).waiting, now s < e.at_) : predictorEntryEffect h s = s := by
  have due : ((getRem s h).waiting.filter fun e => decide (e.at_ ≤ now s)) = [] := by simpa using early
  have rest : ((getRem s h).waiting.filter fun e => decide (now s < e.at_)) = (getRem s h).waiting := by simpa using early
  have same : upd s.tbe.rem h (fun r => { r with waiting := r.waiting.filter fun e => decide (now s < e.at_) }) = s.tbe.rem :=
    upd_id _ _ _ (congrArg (fun l => { getRem s h with waiting := l }) rest)
  simp only [predictorEntryEffect, due, forEach, List.foldl_nil, State.modRem, State.modTbe, same]

/-- One position enters the predictor view; beside it only the histories of the sequencers change. -/
theorem predictorEntryEffect_one {e : PredEntry} {rest : List PredEntry} (waits : (getRem s h).waiting = e :: rest)
    (come : e.at_ ≤ now s) (early : ∀ e ∈ rest, now s < e.at_) : (predictorEntryEffect h s).tbe =
      { s.tbe with rem := upd s.tbe.rem h fun r => { r with waiting := rest, predPos := e.pos } } := by
  have due : ((getRem s h).waiting.filter fun e => decide (e.at_ ≤ now s)) = [e] := by
    rw [waits, List.filter_cons_of_pos (by simpa using come)]
    simpa using early
  have left : ((getRem s h).waiting.filter fun e => decide (now s < e.at_)) = rest := by
    rw [waits, List.filter_cons_of_neg (by simpa using come)]
    simpa using early
  obtain ⟨l, eq⟩ : ∃ l, predictorEntryEffect h s = forEach l (fun n s => predCount s n e.pos e.stamp)
      ((s.modRem h fun r => { r with waiting := r.waiting.filter fun e => decide (now s < e.at_) }).modRem h
        fun r => { r with predPos := e.pos }) := by
    simp only [predictorEntryEffect, due, forEach, List.foldl_cons, List.foldl_nil]
    exact ⟨_, rfl⟩
  have counts (w : State) : (forEach l (fun n s => predCount s n e.pos e.stamp) w).tbe = w.tbe :=
    (Moves.each (Moves.refl [.tsq] w) fun n v k => predCount_moves v n _ _ k (by decide)).only .tbe (by decide)
  rw [eq, counts]
  simp only [State.modRem, State.modTbe, upd_upd]
  refine congrArg (fun v => { s.tbe with rem := v }) (upd_congr _ _ _ _ ?_)
  exact congrArg (fun l => { getRem s h with waiting := l, predPos := e.pos }) left

/-! ### What leaves the group of a sequencer -/

theorem squashSlot_group (s : State) (n : Fin 16) (i : Fin 64) : (getTsq (squashSlot s n i) n).group = (getTsq s n).group := by
  have given : getTsq (giveBack s n (some i) (getSlot s n i).res) n = getTsq s n :=
    getTsq_congr (giveBack_only _ _ _ _ .tsq (by decide))
  simp only [squashSlot, freeSlotAt, modSlot, getTsq_modTsq, given]

theorem squashList_group (s : State) (n : Fin 16) (l : List (Fin 64)) : (getTsq (squashList s n l) n).group = (getTsq s n).group := by
  have each (l : List (Fin 64)) (w : State) :
      (getTsq (forEach l (fun i s => squashSlot s n i) w) n).group = (getTsq w n).group := by
    induction l generalizing w with
    | nil => rfl
    | cons i l ih => exact (ih _).trans (squashSlot_group w n i)
  cases l with
  | nil => rfl
  | cons i l => simp only [squashList, getTsq_modTsq, each]

theorem emptyHist_group (s : State) (n : Fin 16) : (getTsq (emptyHist s n) n).group = (getTsq s n).group := by
  simp only [emptyHist, getTsq_modTsq]

theorem squashAll_group (s : State) (n : Fin 16) : (getTsq (squashAll s n) n).group = (getTsq s n).group :=
  (emptyHist_group _ n).trans (squashList_group s n _)

theorem anchor_group (s : State) (n : Fin 16) : (getTsq (anchor s n) n).group = (getTsq s n).group := by
  unfold anchor anchorNow
  dsimp only
  split
  · rfl
  split
  · simp only [getTsq_modTsq, emptyHist_group]
  split
  · simp only [getTsq_modTsq, emptyHist_group]
  · simp only [getTsq_modTsq, emptyHist_group]

theorem applyPols_group (s : State) (n : Fin 16) : (getTsq (applyPols s n) n).group = (getTsq s n).group := by
  simp only [applyPols, getTsq_modTsq]

theorem applyChanges_group (s : State) (n : Fin 16) (old g : TsqGroup) :
    (getTsq (applyChanges s n old g) n).group = (getTsq s n).group := by
  have waits (w : State) : (getTsq (w.modTsq n fun x =>
      if tsqHerd old != tsqHerd g then { x with herdWait := tsqHerdEn g } else x) n).group = (getTsq w n).group := by
    rw [getTsq_modTsq]
    split <;> rfl
  unfold applyChanges trimDepth
  dsimp only
  simp only [squashList_group, getTsq_modTsq]
  split
  · split
    · rw [getTsq_modTsq]
      exact (waits _).trans (squashAll_group s n)
    · exact (anchor_group _ n).trans ((waits _).trans (squashAll_group s n))
  · rfl

/-! ### The group applied at its safe point (R202) -/

theorem tsqSafe_iff : tsqSafe s n = true ↔ (getTsq s n).group.pending = true ∧ 1 ≤ (getTsq s n).group.wait ∧
    ((getTsq s n).lineBoundary = some s.clock ∨ slotsIn s n .committed = []) := by
  simp [tsqSafe, and_assoc]

theorem tsqCommitEffect_early (q : (getTsq s n).steps = []) (h : ¬tsqSafe s n = true) : tsqCommitEffect n s = s := by
  rw [tsqCommitEffect, settleSteps_none q]
  exact if_neg h

/-- STROBE, PRETRIG and EXPOSE of sequencer x are inactive, and EXPOSE is not scheduled. -/
structure Tsq.Quiet (x : Tsq) : Prop where
  strobe : x.strobe.active = false
  pretrig : x.pretrig.active = false
  expose : x.expose = []

/-- Sequencer x with its group applied and the polarities of the new group at its outputs (R183, R202). -/
def Tsq.polled (x : Tsq) : Tsq :=
  { x with
    group := x.group.apply, strobe := { x.strobe with pol := tsqStbPol x.group.shadow }
    pretrig := { x.pretrig with pol := tsqPrePol x.group.shadow }, exposePol := tsqExpPol x.group.shadow }

/-- Sequencer n takes its group, and its outputs the polarities of that group. -/
def tsqTakesGroup (s : State) (n : Fin 16) : State := applyPols (s.modTsq n fun x => { x with group := x.group.apply }) n

theorem tsqTakesGroup_setTsq (h : x.Quiet) : tsqTakesGroup (setTsq s n x) n = setTsq s n x.polled := by
  simp only [tsqTakesGroup, applyPols, modTsq_setTsq, tsqAct_setTsq, Tsq.polled, h.strobe, h.pretrig, h.expose, List.any_nil,
    Bool.false_eq_true, if_false]
  rfl

theorem tsqTakesGroup_quiet (h : (getTsq s n).Quiet) : tsqTakesGroup s n = setTsq s n (getTsq s n).polled := by
  have eq := tsqTakesGroup_setTsq (s := s) (n := n) h
  rwa [setTsq_getTsq] at eq

theorem tsqTakesGroup_group (s : State) (n : Fin 16) : (getTsq (tsqTakesGroup s n) n).group = (getTsq s n).group.apply :=
  (applyPols_group _ n).trans (congrArg Tsq.group (getTsq_modTsq s n _))

/-- What a commit does whose safe point has come, by EN before and after it. -/
theorem tsqCommitEffect_safe (q : (getTsq s n).steps = []) (safe : tsqSafe s n = true) : tsqCommitEffect n s =
    let old := tsqAct s n
    let new := (getTsq s n).group.shadow
    let taken := tsqTakesGroup (if tsqEn old && !tsqEn new then squashAll s n else s) n
    if tsqEn old && tsqEn new then applyChanges taken n old new
    else if !tsqEn old && tsqEn new then (if gangOdd taken n then taken else enableTsq taken n)
    else if tsqEn old then taken.modTsq n fun x => { x with stopped := false, srcWait := false, herdWait := false }
    else taken := by
  have shadow : (getTsq (if tsqEn (tsqAct s n) && !tsqEn (getTsq s n).group.shadow then squashAll s n else s) n).group.shadow =
      (getTsq s n).group.shadow := by
    split
    · rw [squashAll_group]
    · rfl
  have act (w : State) : tsqAct (w.modTsq n fun x => { x with group := x.group.apply }) n = (getTsq w n).group.shadow := by
    rw [tsqAct, getTsq_modTsq]; rfl
  simp only [tsqCommitEffect, settleSteps_none q, safe, if_true, act, shadow]
  rfl

section
variable (q : (getTsq s n).steps = []) (safe : tsqSafe s n = true)
include q safe

/-- A sequencer that stays disabled takes its group alone. -/
theorem tsqCommitEffect_disabled (old : tsqEn (tsqAct s n) = false) (new : tsqEn (getTsq s n).group.shadow = false) :
    tsqCommitEffect n s = tsqTakesGroup s n := by
  simp [tsqCommitEffect_safe q safe, old, new]

/-- A sequencer that is disabled squashes its OPEN slots first, and waits for nothing any more. -/
theorem tsqCommitEffect_disables (old : tsqEn (tsqAct s n) = true) (new : tsqEn (getTsq s n).group.shadow = false) :
    tsqCommitEffect n s = (tsqTakesGroup (squashAll s n) n).modTsq n fun x =>
      { x with stopped := false, srcWait := false, herdWait := false } := by
  simp [tsqCommitEffect_safe q safe, old, new]

theorem tsqCommitEffect_enables (old : tsqEn (tsqAct s n) = false) (new : tsqEn (getTsq s n).group.shadow = true)
    (odd : gangOdd s n = false) : tsqCommitEffect n s = enableTsq (tsqTakesGroup s n) n := by
  have odd' : gangOdd (tsqTakesGroup s n) n = false := odd
  simp [tsqCommitEffect_safe q safe, old, new, odd']

theorem tsqCommitEffect_enabled (old : tsqEn (tsqAct s n) = true) (new : tsqEn (getTsq s n).group.shadow = true) :
    tsqCommitEffect n s = applyChanges (tsqTakesGroup s n) n (tsqAct s n) (getTsq s n).group.shadow := by
  simp [tsqCommitEffect_safe q safe, old, new]

/-- A commit of a sequencer that stays enabled applies the group, whatever else it changes of the slots and targets. -/
theorem tsqCommitEffect_keeps_en (old : tsqEn (tsqAct s n) = true) (new : tsqEn (getTsq s n).group.shadow = true) :
    Only [.tsq, .pw] s (tsqCommitEffect n s) ∧ (getTsq (tsqCommitEffect n s) n).group = (getTsq s n).group.apply := by
  have taken : Moves [.tsq, .pw] s (tsqTakesGroup s n) :=
    applyPols_moves _ _ ((Moves.refl _ s).modTsq (by decide) n _) (by decide)
  rw [tsqCommitEffect_enabled q safe old new]
  exact ⟨(applyChanges_moves _ _ _ _ taken fun _ h => h).only,
    (applyChanges_group _ n _ _).trans (tsqTakesGroup_group s n)⟩

end

/-! ### EN that becomes active (R186, R203) -/

/-- The first target of a sequencer with group g whose source stands at p: ORIGIN, or one PITCH from where it stands (R186). -/
def firstTarget (g : TsqGroup) (p : Word) : BitVec 48 := if tsqAnchorBit g then fix g.origin else nextAfter g (fix p)

/-- A sequencer outside gangs and herds is anchored as EN becomes active, or waits for its source (R186, R203). -/
theorem enableTsq_alone (odd : gangOdd s n = false) (herd : tsqHerdEn x.group.active = false) (enc : tsqSrc x.group.active < 8) :
    let src := tsqSrc x.group.active
    let y := { x.emptied (gatePos s src) s.clock with nextId := 0, stopped := false, herdWait := false, lastCommit := none }
    enableTsq (setTsq s n x) n = setTsq s n (if srcUsable s src then
      { y with srcWait := false, nextTarget := firstTarget x.group.active (gatePos s src) } else { y with srcWait := true }) := by
  intro src y
  have odd' (z : Tsq) : gangOdd (setTsq s n z) n = false := odd
  have usable (z : Tsq) : srcUsable (setTsq s n z) src = srcUsable s src := rfl
  have gate (z : Tsq) : gatePos (setTsq s n z) src = gatePos s src := rfl
  have view : predPos s src = gatePos s src := if_neg fun k => absurd k.1 (Nat.not_le.2 enc)
  cases u : srcUsable s src <;>
    simp [enableTsq, anchor, anchorNow, emptyHist_setTsq, odd', herd, src, u, usable, gate, view, y, Tsq.emptied, firstTarget]

/-- Settles O35: the hold window, the stop count, the predictor view, and the commit by EN before and after it, case by case. -/
theorem releasesAndStops : Obligations.ReleasesAndStops := by
  intro s n i h hc q t g sl becomes applied new ring cancelled ghost emptied stopDue r
  have go (f : State → State) : onSys s f = .next (f s) := onSys_clocked hc f
  have keeps {f : State → State} (h : f s = s) : onSys s f = .next s := (go f).trans (congrArg _ h)
  have isRing : getRing s (ghostRing n) = ring := getRing_ghostRing s n
  have ghosts {reason : Nat} (eq : holdExpiryEffect n s = cancelSlot s n reason i) (absent : sl.res = .refused ∨ sl.res = .none) :
      ghost reason := by
    refine ⟨fun on room => ?_, fun lost => ?_⟩
    · obtain ⟨only, tsq, dm⟩ := cancelSlot_stored (reason := reason) absent (isRing ▸ on) (isRing ▸ room)
      exact ⟨_, (go _).trans (congrArg _ eq), only, tsq.trans (upd_congr _ _ _ _ rfl), isRing ▸ dm⟩
    · obtain ⟨only, tsq⟩ := cancelSlot_lost (reason := reason) absent (isRing ▸ lost)
      exact ⟨_, (go _).trans (congrArg _ eq), only, tsq.trans (upd_congr _ _ _ _ rfl)⟩
  have due : Machine.stopDue s n = true ↔ stopDue := stopDue_iff
  have safe : tsqSafe s n = true ↔ t.group.pending = true ∧ 1 ≤ t.group.wait ∧
      (t.lineBoundary = some s.clock ∨ slotsIn s n .committed = []) := tsqSafe_iff
  refine ⟨fun used => keeps (holdExpiryEffect_none q (slotsIn_of_slotsUsed_nil used (by decide))),
    fun used one T tExp => ⟨fun reaches inTime => ?_, fun away => ⟨fun inTime => ?_, fun late => ?_⟩⟩,
    fun k => keeps (stopExpiryEffect_early q (mt due.1 k)), fun k opened => ?_, fun k opened refused => ?_,
    fun early => keeps (predictorEntryEffect_none early), fun e rest waits come early => ?_, fun k => ?_,
    fun pending wait boundary strobe pretrig expose => ?_, ?_⟩
  · have released := holdExpiryEffect_released q one tExp reaches inTime
    intro busy
    have isBusy : exposeBusy (getTsq s n) (s.clock + 3) = true ↔ busy := by
      simp [exposeBusy, busy, t, getTsq]
    refine ⟨fun b => ghosts (released.trans (releaseSlot_busy (isBusy.2 b))), fun idle => ?_⟩
    obtain ⟨others, frees, fired, boundary, expose⟩ := releaseSlot_fires (i := i) (Bool.eq_false_iff.2 (mt isBusy.1 idle))
    exact ⟨_, (go _).trans (congrArg _ released), (releaseSlot_moves s n i (Moves.refl _ s) fun _ h => h).only, others, fired, frees.free,
      boundary, expose⟩
  · exact keeps ((holdExpiryEffect_away q one tExp away).trans (if_neg (Int.not_lt.2 inTime)))
  · exact ghosts ((holdExpiryEffect_away q one tExp away).trans (if_pos late))
  · refine (go _).trans (congrArg _ ((stopExpiryEffect_due q (due.2 k)).trans ?_))
    rw [squashAll_none opened, emptyHist_eq, modTsq_setTsq]
    rfl
  · refine (go _).trans (congrArg _ ((stopExpiryEffect_due q (due.2 k)).trans ?_))
    rw [squashAll_one opened refused, emptyHist_setTsq, modTsq_setTsq]
    rfl
  · exact ⟨_, go _, (predictorEntryEffect_moves h s (Moves.refl _ s) fun _ h => h).only, predictorEntryEffect_one waits come early⟩
  · refine keeps (tsqCommitEffect_early q fun x => ?_)
    obtain ⟨pending, wait, boundary⟩ := safe.1 x
    rcases k with k | k | ⟨k, l⟩
    · exact ne_true_of_eq_false k pending
    · omega
    · exact boundary.elim k l
  · intro polled
    have safe := safe.2 ⟨pending, wait, boundary⟩
    have quiet : (getTsq s n).Quiet := ⟨strobe, pretrig, expose⟩
    refine ⟨fun old new => ?_, fun old new opened => ?_, fun old new odd herd enc => ?_, fun old new => ?_⟩
    · exact (go _).trans (congrArg _ ((tsqCommitEffect_disabled q safe old new).trans (tsqTakesGroup_quiet quiet)))
    · refine (go _).trans (congrArg _ ((tsqCommitEffect_disables q safe old new).trans ?_))
      have quiet' : ((getTsq s n).emptied (predPos s (tsqSrc (tsqAct s n))) s.clock).Quiet := ⟨strobe, pretrig, expose⟩
      rw [squashAll_none opened, emptyHist_eq, tsqTakesGroup_setTsq quiet', modTsq_setTsq]
      rfl
    · intro usable running first
      refine (go _).trans (congrArg _ ((tsqCommitEffect_enables q safe old new odd).trans ?_))
      rw [tsqTakesGroup_quiet quiet]
      exact enableTsq_alone (x := (getTsq s n).polled) odd herd enc
    · obtain ⟨only, group⟩ := tsqCommitEffect_keeps_en q safe old new
      exact ⟨_, go _, only, group⟩
  · exact (go _).trans (congrArg _ (modTsq_eq_setTsq s n _))

end Sys2Proof.Machine
end

section
/-! The state of one capture channel (O36, O37): the channel replaced as a whole, its drops (R233), and the parts of it that they leave
alone. -/

namespace Sys2Proof.Machine

variable {s t u : State} {n m : Fin 16} {r : Fin 13} {l : Line} {c x y z : Cap}

/-! ### One channel replaced -/

/-- Channel n replaced by c. -/
def setCap (s : State) (n : Fin 16) (c : Cap) : State := s.modCap n fun _ => c

@[simp] theorem getCap_setCap (s : State) (n : Fin 16) (c : Cap) : getCap (setCap s n c) n = c := getCap_modCap _ _ _

theorem modCap_eq_setCap (s : State) (n : Fin 16) (f : Cap → Cap) : s.modCap n f = setCap s n (f (getCap s n)) :=
  modCap_congr rfl

@[simp] theorem modCap_setCap (s : State) (n : Fin 16) (c : Cap) (f : Cap → Cap) :
    (setCap s n c).modCap n f = setCap s n (f c) := modCap_modCap _ _ _ _

@[simp] theorem setCap_setCap (s : State) (n : Fin 16) (c d : Cap) : setCap (setCap s n c) n d = setCap s n d :=
  modCap_setCap _ _ _ _

@[simp] theorem setCap_getCap (s : State) (n : Fin 16) : setCap s n (getCap s n) = s := modCap_id rfl

@[simp] theorem setCap_clock (s : State) (n : Fin 16) (c : Cap) : (setCap s n c).clock = s.clock := rfl

theorem getCap_setCap_other (c : Cap) (h : m ≠ n) : getCap (setCap s n c) m = getCap s m := upd_other _ _ _ _ (Ne.symm h)

theorem setCap_others (s : State) (n : Fin 16) (c : Cap) : Others n s.cap (setCap s n c).cap :=
  fun _ h => upd_other _ _ _ _ (Ne.symm h)

theorem getCap_congr (h : t.cap = s.cap) : getCap t n = getCap s n := by
  simp only [getCap, h]

/-- Of two states whose channels agree, channel n replaced, the channels agree. -/
theorem setCap_cap_congr (h : t.cap = s.cap) (c : Cap) : (setCap t n c).cap = (setCap s n c).cap :=
  congrArg (upd · n fun _ => c) h

/-- A further replacement of channel n is the only one that is seen of the channels. -/
theorem setCap_cap_again (h : t.cap = (setCap s n x).cap) (y : Cap) : (setCap t n y).cap = (setCap s n y).cap :=
  (setCap_cap_congr h y).trans (congrArg State.cap (setCap_setCap s n x y))

/-- Whether a channel is in a gang depends on its settings alone. -/
theorem isGang_setCap (h : c.group = (getCap s n).group) (m : Fin 16) : isGang (setCap s n c) m = isGang s m := by
  unfold isGang
  by_cases k : gangHead m = n
  · rw [k, getCap_setCap, h]
  · rw [getCap_setCap_other c k]

theorem unitLocked_setCap (g : isGang s n = false) (h : c.group = (getCap s n).group) : unitLocked (setCap s n c) n = c.locked := by
  rw [unitLocked_single ((isGang_setCap h n).trans g), getCap_setCap]

theorem capHead_setCap (h : c.group = (getCap s n).group) (m : Fin 16) : capHead (setCap s n c) m = capHead s m := by
  simp only [capHead, isGang_setCap h]

theorem capUnit_setCap (h : c.group = (getCap s n).group) (m : Fin 16) : capUnit (setCap s n c) m = capUnit s m := by
  simp only [capUnit, isGang_setCap h]

/-! ### Drops (R233) -/

/-- A channel with one drop more of reason r. -/
def Cap.counted (c : Cap) (r : Fin 13) : Cap := { c with drops := upd c.drops r (· + 1), flags := c.flags.set 0 }

theorem countDrop_eq (s : State) (n : Fin 16) (r : Fin 13) : countDrop s n r = setCap s n ((getCap s n).counted r) :=
  modCap_eq_setCap _ _ _

theorem lineGiveBack_only (s : State) (n : Fin 16) (l : Line) : Only [.pw] s (lineGiveBack s n l) :=
  (lineGiveBack_moves s n l (Moves.refl _ s) fun _ h => h).only

/-- A line that was dropped for a reason: it has no reservation and no handle any more. -/
def Line.dropped (l : Line) (r : Fin 13) : Line :=
  { l with drop := some r, handle := .refused, tags := 0, rel := { l.rel with res := .none } }

/-- Channel c that drops line l, and holds it until LVAL falls. -/
def Cap.dropsLine (c : Cap) (l : Line) (r : Fin 13) : Cap := { c.counted r with line := some (l.dropped r) }

/-- A channel whose line in assembly is dropped, unless it was dropped before. -/
def Cap.lineDropped (c : Cap) (r : Fin 13) : Cap :=
  match c.line with
  | none => c
  | some l => if l.drop.isSome then c else c.dropsLine l r

theorem Cap.lineDropped_idle (h : c.line = none) : c.lineDropped r = c := by
  simp only [lineDropped, h]

theorem Cap.lineDropped_line (h : c.line = some l) (k : l.drop = none) :
    c.lineDropped r = c.dropsLine l r := by
  simp [lineDropped, h, k]

theorem dropLine_idle (h : (getCap s n).line = none) : dropLine s n r = s := by
  simp only [dropLine, h]

theorem dropLine_line (h : (getCap s n).line = some l) (k : l.drop = none) : dropLine s n r =
    (lineGiveBack (countDrop s n r) n l).modCap n fun c => { c with line := some (l.dropped r) } := by
  simp only [dropLine, h, k, Option.isSome_none, Bool.false_eq_true, if_false]
  rfl

theorem dropLine_cap (s : State) (n : Fin 16) (r : Fin 13) : (dropLine s n r).cap = (setCap s n ((getCap s n).lineDropped r)).cap := by
  cases h : (getCap s n).line with
  | none => rw [dropLine_idle h, Cap.lineDropped_idle h, setCap_getCap]
  | some l =>
    cases k : l.drop with
    | some d => simp [dropLine, Cap.lineDropped, h, k]
    | none =>
      have back : (lineGiveBack (countDrop s n r) n l).cap = (setCap s n ((getCap s n).counted r)).cap :=
        (lineGiveBack_only _ _ _ .cap (by decide)).trans (congrArg State.cap (countDrop_eq s n r))
      have mine : getCap (lineGiveBack (countDrop s n r) n l) n = (getCap s n).counted r :=
        (getCap_congr back).trans (getCap_setCap _ _ _)
      rw [dropLine_line h k, Cap.lineDropped_line h k, modCap_eq_setCap, mine, setCap_cap_again back]
      rfl

theorem endLine_cap (s : State) (n : Fin 16) (r : Fin 13) :
    (endLine s n r).cap = (setCap s n { (getCap s n).lineDropped r with line := none }).cap := by
  rw [endLine, modCap_eq_setCap, setCap_cap_again (dropLine_cap s n r), getCap_congr (dropLine_cap s n r), getCap_setCap]

theorem endLine_idle (h : (getCap s n).line = none) : endLine s n r = s := by
  rw [endLine, dropLine_idle h, modCap_id (by rw [← h])]

theorem dropRelease_cap (s : State) (n : Fin 16) (r : Fin 13) (rel : Release) :
    (dropRelease s n r rel).cap = (setCap s n ((getCap s n).counted r)).cap :=
  (giveBack_only _ _ _ _ .cap (by decide)).trans (congrArg State.cap (countDrop_eq s n r))

/-! ### Several drops -/

/-- Channel y is channel x with drops counted, and every flag of x still set. -/
structure Cap.Counts (x y : Cap) : Prop where
  rest : y = { x with drops := y.drops, flags := y.flags }
  flags : ∀ i, x.flags.on i = true → y.flags.on i = true

theorem Cap.Counts.refl (x : Cap) : x.Counts x := ⟨rfl, fun _ => id⟩

theorem Cap.Counts.trans (h : x.Counts y) (k : y.Counts z) : x.Counts z :=
  ⟨by rw [k.rest, h.rest], fun i on => k.flags i (h.flags i on)⟩

theorem Cap.counted_counts (c : Cap) (r : Fin 13) : c.Counts (c.counted r) := ⟨rfl, fun _ => Flags.on_set_of_on 0⟩

/-- Every entry of a list counted as a drop of channel n. -/
theorem forEach_counts {α : Type} {f : α → State → State} (r : Fin 13)
    (h : ∀ a t, (f a t).cap = (setCap t n ((getCap t n).counted r)).cap) (entries : List α) (s : State) :
    Others n s.cap (forEach entries f s).cap ∧ (getCap s n).Counts (getCap (forEach entries f s) n) := by
  induction entries generalizing s with
  | nil => exact ⟨fun _ _ => rfl, .refl _⟩
  | cons a rest ih =>
    obtain ⟨others, counts⟩ := ih (f a s)
    refine ⟨fun j hj => (others j hj).trans ?_, ?_⟩
    · rw [h a s]; exact setCap_others s n _ j hj
    · rw [getCap_congr (h a s), getCap_setCap] at counts
      exact ((getCap s n).counted_counts r).trans counts

theorem dropPending_counts (s : State) (n : Fin 16) (r : Fin 13) :
    Others n s.cap (dropPending s n r).cap ∧ ({ getCap s n with pending := [] } : Cap).Counts (getCap (dropPending s n r) n) := by
  obtain ⟨others, counts⟩ := forEach_counts r (fun rel t => dropRelease_cap t n r rel) (getCap s n).pending
    (s.modCap n fun c => { c with pending := [] })
  rw [getCap_modCap] at counts
  exact ⟨fun j hj => (others j hj).trans (upd_other _ _ _ _ (Ne.symm hj)), counts⟩

theorem dropEnding_counts (s : State) (n : Fin 16) (r : Fin 13) :
    Others n s.cap (dropEnding s n r).cap ∧ ({ getCap s n with ending := [] } : Cap).Counts (getCap (dropEnding s n r) n) := by
  have drop (l : Line) (t : State) : (lineGiveBack (countDrop t n r) n l).cap = (setCap t n ((getCap t n).counted r)).cap :=
    (lineGiveBack_only _ _ _ .cap (by decide)).trans (congrArg State.cap (countDrop_eq t n r))
  obtain ⟨others, counts⟩ := forEach_counts r drop (getCap s n).ending (s.modCap n fun c => { c with ending := [] })
  rw [getCap_modCap] at counts
  exact ⟨fun j hj => (others j hj).trans (upd_other _ _ _ _ (Ne.symm hj)), counts⟩

/-- Channel y is channel x after its line, its lines not yet posted and its pending entries were dropped. -/
structure Cap.Empties (x y : Cap) : Prop where
  rest : y = { x with line := y.line, ending := [], pending := [], drops := y.drops, flags := y.flags }
  flags : ∀ i, x.flags.on i = true → y.flags.on i = true

theorem Cap.lineDropped_rest (c : Cap) (r : Fin 13) : c.lineDropped r =
    { c with line := (c.lineDropped r).line, drops := (c.lineDropped r).drops, flags := (c.lineDropped r).flags } := by
  unfold lineDropped
  split
  · rfl
  · split <;> rfl

theorem Cap.lineDropped_flags {i : Nat} (h : c.flags.on i = true) : (c.lineDropped r).flags.on i = true := by
  unfold lineDropped
  split
  · exact h
  · split
    · exact h
    · exact Flags.on_set_of_on 0 h

/-- Everything that channel n holds is dropped, and no other channel changes. -/
theorem dropAll_empties (s : State) (n : Fin 16) (r : Fin 13) :
    let t := dropPending (dropEnding (dropLine s n r) n r) n r
    Others n s.cap t.cap ∧ (getCap s n).Empties (getCap t n) := by
  intro t
  have line := dropLine_cap s n r
  have line' : getCap (dropLine s n r) n = (getCap s n).lineDropped r := (getCap_congr line).trans (getCap_setCap _ _ _)
  obtain ⟨others, ending⟩ := dropEnding_counts (dropLine s n r) n r
  obtain ⟨others', pending⟩ := dropPending_counts (dropEnding (dropLine s n r) n r) n r
  rw [line'] at ending
  refine ⟨fun j hj => ((others' j hj).trans (others j hj)).trans ?_, ?_, fun i on => ?_⟩
  · rw [line]; exact setCap_others s n _ j hj
  · rw [pending.rest, ending.rest, Cap.lineDropped_rest]
  · exact pending.flags i (ending.flags i (Cap.lineDropped_flags on))

end Sys2Proof.Machine
end

section
/-! The lock of a capture receiver (O36): a LINK fault that ends and what it retires (R234, R236), the measured clock (R220), lock
attempts, and the loss of lock (R235, R247). -/

namespace Sys2Proof.Machine

variable {s t u : State} {n m : Fin 16} {f : LinkFault} {seq : Word} {a w count : Nat}

/-! ### A LINK fault that ends (R234) -/

/-- Channel c with its LINK fault closed. -/
def Cap.closed (c : Cap) : Cap := { c with fault := none, flags := c.flags.set 2 }

theorem closeLink_cap (s : State) (n : Fin 16) (f : LinkFault) (perm retired : Bool) :
    (closeLink s n f perm retired).cap = (setCap s n (getCap s n).closed).cap := by
  have record : (recordFault s (linkRecord n f perm retired)).cap = s.cap :=
    (recordFault_moves s _ (Moves.refl _ s) fun _ h => h).only .cap (by decide)
  rw [closeLink, modCap_eq_setCap, setCap_cap_congr record, getCap_congr record]
  rfl

theorem closeLink_only (s : State) (n : Fin 16) (f : LinkFault) (perm retired : Bool) :
    Only [.cap, .qe, .dm] s (closeLink s n f perm retired) :=
  (closeLink_moves s n f perm retired (Moves.refl _ s) fun _ h => h).only

/-! ### Retirement of a channel with its sequencer (R18, R236) -/

/-- Channel c at the moment of its retirement by the fault numbered seq. -/
def Cap.retires (c : Cap) (seq : Word) : Cap :=
  { c with retired := true, armed := false, faultSeq := seq, flags := c.flags.set 3, group := c.group.drop }

theorem retireTsq_cap (s : State) (n : Fin 16) (seq : Word) : (retireTsq s n seq).cap = s.cap :=
  (retireTsq_moves s n seq (Moves.refl _ s) fun _ h => h).only .cap (by decide)

theorem retireTsq_retired (s : State) (n : Fin 16) (seq : Word) : (getTsq (retireTsq s n seq) n).retired = true := by
  unfold retireTsq
  split
  · assumption
  · rw [getTsq_modTsq]

/-- A live channel that is retired loses everything it holds, its open fault classed before (R562). -/
theorem retireCap_live (live : (getCap s n).retired = false) : retireCap s n seq =
    dropPending (dropEnding (dropLine ((classAtRetire s n).modCap n fun c => c.retires seq) n dropRetired) n dropRetired) n
      dropRetired := by
  simp only [retireCap, live, Bool.false_eq_true, if_false]
  rfl

theorem classAtRetire_none (h : (getCap s n).fault = none) : classAtRetire s n = s := by
  simp only [classAtRetire, h]

/-- A channel without an open fault that is retired is emptied. -/
theorem retireCap_empties (live : (getCap s n).retired = false) (calm : (getCap s n).fault = none) :
    ((getCap s n).retires seq).Empties (getCap (retireCap s n seq) n) := by
  obtain ⟨-, empties⟩ := dropAll_empties (s.modCap n fun c => c.retires seq) n dropRetired
  rw [getCap_modCap] at empties
  rw [retireCap_live live, classAtRetire_none calm]
  exact empties

theorem retireCap_tsq (s : State) (n : Fin 16) (seq : Word) : (retireCap s n seq).tsq = s.tsq :=
  (retireCap_moves s n seq (Moves.refl _ s) fun _ h => h).only .tsq (by decide)

/-- The herd of a channel depends on the sequencers, the herd link and the gang. -/
theorem herdOf_congr (g : isGang t n = isGang s n) (q : t.tsq = s.tsq) (l : t.hl = s.hl) : herdOf t n = herdOf s n := by
  have act : tsqAct t (capHead t n) = tsqAct s (capHead s n) := by simp only [capHead, g, tsqAct, getTsq_congr q]
  have member : isMember t = isMember s := funext fun h => by rw [isMember, isMember, herdCfg, herdCfg, l]
  rw [herdOf, herdOf, act, member]

theorem isGang_closeLink (perm retired : Bool) : isGang (closeLink s n f perm retired) n = isGang s n := by
  rw [isGang, getCap_congr (closeLink_cap s n f perm retired)]
  exact isGang_setCap (c := (getCap s n).closed) rfl n

theorem herdOf_closeLink (perm retired : Bool) : herdOf (closeLink s n f perm retired) n = herdOf s n := by
  have only := closeLink_only s n f perm retired
  exact herdOf_congr (isGang_closeLink perm retired) (only .tsq (by decide)) (only .hl (by decide))

/-- A permanent fault of a channel that is in no gang and no herd retires it with its sequencer. -/
theorem linkPermanent_single (g : isGang s n = false) (herd : herdOf s n = none) (live : (getCap s n).retired = false) :
    linkPermanent s n f = retirePair (closeLink s n f true true) n s.qe.seq := by
  have scope : scopeLive s n = true := by simp [scopeLive, herd, capUnit_single g, pairLive, live]
  have gang : isGang (closeLink s n f true true) n = false := (isGang_closeLink true true).trans g
  simp only [linkPermanent, scope, if_true, retireScope, herdOf_closeLink, herd, capUnit_single gang, retireList, forEach,
    List.foldl_cons, List.foldl_nil]

/-- What the statement says of a fault that ends permanent, at the number the fault record gets. -/
structure Retires (n : Fin 16) (seq : Word) (s t : State) : Prop where
  only : Only [.cap, .tsq, .pw, .qe, .hl, .dm] s t
  fault : (getCap t n).fault = none
  retired : (getCap t n).retired = true
  armed : (getCap t n).armed = false
  faultSeq : (getCap t n).faultSeq = seq
  tsq : (getTsq t n).retired = true
  pending : (getCap t n).pending = []
  ending : (getCap t n).ending = []
  closed : (getCap t n).flags.on 2 = true
  retires : (getCap t n).flags.on 3 = true

theorem linkPermanent_retires (g : isGang s n = false) (herd : herdOf s n = none) (live : (getCap s n).retired = false) :
    Retires n s.qe.seq s (linkPermanent s n f) := by
  have only : Only [.cap, .tsq, .pw, .qe, .hl, .dm] s (linkPermanent s n f) :=
    (linkPermanent_moves s n f (Moves.refl _ s) (by decide)).only
  have cap : getCap (retireTsq (closeLink s n f true true) n s.qe.seq) n = (getCap s n).closed := by
    rw [getCap_congr (retireTsq_cap _ _ _), getCap_congr (closeLink_cap _ _ _ _ _), getCap_setCap]
  have empties := retireCap_empties (seq := s.qe.seq) ((congrArg Cap.retired cap).trans live) (congrArg Cap.fault cap)
  have tsq : (getTsq (retirePair (closeLink s n f true true) n s.qe.seq) n).retired = true := by
    rw [retirePair, getTsq_congr (retireCap_tsq _ _ _), retireTsq_retired]
  rw [cap] at empties
  rw [linkPermanent_single g herd live] at only ⊢
  obtain ⟨rest, flags⟩ := empties
  rw [← retirePair] at rest flags
  exact ⟨only, congrArg Cap.fault rest, congrArg Cap.retired rest, congrArg Cap.armed rest, congrArg Cap.faultSeq rest, tsq,
    congrArg Cap.pending rest, congrArg Cap.ending rest,
    flags 2 (Flags.on_set_of_on 3 (Flags.on_set_same _ (by decide))), flags 3 (Flags.on_set_same _ (by decide))⟩

/-! ### A further attempt of an open fault (R234) -/

/-- Channel c with one attempt more of its open fault f. -/
def Cap.retries (c : Cap) (f : LinkFault) : Cap :=
  { c with fault := some { f with attempts := f.attempts + 1 }, cntRelock := c.cntRelock + 1 }

theorem faultAttempt_none (h : (getCap s n).fault = none) : faultAttempt s n = s := by
  simp only [faultAttempt, h]

theorem faultAttempt_further (h : (getCap s n).fault = some f) (k : f.attempts < 3) :
    faultAttempt s n = setCap s n ((getCap s n).retries f) := by
  simp only [faultAttempt, h, if_neg (Nat.not_le.2 k), modCap_eq_setCap]
  rfl

theorem faultAttempt_last (h : (getCap s n).fault = some f) (k : 3 ≤ f.attempts) : faultAttempt s n = linkPermanent s n f := by
  simp only [faultAttempt, h, if_pos k]

/-! ### The measured clock (R220) -/

/-- Channel c after a window of 4,000 ticks that began at w and counted `count` edges. -/
def Cap.measured (c : Cap) (count w : Nat) : Cap :=
  { c with
    pclk := BitVec.ofNat 17 (min (count * 100) 0x1FFFF), pclkOk := decide (190 ≤ count ∧ count ≤ 870), windowAt := some (w + 4000) }

theorem pclkEffect_idle (h : (getCap s n).windowAt = none) : pclkEffect n count s = s := by
  simp only [pclkEffect, h]

theorem pclkEffect_early (h : (getCap s n).windowAt = some w) (k : s.clock < w + 4000) : pclkEffect n count s = s := by
  simp only [pclkEffect, h, if_pos k]

theorem pclkEffect_due (h : (getCap s n).windowAt = some w) (k : w + 4000 ≤ s.clock) : pclkEffect n count s =
    if 190 ≤ count ∧ count ≤ 870 then setCap s n ((getCap s n).measured count w)
    else lossOfLockEffect n (setCap s n ((getCap s n).measured count w)) := by
  simp only [pclkEffect, h, if_neg (Nat.not_lt.2 k), modCap_eq_setCap, decide_eq_true_eq]
  rfl

/-! ### A lock attempt (R220, R247) -/

theorem lockSuccessEffect_idle (h : (getCap s n).attemptAt = none ∨ (getCap s n).locked = true) : lockSuccessEffect n s = s := by
  unfold lockSuccessEffect
  dsimp only
  split
  · rfl
  · exact if_pos (by simp [h.resolve_left (by simp [*])])

theorem lockSuccessEffect_late (h : (getCap s n).attemptAt = some a) (k : (getCap s n).pclkOk = false ∨ a + 400000 < s.clock) :
    lockSuccessEffect n s = s := by
  simp only [lockSuccessEffect, h]
  exact if_pos (by rcases k with k | k <;> simp [k, oneMs])

theorem lockFailEffect_idle (h : (getCap s n).attemptAt = none ∨ (getCap s n).locked = true) : lockFailEffect n s = s := by
  unfold lockFailEffect
  dsimp only
  split
  · rfl
  · exact if_pos (by simp [h.resolve_left (by simp [*])])

theorem lockFailEffect_early (h : (getCap s n).attemptAt = some a) (k : s.clock < a + 400000) : lockFailEffect n s = s := by
  simp only [lockFailEffect, h]
  exact if_pos (by simp [oneMs, k])

/-- Channel c once its receiver is locked. -/
def Cap.locks (c : Cap) : Cap := { c with locked := true, attemptAt := none }

section
variable (h : (getCap s n).attemptAt = some a) (unlocked : (getCap s n).locked = false)
include h unlocked

/-- A receiver that locks arms its unit once the whole unit is locked. -/
theorem lockSuccessEffect_locks (ok : (getCap s n).pclkOk = true) (k : s.clock ≤ a + 400000) : lockSuccessEffect n s =
    let t := setCap s n (getCap s n).locks
    if unitLocked t n then t.modCap (capHead s n) fun c => { c with armed := !c.retired } else t := by
  have c : ((getCap s n).locked || !(getCap s n).pclkOk || decide (a + oneMs < s.clock)) = false := by
    simp [unlocked, ok, oneMs, Nat.not_lt.2 k]
  simp only [lockSuccessEffect, h, c, Bool.false_eq_true, if_false, modCap_eq_setCap s]
  rw [← capHead_setCap (s := s) (n := n) (c := (getCap s n).locks) rfl n]
  rfl

/-- An attempt that failed starts again in every receiver of the unit that is in one, and counts for an open fault. -/
theorem lockFailEffect_due (k : a + 400000 ≤ s.clock) : lockFailEffect n s =
    let t := forEach ((capUnit s n).filter fun m => (getCap s m).attemptAt.isSome) (fun m s => startAttempt s m) s
    faultAttempt t (capHead t n) := by
  simp only [lockFailEffect, h]
  exact if_neg (by simp [oneMs, Nat.not_lt.2 k, unlocked])

end

end Sys2Proof.Machine
end

section
/-! The receivers of a gang (O36): the channels that share a lock attempt (R218, R247), and what a fault leaves of their lock. -/

namespace Sys2Proof.Machine

variable {s t u : State} {n m : Fin 16} {f : LinkFault} {a : Nat}

/-! ### The channels of a gang -/

theorem capUnit_gang (h : isGang s n = true) : capUnit s n = [gangHead n, gangTail n] := if_pos h

theorem capHead_gang (h : isGang s n = true) : capHead s n = gangHead n := if_pos h

/-! ### What leaves the lock of every receiver alone -/

/-- Every receiver is locked, or in an attempt, as before. -/
structure LockKept (s t : State) : Prop where
  locked : ∀ m : Fin 16, (getCap t m).locked = (getCap s m).locked
  attempt : ∀ m : Fin 16, (getCap t m).attemptAt = (getCap s m).attemptAt

theorem LockKept.refl (s : State) : LockKept s s := ⟨fun _ => rfl, fun _ => rfl⟩

theorem LockKept.trans (h : LockKept s t) (k : LockKept t u) : LockKept s u :=
  ⟨fun m => (k.locked m).trans (h.locked m), fun m => (k.attempt m).trans (h.attempt m)⟩

/-- One channel changes, and it keeps its lock. -/
theorem LockKept.of_others (o : Others n s.cap t.cap) (locked : (getCap t n).locked = (getCap s n).locked)
    (attempt : (getCap t n).attemptAt = (getCap s n).attemptAt) : LockKept s t := by
  have other (m : Fin 16) (h : m ≠ n) : getCap t m = getCap s m := o m h
  refine ⟨fun m => ?_, fun m => ?_⟩ <;> by_cases h : m = n
  · rw [h, locked]
  · rw [other m h]
  · rw [h, attempt]
  · rw [other m h]

theorem LockKept.of_cap (h : t.cap = s.cap) : LockKept s t :=
  ⟨fun _ => by rw [getCap_congr h], fun _ => by rw [getCap_congr h]⟩

theorem LockKept.of_setCap {c : Cap} (h : t.cap = (setCap s n c).cap) (locked : c.locked = (getCap s n).locked)
    (attempt : c.attemptAt = (getCap s n).attemptAt) : LockKept s t := by
  have mine : getCap t n = c := (getCap_congr h).trans (getCap_setCap s n c)
  exact .of_others (h ▸ setCap_others s n c) (by rw [mine, locked]) (by rw [mine, attempt])

theorem LockKept.modCap (s : State) (n : Fin 16) {g : Cap → Cap} (locked : ∀ c, (g c).locked = c.locked)
    (attempt : ∀ c, (g c).attemptAt = c.attemptAt) : LockKept s (s.modCap n g) :=
  .of_setCap (congrArg State.cap (modCap_eq_setCap s n g)) (locked _) (attempt _)

theorem LockKept.endLine (s : State) (n : Fin 16) (r : Fin 13) : LockKept s (endLine s n r) := by
  have rest := (getCap s n).lineDropped_rest r
  exact .of_setCap (endLine_cap s n r) (congrArg Cap.locked rest :) (congrArg Cap.attemptAt rest :)

theorem LockKept.dropPending (s : State) (n : Fin 16) (r : Fin 13) : LockKept s (dropPending s n r) := by
  obtain ⟨others, rest, -⟩ := dropPending_counts s n r
  exact .of_others others (congrArg Cap.locked rest :) (congrArg Cap.attemptAt rest :)

theorem LockKept.closeLink (s : State) (n : Fin 16) (f : LinkFault) (perm retired : Bool) :
    LockKept s (closeLink s n f perm retired) := .of_setCap (closeLink_cap s n f perm retired) rfl rfl

theorem LockKept.classAtRetire (s : State) (n : Fin 16) : LockKept s (classAtRetire s n) := by
  unfold Machine.classAtRetire
  split
  · exact .refl s
  · exact .closeLink ..

theorem LockKept.retireCap (s : State) (n : Fin 16) (seq : Word) : LockKept s (retireCap s n seq) := by
  cases live : (getCap s n).retired with
  | true => simp [Machine.retireCap, live, LockKept.refl]
  | false =>
    obtain ⟨others, rest, -⟩ := dropAll_empties ((Machine.classAtRetire s n).modCap n fun c => c.retires seq) n dropRetired
    rw [retireCap_live live]
    exact ((LockKept.classAtRetire s n).trans (.modCap _ n (g := fun c => c.retires seq) (fun _ => rfl) fun _ => rfl)).trans
      (.of_others others (congrArg Cap.locked rest :) (congrArg Cap.attemptAt rest :))

theorem LockKept.retireList (s : State) (l : List (Fin 16)) (seq : Word) : LockKept s (retireList s l seq) := by
  unfold Machine.retireList forEach
  induction l generalizing s with
  | nil => exact .refl s
  | cons n l ih => exact .trans (.trans (.of_cap (retireTsq_cap s n seq)) (.retireCap _ n seq)) (ih _)

theorem LockKept.retireScope (s : State) (n : Fin 16) (blk : Nat) (seq : Word) : LockKept s (retireScope s n blk seq) := by
  unfold Machine.retireScope
  split
  · split
    · exact .of_cap rfl
    · exact .retireList ..
  · exact .retireList ..

theorem LockKept.linkPermanent (s : State) (n : Fin 16) (f : LinkFault) : LockKept s (linkPermanent s n f) := by
  unfold Machine.linkPermanent
  dsimp only
  split
  · exact .trans (.closeLink ..) (.retireScope ..)
  · exact .closeLink ..

theorem LockKept.faultAttempt (s : State) (n : Fin 16) : LockKept s (faultAttempt s n) := by
  unfold Machine.faultAttempt
  split
  · exact .refl s
  · split
    · exact .linkPermanent ..
    · exact .modCap s n (fun _ => rfl) fun _ => rfl

/-! ### Attempts that start (R220) -/

/-- Channel c in a lock attempt that starts at count t of the clock. -/
def Cap.attempts (c : Cap) (t : Nat) : Cap := { c with locked := false, attemptAt := some t }

theorem startAttempt_eq (s : State) (n : Fin 16) : startAttempt s n = setCap s n ((getCap s n).attempts s.clock) :=
  modCap_eq_setCap _ _ _

/-- The channels of a list start an attempt, and the others do not. -/
theorem getCap_startAttempts (l : List (Fin 16)) (s : State) (m : Fin 16) :
    getCap (forEach l (fun n s => startAttempt s n) s) m = if m ∈ l then (getCap s m).attempts s.clock else getCap s m := by
  induction l generalizing s with
  | nil => rfl
  | cons n l ih =>
    rw [forEach, List.foldl_cons, ← forEach, ih, startAttempt_eq, setCap_clock]
    by_cases h : m = n
    · subst h; simp [Cap.attempts]
    · simp [getCap_setCap_other _ h, h]

/-! ### The loss of lock (R235) -/

theorem lossOfLockEffect_unlocked (h : (getCap s n).locked = false) : lossOfLockEffect n s = s := by
  simp [lossOfLockEffect, h]

/-- Whatever else a loss of lock brings, the receiver that lost it is in an attempt that starts then. -/
theorem lossOfLockEffect_lockKept (h : (getCap s n).locked = true) : LockKept (startAttempt s n) (lossOfLockEffect n s) := by
  have lost (g : Cap → Cap) (k : Fin 16) (locked : ∀ c, (g c).locked = c.locked) (attempt : ∀ c, (g c).attemptAt = c.attemptAt) :
      LockKept (startAttempt s n) (dropPending (endLine ((startAttempt s n).modCap k g) k dropLink) k dropLink) :=
    .trans (.trans (.modCap _ k locked attempt) (.endLine ..)) (.dropPending ..)
  have lost := lost (fun c => { c with flags := c.flags.set 1, relocked := c.relocked || unitLocked s n }) (capHead s n) (fun _ => rfl)
    fun _ => rfl
  simp only [lossOfLockEffect, h, Bool.not_true, Bool.false_eq_true, if_false]
  split
  · exact lost
  split
  · exact lost.trans (.modCap _ _ (fun _ => rfl) fun _ => rfl)
  split
  · split
    · exact lost.trans (.modCap _ _ (fun _ => rfl) fun _ => rfl)
    · exact lost
  · exact lost.trans (.faultAttempt ..)

section
variable (locked : (getCap s n).locked = true) (g : isGang s n = false) (line : (getCap s n).line = none)
  (pending : (getCap s n).pending = [])

/-- Channel c after it lost its lock at count t of the clock, with nothing to drop. -/
def Cap.loses (c : Cap) (t : Nat) : Cap :=
  { c with locked := false, attemptAt := some t, flags := c.flags.set 1, relocked := true }

include locked g line pending

/-- A single channel that loses its lock with no line and no pending entry: an armed one opens a LINK fault or goes on with its own. -/
theorem lossOfLockEffect_single : lossOfLockEffect n s =
    let c := getCap s n
    let t := setCap s n (c.loses s.clock)
    if c.armed && !c.retired then
      match c.fault with
      | none => setCap s n { c.loses s.clock with
          fault := some { start := s.clock, attempts := 1, second := none }, cntRelock := c.cntRelock + 1 }
      | some _ => faultAttempt t n
    else t := by
  have lost : dropPending (endLine ((startAttempt s n).modCap n fun c => { c with flags := c.flags.set 1, relocked := c.relocked || true })
      n dropLink) n dropLink = setCap s n ((getCap s n).loses s.clock) := by
    have e : ((startAttempt s n).modCap n fun c => { c with flags := c.flags.set 1, relocked := c.relocked || true }) =
        setCap s n ((getCap s n).loses s.clock) := by
      rw [startAttempt_eq, modCap_setCap, Cap.attempts, Bool.or_true]; rfl
    rw [e, endLine_idle (by rw [getCap_setCap]; exact line), dropPending_empty _ (by rw [getCap_setCap]; exact pending)]
  have alone : ((capUnit s n).any fun m => m != n && (getCap s m).attemptAt.isSome) = false := by simp [capUnit_single g]
  simp only [lossOfLockEffect, locked, Bool.not_true, Bool.false_eq_true, if_false, capHead_single g, unitLocked_single g, lost, alone,
    getCap_setCap]
  cases (getCap s n).armed && !(getCap s n).retired with
  | false => rfl
  | true =>
    simp only [Bool.not_true, Bool.false_eq_true, if_false, if_true, modCap_setCap, setCap_clock]
    rfl

theorem lossOfLockEffect_unarmed (rest : (getCap s n).armed = false ∨ (getCap s n).retired = true) :
    lossOfLockEffect n s = setCap s n ((getCap s n).loses s.clock) := by
  have rest : ((getCap s n).armed && !(getCap s n).retired) = false := by
    rcases rest with rest | rest <;> simp [rest]
  simp only [lossOfLockEffect_single locked g line pending, rest, Bool.false_eq_true, if_false]

variable (armed : (getCap s n).armed = true) (live : (getCap s n).retired = false)
include armed live

theorem lossOfLockEffect_opens (calm : (getCap s n).fault = none) : lossOfLockEffect n s = setCap s n { (getCap s n).loses s.clock with
    fault := some { start := s.clock, attempts := 1, second := none }, cntRelock := (getCap s n).cntRelock + 1 } := by
  simp only [lossOfLockEffect_single locked g line pending, armed, live, calm, Bool.not_false, Bool.and_self, if_true]

theorem lossOfLockEffect_further (fault : (getCap s n).fault = some f) (few : f.attempts < 3) :
    lossOfLockEffect n s = setCap s n (((getCap s n).loses s.clock).retries f) := by
  have open_ : (getCap (setCap s n ((getCap s n).loses s.clock)) n).fault = some f := by rw [getCap_setCap]; exact fault
  simp only [lossOfLockEffect_single locked g line pending, armed, live, fault, Bool.not_false, Bool.and_self, if_true,
    faultAttempt_further open_ few, setCap_setCap, getCap_setCap]

end

end Sys2Proof.Machine
end

section
/-! What a lock attempt does to a single receiver and to those of a gang (R220, R247), and the statement O36. -/

namespace Sys2Proof.Machine

variable {s t u : State} {n m : Fin 16} {f : LinkFault} {a : Nat}

/-! ### An attempt of a gang -/

section
variable (h : (getCap s n).attemptAt = some a) (unlocked : (getCap s n).locked = false) (g : isGang s n = true)
include h unlocked g

/-- A receiver of a gang locks; with the other one locked, the gang is armed. -/
theorem lockSuccessEffect_gang (ok : (getCap s n).pclkOk = true) (k : s.clock ≤ a + 400000) :
    let t := lockSuccessEffect n s
    (getCap t n).locked = true ∧ (getCap t n).attemptAt = none ∧
      ((∀ m ∈ [gangHead n, gangTail n], m ≠ n → (getCap s m).locked = true) →
        (getCap t (gangHead n)).armed = !(getCap s (gangHead n)).retired) := by
  have eq := lockSuccessEffect_locks h unlocked ok k
  rw [capHead_gang g] at eq
  let v := setCap s n (getCap s n).locks
  have kept : LockKept v (lockSuccessEffect n s) := by
    rw [eq]
    dsimp only
    split
    · exact .modCap _ _ (fun _ => rfl) fun _ => rfl
    · exact .refl _
  have mine : getCap v n = (getCap s n).locks := getCap_setCap _ _ _
  have other (m : Fin 16) (e : m ≠ n) : getCap v m = getCap s m := getCap_setCap_other _ e
  have members : capUnit v n = [gangHead n, gangTail n] := (capUnit_setCap (c := (getCap s n).locks) rfl n).trans (capUnit_gang g)
  refine ⟨(kept.locked n).trans (congrArg Cap.locked mine), (kept.attempt n).trans (congrArg Cap.attemptAt mine), fun all => ?_⟩
  have unit : unitLocked v n = true := by
    rw [unitLocked, members, List.all_eq_true]
    intro m hm
    by_cases e : m = n
    · subst e; rw [mine]; rfl
    · rw [other m e]; exact all m hm e
  have retired : (getCap v (gangHead n)).retired = (getCap s (gangHead n)).retired := by
    by_cases e : gangHead n = n
    · rw [e, mine]; rfl
    · rw [other _ e]
  rw [eq]
  dsimp only
  rw [if_pos unit, getCap_modCap, ← retired]

/-- A failed attempt of a gang is one attempt of its open fault, and every receiver that was in it starts again. -/
theorem lockFailEffect_gang (k : a + 400000 ≤ s.clock) (fault : (getCap s (gangHead n)).fault = some f) (few : f.attempts < 3) :
    let t := lockFailEffect n s
    Only [.cap] s t ∧ (getCap t (gangHead n)).fault = some { f with attempts := f.attempts + 1 } ∧
      ∀ m ∈ [gangHead n, gangTail n], (getCap s m).attemptAt ≠ none → (getCap t m).attemptAt = some s.clock := by
  let l := (capUnit s n).filter fun m => (getCap s m).attemptAt.isSome
  let v := forEach l (fun m s => startAttempt s m) s
  have v_get (m : Fin 16) : getCap v m = if m ∈ l then (getCap s m).attempts s.clock else getCap s m := getCap_startAttempts l s m
  have gang : isGang v n = true := by
    rw [← g, isGang, isGang, v_get]
    split <;> rfl
  have fault' : (getCap v (gangHead n)).fault = some f := by
    rw [v_get, ← fault]
    split <;> rfl
  have eq : lockFailEffect n s = setCap v (gangHead n) ((getCap v (gangHead n)).retries f) := calc
    _ = faultAttempt v (capHead v n) := lockFailEffect_due h unlocked k
    _ = faultAttempt v (gangHead n) := by rw [capHead_gang gang]
    _ = _ := faultAttempt_further fault' few
  have only : Only [.cap] s v := ((Moves.refl _ s).each fun m u hu => startAttempt_moves u m hu fun _ h => h).only
  have kept : LockKept v (lockFailEffect n s) := .of_setCap (congrArg State.cap eq) rfl rfl
  refine ⟨?_, by rw [eq, getCap_setCap]; rfl, fun m hm tried => ?_⟩
  · rw [eq]
    exact only.trans ((Moves.refl _ v).modCap (by decide) _ _).only
  · have mem : m ∈ l := List.mem_filter.2 ⟨capUnit_gang g ▸ hm, Option.isSome_iff_ne_none.2 tried⟩
    rw [kept.attempt m, v_get, if_pos mem]
    rfl

end

/-! ### An attempt of a single channel -/

section
variable (h : (getCap s n).attemptAt = some a) (unlocked : (getCap s n).locked = false) (g : isGang s n = false)
include h unlocked g

theorem lockSuccessEffect_single (ok : (getCap s n).pclkOk = true) (k : s.clock ≤ a + 400000) :
    lockSuccessEffect n s = setCap s n { (getCap s n).locks with armed := !(getCap s n).retired } := by
  have unit : unitLocked (setCap s n (getCap s n).locks) n = true := unitLocked_setCap g rfl
  rw [lockSuccessEffect_locks h unlocked ok k, capHead_single g]
  dsimp only
  rw [if_pos unit, modCap_setCap]
  rfl

theorem lockFailEffect_single (k : a + 400000 ≤ s.clock) :
    lockFailEffect n s = faultAttempt (setCap s n ((getCap s n).attempts s.clock)) n := by
  have gang : isGang (setCap s n ((getCap s n).attempts s.clock)) n = false :=
    (isGang_setCap (c := (getCap s n).attempts s.clock) rfl n).trans g
  rw [lockFailEffect_due h unlocked k, capUnit_single g]
  simp only [List.filter_singleton, h, Option.isSome_some, cond_true, forEach, List.foldl_cons, List.foldl_nil, startAttempt_eq,
    capHead_single gang]

theorem lockFailEffect_single_further (k : a + 400000 ≤ s.clock) (fault : (getCap s n).fault = some f) (few : f.attempts < 3) :
    lockFailEffect n s = setCap s n (((getCap s n).attempts s.clock).retries f) := by
  rw [lockFailEffect_single h unlocked g k, faultAttempt_further (by rw [getCap_setCap]; exact fault) few, setCap_setCap, getCap_setCap]

/-- The attempt after the third makes the fault permanent. -/
theorem lockFailEffect_single_last (k : a + 400000 ≤ s.clock) (fault : (getCap s n).fault = some f) (many : 3 ≤ f.attempts)
    (herd : herdOf s n = none) (live : (getCap s n).retired = false) : Retires n s.qe.seq s (lockFailEffect n s) := by
  let c := (getCap s n).attempts s.clock
  have gang : isGang (setCap s n c) n = isGang s n := isGang_setCap (c := c) rfl n
  have ends : Retires n s.qe.seq (setCap s n c) (linkPermanent (setCap s n c) n f) :=
    linkPermanent_retires (gang.trans g) ((herdOf_congr gang rfl rfl).trans herd) (by rw [getCap_setCap]; exact live)
  have only : Only [.cap] s (setCap s n c) := ((Moves.refl _ s).modCap (by decide) n _).only
  rw [lockFailEffect_single h unlocked g k, faultAttempt_last (by rw [getCap_setCap]; exact fault) many]
  exact { ends with only := (only.weaken (by decide)).trans ends.only }

end

/-! ### The window of a LINK fault (R234) -/

section
variable (g : isGang s n = false)
include g

theorem capWindowEndEffect_none (h : (getCap s n).fault = none) : capWindowEndEffect n s = s := by
  simp only [capWindowEndEffect, capHead_single g, h]

variable (h : (getCap s n).fault = some f)
include h

theorem capWindowEndEffect_early (k : s.clock < f.start + 4000000) : capWindowEndEffect n s = s := by
  simp only [capWindowEndEffect, capHead_single g, h]
  exact if_pos k

/-- At the end of its window a fault is transient if the channel is locked after at most three attempts, and else permanent. -/
theorem capWindowEndEffect_due (k : f.start + 4000000 ≤ s.clock) : capWindowEndEffect n s =
    if (getCap s n).locked = true ∧ f.attempts ≤ 3 then closeLink s n f false false else linkPermanent s n f := by
  simp only [capWindowEndEffect, capHead_single g, h, unitLocked_single g, Bool.and_eq_true, decide_eq_true_eq]
  exact if_neg (Nat.not_lt.2 k)

end

/-! ### The statement -/

/-- Settles O36: the measured clock, the attempts of a single channel and of a gang, the loss of lock, and the end of a LINK fault's
window, case by case. -/
theorem receiverLock : Obligations.ReceiverLock := by
  intro s n count hc c becomes retires
  have go (i : State → State) : onSys s i = .next (i s) := onSys_clocked hc i
  have keeps {i : State → State} (e : i s = s) : onSys s i = .next s := (go i).trans (congrArg _ e)
  have sets {i : State → State} {c' : Cap} (e : i s = setCap s n c') : onSys s i = becomes c' := (go i).trans (congrArg _ e)
  have ends {i : Instr} {t : State} (e : exec i s = .next t) (r : Retires n s.qe.seq s t) : retires i :=
    ⟨t, e, r.only, r.fault, r.retired, r.armed, r.faultSeq, r.tsq, r.pending, r.ending, r.closed, r.retires⟩
  refine ⟨fun idle => keeps (pclkEffect_idle idle), fun w window => ?_,
    fun idle => ⟨keeps (lockSuccessEffect_idle idle), keeps (lockFailEffect_idle idle)⟩,
    fun a attempt unlocked => ⟨fun late => keeps (lockSuccessEffect_late attempt late), fun ok inTime => ⟨fun g => ?_, fun g => ?_⟩,
      fun early => keeps (lockFailEffect_early attempt early), fun due g f fault few => ?_,
      fun due g => ⟨fun calm => ?_, fun f fault few => ?_, fun f fault many herd live => ?_⟩⟩,
    fun unlocked => keeps (lossOfLockEffect_unlocked unlocked), fun locked _ => ?_, fun locked g line pending => ?_,
    fun g calm => keeps (capWindowEndEffect_none g calm),
    fun g f fault => ⟨fun early => keeps (capWindowEndEffect_early g fault early), fun due locked few => ?_,
      fun due bad herd live => ?_⟩⟩
  · intro m
    refine ⟨fun early => keeps (pclkEffect_early window early), fun due fine => sets ((pclkEffect_due window due).trans ?_),
      fun due off => ?_⟩
    · by_cases ok : 190 ≤ count ∧ count ≤ 870
      · exact if_pos ok
      · have unlocked : (getCap (setCap s n (c.measured count w)) n).locked = false := by
          rw [getCap_setCap]; exact fine.resolve_left ok
        exact (if_neg ok).trans (lossOfLockEffect_unlocked unlocked)
    · have on : Clocked (setCap s n (c.measured count w)) := hc
      have bad : ¬(190 ≤ count ∧ count ≤ 870) := by omega
      have lost := (pclkEffect_due window due).trans (if_neg bad)
      exact ((go _).trans (congrArg _ lost)).trans (onSys_clocked on _).symm
  · exact sets (lockSuccessEffect_single attempt unlocked g ok inTime)
  · obtain ⟨locked, ended, armed⟩ := lockSuccessEffect_gang attempt unlocked g ok inTime
    exact ⟨_, go _, (lockSuccessEffect_moves n s (Moves.refl _ s) fun _ h => h).only, locked, ended, armed⟩
  · obtain ⟨only, fault', again⟩ := lockFailEffect_gang attempt unlocked g due fault few
    exact ⟨_, go _, only, fault', again⟩
  · exact sets ((lockFailEffect_single attempt unlocked g due).trans (faultAttempt_none (by rw [getCap_setCap]; exact calm)))
  · exact sets (lockFailEffect_single_further attempt unlocked g due fault few)
  · exact ends (go _) (lockFailEffect_single_last attempt unlocked g due fault many herd live)
  · have kept := lossOfLockEffect_lockKept locked
    refine ⟨_, go _, (kept.locked n).trans ?_, (kept.attempt n).trans ?_⟩ <;> rw [startAttempt_eq, getCap_setCap] <;> rfl
  · intro lost
    refine ⟨fun rest => sets ?_, fun armed live => ⟨fun calm => sets ?_, fun f fault few => sets ?_⟩⟩
    · exact lossOfLockEffect_unarmed locked g line pending rest
    · exact lossOfLockEffect_opens locked g line pending armed live calm
    · exact lossOfLockEffect_further locked g line pending armed live fault few
  · have eq := (capWindowEndEffect_due g fault due).trans (if_pos ⟨locked, few⟩)
    exact ⟨_, (go _).trans (congrArg _ eq), closeLink_only s n f false false, closeLink_cap s n f false false⟩
  · have eq := (capWindowEndEffect_due g fault due).trans (if_neg fun k => ?_)
    · exact ends ((go _).trans (congrArg _ eq)) (linkPermanent_retires g herd live)
    · rcases bad with bad | bad
      · exact ne_true_of_eq_false bad k.1
      · omega

end Sys2Proof.Machine
end

section
/-! The rise of LVAL (O37): a line that is dropped at its start, and the release or the free identity that it takes (R222, R224, R228,
R233); the entries whose window has passed (R222). -/

namespace Sys2Proof.Machine

variable {s t u : State} {n : Fin 16} {r : Fin 13} {l : Line} {rel : Release} {rest : List Release} {fval : Bool} {skew k : Nat}

/-! ### A line that is dropped at its start -/

/-- The line that begins in the present tick, before it takes a release. -/
def blankLine (s : State) (fval : Bool) : Line :=
  { rel := noRelease 0, free := false, start := now s, fval := fval, handle := .unasked, drop := none, ended := none, words := []
    tags := 0 }

/-- Nothing goes back for a line that has asked for no handle and holds no reservation. -/
theorem lineGiveBack_absent (unasked : l.handle = .unasked) (absent : l.rel.res = .refused ∨ l.rel.res = .none) :
    lineGiveBack s n l = s := by
  rcases absent with absent | absent <;> simp [lineGiveBack, unasked, absent, giveBack]

theorem startDropped_absent (fresh : l.drop = none) (unasked : l.handle = .unasked)
    (absent : l.rel.res = .refused ∨ l.rel.res = .none) :
    startDropped s n r l = setCap s n ((getCap s n).dropsLine l r) := by
  rw [startDropped, modCap_eq_setCap, dropLine_line (by rw [getCap_setCap]) fresh, lineGiveBack_absent unasked absent, countDrop_eq,
    getCap_setCap, setCap_setCap, modCap_setCap]
  rfl

theorem startDropped_blank (s : State) (n : Fin 16) (r : Fin 13) (fval : Bool) : startDropped s n r (blankLine s fval) =
    setCap s n ((getCap s n).dropsLine (blankLine s fval) r) :=
  startDropped_absent rfl rfl (.inr rfl)

/-! ### The entries whose window has passed (R222) -/

theorem expirePending_none (h : ∀ x ∈ (getCap s n).pending, now s ≤ x.exposeTick + capMax (getCap s n).group.active) :
    expirePending s n = s := by
  have old : ((getCap s n).pending.filter fun r => decide (r.exposeTick + capMax (getCap s n).group.active < now s)) = [] := by
    simpa using h
  have young : ((getCap s n).pending.filter fun r => decide (now s ≤ r.exposeTick + capMax (getCap s n).group.active)) =
      (getCap s n).pending := by simpa using h
  simp only [expirePending, old, forEach, List.foldl_nil]
  exact modCap_id (by rw [young])

/-- The only entry is too old: no line met it. -/
theorem expirePending_one (one : (getCap s n).pending = [rel]) (old : rel.exposeTick + capMax (getCap s n).group.active < now s) :
    expirePending s n = dropRelease (setCap s n { getCap s n with pending := [] }) n dropMissing rel := by
  simp only [expirePending, one, List.filter_singleton, decide_eq_true old, decide_eq_false (Nat.not_le.2 old), cond_true, cond_false,
    forEach, List.foldl_cons, List.foldl_nil, modCap_eq_setCap]

/-! ### Which line begins (R222, R224) -/

/-- In mode TRIGGERED no free identity is taken. -/
theorem advanceFree_triggered {c : Cap} (mode : capFree c.group.active = false) : advanceFree (setCap s n c) n = setCap s n c :=
  modCap_id (by rw [getCap_setCap, mode]; rfl)

theorem lineStartEffect_odd (odd : gangOdd s n = true) (live : capLive s n = true) (locked : unitLocked s n = true) :
    ∃ r : Fin 13, r ∈ [dropSkew, dropRetired, dropConfig] ∧ lineStartEffect n fval skew s = countDrop s (gangHead n) r := by
  simp only [lineStartEffect, live, locked, odd, Bool.not_true, Bool.or_self, Bool.false_eq_true, if_false, if_true]
  split
  · exact ⟨dropRetired, by simp, rfl⟩
  · split
    · exact ⟨dropConfig, by simp, rfl⟩
    · exact ⟨dropSkew, by simp, rfl⟩

section
variable (g : isGang s n = false)
include g

theorem lineStartEffect_idle
    (h : capEn (getCap s n).group.active = false ∨ (getCap s n).locked = false ∨ (getCap s n).line.isSome = true) :
    lineStartEffect n fval skew s = s := by
  simp only [lineStartEffect, capLive, capHead_single g, unitLocked_single g, gangOdd_single g]
  rcases h with h | h | h <;> simp [h]

variable (en : capEn (getCap s n).group.active = true) (locked : (getCap s n).locked = true) (idle : (getCap s n).line = none)
include en locked idle

/-- What a line of an enabled and locked single channel begins as. -/
theorem lineStartEffect_single : lineStartEffect n fval skew s = advanceFree
    (if (getCap s n).retired then startDropped s n dropRetired (blankLine s fval)
     else if (getCap s n).cfgBad then startDropped s n dropConfig (blankLine s fval)
     else if capFree (getCap s n).group.active then startFree s n fval false
     else startTriggered s n fval false) n := by
  simp only [lineStartEffect, capLive, capHead_single g, unitLocked_single g, gangOdd_single g, en, locked, idle, g]
  rfl

theorem lineStartEffect_retired (retired : (getCap s n).retired = true) (mode : capFree (getCap s n).group.active = false) :
    lineStartEffect n fval skew s = setCap s n ((getCap s n).dropsLine (blankLine s fval) dropRetired) := by
  rw [lineStartEffect_single g en locked idle, if_pos retired, startDropped_blank]
  exact advanceFree_triggered mode

variable (live : (getCap s n).retired = false)
include live

theorem lineStartEffect_bad (bad : (getCap s n).cfgBad = true) (mode : capFree (getCap s n).group.active = false) :
    lineStartEffect n fval skew s = setCap s n ((getCap s n).dropsLine (blankLine s fval) dropConfig) := by
  rw [lineStartEffect_single g en locked idle, if_neg (ne_true_of_eq_false live), if_pos bad, startDropped_blank]
  exact advanceFree_triggered mode

variable (good : (getCap s n).cfgBad = false)
include good

theorem lineStartEffect_free (mode : capFree (getCap s n).group.active = true) :
    lineStartEffect n fval skew s = advanceFree (startFree s n fval false) n := by
  rw [lineStartEffect_single g en locked idle, if_neg (ne_true_of_eq_false live), if_neg (ne_true_of_eq_false good), if_pos mode]

theorem lineStartEffect_triggered {c : Cap} (mode : capFree (getCap s n).group.active = false)
    (starts : startTriggered s n fval false = setCap t n c) (group : c.group = (getCap s n).group) :
    lineStartEffect n fval skew s = setCap t n c := by
  rw [lineStartEffect_single g en locked idle, if_neg (ne_true_of_eq_false live), if_neg (ne_true_of_eq_false good),
    if_neg (ne_true_of_eq_false mode), starts]
  exact advanceFree_triggered (group ▸ mode)

end

theorem pwAsk_setCap (s : State) (n : Fin 16) (c : Cap) (q : PwReq) : pwAsk (setCap s n c) q = setCap (pwAsk s q) n c := rfl

/-! ### Mode TRIGGERED (R222, R228) -/

theorem startTriggered_empty (h : (getCap s n).pending = []) : startTriggered s n fval false =
    setCap s n ((getCap s n).dropsLine (blankLine s fval) dropUnmatched) := by
  have young : expirePending s n = s := expirePending_none (by rw [h]; simp)
  simp only [startTriggered, young, h]
  exact startDropped_blank s n dropUnmatched fval

section
variable (first : (getCap s n).pending = rel :: rest)
  (young : ∀ x ∈ (getCap s n).pending, now s ≤ x.exposeTick + capMax (getCap s n).group.active)
include first young

theorem startTriggered_early (early : now s < rel.exposeTick + capMin (getCap s n).group.active) :
    startTriggered s n fval false = setCap s n ((getCap s n).dropsLine (blankLine s fval) dropUnmatched) := by
  simp only [startTriggered, expirePending_none young, first]
  exact (if_pos early).trans (startDropped_blank s n dropUnmatched fval)

variable (due : rel.exposeTick + capMin (getCap s n).group.active ≤ now s)
include due

/-- The line takes the oldest release, whose reservation is large enough, and asks for its handle. -/
theorem startTriggered_granted (res : rel.res = .granted k) (pages : capPages (getCap s n).group.active ≤ resPages s rel.res) :
    startTriggered s n fval false =
      setCap (pwAsk s (.map (.capLine n) k (captureStride (getCap s n).group.active))) n
        { getCap s n with pending := rest, line := some { blankLine s fval with rel := rel, handle := .waiting } } := by
  have enough : (resAbsent (.granted k) ||
      decide (resPages (setCap s n { getCap s n with pending := rest }) (.granted k) < capPages (getCap s n).group.active)) = false :=
    decide_eq_false (Nat.not_lt.2 (res ▸ pages))
  simp only [startTriggered, expirePending_none young, first, if_neg (Nat.not_lt.2 due), modCap_eq_setCap s, res, enough, askHandle,
    Bool.false_eq_true, if_false, getCap_setCap, pwAsk_setCap, modCap_setCap]
  rfl

/-- The line takes the oldest release, which was granted no pages. -/
theorem startTriggered_refused (res : rel.res = .refused) : startTriggered s n fval false =
    setCap s n ({ getCap s n with pending := rest }.dropsLine { blankLine s fval with rel := rel } dropNores) := by
  have absent : (resAbsent rel.res || decide (resPages (setCap s n { getCap s n with pending := rest }) rel.res <
      capPages (getCap s n).group.active)) = true := by rw [res]; rfl
  have dropped := startDropped_absent (s := setCap s n { getCap s n with pending := rest }) (n := n) (r := dropNores)
    (l := { blankLine s fval with rel := rel }) rfl rfl (.inl res)
  rw [setCap_setCap, getCap_setCap] at dropped
  simp only [startTriggered, expirePending_none young, first, if_neg (Nat.not_lt.2 due), modCap_eq_setCap s]
  exact (if_pos absent).trans dropped

end

/-! ### Mode FREE (R224) -/

/-- A free line takes the next free identity and asks for its pages. -/
theorem advanceFree_startFree (free : capFree (getCap s n).group.active = true) : advanceFree (startFree s n fval false) n =
    setCap (pwAsk s (.reserve (.capLine n) .capture n (capPages (getCap s n).group.active))) n
      { getCap s n with
        line := some { blankLine s fval with rel := { noRelease (getCap s n).freeId with res := .waiting }, free := true }
        freeId := (getCap s n).freeId + 1 } := by
  simp only [startFree, Bool.false_eq_true, if_false, modCap_eq_setCap s, pwAsk_setCap, advanceFree, modCap_setCap, free, if_true]
  rfl

end Sys2Proof.Machine
end

section
/-! The words of a line and the fall of LVAL (O37): what a line has brought (R225, R288, R289), how it ends (R228, R229), and the
statement. -/

namespace Sys2Proof.Machine

variable {s t u : State} {n : Fin 16} {r : Fin 13} {l : Line} {h : Fin 2048} {gen : BitVec 7} {ws : List CamWord}
  {stored endTick : Nat} {falls : Bool}

/-! ### The words of a line (R225, R288, R289) -/

/-- Line l with more words, and with the tags of its writes that are under way. -/
def Line.grown (g : CapGroup) (l : Line) (ws : List CamWord) (stored : Nat) : Line :=
  let more := { l with words := l.words ++ ws }
  { more with tags := lineIssued more (lineBytesIn g more.words) stored - stored }

@[simp] theorem Line.grown_fields (g : CapGroup) (l : Line) (ws : List CamWord) (stored : Nat) :
    (l.grown g ws stored).words = l.words ++ ws ∧ (l.grown g ws stored).drop = l.drop ∧ (l.grown g ws stored).handle = l.handle :=
  ⟨rfl, rfl, rfl⟩

/-- The words do not exceed the line, and what is not issued fits the pixel FIFO. -/
def Line.Fits (g : CapGroup) (l : Line) (ws : List CamWord) (stored : Nat) : Prop :=
  (pixelWords g (l.words ++ ws)).length ≤ lineWords g ∧
    lineBytesIn g (l.words ++ ws) ≤ 2048 + 256 * lineIssued l (lineBytesIn g (l.words ++ ws)) stored

/-- The reason for which a line that does not fit is dropped. -/
def Line.excess (g : CapGroup) (l : Line) (ws : List CamWord) : Fin 13 :=
  if lineWords g < (pixelWords g (l.words ++ ws)).length then dropLength else dropOverrun

/-- Channel n with its line grown. -/
def grownLine (s : State) (n : Fin 16) (l : Line) (ws : List CamWord) (stored : Nat) : State :=
  setCap s n { getCap s n with line := some (l.grown (getCap s n).group.active ws stored) }

theorem lineTake_eq (s : State) (n : Fin 16) (l : Line) (ws : List CamWord) (stored : Nat) :
    lineTake s n { l with words := l.words ++ ws } stored =
      let g := (getCap s n).group.active
      let bytes := lineBytesIn g (l.words ++ ws)
      if l.drop.isSome then grownLine s n l ws stored
      else if lineWords g < (pixelWords g (l.words ++ ws)).length then dropLine (grownLine s n l ws stored) n dropLength
      else if 2048 < bytes - 256 * lineIssued l bytes stored then dropLine (grownLine s n l ws stored) n dropOverrun
      else grownLine s n l ws stored := by
  simp only [lineTake, modCap_eq_setCap s]
  rfl

theorem lineTake_dropped (dropped : l.drop = some r) :
    lineTake s n { l with words := l.words ++ ws } stored = grownLine s n l ws stored :=
  (lineTake_eq s n l ws stored).trans (if_pos (by rw [dropped]; rfl))

theorem lineTake_fits (fresh : l.drop = none) (fits : l.Fits (getCap s n).group.active ws stored) :
    lineTake s n { l with words := l.words ++ ws } stored = grownLine s n l ws stored := by
  obtain ⟨length, bytes⟩ := fits
  rw [lineTake_eq, fresh]
  dsimp only
  rw [if_neg (by simp), if_neg (Nat.not_lt.2 length), if_neg (by omega)]

theorem lineTake_excess (fresh : l.drop = none) (excess : ¬l.Fits (getCap s n).group.active ws stored) :
    lineTake s n { l with words := l.words ++ ws } stored =
      dropLine (grownLine s n l ws stored) n (l.excess (getCap s n).group.active ws) := by
  rw [lineTake_eq, fresh, Line.excess]
  dsimp only
  rw [if_neg (by simp)]
  split
  · rfl
  · exact if_pos (by unfold Line.Fits at excess; omega)

/-! ### A line that is complete (R229, R233) -/

/-- The pixels of a line stored in its object, and the pages that it does not need trimmed. -/
def pixelsStored (s : State) (n : Fin 16) (l : Line) (h : Fin 2048) (gen : BitVec 7) : State :=
  let g := (getCap s n).group.active
  pwTrim (objWrite s (getObj s h) 0 (padWord (lineBytes g (pixelWords g l.words)))) h gen (capPages g)

theorem pixelsStored_moves (s : State) (n : Fin 16) (l : Line) (h : Fin 2048) (gen : BitVec 7) :
    Moves [.pw, .fs] s (pixelsStored s n l h gen) :=
  pwTrim_moves _ h gen _ (objWrite_moves s _ _ _ (Moves.refl _ s) fun _ h => h) (by decide)

theorem getRing_pixelsStored (r : Fin 1024) : getRing (pixelsStored s n l h gen) r = getRing s r := by
  rw [getRing, getRing, (pixelsStored_moves s n l h gen).only .qe (by decide)]

/-- A complete line whose descriptor is posted is counted, and nothing else of the channel changes but the mark of a relock. -/
theorem completeLine_posted (on : ringOn (getRing s (captureRing n)) = true) (room : ringFull (getRing s (captureRing n)) = false) :
    ∃ relocked, (completeLine s n l h gen endTick).cap =
      (setCap s n { getCap s n with relocked := relocked, cntLines := (getCap s n).cntLines + 1 }).cap := by
  have post : (ringOn (getRing (pixelsStored s n l h gen) (captureRing n)) &&
      !ringFull (getRing (pixelsStored s n l h gen) (captureRing n))) = true := by simp [getRing_pixelsStored, on, room]
  obtain ⟨w, relocked, cap, eq⟩ : ∃ (w : State) (relocked : Bool), w.cap = s.cap ∧ completeLine s n l h gen endTick =
      w.modCap n fun c => { c with relocked := c.relocked && !relocked, cntLines := c.cntLines + 1 } := by
    refine ⟨_, _, ?_, if_pos post⟩
    have stored : Moves [.free, .pw, .qe, .dm, .fs] s (pixelsStored s n l h gen) :=
      (Moves.refl _ s).step (by decide) (pixelsStored_moves s n l h gen)
    exact (ringPost_moves _ _ _ ((dmWrite_moves _ _ _ (pwSeal_moves _ h gen stored (by decide)) (by decide)).freeStep (by decide))
      (by decide)).only .cap (by decide)
  exact ⟨_, by rw [eq, modCap_eq_setCap, setCap_cap_congr cap, getCap_congr cap]⟩

/-- A complete line that its ring has no room for is dropped. -/
theorem completeLine_lost (lost : ringOn (getRing s (captureRing n)) = false ∨ ringFull (getRing s (captureRing n)) = true) :
    Only [.cap, .pw, .qe, .fs] s (completeLine s n l h gen endTick) ∧
      (completeLine s n l h gen endTick).cap = (setCap s n ((getCap s n).counted dropRingFull)).cap := by
  obtain ⟨w, eq, moves, cap⟩ : ∃ w, completeLine s n l h gen endTick =
      lineGiveBack (countDrop w n dropRingFull) n { l with handle := .granted h gen } ∧ Moves [.pw, .qe, .fs] s w ∧ w.cap = s.cap := by
    let v := pixelsStored s n l h gen
    have lost : ringOn (getRing v (captureRing n)) = false ∨ ringFull (getRing v (captureRing n)) = true := by
      rw [getRing_pixelsStored]; exact lost
    have unposted : ¬(ringOn (getRing v (captureRing n)) && !ringFull (getRing v (captureRing n))) = true := by
      rcases lost with lost | lost <;> simp [lost]
    have post : (ringPost v (captureRing n) []).2 = v.modRing (captureRing n) fun g => { g with full := g.full + 1 } := by
      rw [ringPost_lost lost]
    have moves : Moves [.pw, .qe, .fs] s (ringPost v (captureRing n) []).2 :=
      post ▸ ((Moves.refl _ s).step (by decide) (pixelsStored_moves s n l h gen)).modRing (by decide) _ _
    exact ⟨_, if_neg unposted, moves, moves.only .cap (by decide)⟩
  have counted : (countDrop w n dropRingFull).cap = (setCap s n ((getCap s n).counted dropRingFull)).cap := by
    rw [countDrop_eq, getCap_congr cap, setCap_cap_congr cap]
  have moves : Moves [.cap, .pw, .qe, .fs] s (countDrop w n dropRingFull) :=
    countDrop_moves _ n _ ((Moves.refl _ s).step (by decide) moves) (by decide)
  rw [eq]
  exact ⟨(lineGiveBack_moves _ n _ moves (by decide)).only, (lineGiveBack_only _ _ _ .cap (by decide)).trans counted⟩

/-! ### The fall of LVAL (R228, R229) -/

theorem lineEndEffect_idle (idle : (getCap s n).line = none) : lineEndEffect n ws stored falls s = s := by
  simp only [lineEndEffect, idle]

theorem lineEndEffect_open (line : (getCap s n).line = some l) :
    lineEndEffect n ws stored false s = lineTake s n { l with words := l.words ++ ws } stored := by
  simp only [lineEndEffect, line]
  split <;> rfl

/-- LVAL falls on line m: a line that is too short is dropped, and any other is finished. -/
theorem lineEndEffect_falls {m : Line} (line : (getCap s n).line = some l)
    (take : lineTake s n { l with words := l.words ++ ws } stored = t) (mine : (getCap t n).line = some m) :
    lineEndEffect n ws stored true s =
      if m.drop.isNone && (pixelWords (getCap t n).group.active m.words).length != lineWords (getCap t n).group.active then
        endLine t n dropLength
      else finishLine t n m (now t) := by
  simp only [lineEndEffect, line, take, mine]
  rfl

theorem finishLine_dropped (dropped : l.drop = some r) (endTick : Nat) :
    finishLine s n l endTick = setCap s n { getCap s n with line := none } := by
  simp only [finishLine, dropped, modCap_eq_setCap]

theorem finishLine_waiting (fresh : l.drop = none) (waiting : l.handle = .waiting) (endTick : Nat) : finishLine s n l endTick =
    setCap s n { getCap s n with
      line := none, ending := (getCap s n).ending ++ [{ l with ended := some endTick, tags := 0 }] } := by
  simp only [finishLine, fresh, waiting, modCap_eq_setCap s, modCap_setCap]

theorem finishLine_granted (fresh : l.drop = none) (granted : l.handle = .granted h gen) (endTick : Nat) :
    finishLine s n l endTick = completeLine (setCap s n { getCap s n with line := none }) n l h gen endTick := by
  simp only [finishLine, fresh, granted, modCap_eq_setCap]

theorem getCap_grownLine (s : State) (n : Fin 16) (l : Line) (ws : List CamWord) (stored : Nat) :
    getCap (grownLine s n l ws stored) n =
      { getCap s n with line := some (l.grown (getCap s n).group.active ws stored) } := getCap_setCap ..

theorem dropLine_grown (fresh : l.drop = none) (s : State) (n : Fin 16) (r : Fin 13) : (dropLine (grownLine s n l ws stored) n r).cap =
    (setCap s n ((getCap s n).dropsLine (l.grown (getCap s n).group.active ws stored) r)).cap := by
  have mine := getCap_grownLine s n l ws stored
  rw [dropLine_cap, Cap.lineDropped_line (congrArg Cap.line mine) fresh, mine, grownLine, setCap_setCap]
  rfl

section
variable (line : (getCap s n).line = some l)
include line

/-- A line that was dropped before is followed until LVAL falls. -/
theorem lineEndEffect_dropped (dropped : l.drop = some r) : lineEndEffect n ws stored falls s =
    setCap s n { getCap s n with line := if falls then none else some (l.grown (getCap s n).group.active ws stored) } := by
  have take : lineTake s n { l with words := l.words ++ ws } stored = grownLine s n l ws stored := lineTake_dropped dropped
  cases falls with
  | false => exact (lineEndEffect_open line).trans take
  | true =>
    rw [lineEndEffect_falls line take (congrArg Cap.line (getCap_setCap ..))]
    have kept : (l.grown (getCap s n).group.active ws stored).drop = some r := dropped
    rw [if_neg (by simp [dropped]), finishLine_dropped kept, grownLine, setCap_setCap, getCap_setCap]
    rfl

variable (fresh : l.drop = none)
include fresh

theorem lineEndEffect_kept (fits : l.Fits (getCap s n).group.active ws stored) :
    lineEndEffect n ws stored false s = grownLine s n l ws stored :=
  (lineEndEffect_open line).trans (lineTake_fits fresh fits)

/-- A line that does not fit is dropped at once, and followed until LVAL falls. -/
theorem lineEndEffect_excess (excess : ¬l.Fits (getCap s n).group.active ws stored) :
    let g := (getCap s n).group.active
    let r := l.excess g ws
    Only [.cap, .pw] s (lineEndEffect n ws stored falls s) ∧ (lineEndEffect n ws stored falls s).cap =
      (setCap s n { (getCap s n).counted r with line := if falls then none else some ((l.grown g ws stored).dropped r) }).cap := by
  intro g r
  have take : lineTake s n { l with words := l.words ++ ws } stored = dropLine (grownLine s n l ws stored) n r :=
    lineTake_excess fresh excess
  have moves : Moves [.cap, .pw] s (dropLine (grownLine s n l ws stored) n r) :=
    dropLine_moves _ n r ((Moves.refl _ s).modCap (by decide) n _) fun _ h => h
  have cap := dropLine_grown (ws := ws) (stored := stored) fresh s n r
  cases falls with
  | false =>
    rw [lineEndEffect_open line, take]
    exact ⟨moves.only, cap⟩
  | true =>
    have mine := (getCap_congr cap).trans (getCap_setCap s n _)
    rw [lineEndEffect_falls line take (congrArg Cap.line mine), if_neg (by simp [Line.dropped]), finishLine_dropped rfl, mine]
    exact ⟨(moves.modCap (by decide) n _).only, setCap_cap_again cap _⟩

section
variable (fits : l.Fits (getCap s n).group.active ws stored)
include fits

/-- A line that ends before its length is dropped. -/
theorem lineEndEffect_short
    (short : (pixelWords (getCap s n).group.active (l.words ++ ws)).length ≠ lineWords (getCap s n).group.active) :
    Only [.cap, .pw] s (lineEndEffect n ws stored true s) ∧
      (lineEndEffect n ws stored true s).cap = (setCap s n { (getCap s n).counted dropLength with line := none }).cap := by
  have moves : Moves [.cap, .pw] s (grownLine s n l ws stored) := (Moves.refl _ s).modCap (by decide) n _
  have mine := getCap_grownLine s n l ws stored
  have kept : (l.grown (getCap s n).group.active ws stored).drop = none := fresh
  have ends : lineEndEffect n ws stored true s = endLine (grownLine s n l ws stored) n dropLength := by
    rw [lineEndEffect_falls line (lineTake_fits fresh fits) (congrArg Cap.line mine), mine, kept]
    exact if_pos (by simpa using short)
  rw [ends]
  refine ⟨(endLine_moves _ n _ moves fun _ h => h).only, ?_⟩
  rw [endLine_cap, Cap.lineDropped_line (congrArg Cap.line mine) kept, mine, grownLine, setCap_setCap]
  rfl

variable (whole : (pixelWords (getCap s n).group.active (l.words ++ ws)).length = lineWords (getCap s n).group.active)
include whole

theorem lineEndEffect_whole : lineEndEffect n ws stored true s =
    finishLine (grownLine s n l ws stored) n (l.grown (getCap s n).group.active ws stored) (now s) := by
  have mine := getCap_grownLine s n l ws stored
  rw [lineEndEffect_falls line (lineTake_fits fresh fits) (congrArg Cap.line mine), mine]
  exact if_neg (by simp [whole])

theorem lineEndEffect_waiting (waiting : l.handle = .waiting) : lineEndEffect n ws stored true s =
    setCap s n { getCap s n with
      line := none
      ending := (getCap s n).ending ++
        [{ l.grown (getCap s n).group.active ws stored with ended := some (now s), tags := 0 }] } := by
  rw [lineEndEffect_whole line fresh fits whole, finishLine_waiting (l := l.grown _ ws stored) fresh waiting, getCap_grownLine,
    grownLine, setCap_setCap]

theorem lineEndEffect_granted (granted : l.handle = .granted h gen) : lineEndEffect n ws stored true s =
    completeLine (setCap s n { getCap s n with line := none }) n (l.grown (getCap s n).group.active ws stored) h gen (now s) := by
  rw [lineEndEffect_whole line fresh fits whole, finishLine_granted (l := l.grown _ ws stored) fresh granted, getCap_grownLine,
    grownLine, setCap_setCap]

/-- A line with its handle becomes visible where its ring has room, and is counted. -/
theorem lineEndEffect_posted (granted : l.handle = .granted h gen) (on : ringOn (getRing s (captureRing n)) = true)
    (room : ringFull (getRing s (captureRing n)) = false) : ∃ relocked, (lineEndEffect n ws stored true s).cap =
      (setCap s n { getCap s n with line := none, relocked := relocked, cntLines := (getCap s n).cntLines + 1 }).cap := by
  let v := setCap s n { getCap s n with line := none }
  obtain ⟨relocked, cap⟩ := completeLine_posted (s := v) (l := l.grown (getCap s n).group.active ws stored) (h := h) (gen := gen)
    (endTick := now s) on room
  rw [lineEndEffect_granted line fresh fits whole granted]
  exact ⟨relocked, by rw [cap, getCap_setCap, setCap_setCap]⟩

/-- A line with its handle is dropped where its ring has no room. -/
theorem lineEndEffect_lost (granted : l.handle = .granted h gen)
    (lost : ringOn (getRing s (captureRing n)) = false ∨ ringFull (getRing s (captureRing n)) = true) :
    Only [.cap, .pw, .qe, .fs] s (lineEndEffect n ws stored true s) ∧
      (lineEndEffect n ws stored true s).cap = (setCap s n { (getCap s n).counted dropRingFull with line := none }).cap := by
  let v := setCap s n { getCap s n with line := none }
  have only : Only [.cap, .pw, .qe, .fs] s v := ((Moves.refl _ s).modCap (by decide) n _).only
  obtain ⟨only', cap⟩ := completeLine_lost (s := v) (l := l.grown (getCap s n).group.active ws stored) (h := h) (gen := gen)
    (endTick := now s) lost
  rw [lineEndEffect_granted line fresh fits whole granted]
  refine ⟨only.trans only', cap.trans ?_⟩
  rw [getCap_setCap, setCap_setCap]
  rfl

end

end

/-! ### The statement -/

/-- Settles O37: the rise of LVAL, the words of a line, its fall, and the window of a release, case by case. -/
theorem linesMatched : Obligations.LinesMatched := by
  intro s n fval skew ws stored falls hc c g becomes blank counted refused
  have go (i : State → State) : onSys s i = .next (i s) := onSys_clocked hc i
  have keeps {i : State → State} (e : i s = s) : onSys s i = .next s := (go i).trans (congrArg _ e)
  have sets {i : State → State} {c' : Cap} (e : i s = setCap s n c') : onSys s i = becomes c' := (go i).trans (congrArg _ e)
  refine ⟨fun odd live locked => ?_, fun single idle => keeps (lineStartEffect_idle single idle),
    fun single en locked idle => ?_, fun idle => keeps (lineEndEffect_idle idle), fun l line => ?_,
    fun young => keeps (expirePending_none young), fun r one old => ?_⟩
  · obtain ⟨r, mem, e⟩ := lineStartEffect_odd (fval := fval) (skew := skew) odd live locked
    exact ⟨r, mem, (go _).trans (congrArg _ e)⟩
  · refine ⟨fun retired mode => sets (lineStartEffect_retired single en locked idle retired mode),
      fun live bad mode => sets (lineStartEffect_bad single en locked idle live bad mode), fun live good mode => ?_,
      fun live good mode => ?_⟩
    · have starts {t : State} {c' : Cap} (e : startTriggered s n fval false = setCap t n c') (k : c'.group = c.group) :
          lineStartEffect n fval skew s = setCap t n c' :=
        lineStartEffect_triggered single en locked idle live good mode e k
      refine ⟨fun empty => sets (starts (startTriggered_empty empty) rfl), fun r rest first young =>
        ⟨fun early => sets (starts (startTriggered_early first young early) rfl), fun k due res pages => ?_, fun due res => ?_⟩⟩
      · exact (go _).trans (congrArg _ (starts (startTriggered_granted first young due res pages) rfl))
      · exact sets (starts (startTriggered_refused first young due res) rfl)
    · have starts := lineStartEffect_free (fval := fval) (skew := skew) single en locked idle live good mode
      exact (go _).trans (congrArg _ (starts.trans (advanceFree_startFree mode)))
  · intro words bytes issued kept whole
    refine ⟨fun r dropped => sets (lineEndEffect_dropped line dropped), fun fresh fits => ?_, fun fresh excess => ?_,
      fun fresh fits short => ?_, fun fresh fits length waiting => ?_, fun h gen fresh fits length granted => ?_⟩
    · exact sets (lineEndEffect_kept line fresh fits)
    · obtain ⟨only, cap⟩ := lineEndEffect_excess (falls := falls) line fresh excess
      exact ⟨_, go _, only, cap⟩
    · obtain ⟨only, cap⟩ := lineEndEffect_short line fresh fits short
      exact ⟨_, go _, only, cap⟩
    · exact sets (lineEndEffect_waiting line fresh fits length waiting)
    · refine ⟨fun on room => ?_, fun lost => ?_⟩
      · have only := (lineEndEffect_moves n ws stored true s (Moves.refl _ s) fun _ h => h).only.weaken
          (qs := [.cap, .pw, .qe, .dm, .fs, .free]) (by decide)
        obtain ⟨relocked, cap⟩ := lineEndEffect_posted line fresh fits length granted on room
        have mine := (getCap_congr cap).trans (getCap_setCap ..)
        exact ⟨_, go _, only, cap ▸ setCap_others s n _, congrArg Cap.line mine, congrArg Cap.cntLines mine,
          (congrArg Cap.drops mine :), (congrArg Cap.pending mine :)⟩
      · obtain ⟨only, cap⟩ := lineEndEffect_lost line fresh fits length granted lost
        exact ⟨_, go _, only, cap⟩
  · have only := (expirePending_moves s n (Moves.refl _ s) fun _ h => h).only
    have expires := expirePending_one one old
    rw [expires] at only
    refine ⟨_, (go _).trans (congrArg _ expires), only, ?_⟩
    rw [dropRelease_cap, setCap_setCap, getCap_setCap]
    rfl

end Sys2Proof.Machine
end

section
/-! The canonical form of both memories (O4, O5): a step is a tick on an empty queue or the command at its front, and each keeps
it. -/

namespace Sys2Proof.Machine

/-- Settles O4: the tick and every command keep the form, by the laws of their effects. -/
theorem memoryFormKept : Obligations.MemoryFormKept := by
  intro s t inv h
  cases queue : s.pending with
  | nil =>
    simp only [step, queue] at h
    cases h
    exact tick_memInv inv
  | cons c rest =>
    simp only [step, queue] at h
    exact (exec_moves h).mem inv

/-- Settles O5: nothing is listed in either memory at reset. -/
theorem memoryFormAtReset : Obligations.MemoryFormAtReset := ⟨rfl, rfl⟩

end Sys2Proof.Machine
end

section
/-! Grants of pages and handles (O39): which pages and which handle a grant takes (R257, R563), what RESERVE, MAP and ALLOC answer
(R258, R260, R264), and when a waiting operation is served (R259). -/

namespace Sys2Proof.Machine

variable {s : State} {c : PwClass} {o : Fin 16} {n res : Nat} {stride : BitVec 9} {dest : PwDest}

/-! ### Pages out of the free pool (R563) -/

theorem pickPages_fresh (n k : Nat) {pool : List (BitVec 12)} (nodup : pool.Nodup) (enough : n ≤ pool.length) :
    (pickPages n k pool).length = n ∧ (pickPages n k pool).Nodup ∧ ∀ p ∈ pickPages n k pool, p ∈ pool := by
  induction n generalizing k pool with
  | zero => exact ⟨rfl, List.nodup_nil, fun p h => nomatch h⟩
  | succ n ih =>
    have inside : Config.freeNat k % pool.length < pool.length := Nat.mod_lt _ (by omega)
    have mem : pool.getD (Config.freeNat k % pool.length) 0 ∈ pool := by
      rw [List.getD_eq_getElem _ _ inside]
      exact List.getElem_mem inside
    unfold pickPages
    dsimp only
    generalize pool.getD (Config.freeNat k % pool.length) 0 = p at mem
    obtain ⟨length, distinct, subset⟩ := ih (k + 1) (nodup.erase p) (by rw [List.length_erase_of_mem mem]; omega)
    refine ⟨congrArg (· + 1) length, List.nodup_cons.2 ⟨fun h => nodup.not_mem_erase (subset p h), distinct⟩, fun q h => ?_⟩
    rcases List.mem_cons.1 h with rfl | h
    · exact mem
    · exact List.mem_of_mem_erase (subset q h)

/-- The page numbers. -/
def allPages : List (BitVec 12) := (List.range 4096).map (BitVec.ofNat 12)

theorem allPages_nodup : allPages.Nodup := by
  refine List.Nodup.map_on (fun a ha b hb h => ?_) List.nodup_range
  have := congrArg BitVec.toNat h
  rw [List.mem_range] at ha hb
  simpa [Nat.mod_eq_of_lt ha, Nat.mod_eq_of_lt hb] using this

theorem freePages_eq (s : State) : freePages s = allPages.filter fun p => !decide (p ∈ takenPages s) := by
  simp only [freePages, allPages]

theorem freePages_nodup (s : State) : (freePages s).Nodup := freePages_eq s ▸ allPages_nodup.filter _

/-- A page that is counted free is in the pool: the pool loses at most one page for each page taken. -/
theorem freePageCount_le (s : State) : freePageCount s ≤ (freePages s).length := by
  have split : allPages.length = (freePages s).length + (allPages.filter fun p => decide (p ∈ takenPages s)).length := by
    rw [List.length_eq_length_filter_add fun p => !decide (p ∈ takenPages s), freePages_eq]
    simp only [Bool.not_not]
  have taken : (allPages.filter fun p => decide (p ∈ takenPages s)).length ≤ (takenPages s).length :=
    (List.subperm_of_subset (allPages_nodup.filter _) fun p h => of_decide_eq_true (List.mem_filter.1 h).2).length_le
  have all : allPages.length = 4096 := by simp [allPages]
  unfold freePageCount
  omega

theorem grantPages_iff : grantPages s c o n = true ↔ 1 ≤ n ∧ n ≤ 8 ∧ usedPages s c + n ≤ quotaPages s c ∧
    (c = .capture → usedChannel s o + n ≤ quotaChannel s o) ∧ n + owedPages s c ≤ freePageCount s := by
  simp only [grantPages, Bool.and_eq_true, Bool.or_eq_true, bne_iff_ne, decide_eq_true_eq, ← imp_iff_not_or, and_assoc]

theorem grantHandle_iff : grantHandle s c = true ↔
    usedHandles s c + 1 ≤ quotaHandles s c ∧ 1 + owedHandles s c ≤ freeHandleCount s := by
  simp only [grantHandle, Bool.and_eq_true, decide_eq_true_eq]

/-- The pages that a grant of n pages takes. -/
def grantedPages (s : State) (n : Nat) : List (BitVec 12) := pickPages n s.freeCtr (freePages s)

theorem grantedPages_fresh (h : grantPages s c o n = true) : (grantedPages s n).length = n ∧ (grantedPages s n).Nodup ∧
    ∀ p ∈ grantedPages s n, p ∈ freePages s := by
  obtain ⟨-, -, -, -, free⟩ := grantPages_iff.1 h
  exact pickPages_fresh n _ (freePages_nodup s) (by have := freePageCount_le s; omega)

/-! ### A handle taken (R257) -/

/-- The handle that a grant takes. -/
def grantedHandle (s : State) : Fin 2048 := (freeHandles s).getD (freeValue s % (freeHandles s).length) 0

theorem grantedHandle_free {t : State} (h : grantHandle s c = true) (same : t.pw.map = s.pw.map) :
    s.pw.map[(grantedHandle t).val].st = .free := by
  obtain ⟨-, free⟩ := grantHandle_iff.1 h
  have handles : freeHandles t = freeHandles s := by simp only [freeHandles, same]
  have inside : freeValue t % (freeHandles s).length < (freeHandles s).length := by
    rw [freeHandleCount_eq] at free
    exact Nat.mod_lt _ (by omega)
  have mem : grantedHandle t ∈ freeHandles s := by
    rw [grantedHandle, handles, List.getD_eq_getElem _ _ inside]
    exact List.getElem_mem inside
  simpa [freeHandles] using (List.mem_filter.1 mem).2

/-- An entry that takes pages: WRITING, with its GEN one more. -/
def MapEntry.taken (e : MapEntry) (c : PwClass) (o : Fin 16) (stride : BitVec 9) (pages : List (BitVec 12)) : MapEntry :=
  { st := .writing, cls := c, refs := 0, poison := false, owner := o, stride := stride, gen := e.gen + 1, pages := pages }

/-- The state in which the granted handle maps pages. -/
def withObject (s : State) (c : PwClass) (o : Fin 16) (stride : BitVec 9) (pages : List (BitVec 12)) : State :=
  { s with
    freeCtr := s.freeCtr + 1
    pw := { s.pw with map := upd s.pw.map (grantedHandle s) fun e => e.taken c o stride pages } }

theorem Moves.withObject {ps : List Part} {t : State} (h : Moves ps s t) (f : Part.free ∈ ps) (p : Part.pw ∈ ps) (c : PwClass)
    (o : Fin 16) (stride : BitVec 9) (pages : List (BitVec 12)) : Moves ps s (withObject t c o stride pages) :=
  (h.freeStep f).modPw p fun p => { p with map := upd p.map (grantedHandle t) fun e => e.taken c o stride pages }

/-- The handle that a grant takes, with its new GEN. -/
def grantedName (s : State) : Fin 2048 × BitVec 7 := (grantedHandle s, s.pw.map[(grantedHandle s).val].gen + 1)

theorem pwTakeHandle_eq (pages : List (BitVec 12)) :
    pwTakeHandle s c o stride pages = (grantedName s, withObject s c o stride pages) := rfl

/-! ### The answers of the Page Warden (R258, R260) -/

theorem pwReserve_refused (h : grantPages s c o n = false) : pwReserve s c o n = (none, pwRefuse s c) := by simp [pwReserve, h]

/-- The state in which the granted pages are reserved. -/
def withReservation (s : State) (c : PwClass) (o : Fin 16) (n : Nat) : State :=
  { s with
    freeCtr := s.freeCtr + n
    pw := { s.pw with
      reservations := s.pw.reservations ++ [⟨s.pw.nextRes, c, o, grantedPages s n⟩], nextRes := s.pw.nextRes + 1 } }

theorem Moves.withReservation {ps : List Part} {t : State} (h : Moves ps s t) (f : Part.free ∈ ps) (p : Part.pw ∈ ps)
    (c : PwClass) (o : Fin 16) (n : Nat) : Moves ps s (withReservation t c o n) :=
  (h.freeSteps f n).modPw p fun p =>
    { p with reservations := p.reservations ++ [⟨p.nextRes, c, o, grantedPages t n⟩], nextRes := p.nextRes + 1 }

theorem pwReserve_granted (h : grantPages s c o n = true) :
    pwReserve s c o n = (some s.pw.nextRes, withReservation s c o n) := by
  simp only [pwReserve, h, if_true]
  rfl

theorem pwMap_absent (h : (s.pw.reservations.find? fun r => r.num == res) = none) :
    pwMap s res stride = (none, pwRefuse s .capture) := by simp [pwMap, h]

theorem pwMap_refused {r : Reservation} (h : (s.pw.reservations.find? fun r => r.num == res) = some r)
    (g : grantHandle s r.cls = false) : pwMap s res stride = (none, pwRefuse s r.cls) := by simp [pwMap, h, g]

theorem pwMap_granted {r : Reservation} (h : (s.pw.reservations.find? fun r => r.num == res) = some r)
    (g : grantHandle s r.cls = true) : pwMap s res stride =
      (some (grantedName s), pwReturn (withObject s r.cls r.owner stride r.pages) res) := by
  simp only [pwMap, h, g, if_true, pwTakeHandle_eq]

theorem pwAlloc_refused (h : grantPages s c o n = false ∨ grantHandle s c = false) :
    pwAlloc s c o n stride = (none, pwRefuse s c) := by
  rcases h with h | h <;> simp [pwAlloc, h]

theorem pwAlloc_granted (h : grantPages s c o n = true) (g : grantHandle s c = true) : pwAlloc s c o n stride =
    (some (grantedName (s.freeSteps n)), withObject (s.freeSteps n) c o stride (grantedPages s n)) := by
  simp only [pwAlloc, h, g, Bool.and_self, if_true, pwTakeHandle_eq]
  rfl

/-! ### The order of service (R259) -/

theorem pwServe_waits {q : PwReq} (d : dest ≠ .none) (h : pwIsNext s q = false) (f : State → State) :
    pwServe s dest q f = s := by simp [pwServe, d, h]

theorem pwServe_next {q : PwReq} (d : dest ≠ .none) (h : pwIsNext s q = true) (f : State → State) :
    pwServe s dest q f = f (pwServed s q) := by simp [pwServe, d, h]

/-! ### The requesters' answers (R199, R287) -/

theorem getSlot_modSlot (s : State) (m : Fin 16) (i : Fin 64) (f : Slot → Slot) :
    getSlot (modSlot s m i f) m i = f (getSlot s m i) := by
  simp [getSlot, getTsq, modSlot, upd_same]

theorem reserveEffect_slot_refused {m : Fin 16} {i : Fin 64} (h : pwIsNext s (.reserve (.tsqSlot m i) c o n) = true)
    (waiting : (getSlot s m i).res = .waiting)
    (g : grantPages (pwServed s (.reserve (.tsqSlot m i) c o n)) c o n = false) :
    reserveEffect (.tsqSlot m i) c o n s =
      modSlot (pwRefuse (pwServed s (.reserve (.tsqSlot m i) c o n)) c) m i fun sl => { sl with res := .refused } := by
  rw [reserveEffect, pwServe_next (by simp) h, pwReserve_refused g]
  exact if_pos waiting

theorem reserveEffect_slot_granted {m : Fin 16} {i : Fin 64} (h : pwIsNext s (.reserve (.tsqSlot m i) c o n) = true)
    (waiting : (getSlot s m i).res = .waiting)
    (g : grantPages (pwServed s (.reserve (.tsqSlot m i) c o n)) c o n = true) :
    reserveEffect (.tsqSlot m i) c o n s =
      modSlot (withReservation (pwServed s (.reserve (.tsqSlot m i) c o n)) c o n) m i fun sl =>
        { sl with res := .granted s.pw.nextRes } := by
  rw [reserveEffect, pwServe_next (by simp) h, pwReserve_granted g]
  exact if_pos waiting

theorem allocEffect_host (h : pwIsNext s (.alloc .host c o n stride) = true) : allocEffect .host c o n stride s =
    hostAnswer (pwAlloc (pwServed s (.alloc .host c o n stride)) c o n stride).2
      (if (pwAlloc (pwServed s (.alloc .host c o n stride)) c o n stride).1.isSome then 0 else 1)
      (pwAlloc (pwServed s (.alloc .host c o n stride)) c o n stride).1 := pwServe_next (by simp) h _

/-! ### The statement -/

/-- Settles O39: the grant rule, RESERVE, RETURN, MAP and ALLOC, granted, refused and waiting, case by case. -/
theorem pageGrants : Obligations.PageGrants := by
  intro s dest c o n res stride m i hc refused taken fresh
  have go (f : State → State) : onSys s f = .next (f s) := onSys_clocked hc f
  have waits {q : PwReq} (d : dest ≠ .none) (h : pwIsNext s q = false) (f : State → State) :
      onSys s (fun s => pwServe s dest q f) = .next s := (go _).trans (congrArg _ (pwServe_waits d h f))
  have served (ps : List Part) (m : ∀ p ∈ [Part.pw], p ∈ ps) (q : PwReq) : Moves ps s (pwServed s q) :=
    pwServed_moves s q (Moves.refl ps s) m
  refine ⟨grantPages_iff, grantHandle_iff, fun d => ⟨fun h => waits d h _, fun h => waits d h _, fun h => waits d h _⟩,
    fun g => (go _).trans (congrArg _ ?_), fun g => ⟨grantedPages s n, grantedPages_fresh g, (go _).trans (congrArg _ ?_)⟩,
    fun h waiting => ?_, go fun s => pwReturn s res, fun absent => (go _).trans (congrArg _ ?_),
    fun r held => ⟨fun g => (go _).trans (congrArg _ ?_), fun g => ?_⟩, fun g => (go _).trans (congrArg _ ?_), fun p g => ?_,
    fun h => ⟨fun g => ?_, fun g => ?_⟩⟩
  · exact congrArg Prod.snd (pwReserve_refused g)
  · exact congrArg Prod.snd (pwReserve_granted g)
  · cases g : grantPages (pwServed s (.reserve (.tsqSlot m i) c o n)) c o n with
    | false =>
      refine ⟨_, (go _).trans (congrArg _ (reserveEffect_slot_refused h waiting g)), ?_, rfl, ?_⟩
      · exact ((pwRefuse_moves _ c (served [.tsq, .pw, .free] (by decide) _) (by decide)).modTsq (by decide) m _).only
      · exact (congrArg Slot.res (getSlot_modSlot _ m i _)).trans (if_neg (by simp [g])).symm
    | true =>
      refine ⟨_, (go _).trans (congrArg _ (reserveEffect_slot_granted h waiting g)), ?_, rfl, ?_⟩
      · have moved := served [.tsq, .pw, .free] (by decide) (.reserve (.tsqSlot m i) c o n)
        exact ((moved.withReservation (by decide) (by decide) c o n).modTsq (by decide) m _).only
      · exact (congrArg Slot.res (getSlot_modSlot _ m i _)).trans (if_pos g).symm
  · exact congrArg Prod.snd (pwMap_absent (stride := stride) absent)
  · exact congrArg Prod.snd (pwMap_refused (stride := stride) held g)
  · have e : mapEffect .none res stride s = _ := congrArg Prod.snd (pwMap_granted (stride := stride) held g)
    refine ⟨_, grantedHandle s, (go _).trans (congrArg _ e), ?_, ⟨grantedHandle_free g rfl, rfl⟩, rfl⟩
    exact (pwReturn_moves _ res ((Moves.refl [.pw, .free] s).withObject (by decide) (by decide) ..) (by decide)).only
  · exact congrArg Prod.snd (pwAlloc_refused (stride := stride) g)
  · have e : allocEffect .none c o n stride s = _ := congrArg Prod.snd (pwAlloc_granted (stride := stride) p g)
    refine ⟨_, grantedHandle (s.freeSteps n), grantedPages s n, (go _).trans (congrArg _ e), ?_, grantedPages_fresh p,
      ⟨grantedHandle_free g rfl, rfl⟩, rfl⟩
    exact (((Moves.refl [.pw, .free] s).freeSteps (by decide) n).withObject (by decide) (by decide) ..).only
  · have g' : grantPages s c o n = false ∨ grantHandle s c = false := by
      simpa only [Bool.and_eq_false_iff] using g
    have e := allocEffect_host h
    rw [pwAlloc_refused (s := pwServed s _) g'] at e
    refine ⟨_, (go _).trans (congrArg _ e), ?_, rfl, rfl⟩
    exact (hostAnswer_moves _ _ _ (pwRefuse_moves _ c (served [.pw, .qe] (by decide) _) (by decide)) (by decide)).only
  · obtain ⟨p, k⟩ : grantPages s c o n = true ∧ grantHandle s c = true := by simpa only [Bool.and_eq_true] using g
    have e := allocEffect_host h
    rw [pwAlloc_granted (s := pwServed s _) p k] at e
    refine ⟨_, grantedHandle ((pwServed s (.alloc .host c o n stride)).freeSteps n), grantedPages s n,
      (go _).trans (congrArg _ e), ?_, grantedPages_fresh p, ⟨grantedHandle_free k rfl, rfl⟩, rfl⟩
    have moved := (served [.pw, .qe, .free] (by decide) (.alloc .host c o n stride)).freeSteps (by decide) n
    exact (hostAnswer_moves _ _ _ (moved.withObject (by decide) (by decide) ..) (by decide)).only

end Sys2Proof.Machine
end

section
/-! The life of an object (O40): SEAL, ADDREF, RELEASE, ABANDON and TRIM of an object named by handle and GEN (R257, R258, R261),
the same for the host (R287), and the settings and counters of the Page Warden (R260, R265). -/

namespace Sys2Proof.Machine

variable {s : State} {h : Fin 2048} {gen : BitVec 7} {n : Nat} {e : MapEntry}

/-! ### The entry that a handle and GEN name (R257) -/

theorem objOf_gone (k : (getObj s h).st = .free ∨ (getObj s h).gen ≠ gen) : objOf s h gen = none := if_pos k

theorem objOf_live (st : (getObj s h).st ≠ .free) (g : (getObj s h).gen = gen) : objOf s h gen = some (getObj s h) :=
  if_neg (by simp [st, g])

/-- The state with the map entry of h replaced. -/
def withEntry (s : State) (h : Fin 2048) (e : MapEntry) : State :=
  { s with pw := { s.pw with map := upd s.pw.map h fun _ => e } }

theorem modObj_eq (f : MapEntry → MapEntry) : modObj s h f = withEntry s h (f (getObj s h)) := rfl

theorem withEntry_self : withEntry s h (getObj s h) = s := by
  have same : upd s.pw.map h (fun _ => getObj s h) = s.pw.map := upd_id _ _ _ rfl
  rw [withEntry, same]

theorem getObj_withEntry : getObj (withEntry s h e) h = e := upd_same _ _ _

/-! ### Pages and handles freed (R253, R261) -/

theorem freeObjPages_eq (pages : List (BitVec 12)) : freeObjPages s e pages = { s with pw := { s.pw with
    rewriting := if e.poison && !pages.isEmpty then s.pw.rewriting ++ [pages] else s.pw.rewriting } } := by
  unfold freeObjPages
  split <;> rfl

/-- The state in which an object with entry e was reclaimed from handle h. -/
def withReclaimed (s : State) (h : Fin 2048) (e : MapEntry) : State :=
  { s with pw := { s.pw with
      map := upd s.pw.map h fun _ => { MapEntry.init with gen := e.gen }
      rewriting := if e.poison && !e.pages.isEmpty then s.pw.rewriting ++ [e.pages] else s.pw.rewriting } }

theorem pwReclaim_withEntry : pwReclaim (withEntry s h e) h = withReclaimed s h e := by
  simp only [pwReclaim, getObj_withEntry, modObj_eq, freeObjPages_eq]
  simp only [withEntry, withReclaimed, upd_upd]

theorem pwReclaim_eq : pwReclaim s h = withReclaimed s h (getObj s h) := by
  simpa only [withEntry_self] using pwReclaim_withEntry (s := s) (h := h) (e := getObj s h)

/-! ### The operations of R258 -/

theorem pwSeal_gone (k : objOf s h gen = none) : pwSeal s h gen = (.stale, pwStale s) := by simp [pwSeal, k]

theorem pwAddref_gone (k : objOf s h gen = none) : pwAddref s h gen = (.stale, pwStale s) := by simp [pwAddref, k]

theorem pwRelease_gone (k : objOf s h gen = none) : pwRelease s h gen = (.stale, pwStale s) := by simp [pwRelease, k]

theorem pwAbandon_gone (k : objOf s h gen = none) : pwAbandon s h gen = (.stale, pwStale s) := by simp [pwAbandon, k]

theorem pwTrim_gone (k : objOf s h gen = none) : pwTrim s h gen n = pwStale s := by simp [pwTrim, k]

section
variable (k : objOf s h gen = some (getObj s h))
include k

theorem pwSeal_writing (st : (getObj s h).st = .writing) :
    pwSeal s h gen = (.ok, withEntry s h { getObj s h with st := .sealed_, refs := 1 }) := by
  simp only [pwSeal, k, st, if_true, modObj_eq]

theorem pwSeal_refused (st : (getObj s h).st ≠ .writing) : pwSeal s h gen = (.refused, pwRefuse s (getObj s h).cls) := by
  simp only [pwSeal, k, st, if_false]

theorem pwAddref_poison (p : (getObj s h).poison = true) : pwAddref s h gen = (.poison, s) := by
  simp only [pwAddref, k, p, if_true]

theorem pwAddref_full (p : (getObj s h).poison = false) (refs : 3 ≤ (getObj s h).refs) :
    pwAddref s h gen = (.refFull, s.modPw fun p => { p with cntRefFull := p.cntRefFull + 1 }) := by
  simp only [pwAddref, k, p, Bool.false_eq_true, if_false, refs, if_true]

theorem pwAddref_ok (p : (getObj s h).poison = false) (refs : (getObj s h).refs < 3) :
    pwAddref s h gen = (.ok, withEntry s h { getObj s h with refs := (getObj s h).refs + 1 }) := by
  simp only [pwAddref, k, p, Bool.false_eq_true, if_false, Nat.not_le.2 refs, modObj_eq]

theorem pwRelease_refused (refs : (getObj s h).refs = 0) : pwRelease s h gen = (.refused, pwRefuse s (getObj s h).cls) := by
  simp only [pwRelease, k, refs, if_true]

theorem pwRelease_more (refs : 1 < (getObj s h).refs) :
    pwRelease s h gen = (.ok, withEntry s h { getObj s h with refs := (getObj s h).refs - 1 }) := by
  have more : ¬(getObj s h).refs = 0 ∧ ¬(getObj s h).refs = 1 := by omega
  simp only [pwRelease, k, more, if_false, false_and, modObj_eq]

theorem pwRelease_last (refs : (getObj s h).refs = 1) (st : (getObj s h).st = .sealed_) :
    pwRelease s h gen = (.ok, withReclaimed s h (getObj s h)) := by
  simp only [pwRelease, k, refs, st, Nat.one_ne_zero, if_false, and_self, if_true, modObj_eq, pwReclaim_withEntry]
  rfl

theorem pwAbandon_writing (st : (getObj s h).st = .writing) :
    pwAbandon s h gen = (.ok, withReclaimed s h (getObj s h)) := by
  simp only [pwAbandon, k, st, if_true, pwReclaim_eq]

theorem pwAbandon_refused (st : (getObj s h).st ≠ .writing) :
    pwAbandon s h gen = (.refused, pwRefuse s (getObj s h).cls) := by
  simp only [pwAbandon, k, st, if_false]

theorem pwTrim_live : pwTrim s h gen n = { s with pw := { s.pw with
    map := upd s.pw.map h fun _ => { getObj s h with pages := (getObj s h).pages.take n }
    rewriting := if (getObj s h).poison && !((getObj s h).pages.drop n).isEmpty
      then s.pw.rewriting ++ [(getObj s h).pages.drop n] else s.pw.rewriting } } := by
  simp only [pwTrim, k, freeObjPages_eq]
  rfl

end

/-! ### The host's operations (R287) -/

theorem objectEffect_host {q : PwReq} (next : pwIsNext s q = true) (op : State → PwCode × State) :
    objectEffect .host q op s = hostAnswer (op (pwServed s q)).2 (hostCode (op (pwServed s q)).1) none :=
  pwServe_next (by simp) next _

/-- An operation of the host does in the Page Warden what the same one of nobody inside the model does, and its result tells the
outcome. -/
theorem objectEffect_host_result {q q' : PwReq} {op : State → PwCode × State} (hc : Clocked s) (next : pwIsNext s q = true)
    (moves : Moves [.pw] (pwServed s q) (op (pwServed s q)).2) {gone : Prop} (stale : gone → (op (pwServed s q)).1 = .stale) :
    ∃ t u, onSys s (objectEffect .host q op) = .next t ∧ onSys (pwServed s q) (objectEffect .none q' op) = .next u ∧
      Only [.pw, .qe] s t ∧ t.pw = u.pw ∧ t.qe.flags = s.qe.flags.set 6 ∧ t.qe.result.busy = false ∧
      t.qe.result.done = true ∧ t.qe.result.handle = s.qe.result.handle ∧ (gone → t.qe.result.code = 2) := by
  have qe : (op (pwServed s q)).2.qe = s.qe := moves.only .qe (by decide)
  have served := (pwServed_moves s q (Moves.refl [.pw, .qe] s) (by decide)).step (by decide) moves
  refine ⟨_, _, (onSys_clocked hc _).trans (congrArg _ (objectEffect_host next op)),
    onSys_clocked (s := pwServed s q) hc _,
    (hostAnswer_moves _ _ _ served (by decide)).only, rfl, ?_, rfl, rfl, ?_, fun g => congrArg hostCode (stale g)⟩
  · exact (congrArg (fun x : Qe => x.flags.set 6) qe :)
  · exact (congrArg (fun x : Qe => x.result.handle) qe :)

/-! ### The settings (R265) -/

theorem pwCommitEffect_none (k : s.pw.group.pending = false) : pwCommitEffect s = s := by simp [pwCommitEffect, k]

/-! ### The statement -/

/-- Settles O40: each operation by the state of the object, waiting and for the host, then the settings and the counters. -/
theorem objectLife : Obligations.ObjectLife := by
  intro s h gen n dest hc e becomes refused stale freed reclaimed forHost
  have go (f : State → State) : onSys s f = .next (f s) := onSys_clocked hc f
  -- what each operation of nobody inside the model answers
  have seals {x} (k : pwSeal s h gen = x) : exec (.seal .none h gen) s = .next x.2 := by rw [← k]; exact go _
  have addrefs {x} (k : pwAddref s h gen = x) : exec (.addref .none h gen) s = .next x.2 := by rw [← k]; exact go _
  have releases {x} (k : pwRelease s h gen = x) : exec (.release .none h gen) s = .next x.2 := by rw [← k]; exact go _
  have abandons {x} (k : pwAbandon s h gen = x) : exec (.abandon .none h gen) s = .next x.2 := by rw [← k]; exact go _
  have trims {x} (k : pwTrim s h gen n = x) : exec (.trim h gen n) s = .next x := by
    rw [← k]; exact go fun s => pwTrim s h gen n
  have waits {q : PwReq} (d : dest ≠ .none) (k : pwIsNext s q = false) (op : State → PwCode × State) :
      onSys s (objectEffect dest q op) = .next s := (go _).trans (congrArg _ (pwServe_waits d k _))
  have live {st : ObjState} (k : e.st = st) (st_ : st ≠ .free) (g : e.gen = gen) : objOf s h gen = some (getObj s h) :=
    objOf_live (by rw [← k] at st_; exact st_) g
  refine ⟨fun k => ?_, fun st g => ?_, fun st g => ?_, fun refs st g => ?_,
    fun d => ⟨fun k => waits d k _, fun k => waits d k _, fun k => waits d k _, fun k => waits d k _⟩,
    fun next => ?_, fun next => ?_, fun next => ?_, fun next => ?_, fun st g => ?_, fun k => ?_, fun k => ?_, go _⟩
  · have gone := objOf_gone k
    exact ⟨seals (pwSeal_gone gone), addrefs (pwAddref_gone gone), releases (pwRelease_gone gone), abandons (pwAbandon_gone gone),
      trims (pwTrim_gone gone)⟩
  · have k := live st (by decide) g
    exact ⟨seals (pwSeal_writing k st), abandons (pwAbandon_writing k st)⟩
  · have k := live st (by decide) g
    have sealed_ : (getObj s h).st ≠ .writing := by simp [show (getObj s h).st = .sealed_ from st]
    exact ⟨seals (pwSeal_refused k sealed_), abandons (pwAbandon_refused k sealed_), fun p => addrefs (pwAddref_poison k p),
      fun p refs => addrefs (pwAddref_full k p refs), fun p refs => addrefs (pwAddref_ok k p refs),
      fun refs => releases (pwRelease_last k refs st), fun refs => releases (pwRelease_more k refs)⟩
  · exact releases (pwRelease_refused (objOf_live st g) refs)
  · exact objectEffect_host_result hc next (pwSeal_moves _ h gen (Moves.refl _ _) (by decide))
      fun k => congrArg Prod.fst (pwSeal_gone (objOf_gone (s := pwServed s _) k))
  · exact objectEffect_host_result hc next (pwAddref_moves _ h gen (Moves.refl _ _) (by decide))
      fun k => congrArg Prod.fst (pwAddref_gone (objOf_gone (s := pwServed s _) k))
  · exact objectEffect_host_result hc next (pwRelease_moves _ h gen (Moves.refl _ _) (by decide))
      fun k => congrArg Prod.fst (pwRelease_gone (objOf_gone (s := pwServed s _) k))
  · exact objectEffect_host_result hc next (pwAbandon_moves _ h gen (Moves.refl _ _) (by decide))
      fun k => congrArg Prod.fst (pwAbandon_gone (objOf_gone (s := pwServed s _) k))
  · exact trims (pwTrim_live (objOf_live st g))
  · exact (go _).trans (congrArg _ (pwCommitEffect_none k))
  · intro g bad
    have invalid : quotaInvalid g = bad := by
      simp only [quotaInvalid, bad, Bool.decide_or]
    refine (go _).trans (congrArg _ ?_)
    rw [pwCommitEffect, if_pos k, ← invalid]
    rfl

end Sys2Proof.Machine
end

section
/-! Reads that found an uncorrectable error (O41): the repeats of R252 and how they end, and the rewrite of a poisoned page
(R253). -/

namespace Sys2Proof.Machine

variable {s : State} {addr : BitVec 24} {entry : Option (Fin 1024 × BitVec 16)} {repeats a : Nat} {found : Ecc}

/-! ### What a fault record leaves -/

theorem recordFault_pw (s : State) (f : FaultRec) : (recordFault s f).pw = s.pw :=
  (recordFault_moves s f (Moves.refl _ s) fun _ h => h).only .pw (by decide)

theorem recordFault_seq (s : State) (f : FaultRec) : (recordFault s f).qe.seq = nextSeq s.qe.seq := by
  simp only [recordFault, State.modQe_fields]
  split <;> rfl

theorem recordFault_only (s : State) (f : FaultRec) : Only [.qe, .dm] s (recordFault s f) :=
  (recordFault_moves s f (Moves.refl _ s) fun _ h => h).only

/-- A record made after a change of the Page Warden alone. -/
theorem recordFault_after {u : State} (h : Only [.pw] s u) (f : FaultRec) : Only [.pw, .qe, .dm] s (recordFault u f) ∧
    (recordFault u f).pw = u.pw ∧ (recordFault u f).qe.seq = nextSeq s.qe.seq := by
  refine ⟨(h.weaken (by decide)).trans ((recordFault_only u f).weaken (by decide)), recordFault_pw u f, ?_⟩
  rw [recordFault_seq, show u.qe = s.qe from h .qe (by decide)]

/-! ### What a read finds (R252, R254) -/

theorem eccFound_uncorrectable (h : codeWord a ∈ s.pw.badWords ∨ ∃ raw, found = .uncorrectable raw) :
    ∃ raw, eccFound s a found = .uncorrectable raw := by
  by_cases m : codeWord a ∈ s.pw.badWords
  · exact ⟨_, if_pos m⟩
  · obtain ⟨raw, rfl⟩ := h.resolve_left m
    exact ⟨raw, if_neg m⟩

theorem eccFound_good (h : codeWord a ∉ s.pw.badWords) : eccFound s a found = found := if_neg h

theorem eccFound_restartTimeout : eccFound (restartTimeout s entry) a found = eccFound s a found := by
  cases entry <;> rfl

/-! ### One repeat (R252) -/

theorem readRepeatEffect_over (h : 2 ≤ repeats) : readRepeatEffect addr entry repeats found s = s := if_pos h

/-- A first repeat that finds the word uncorrectable again is followed by a second one. -/
theorem readRepeatEffect_first {raw : BitVec 64} (h : eccFound s addr.toNat found = .uncorrectable raw) :
    readRepeatEffect addr entry 0 found s = restartTimeout s entry := by
  simp [readRepeatEffect, eccFound_restartTimeout, h]

theorem readRepeatEffect_second {raw : BitVec 64} (h : eccFound s addr.toNat found = .uncorrectable raw) :
    readRepeatEffect addr none 1 found s =
      (ueEffects s addr.toNat none).modPw fun p => { p with ueDone := p.ueDone ++ [codeWord addr.toNat] } := by
  simp [readRepeatEffect, restartTimeout, h]

theorem readRepeatEffect_clean (few : repeats < 2) (h : eccFound s addr.toNat found = .clean) : ∃ f,
    readRepeatEffect addr none repeats found s = recordFault
      (s.modPw fun p => { p with lastErr := BitVec.ofNat 32 (codeWord addr.toNat), lastErrKind := 2 }) f := by
  simp only [readRepeatEffect, Nat.not_le.2 few, if_false, restartTimeout, h]
  exact ⟨_, rfl⟩

theorem readRepeatEffect_corrected (few : repeats < 2) (h : eccFound s addr.toNat found = .corrected) : ∃ f,
    readRepeatEffect addr none repeats found s = recordFault (noteCorrected s addr.toNat) f := by
  simp only [readRepeatEffect, Nat.not_le.2 few, if_false, restartTimeout, h]
  exact ⟨_, rfl⟩

/-! ### A read that ended uncorrectable (R252) -/

/-- The page map with the object on the page of an address marked POISON. -/
def poisonedMap (s : State) (a : Nat) : Vector MapEntry 2048 :=
  match mappedAt s a with
  | none => s.pw.map
  | some h => upd s.pw.map h fun e => { e with poison := true }

theorem markPoison_eq (s : State) (a : Nat) : markPoison s a = { s with pw := { s.pw with map := poisonedMap s a } } := by
  unfold markPoison poisonedMap
  generalize mappedAt s a = object
  cases object <;> rfl

/-- The uncorrectable read counted and its object marked. -/
def ueNoted (s : State) (a : Nat) : State :=
  (markPoison s a).modPw fun p =>
    { p with cntUe := p.cntUe + 1, lastErr := BitVec.ofNat 32 (codeWord a), lastErrKind := 2, flags := p.flags.set 1 }

theorem ueEffects_none (s : State) (a : Nat) : ∃ f, ueEffects s a none = recordFault (ueNoted s a) f := ⟨_, rfl⟩

theorem ueNoted_only (s : State) (a : Nat) : Only [.pw] s (ueNoted s a) :=
  ((markPoison_moves s a (Moves.refl _ s) fun _ h => h).modPw (by decide) _).only

/-! ### The rewrite of a poisoned page (R253) -/

theorem poisonRewriteEffect_none (h : s.pw.rewriting = []) : poisonRewriteEffect s = s := by simp [poisonRewriteEffect, h]

theorem poisonRewriteEffect_page {p : BitVec 12} {rest : List (List (BitVec 12))} (h : s.pw.rewriting = [p] :: rest) :
    poisonRewriteEffect s = clearBad { s.modPw fun p => { p with rewriting := rest } with
      fs := memZero s.fs (4096 * p.toNat) 4096 } (4096 * p.toNat) 4096 := by
  simp only [poisonRewriteEffect, h]
  rfl

theorem mem_badWords_clearBad {w n : Nat} (h : w ∈ (clearBad s a n).pw.badWords) : w + 8 ≤ a ∨ a + n ≤ w := by
  simpa using (List.mem_filter.1 h).2

/-! ### The statement -/

/-- Settles O41: the repeats by what they find, then the rewrite. -/
theorem readErrors : Obligations.ReadErrors := by
  intro s addr repeats found hc word bad run
  have go (f : State → State) : onSys s f = .next (f s) := onSys_clocked hc f
  have good (h : ¬bad) : eccFound s addr.toNat found = found := eccFound_good fun m => h (.inl m)
  refine ⟨fun h => (go _).trans (congrArg _ (readRepeatEffect_over h)), fun b h => ?_, fun h b => ?_, fun few b h => ?_,
    fun few b h => ?_, fun r i b h => ?_, fun entry _ => ⟨_, go _, ?_⟩,
    fun h => (go _).trans (congrArg _ (poisonRewriteEffect_none h)), fun p rest h inv => ?_⟩
  · obtain ⟨raw, u⟩ := eccFound_uncorrectable b
    subst h
    exact (go _).trans (congrArg _ (readRepeatEffect_first u))
  · obtain ⟨raw, u⟩ := eccFound_uncorrectable b
    obtain ⟨f, e⟩ := ueEffects_none s addr.toNat
    obtain ⟨only, pw, seq⟩ := recordFault_after (ueNoted_only s addr.toNat) f
    rw [← e] at only pw seq
    subst h
    refine ⟨_, (go _).trans (congrArg _ (readRepeatEffect_second u)), only.trans ?_, ?_, seq⟩
    · exact ((Moves.refl _ _).modPw (by decide) _).only
    · rw [State.modPw, pw, ueNoted, markPoison_eq]
      unfold poisonedMap
      generalize mappedAt s addr.toNat = object
      cases object <;> rfl
  · obtain ⟨f, e⟩ := readRepeatEffect_clean few ((good b).trans h)
    obtain ⟨only, pw, seq⟩ := recordFault_after ((Moves.refl [.pw] s).modPw (by decide) _).only f
    exact ⟨_, (go _).trans (congrArg _ e), only, pw, seq⟩
  · obtain ⟨f, e⟩ := readRepeatEffect_corrected few ((good b).trans h)
    obtain ⟨only, pw, seq⟩ := recordFault_after ((Moves.refl [.pw] s).modPw (by decide) _).only f
    exact ⟨_, (go _).trans (congrArg _ e), only, pw, seq⟩
  · obtain ⟨raw, u⟩ := eccFound_uncorrectable b
    subst h
    exact (go _).trans (congrArg _ (readRepeatEffect_first u))
  · exact (readRepeatEffect_moves addr entry repeats found s (Moves.refl _ s) fun _ h => h).only
  · have e := poisonRewriteEffect_page h
    have only := (poisonRewriteEffect_moves s (Moves.refl _ s) fun _ h => h).only
    rw [e] at only
    have zeroed (x : Nat) := memRead_memZero (4096 * p.toNat) 4096 x inv.2
    refine ⟨_, (go _).trans (congrArg _ e), only, rfl, rfl, fun x outside => ?_, fun i inside => ?_,
      fun w m => mem_badWords_clearBad m⟩
    · exact (zeroed x).trans (if_neg (by omega))
    · exact (zeroed _).trans (if_pos (by omega))

end Sys2Proof.Machine
end

section
/-! The objects and references of a fabric streaming port (O50): when the port operates (R372, R380), what it answers (R376),
entries taken (R374, R375), and ALLOC, ADDREF, RELEASE, SEAL and ABANDON with the Page Warden's answer (R269, R270, R376). -/

namespace Sys2Proof.Machine

variable {s u : State} {p : Fin 8} {r : Fin 1024} {i : BitVec 16} {n : Nat} {stride : BitVec 9} {h : Fin 2048} {gen : BitVec 7}
  {hg : Fin 2048 × BitVec 7} {e : MapEntry} {t : Taken}

/-! ### The state of one port -/

theorem getFsp_congr (k : u.fsp = s.fsp) : getFsp u p = getFsp s p := congrArg (fun v : Vector Fsp 8 => v[p.val]) k

/-- Port p replaced. -/
def setPort (s : State) (p : Fin 8) (f : Fsp) : State := { s with fsp := upd s.fsp p fun _ => f }

theorem modFsp_eq (g : Fsp → Fsp) : s.modFsp p g = setPort s p (g (getFsp s p)) := rfl

theorem getFsp_setPort (f : Fsp) : getFsp (setPort s p f) p = f := upd_same _ _ _

theorem setPort_setPort (f f' : Fsp) : setPort (setPort s p f) p f' = setPort s p f' := by
  simp only [setPort, upd_upd]

/-- The port after an answer on RESP; an answer other than OK is counted. -/
def Fsp.answered (f : Fsp) (a : FspAnswer) (hg : Option (Fin 2048 × BitVec 7)) : Fsp :=
  { f with resp := some (a, hg), cntRefuse := if a = .ok then f.cntRefuse else f.cntRefuse + 1 }

theorem fspAnswer_eq (a : FspAnswer) (hg : Option (Fin 2048 × BitVec 7)) :
    fspAnswer s p a hg = setPort s p ((getFsp s p).answered a hg) := rfl

theorem getFsp_fspAnswer (a : FspAnswer) (hg : Option (Fin 2048 × BitVec 7)) :
    getFsp (fspAnswer s p a hg) p = (getFsp s p).answered a hg := upd_same _ _ _

theorem fspAnswer_setPort (f : Fsp) (a : FspAnswer) (hg : Option (Fin 2048 × BitVec 7)) :
    fspAnswer (setPort s p f) p a hg = setPort s p (f.answered a hg) := by
  rw [fspAnswer_eq, getFsp_setPort, setPort_setPort]

theorem fspAnswer_same (same : u.fsp = s.fsp) (a : FspAnswer) (hg : Option (Fin 2048 × BitVec 7)) :
    fspAnswer u p a hg = setPort u p ((getFsp s p).answered a hg) := by
  rw [fspAnswer_eq, getFsp_congr same]

theorem setPort_only (f : Fsp) : Only [.fsp] s (setPort s p f) :=
  ((Moves.refl [.fsp] s).modFsp (by decide) p fun _ => f).only

/-! ### Ports that operate (R372, R380, R424) -/

theorem fspReady_iff : fspReady s p = true ↔
    released s = true ∧ s.fsp[p.val].used = true ∧ fspClkBad s p = false ∧ fspIsolated s p = false := by
  simp only [fspReady, Bool.and_eq_true, Bool.not_eq_true', and_assoc]

theorem fspCmd_idle (idle : ¬fspReady s p = true) (f : State → State) : fspCmd s p f = s := if_neg idle

theorem fspCmd_ready (ready : fspReady s p = true) (f : State → State) : fspCmd s p f = f s := if_pos ready

/-! ### An answer of the Page Warden (R376) -/

/-- The Page Warden's answer given to the port, whose own state changes by g when it is OK. -/
def fspGives (x : PwCode × State) (p : Fin 8) (g : Fsp → Fsp) : State :=
  fspAnswer (if x.1 = .ok then x.2.modFsp p g else x.2) p (fspCode x.1) none

theorem fspGives_ok (same : u.fsp = s.fsp) (g : Fsp → Fsp) :
    fspGives (.ok, u) p g = setPort u p ((g (getFsp s p)).answered .ok none) := by
  rw [fspGives, if_pos rfl, modFsp_eq, fspAnswer_setPort, ← getFsp_congr same]
  rfl

theorem fspGives_other {c : PwCode} (other : c ≠ .ok) (same : u.fsp = s.fsp) (g : Fsp → Fsp) :
    fspGives (c, u) p g = setPort u p ((getFsp s p).answered (fspCode c) none) := by
  rw [fspGives, if_neg other, fspAnswer_same same]

/-- What waits is served first, and none of it is an operation of a port. -/
theorem pwTurn_fsp (s : State) (q : PwReq) : (pwTurn s q).fsp = s.fsp :=
  (pwTurn_moves s q (Moves.refl _ s) fun _ h => h).only .fsp (by decide)

theorem pwTurn_none (none : s.pw.waiting = []) (q : PwReq) : pwTurn s q = s := by simp [pwTurn, none, pwRunBefore]

theorem ownedBy_iff : ownedBy e p = true ↔ e.cls = .fabric ∧ e.owner.val = p.val := by
  simp only [ownedBy, Bool.and_eq_true, beq_iff_eq]

theorem tableFull_iff : tableFull s p = true ↔ 512 ≤ (getFsp s p).refs.length := decide_eq_true_iff

theorem fspOwn_gone (k : objOf s h gen = none) (f : State → State) :
    fspOwn s p h gen f = fspAnswer (pwStale s) p .stale none := by
  simp [fspOwn, k]

theorem fspOwn_notOwned (k : objOf s h gen = some e) (own : ¬ownedBy e p = true) (f : State → State) :
    fspOwn s p h gen f = fspAnswer s p .notown none := by simp [fspOwn, k, own]

theorem fspOwn_owned (k : objOf s h gen = some e) (own : ownedBy e p = true) (f : State → State) :
    fspOwn s p h gen f = f s := by simp [fspOwn, k, own]

/-! ### Entries taken and tags (R288, R374) -/

/-- Entry i of ring r is no longer offered. -/
def Qe.accepted (q : Qe) (r : Fin 1024) (i : BitVec 16) : Qe :=
  { q with taken := q.taken.map fun u => if u.ring = r ∧ u.idx = i then { u with offered := false } else u }

/-- Entry i of ring r taken by the port, the reference that it carries in the table. -/
def withAccepted (s : State) (p : Fin 8) (r : Fin 1024) (i : BitVec 16) (ref : Option (Fin 2048 × BitVec 7)) : State :=
  match ref with
  | none => { s with qe := s.qe.accepted r i }
  | some hg => { s with qe := s.qe.accepted r i, fsp := upd s.fsp p fun f => { f with refs := f.refs ++ [hg] } }

/-- The state in which the Page Warden serves an ALLOC of the port. -/
def allocTurn (s : State) (p : Fin 8) (n : Nat) (stride : BitVec 9) : State :=
  pwTurn s (.alloc (.fabric p) .fabric (Fin.ofNat 16 p.val) n stride)

/-- The state in which the Page Warden serves a SEAL of the port. -/
def sealTurn (s : State) (p : Fin 8) (h : Fin 2048) (gen : BitVec 7) : State := pwTurn s (.seal (.fabric p) h gen)

/-- A tag of the port taken for an object; its rings leave their turns when it was the last (R289). -/
def withTag (s : State) (p : Fin 8) (hg : Fin 2048 × BitVec 7) : State :=
  let u := s.modFsp p fun f => { f with allocTags := f.allocTags ++ [hg] }
  if tagFree u (.fabric p) then u else clearTurns u (.fabric p)

theorem Moves.withTag {ps : List Part} (k : Moves ps s u) (m : ∀ q ∈ [Part.qe, .fsp], q ∈ ps) : Moves ps s (withTag u p hg) := by
  have moved := k.modFsp (m .fsp (by decide)) p fun f => { f with allocTags := f.allocTags ++ [hg] }
  exact moved.ite (clearTurns_moves _ _ moved (within m (by decide)))

theorem getFsp_withTag : getFsp (withTag s p hg) p = { getFsp s p with allocTags := (getFsp s p).allocTags ++ [hg] } := by
  let u := s.modFsp p fun f => { f with allocTags := f.allocTags ++ [hg] }
  have keeps : Moves [.qe] u (withTag s p hg) :=
    (Moves.refl _ u).ite (clearTurns_moves u _ (Moves.refl _ u) (by decide))
  rw [getFsp, keeps.only .fsp (by decide)]
  exact upd_same _ _ _

/-- A tag given back moves nothing of the port but the tag. -/
theorem freeAllocTag_keeps (s : State) (p : Fin 8) (hg : Fin 2048 × BitVec 7) :
    Only [.qe] (setPort s p { getFsp s p with allocTags := (getFsp s p).allocTags.erase hg }) (freeAllocTag s p hg) :=
  (afterTagFreed_moves s _ (.fabric p) (Moves.refl [.qe] _) (by decide)).only

theorem getFsp_freeAllocTag : getFsp (freeAllocTag s p hg) p =
    { getFsp s p with allocTags := (getFsp s p).allocTags.erase hg } :=
  (getFsp_congr (freeAllocTag_keeps s p hg .fsp (by decide))).trans (getFsp_setPort _)

section
variable (ready : fspReady s p = true)
include ready

/-! ### TAKE (R374, R375) -/

theorem fspTakeEffect_found (found : findTaken s r i = some t) : fspTakeEffect p r i s =
    if t.cons = .fabric p ∧ t.offered = true ∧ t.verdict = 0 ∧ (t.ref = none ∨ (getFsp s p).refs.length < 512) then
      withAccepted s p r i t.ref
    else s := by
  simp only [fspTakeEffect, fspCmd_ready ready, found, tableFull, Bool.and_eq_true, Bool.or_eq_true, beq_iff_eq,
    Option.isNone_iff_eq_none, Bool.not_eq_true', decide_eq_false_iff_not, Nat.not_le, and_assoc]
  cases t.ref <;> rfl

theorem fspTakeEffect_other (other : ∀ t, findTaken s r i = some t → t.cons ≠ .fabric p ∨ t.offered = false ∨ t.verdict ≠ 0) :
    fspTakeEffect p r i s = s := by
  cases found : findTaken s r i with
  | none => simp only [fspTakeEffect, fspCmd_ready ready, found]
  | some t =>
    rw [fspTakeEffect_found ready found]
    refine if_neg fun ⟨cons, offered, good, _⟩ => ?_
    rcases other t found with k | k | k
    · exact k cons
    · simp [offered] at k
    · exact k good

/-! ### ALLOC (R376) -/

theorem fspAllocEffect_tags (exhausted : tagFree s (.fabric p) = false) :
    fspAllocEffect p n stride s = setPort s p ((getFsp s p).answered .tags none) := by
  simp only [fspAllocEffect, fspCmd_ready ready, exhausted, Bool.not_false, if_true, fspAnswer_eq]

theorem fspAllocEffect_none (free : tagFree s (.fabric p) = true)
    (k : pwAlloc (allocTurn s p n stride) .fabric (Fin.ofNat 16 p.val) n stride = (none, u)) :
    fspAllocEffect p n stride s = fspAnswer u p .refused none := by
  rw [allocTurn] at k
  simp only [fspAllocEffect, fspCmd_ready ready, free, Bool.not_true, Bool.false_eq_true, if_false, k]

theorem fspAllocEffect_some (free : tagFree s (.fabric p) = true)
    (k : pwAlloc (allocTurn s p n stride) .fabric (Fin.ofNat 16 p.val) n stride = (some hg, u)) :
    fspAllocEffect p n stride s = fspAnswer (withTag u p hg) p .ok (some hg) := by
  rw [allocTurn] at k
  simp only [fspAllocEffect, fspCmd_ready ready, free, Bool.not_true, Bool.false_eq_true, if_false, k]
  rfl

theorem fspAllocEffect_refused (free : tagFree s (.fabric p) = true)
    (k : grantPages (allocTurn s p n stride) .fabric (Fin.ofNat 16 p.val) n = false ∨
      grantHandle (allocTurn s p n stride) .fabric = false) :
    fspAllocEffect p n stride s =
      setPort (pwRefuse (allocTurn s p n stride) .fabric) p ((getFsp s p).answered .refused none) := by
  rw [fspAllocEffect_none ready free (pwAlloc_refused k)]
  exact fspAnswer_same (u := pwRefuse (allocTurn s p n stride) .fabric) (pwTurn_fsp s _) _ _

theorem fspAllocEffect_granted (free : tagFree s (.fabric p) = true)
    (k : grantPages (allocTurn s p n stride) .fabric (Fin.ofNat 16 p.val) n = true)
    (g : grantHandle (allocTurn s p n stride) .fabric = true) :
    Only [.free, .pw, .qe, .fsp] (allocTurn s p n stride) (fspAllocEffect p n stride s) ∧
      ∃ x, getFsp (fspAllocEffect p n stride s) p =
        { getFsp s p with allocTags := (getFsp s p).allocTags ++ [x], resp := some (.ok, some x) } := by
  have answer := pwAlloc_granted (stride := stride) k g
  have moved := pwAlloc_moves (allocTurn s p n stride) .fabric (Fin.ofNat 16 p.val) n stride
    (Moves.refl [.free, .pw, .qe, .fsp] _) (by decide)
  have same : (pwAlloc (allocTurn s p n stride) .fabric (Fin.ofNat 16 p.val) n stride).2.fsp = s.fsp :=
    ((pwAlloc_moves _ _ _ _ _ (Moves.refl _ _) fun _ h => h).only .fsp (by decide)).trans (pwTurn_fsp s _)
  rw [answer] at moved same
  rw [fspAllocEffect_some ready free answer]
  refine ⟨(fspAnswer_moves _ p _ _ (moved.withTag (by decide)) (by decide)).only,
    grantedName ((allocTurn s p n stride).freeSteps n), ?_⟩
  rw [fspAnswer_eq, getFsp_setPort, getFsp_withTag, getFsp_congr same]
  rfl

/-! ### ADDREF, RELEASE and SEAL (R375, R376) -/

theorem fspAddrefEffect_noref (absent : (h, gen) ∉ (getFsp s p).refs) :
    fspAddrefEffect p h gen s = setPort s p ((getFsp s p).answered .noref none) := by
  simp only [fspAddrefEffect, fspCmd_ready ready, holdsRef, absent, decide_false, Bool.not_false, if_true, fspAnswer_eq]

theorem fspAddrefEffect_limit (held : (h, gen) ∈ (getFsp s p).refs) (full : 512 ≤ (getFsp s p).refs.length) :
    fspAddrefEffect p h gen s = setPort s p ((getFsp s p).answered .limit none) := by
  simp only [fspAddrefEffect, fspCmd_ready ready, holdsRef, held, tableFull, full, decide_true, Bool.not_true,
    Bool.false_eq_true, if_false, if_true, fspAnswer_eq]

theorem fspAddrefEffect_asks (held : (h, gen) ∈ (getFsp s p).refs) (room : (getFsp s p).refs.length < 512) :
    fspAddrefEffect p h gen s = fspGives (pwAddref (pwTurn s (.addref (.fabric p) h gen)) h gen) p fun f =>
      { f with refs := f.refs ++ [(h, gen)] } := by
  simp only [fspAddrefEffect, fspCmd_ready ready, holdsRef, held, tableFull, Nat.not_le.2 room, decide_true, decide_false,
    Bool.not_true, Bool.false_eq_true, if_false]
  rfl

theorem fspReleaseEffect_noref (absent : (h, gen) ∉ (getFsp s p).refs) :
    fspReleaseEffect p h gen s = setPort s p ((getFsp s p).answered .noref none) := by
  simp only [fspReleaseEffect, fspCmd_ready ready, holdsRef, absent, decide_false, Bool.not_false, if_true, fspAnswer_eq]

theorem fspReleaseEffect_asks (held : (h, gen) ∈ (getFsp s p).refs) :
    fspReleaseEffect p h gen s = fspGives (pwRelease s h gen) p fun f => { f with refs := f.refs.erase (h, gen) } := by
  simp only [fspReleaseEffect, fspCmd_ready ready, holdsRef, held, decide_true, Bool.not_true, Bool.false_eq_true, if_false]
  rfl

/-- The last reference released: the object is reclaimed. -/
theorem fspReleaseEffect_last (held : (h, gen) ∈ (getFsp s p).refs) (k : objOf s h gen = some (getObj s h))
    (refs : (getObj s h).refs = 1) (st : (getObj s h).st = .sealed_) :
    (getObj (fspReleaseEffect p h gen s) h).st = .free ∧ getFsp (fspReleaseEffect p h gen s) p =
      { getFsp s p with refs := (getFsp s p).refs.erase (h, gen), resp := some (.ok, none) } := by
  rw [fspReleaseEffect_asks ready held, pwRelease_last k refs st, fspGives_ok rfl]
  exact ⟨congrArg MapEntry.st (upd_same s.pw.map h _), getFsp_setPort _⟩

theorem fspSealEffect_gone (k : objOf (sealTurn s p h gen) h gen = none) : fspSealEffect p h gen s =
    setPort (pwStale (sealTurn s p h gen)) p ((getFsp s p).answered .stale none) := by
  rw [fspSealEffect, fspCmd_ready ready]
  exact (fspOwn_gone k _).trans (fspAnswer_same (u := pwStale (sealTurn s p h gen)) (pwTurn_fsp s _) _ _)

theorem fspSealEffect_notOwned (k : objOf (sealTurn s p h gen) h gen = some e) (own : ¬ownedBy e p = true) :
    fspSealEffect p h gen s = setPort (sealTurn s p h gen) p ((getFsp s p).answered .notown none) := by
  rw [fspSealEffect, fspCmd_ready ready]
  exact (fspOwn_notOwned k own _).trans (fspAnswer_same (pwTurn_fsp s _) _ _)

theorem fspSealEffect_full (k : objOf (sealTurn s p h gen) h gen = some e) (own : ownedBy e p = true)
    (full : 512 ≤ (getFsp s p).refs.length) :
    fspSealEffect p h gen s = setPort (sealTurn s p h gen) p ((getFsp s p).answered .refused none) := by
  have same : getFsp (sealTurn s p h gen) p = getFsp s p := getFsp_congr (pwTurn_fsp s _)
  rw [fspSealEffect, fspCmd_ready ready]
  refine (fspOwn_owned k own _).trans ?_
  rw [← same] at full ⊢
  exact if_pos (tableFull_iff.2 full)

theorem fspSealEffect_asks (k : objOf (sealTurn s p h gen) h gen = some e) (own : ownedBy e p = true)
    (room : (getFsp s p).refs.length < 512) : fspSealEffect p h gen s =
      fspGives (pwSeal (sealTurn s p h gen) h gen) p fun f => { f with refs := f.refs ++ [(h, gen)] } := by
  have same : getFsp (sealTurn s p h gen) p = getFsp s p := getFsp_congr (pwTurn_fsp s _)
  rw [fspSealEffect, fspCmd_ready ready]
  refine (fspOwn_owned k own _).trans (if_neg ?_)
  rw [tableFull_iff, same]
  exact Nat.not_le.2 room

/-! ### ABANDON (R376) -/

theorem fspAbandonEffect_gone (k : objOf s h gen = none) :
    fspAbandonEffect p h gen s = setPort (pwStale s) p ((getFsp s p).answered .stale none) := by
  rw [fspAbandonEffect, fspCmd_ready ready, fspOwn_gone k]
  rfl

theorem fspAbandonEffect_notOwned (k : objOf s h gen = some e) (own : ¬ownedBy e p = true) :
    fspAbandonEffect p h gen s = setPort s p ((getFsp s p).answered .notown none) := by
  rw [fspAbandonEffect, fspCmd_ready ready, fspOwn_notOwned k own, fspAnswer_eq]

theorem fspAbandonEffect_refused (k : objOf s h gen = some (getObj s h)) (own : ownedBy (getObj s h) p = true)
    (st : (getObj s h).st ≠ .writing) :
    fspAbandonEffect p h gen s = setPort (pwRefuse s (getObj s h).cls) p ((getFsp s p).answered .refused none) := by
  rw [fspAbandonEffect, fspCmd_ready ready, fspOwn_owned k own, pwAbandon_refused k st]
  rfl

/-- An object of the port that is still WRITING is reclaimed, and its tag is free. -/
theorem fspAbandonEffect_frees (k : objOf s h gen = some (getObj s h)) (own : ownedBy (getObj s h) p = true)
    (st : (getObj s h).st = .writing) :
    (getObj (fspAbandonEffect p h gen s) h).st = .free ∧ getFsp (fspAbandonEffect p h gen s) p =
      { getFsp s p with allocTags := (getFsp s p).allocTags.erase (h, gen), resp := some (.ok, none) } := by
  let u := withReclaimed s h (getObj s h)
  have effect : fspAbandonEffect p h gen s = fspAnswer (freeAllocTag u p (h, gen)) p .ok none := by
    rw [fspAbandonEffect, fspCmd_ready ready, fspOwn_owned k own, pwAbandon_writing k st]
    rfl
  have freed : (getObj u h).st = .free := congrArg MapEntry.st (upd_same s.pw.map h _)
  have kept : (freeAllocTag u p (h, gen)).pw = u.pw := freeAllocTag_keeps u p (h, gen) .pw (by decide)
  rw [effect]
  exact ⟨(congrArg (fun x : Pw => x.map[h.val].st) kept).trans freed,
    (getFsp_fspAnswer _ _).trans (congrArg (·.answered .ok none) getFsp_freeAllocTag)⟩

end

end Sys2Proof.Machine
end

section
/-! The bursts of a fabric streaming port (O50): the beats of a READ (R252, R377) and of a WRITE into an object the port allocated
(R255, R376). -/

namespace Sys2Proof.Machine

variable {s : State} {p : Fin 8} {h : Fin 2048} {gen : BitVec 7} {e : MapEntry} {o a beats : Nat} {ecc : List Ecc}
  {data : List Byte}

/-! ### Bytes written into an object (R249, R255) -/

theorem objWrite_map (bs : List Byte) (s : State) (o : Nat) : (objWrite s e o bs).pw.map = s.pw.map := by
  induction bs generalizing s o with
  | nil => rfl
  | cons b bs ih =>
    unfold objWrite
    dsimp only
    rw [ih]
    cases objAddr e o <;> rfl

/-- Bytes that fall on consecutive addresses are written there. -/
theorem objWrite_fs (bs : List Byte) {s : State} {o a : Nat} (place : ∀ k, k < bs.length → objAddr e (o + k) = some (a + k)) :
    (objWrite s e o bs).fs = memWriteBytes s.fs a bs := by
  induction bs generalizing s o a with
  | nil => rfl
  | cons b bs ih =>
    have first : objAddr e o = some a := place 0 (by simp)
    unfold objWrite
    simp only [first]
    refine (ih fun k hk => ?_).trans rfl
    rw [Nat.add_assoc, Nat.add_assoc, Nat.add_comm 1 k]
    exact place (k + 1) (by simpa using hk)

/-- The bytes of a beat lie in one page. -/
theorem objAddr_beat (aligned : o % 32 = 0) (place : objAddr e o = some a) {k : Nat} (hk : k < 32) :
    objAddr e (o + k) = some (a + k) := by
  unfold objAddr at place ⊢
  split at place
  next inside =>
    cases place
    have size : objSize e = 4096 * e.pages.length := rfl
    have page : (o + k) / 4096 = o / 4096 := by omega
    have offset : (o + k) % 4096 = o % 4096 + k := by omega
    rw [if_pos (by omega), page, offset, Nat.add_assoc]
  next => cases place

/-! ### One beat -/

theorem readBeat_beyond (beyond : objAddr e o = none) :
    readBeat s e o ecc = ((.range, List.replicate 32 0), pwRange s) := by simp [readBeat, beyond]

theorem readBeat_data (inside : objAddr e o ≠ none) : (readBeat s e o ecc).1 =
    (if (objWords e o 32 ecc).any (isBad s) then .poison else .ok,
      (objWords e o 32 ecc).flatMap fun w => codeBytes s w.1 w.2) := by
  rw [readBeat, if_neg (by simpa using inside)]

theorem readBeats_length (n o : Nat) (ecc : List Ecc) (s : State) : (readBeats e n o ecc s).1.length = n := by
  induction n generalizing o ecc s with
  | zero => rfl
  | succ n ih => exact congrArg (· + 1) (ih _ _ _)

theorem readBeats_one : readBeats e 1 o ecc s = ([(readBeat s e o ecc).1], (readBeat s e o ecc).2) := rfl

/-- The bytes of one beat, zeros behind the end of what was given. -/
def beatBytes (data : List Byte) : List Byte := (data.take 32 ++ List.replicate 32 0).take 32

theorem writeBeats_one : writeBeats e 1 o data s =
    if (objAddr e o).isSome then objWrite s e o (beatBytes data) else pwRange s := rfl

theorem beatBytes_whole (whole : data.length = 32) : beatBytes data = data := by
  rw [beatBytes, List.take_of_length_le (l := data) whole.le, List.take_left' whole]

theorem writeBeats_map (n o : Nat) (data : List Byte) (s : State) : (writeBeats e n o data s).pw.map = s.pw.map := by
  induction n generalizing o data s with
  | zero => rfl
  | succ n ih =>
    unfold writeBeats
    refine (ih _ _ _).trans ?_
    split
    · exact objWrite_map _ s o
    · rfl

/-! ### READ and WRITE (R376, R377) -/

theorem burstOk_iff : burstOk o beats = true ↔ 1 ≤ beats ∧ beats ≤ 256 ∧ o % 32 = 0 := by
  simp only [burstOk, Bool.and_eq_true, decide_eq_true_eq, beq_iff_eq, and_assoc]

theorem fspReadEffect_noBurst (bad : ¬burstOk o beats = true) : fspReadEffect p h gen o beats ecc s = s := by
  simp [fspReadEffect, fspCmd, bad]

theorem fspWriteEffect_noBurst (bad : ¬burstOk o beats = true) : fspWriteEffect p h gen o beats data s = s := by
  simp [fspWriteEffect, fspCmd, bad]

section
variable (ready : fspReady s p = true) (burst : burstOk o beats = true)
include ready burst

theorem fspReadEffect_noref (absent : (h, gen) ∉ (getFsp s p).refs) :
    fspReadEffect p h gen o beats ecc s = setPort s p ((getFsp s p).answered .noref none) := by
  simp only [fspReadEffect, fspCmd_ready ready, burst, holdsRef, absent, decide_false, Bool.not_true, Bool.not_false,
    Bool.false_eq_true, if_false, if_true, fspAnswer_eq]

theorem fspReadEffect_gone (held : (h, gen) ∈ (getFsp s p).refs) (k : objOf s h gen = none) :
    fspReadEffect p h gen o beats ecc s = setPort (pwStale s) p ((getFsp s p).answered .stale none) := by
  simp only [fspReadEffect, fspCmd_ready ready, burst, holdsRef, held, k, decide_true, Bool.not_true, Bool.false_eq_true,
    if_false]
  rfl

/-- A READ of a live object: the port with the data of the beats, and what reading them did in the Page Warden. -/
theorem fspReadEffect_reads (held : (h, gen) ∈ (getFsp s p).refs) (k : objOf s h gen = some e) :
    getFsp (fspReadEffect p h gen o beats ecc s) p =
        { getFsp s p with
          rdata := (readBeats e beats o ecc s).1, cntBeats := (getFsp s p).cntBeats + BitVec.ofNat 32 beats
          resp := some (.ok, none) } ∧
      (fspReadEffect p h gen o beats ecc s).pw = (readBeats e beats o ecc s).2.pw := by
  have same : getFsp (readBeats e beats o ecc s).2 p = getFsp s p :=
    getFsp_congr ((readBeats_moves e beats o ecc s (Moves.refl _ s) fun _ h => h).only .fsp (by decide))
  have effect : fspReadEffect p h gen o beats ecc s = fspAnswer ((readBeats e beats o ecc s).2.modFsp p fun f =>
      { f with rdata := (readBeats e beats o ecc s).1, cntBeats := f.cntBeats + BitVec.ofNat 32 beats }) p .ok none := by
    simp only [fspReadEffect, fspCmd_ready ready, burst, holdsRef, held, k, decide_true, Bool.not_true, Bool.false_eq_true,
      if_false]
  rw [effect, modFsp_eq, fspAnswer_setPort, same]
  exact ⟨getFsp_setPort _, rfl⟩

theorem fspWriteEffect_gone (k : objOf s h gen = none) :
    fspWriteEffect p h gen o beats data s = setPort (pwStale s) p ((getFsp s p).answered .stale none) := by
  simp only [fspWriteEffect, fspCmd_ready ready, burst, Bool.not_true, Bool.false_eq_true, if_false, fspOwn_gone k]
  rfl

theorem fspWriteEffect_notOwned (k : objOf s h gen = some e) (own : ¬ownedBy e p = true) :
    fspWriteEffect p h gen o beats data s = setPort s p ((getFsp s p).answered .notown none) := by
  simp only [fspWriteEffect, fspCmd_ready ready, burst, Bool.not_true, Bool.false_eq_true, if_false, fspOwn_notOwned k own,
    fspAnswer_eq]

theorem fspWriteEffect_notWriting (k : objOf s h gen = some e) (own : ownedBy e p = true) (st : (getObj s h).st ≠ .writing) :
    fspWriteEffect p h gen o beats data s = setPort s p ((getFsp s p).answered .notown none) := by
  simp only [fspWriteEffect, fspCmd_ready ready, burst, Bool.not_true, Bool.false_eq_true, if_false, fspOwn_owned k own, st,
    fspAnswer_eq]

/-- A WRITE into an object of the port that is still WRITING: the port, and what writing the beats did in both blocks. -/
theorem fspWriteEffect_writes (k : objOf s h gen = some e) (own : ownedBy e p = true) (st : (getObj s h).st = .writing) :
    getFsp (fspWriteEffect p h gen o beats data s) p =
        { getFsp s p with cntBeats := (getFsp s p).cntBeats + BitVec.ofNat 32 beats, resp := some (.ok, none) } ∧
      (fspWriteEffect p h gen o beats data s).pw = (writeBeats (getObj s h) beats o data s).pw ∧
      (fspWriteEffect p h gen o beats data s).fs = (writeBeats (getObj s h) beats o data s).fs := by
  have same : getFsp (writeBeats (getObj s h) beats o data s) p = getFsp s p :=
    getFsp_congr ((writeBeats_moves _ beats o data s (Moves.refl _ s) fun _ h => h).only .fsp (by decide))
  simp only [fspWriteEffect, fspCmd_ready ready, burst, Bool.not_true, Bool.false_eq_true, if_false, fspOwn_owned k own, st,
    if_true]
  rw [modFsp_eq, fspAnswer_setPort, same]
  exact ⟨getFsp_setPort _, rfl, rfl⟩

end

/-! ### A burst of one beat -/

theorem readBeats_one_beyond (beyond : objAddr e o = none) :
    readBeats e 1 o ecc s = ([(.range, List.replicate 32 0)], pwRange s) := by
  rw [readBeats_one, readBeat_beyond beyond]

theorem writeBeats_one_beyond (beyond : objAddr e o = none) : writeBeats e 1 o data s = pwRange s := by
  simp [writeBeats_one, beyond]

theorem writeBeats_one_stores (aligned : o % 32 = 0) (place : objAddr e o = some a) (whole : data.length = 32) :
    (writeBeats e 1 o data s).fs = memWriteBytes s.fs a data := by
  rw [writeBeats_one, if_pos (by simp [place]), beatBytes_whole whole]
  exact objWrite_fs data fun k hk => objAddr_beat aligned place (by omega)

/-- Bytes written from an address upward, and every other byte as it was. -/
theorem memWriteBytes_reads {m : List Host.Cell} (wf : Memory.wf m = true) (a : Nat) (bs : List Byte) :
    SameOutside m (memWriteBytes m a bs) a bs.length ∧
      ∀ k, k < bs.length → memRead (memWriteBytes m a bs) (a + k) = bs.getD k 0 := by
  refine ⟨fun x outside => memRead_memWriteBytes_outside bs a x wf outside, fun k inside => ?_⟩
  rw [List.getD_eq_getElem _ _ inside, memRead_memWriteBytes_inside bs a k wf inside]

end Sys2Proof.Machine
end

section
/-! Entries that a fabric streaming port posts and completes (R376, R381), and the statement O50. -/

namespace Sys2Proof.Machine

variable {s u : State} {p : Fin 8} {r : Fin 1024} {i : BitVec 16} {entry : List Byte} {status : Byte} {t : Taken}

/-! ### What the schedulers leave of a ring (R290) -/

/-- Every ring has the PI that it had. -/
def SamePi (s t : State) : Prop := ∀ r, (getRing t r).pi = (getRing s r).pi

theorem SamePi.trans {s t u : State} (h : SamePi s t) (k : SamePi t u) : SamePi s u := fun r => (k r).trans (h r)

theorem samePi_of_qe {s t : State} (h : t.qe = s.qe) : SamePi s t := fun r => by rw [getRing, h]; rfl

theorem samePi_modRing (s : State) (r : Fin 1024) {g : Ring → Ring} (same : ∀ x, (g x).pi = x.pi) : SamePi s (s.modRing r g) := by
  intro x
  by_cases k : r = x
  · subst k
    exact (congrArg Ring.pi (upd_same s.qe.rings r g)).trans (same _)
  · exact congrArg Ring.pi (upd_other s.qe.rings r x g k)

theorem joinTurn_samePi (s : State) (r : Fin 1024) : SamePi s (joinTurn s r) := by
  unfold joinTurn
  dsimp only
  split
  · exact fun _ => rfl
  · split
    · exact samePi_modRing s r fun _ => rfl
    · exact fun _ => rfl

theorem afterTagFreed_samePi (before s : State) (c : Consumer) : SamePi s (afterTagFreed before s c) := by
  have joins (l : List (Fin 1024)) : SamePi s (forEach l (fun r s => joinTurn s r) s) := by
    unfold forEach
    induction l generalizing s with
    | nil => exact fun _ => rfl
    | cons r l ih => exact (joinTurn_samePi s r).trans (ih _)
  unfold afterTagFreed
  split
  · exact fun _ => rfl
  · split
    · exact joins _
    · exact fun _ => rfl

theorem ringPost_pi (on : ringOn (getRing s r) = true) (room : ringFull (getRing s r) = false) (bs : List Byte) :
    (getRing (ringPost s r bs).2 r).pi = (getRing s r).pi + 1 := by
  simp only [ringPost, on, room, Bool.not_false, Bool.and_self, if_true]
  exact (joinTurn_samePi _ r r).trans (congrArg Ring.pi (upd_same s.qe.rings r _))

/-! ### An entry completed without a reference (R286) -/

/-- Without a reference to release, the completion of an entry moves nothing of the Page Warden. -/
theorem completeEntry_only (s : State) (t : Taken) (code : Byte) : Only [.qe, .egr, .dm] s (completeEntry s t code none) :=
  have off := ((dmWrite_moves s _ _ (Moves.refl _ s) (by decide)).modRing (by decide) _ _).modQe (by decide) _
  (afterTagFreed_moves _ _ _ (noteEgress_moves _ _ _ off (by decide)) (by decide)).only

theorem findTaken_completeEntry (found : findTaken s r i = some t) (code : Byte) (ref : Option (Fin 2048 × BitVec 7)) :
    findTaken (completeEntry s t code ref) r i = none := by
  obtain ⟨rfl, rfl⟩ := findTaken_names found
  rw [findTaken, completeEntry_work.2.2]
  refine List.find?_eq_none.2 fun x m => ?_
  simpa [← not_and_or] using (List.mem_filter.1 m).2

/-! ### POST (R376) -/

/-- The reference of a posted entry leaves the table of the port. -/
def withoutRef (s : State) (p : Fin 8) (ref : Option (Fin 2048 × BitVec 7)) : State :=
  match ref with
  | some hg => s.modFsp p fun f => { f with refs := f.refs.erase hg }
  | none => s

/-- The handle and GEN of the object that an entry describes. -/
def entryObject (mgmt : Bool) (e : List Byte) : Fin 2048 × BitVec 7 :=
  if mgmt then (mdHandle e, mdGen e) else (odHandle e, odGen e)

/-- The tag of an object that the port allocated is free once an entry describes it (R288). -/
def withoutTag (s : State) (p : Fin 8) (mgmt : Bool) (e : List Byte) : State :=
  if (mgmt && mdInline e) || !decide (entryObject mgmt e ∈ (getFsp s p).allocTags) then s
  else freeAllocTag s p (entryObject mgmt e)

/-- The table of the port without a reference. -/
def refsLeft (refs : List (Fin 2048 × BitVec 7)) (ref : Option (Fin 2048 × BitVec 7)) : List (Fin 2048 × BitVec 7) :=
  match ref with
  | some hg => refs.erase hg
  | none => refs

theorem withoutRef_only (s : State) (p : Fin 8) (ref : Option (Fin 2048 × BitVec 7)) : Only [.fsp] s (withoutRef s p ref) := by
  cases ref with
  | none => exact Only.refl _ _
  | some hg => exact ((Moves.refl [.fsp] s).modFsp (by decide) p _).only

theorem getFsp_withoutRef (ref : Option (Fin 2048 × BitVec 7)) :
    (getFsp (withoutRef s p ref) p).refs = refsLeft (getFsp s p).refs ref := by
  cases ref with
  | none => rfl
  | some hg => exact congrArg Fsp.refs (upd_same _ _ _)

theorem withoutTag_dm (mgmt : Bool) (e : List Byte) : (withoutTag s p mgmt e).dm = s.dm := by
  unfold withoutTag
  split
  · rfl
  · exact (freeAllocTag_keeps s p _) .dm (by decide)

theorem withoutTag_samePi (mgmt : Bool) (e : List Byte) : SamePi s (withoutTag s p mgmt e) := by
  unfold withoutTag
  split
  · exact fun _ => rfl
  · exact afterTagFreed_samePi s (setPort s p _) _

theorem getFsp_withoutTag (mgmt : Bool) (e : List Byte) : (getFsp (withoutTag s p mgmt e) p).refs = (getFsp s p).refs := by
  unfold withoutTag
  split
  · rfl
  · exact (congrArg Fsp.refs getFsp_freeAllocTag :)

section
variable (ready : fspReady s p = true)
include ready

theorem fspPostEffect_notring (other : ringProdKind r (getRing s r).group.active ≠ 4 ∨
    ringProdInst r (getRing s r).group.active ≠ p.val) :
    fspPostEffect p r entry s = setPort s p ((getFsp s p).answered .notring none) := by
  have k : (ringProdKind r (getRing s r).group.active != 4 || ringProdInst r (getRing s r).group.active != p.val) = true := by
    simpa using other
  simp only [fspPostEffect, fspCmd_ready ready, k, if_true, fspAnswer_eq]

section
variable (kind : ringProdKind r (getRing s r).group.active = 4) (inst : ringProdInst r (getRing s r).group.active = p.val)
  (whole : entry.length = 32) {ref : Option (Fin 2048 × BitVec 7)}
  (carries : entryRef r (isMgmtRing (getRing s r).group.active) entry = ref)
include kind inst whole carries

/-- A POST to a ring of the port: the reference is asked for, then room in the ring. -/
theorem fspPostEffect_mine : fspPostEffect p r entry s =
    if (ref.map fun hg => !holdsRef s p hg.1 hg.2).getD false then fspAnswer s p .noref none
    else if (ringPost s r entry).1 then
      fspAnswer (withoutTag (withoutRef (ringPost s r entry).2 p ref) p (isMgmtRing (getRing s r).group.active) entry) p .ok none
    else fspAnswer (ringPost s r entry).2 p .full none := by
  have padded : (entry ++ List.replicate 32 0).take 32 = entry := List.take_left' whole
  simp only [fspPostEffect, fspCmd_ready ready, kind, inst, bne_self_eq_false, Bool.or_self, Bool.false_eq_true, if_false,
    padded, carries]
  rcases ringPost s r entry with ⟨_ | _, v⟩ <;> rfl

theorem fspPostEffect_noref {hg : Fin 2048 × BitVec 7} (some_ : ref = some hg) (absent : hg ∉ (getFsp s p).refs) :
    fspPostEffect p r entry s = setPort s p ((getFsp s p).answered .noref none) := by
  rw [fspPostEffect_mine ready kind inst whole carries]
  exact if_pos (by simp [some_, holdsRef, absent])

variable (held : ∀ hg, ref = some hg → hg ∈ (getFsp s p).refs)
include held

theorem fspPostEffect_held : fspPostEffect p r entry s =
    if (ringPost s r entry).1 then
      fspAnswer (withoutTag (withoutRef (ringPost s r entry).2 p ref) p (isMgmtRing (getRing s r).group.active) entry) p .ok none
    else fspAnswer (ringPost s r entry).2 p .full none := by
  rw [fspPostEffect_mine ready kind inst whole carries]
  refine if_neg ?_
  cases ref with
  | none => simp
  | some hg => simpa [holdsRef] using held hg rfl

theorem fspPostEffect_full (lost : ringOn (getRing s r) = false ∨ ringFull (getRing s r) = true) :
    fspPostEffect p r entry s =
      setPort (s.modRing r fun g => { g with full := g.full + 1 }) p ((getFsp s p).answered .full none) := by
  rw [fspPostEffect_held ready kind inst whole carries held, ringPost_lost lost]
  rfl

theorem fspPostEffect_stored (on : ringOn (getRing s r) = true) (room : ringFull (getRing s r) = false) :
    (getRing (fspPostEffect p r entry s) r).pi = (getRing s r).pi + 1 ∧
      (fspPostEffect p r entry s).dm = memWriteBytes s.dm (entryAt (getRing s r) (getRing s r).pi) entry ∧
      (getFsp (fspPostEffect p r entry s) p).refs = refsLeft (getFsp s p).refs ref ∧
      (getFsp (fspPostEffect p r entry s) p).resp = some (.ok, none) := by
  obtain ⟨stored, dm⟩ := ringPost_stored on room entry
  have port : getFsp (ringPost s r entry).2 p = getFsp s p :=
    getFsp_congr ((ringPost_moves s r entry (Moves.refl _ s) fun _ h => h).only .fsp (by decide))
  rw [fspPostEffect_held ready kind inst whole carries held, if_pos stored, fspAnswer_eq, getFsp_setPort]
  refine ⟨?_, ?_, ?_, rfl⟩
  · refine Eq.trans ?_ (ringPost_pi on room entry)
    exact (withoutTag_samePi _ _ r).trans (samePi_of_qe (withoutRef_only _ p ref .qe (by decide)) r)
  · exact ((withoutTag_dm _ _).trans (withoutRef_only _ p ref .dm (by decide))).trans dm
  · exact (getFsp_withoutTag _ _).trans ((getFsp_withoutRef ref).trans (by rw [port]))

end

/-! ### COMPLETE (R376, R381) -/

theorem fspCompleteEffect_late (late : ∀ t, findTaken s r i = some t → t.cons ≠ .fabric p ∨ t.offered = true) :
    fspCompleteEffect p r i status s = setPort (countLate s) p ((getFsp s p).answered .late none) := by
  rw [fspCompleteEffect, fspCmd_ready ready]
  cases found : findTaken s r i with
  | none => rfl
  | some t =>
    refine if_neg ?_
    rcases late t found with k | k <;> simp [k]

/-- An entry that the port took: its STATUS is stored, and it is taken no longer. -/
theorem fspCompleteEffect_taken (found : findTaken s r i = some t) (cons : t.cons = .fabric p) (taken : t.offered = false) :
    Only [.qe, .egr, .dm, .fsp] s (fspCompleteEffect p r i status s) ∧
      findTaken (fspCompleteEffect p r i status s) r i = none ∧
      (fspCompleteEffect p r i status s).dm = memWriteBytes s.dm (t.addr + 1) [status] ∧
      getFsp (fspCompleteEffect p r i status s) p = { getFsp s p with resp := some (.ok, none) } := by
  have effect : fspCompleteEffect p r i status s = fspAnswer (completeEntry s t status none) p .ok none := by
    simp [fspCompleteEffect, fspCmd_ready ready, found, cons, taken]
  have done := completeEntry_only s t status
  rw [effect]
  refine ⟨?_, findTaken_completeEntry found status none, completeEntry_work.1, ?_⟩
  · exact (done.weaken (by decide)).trans ((setPort_only _).weaken (by decide))
  · exact (getFsp_fspAnswer _ _).trans (congrArg (·.answered .ok none) (getFsp_congr (done .fsp (by decide))))

end

end Sys2Proof.Machine
end

section
/-! The commands of a fabric streaming port (O50), each with its answer. -/

namespace Sys2Proof.Machine

/-- Settles O50: a port that does not operate and bursts that none can ask, then each command of a port that operates. -/
theorem streamingPorts : Obligations.StreamingPorts := by
  intro s p r i n o beats stride h gen ecc data entry status hc f e g hg operates answered live own object staled refused burst
    sa ss sn
  have go (f : State → State) : onSys s f = .next (f s) := onSys_clocked hc f
  have keeps {i : State → State} (k : i s = s) : onSys s i = .next s := (go i).trans (congrArg _ k)
  -- the port's state after an answer, in a state that has the ports of s
  have replies {i : State → State} {u : State} {f' : Fsp} {a : FspAnswer} (same : u.fsp = s.fsp)
      (k : i s = setPort u p (f'.answered a none)) : onSys s i = answered u f' a := by
    rw [go, k, setPort, same]
    rfl
  -- the answer of the Page Warden, given in such a state
  have denies {i : State → State} {g : Fsp → Fsp} (c : PwCode) (u : State) (same : u.fsp = s.fsp)
      (k : i s = fspGives (c, u) p g) (other : c ≠ .ok) : onSys s i = answered u f (fspCode c) :=
    replies same (k.trans (fspGives_other other same g))
  have grants {i : State → State} (g : Fsp → Fsp) (u : State) (same : u.fsp = s.fsp) (k : i s = fspGives (.ok, u) p g) :
      onSys s i = answered u (g f) .ok := replies same (k.trans (fspGives_ok same g))
  have idle (notReady : ¬operates) (i : State → State) : onSys s (fun s => fspCmd s p i) = .next s :=
    keeps (fspCmd_idle (fun k => notReady (fspReady_iff.1 k)) i)
  refine ⟨fun none => ⟨pwTurn_none none _, pwTurn_none none _, pwTurn_none none _⟩,
    fun k => ⟨idle k _, idle k _, idle k _, idle k _, idle k _, idle k _, idle k _, idle k _, idle k _, idle k _⟩,
    fun k => ?_, fun k => ?_⟩
  · have bad : ¬burstOk o beats = true := fun ok => k (burstOk_iff.1 ok)
    exact ⟨keeps (fspReadEffect_noBurst bad), keeps (fspWriteEffect_noBurst bad)⟩
  have ready : fspReady s p = true := fspReady_iff.2 k
  have found {u : State} (k : live u.pw.map[h.val]) : objOf u h gen = some (getObj u h) := objOf_live k.1 k.2
  have gone {u : State} (k : ¬live u.pw.map[h.val]) : objOf u h gen = none :=
    objOf_gone ((not_and_or.1 k).imp_left not_not.1)
  have turned (q : PwReq) : (pwTurn s q).fsp = s.fsp := pwTurn_fsp s q
  refine ⟨fun t taken cons offered good => ?_, fun other => keeps (fspTakeEffect_other ready other),
    fun none => replies rfl (fspAllocEffect_tags ready none), fun free => ⟨fun k => ?_, fun k g => ?_⟩,
    fun absent => ⟨replies rfl (fspAddrefEffect_noref ready absent), replies rfl (fspReleaseEffect_noref ready absent),
      fun b => replies rfl (fspReadEffect_noref ready (burstOk_iff.2 b) absent)⟩,
    fun held => ?_, ?_, fun k => ?_, fun k k' => ?_, fun k k' st => ?_, fun k k' st => ?_,
    fun other => replies rfl (fspPostEffect_notring ready other), fun kind inst whole => ?_,
    fun late => replies rfl (fspCompleteEffect_late ready late), fun t found cons taken => ?_⟩
  -- TAKE
  · have effect := fspTakeEffect_found ready taken
    refine ⟨fun none => (go _).trans (congrArg _ ?_), fun ref some_ room => (go _).trans (congrArg _ ?_),
      fun some_ full => keeps (effect.trans (if_neg fun ⟨_, _, _, room⟩ => ?_))⟩
    · rw [effect, if_pos ⟨cons, offered, good, .inl none⟩, none]
      rfl
    · rw [effect, if_pos ⟨cons, offered, good, .inr room⟩, some_]
      rfl
    · exact room.elim some_ (Nat.not_lt.2 full)
  -- ALLOC
  · exact replies (u := pwRefuse sn .fabric) (turned _) (fspAllocEffect_refused ready free k)
  · obtain ⟨only, x, port⟩ := fspAllocEffect_granted ready free k g
    exact ⟨_, x, go _, only, port⟩
  -- ADDREF, RELEASE and READ of a reference that the table holds
  · refine ⟨fun full => replies rfl (fspAddrefEffect_limit ready held full), fun room => ?_, fun k refs => ?_,
      fun k refs st => ?_, fun k => ?_, fun k b => ?_⟩
    · have asks {x} (k : pwAddref sa h gen = x) : fspAddrefEffect p h gen s = fspGives x p _ :=
        k ▸ fspAddrefEffect_asks ready held room
      refine ⟨fun k => ?_, fun k poison => ?_, fun k poison full => ?_, fun k poison few => ?_⟩
      · exact denies .stale (pwStale sa) (turned _) (asks (pwAddref_gone (gone k))) (by decide)
      · exact denies .poison sa (turned _) (asks (pwAddref_poison (found k) poison)) (by decide)
      · exact denies .refFull _ (turned _) (asks (pwAddref_full (found k) poison full)) (by decide)
      · exact grants _ (withEntry sa h _) (turned _) (asks (pwAddref_ok (found k) poison few))
    · have asks := fspReleaseEffect_asks ready held
      rw [pwRelease_more (found k) refs] at asks
      exact grants _ (withEntry s h _) rfl asks
    · have only := (fspReleaseEffect_moves p h gen s (Moves.refl _ s) fun _ h => h).only
      exact ⟨_, go _, only, fspReleaseEffect_last ready held (found k) refs st⟩
    · have asks := fspReleaseEffect_asks ready held
      rw [pwRelease_gone (gone k)] at asks
      exact ⟨denies .stale (pwStale s) rfl asks (by decide),
        fun b => replies (u := pwStale s) rfl (fspReadEffect_gone ready (burstOk_iff.2 b) held (gone k))⟩
    · have only := (fspReadEffect_moves p h gen o beats ecc s (Moves.refl _ s) fun _ h => h).only
      obtain ⟨port, pw⟩ := fspReadEffect_reads (ecc := ecc) ready (burstOk_iff.2 b) held (found k)
      have rdata := congrArg Fsp.rdata port
      refine ⟨_, go _, only.weaken (by decide), (congrArg Fsp.refs port :), (congrArg Fsp.resp port :),
        (congrArg List.length rdata).trans (readBeats_length ..), (congrArg Fsp.cntBeats port :), fun one beyond => ?_,
        fun one inside => ?_⟩
      · subst one
        have beat := readBeats_one_beyond (ecc := ecc) (s := s) beyond
        exact ⟨rdata.trans (congrArg Prod.fst beat), pw.trans (congrArg (fun x => x.2.pw) beat)⟩
      · subst one
        exact rdata.trans (congrArg (fun x => [x]) (readBeat_data inside))
  -- SEAL
  · have asks {x} (k : live ss.pw.map[h.val]) (k' : own ss.pw.map[h.val]) (room : f.refs.length < 512)
        (a : pwSeal ss h gen = x) : fspSealEffect p h gen s = fspGives x p _ :=
      a ▸ fspSealEffect_asks ready (found k) (ownedBy_iff.2 k') room
    refine ⟨fun k => ?_, fun k k' => ?_, fun k k' full => ?_, fun k k' room st => ?_, fun k k' room st => ?_⟩
    · exact replies (u := pwStale ss) (turned _) (fspSealEffect_gone ready (gone k))
    · exact replies (turned _) (fspSealEffect_notOwned ready (found k) fun own => k' (ownedBy_iff.1 own))
    · exact replies (turned _) (fspSealEffect_full ready (found k) (ownedBy_iff.2 k') full)
    · have answer := asks k k' room (pwSeal_refused (found k) (by rw [getObj, st]; decide))
      rw [show (getObj ss h).cls = .fabric from k'.1] at answer
      exact denies .refused (pwRefuse ss .fabric) (turned _) answer (by decide)
    · exact grants _ (withEntry ss h _) (turned _) (asks k k' room (pwSeal_writing (found k) st))
  -- ABANDON and WRITE
  · exact ⟨replies (u := pwStale s) rfl (fspAbandonEffect_gone ready (gone k)),
      fun b => replies (u := pwStale s) rfl (fspWriteEffect_gone ready (burstOk_iff.2 b) (gone k))⟩
  · have foreign : ¬ownedBy e p = true := fun own => k' (ownedBy_iff.1 own)
    exact ⟨replies rfl (fspAbandonEffect_notOwned ready (found k) foreign),
      fun b => replies rfl (fspWriteEffect_notOwned ready (burstOk_iff.2 b) (found k) foreign)⟩
  · have sealed_ : (getObj s h).st ≠ .writing := by rw [getObj, show s.pw.map[h.val].st = .sealed_ from st]; decide
    have answer := fspAbandonEffect_refused ready (found k) (ownedBy_iff.2 k') sealed_
    rw [show (getObj s h).cls = .fabric from k'.1] at answer
    exact ⟨replies (u := pwRefuse s .fabric) rfl answer,
      fun b => replies rfl (fspWriteEffect_notWriting ready (burstOk_iff.2 b) (found k) (ownedBy_iff.2 k') sealed_)⟩
  · refine ⟨?_, fun b => ?_⟩
    · have only := (fspAbandonEffect_moves p h gen s (Moves.refl _ s) fun _ h => h).only
      exact ⟨_, go _, only, fspAbandonEffect_frees ready (found k) (ownedBy_iff.2 k') st⟩
    · have only := (fspWriteEffect_moves p h gen o beats data s (Moves.refl _ s) fun _ h => h).only
      obtain ⟨port, pw, fs⟩ := fspWriteEffect_writes (data := data) ready (burstOk_iff.2 b) (found k) (ownedBy_iff.2 k') st
      refine ⟨_, go _, only.weaken (by decide), (congrArg Pw.map pw).trans (writeBeats_map beats o data s), port,
        fun one beyond => ?_, fun a one place length inv => ?_⟩
      · subst one
        have beat := writeBeats_one_beyond (data := data) (s := s) beyond
        exact ⟨fs.trans (congrArg State.fs beat :), congrArg Pw.cntRange (pw.trans (congrArg State.pw beat))⟩
      · subst one
        have stores := fs.trans (writeBeats_one_stores b.2.2 place length)
        rw [stores, ← length]
        exact memWriteBytes_reads inv.2 a data
  -- POST
  · refine ⟨fun x some_ absent => ?_, fun held => ⟨fun lost => ?_, fun on room => ?_⟩⟩
    · exact replies rfl (fspPostEffect_noref ready kind inst whole some_ rfl absent)
    · exact replies rfl (fspPostEffect_full ready kind inst whole rfl held lost)
    · have only := (fspPostEffect_moves p r entry s (Moves.refl _ s) fun _ h => h).only
      obtain ⟨pi, dm, refs, resp⟩ := fspPostEffect_stored ready kind inst whole rfl held on room
      exact ⟨_, go _, only.weaken (by decide), pi, dm, refs, resp⟩
  -- COMPLETE
  · exact ⟨_, go _, fspCompleteEffect_taken ready found cons taken⟩

end Sys2Proof.Machine
end

section
/-! What the schedulers move of the rings (R290), and the statement O10: a fault record goes into ring 32 (R293, R295). -/

namespace Sys2Proof.Machine

variable {s t u : State} {r : Fin 1024} {f g : Ring → Ring}

/-! ### The state but for the schedulers' lists and credits (R290) -/

theorem SameButTurns.refl (s : State) : SameButTurns s s := ⟨Only.refl _ s, rfl, fun _ => rfl⟩

theorem SameButTurns.trans (h : SameButTurns s t) (k : SameButTurns t u) : SameButTurns s u := by
  obtain ⟨only, qe, rings⟩ := h
  obtain ⟨only', qe', rings'⟩ := k
  refine ⟨only.trans only', ?_, fun r => ?_⟩
  · rw [qe', qe]
  · rw [rings' r, rings r]

theorem SameButTurns.ring (h : SameButTurns s t) (r : Fin 1024) : getRing t r =
    { getRing s r with deficit := (getRing t r).deficit, inTurn := (getRing t r).inTurn } := h.2.2 r

/-- The lists of turns replaced. -/
theorem sameButTurns_turns (s : State) (x : Qe → List TurnList) : SameButTurns s (s.modQe fun q => { q with turns := x q }) :=
  ⟨((Moves.refl [.qe] s).modQe (by decide) _).only, rfl, fun _ => rfl⟩

/-- Two updates of one ring that differ in its credit alone. -/
theorem sameButTurns_modRing (s : State) (r : Fin 1024) (k : g (getRing s r) =
      { f (getRing s r) with deficit := (g (getRing s r)).deficit, inTurn := (g (getRing s r)).inTurn }) :
    SameButTurns (s.modRing r f) (s.modRing r g) := by
  refine ⟨fun p hp => ?_, rfl, fun x => ?_⟩
  · cases p <;> first | rfl | exact absurd (List.mem_singleton_self _) hp
  · show (upd s.qe.rings r g)[x.val] = { (upd s.qe.rings r f)[x.val] with
      deficit := (upd s.qe.rings r g)[x.val].deficit, inTurn := (upd s.qe.rings r g)[x.val].inTurn }
    by_cases e : r = x
    · subst e
      rw [upd_same, upd_same]
      exact k
    · rw [upd_other _ _ _ _ e, upd_other _ _ _ _ e]

theorem modRing_id (s : State) (r : Fin 1024) : s.modRing r id = s := by
  rw [State.modRing, State.modQe, upd_id _ _ _ rfl]

/-- The credit of a ring changed. -/
theorem sameButTurns_credit (s : State) (r : Fin 1024)
    (k : ∀ x, g x = { x with deficit := (g x).deficit, inTurn := (g x).inTurn }) : SameButTurns s (s.modRing r g) := by
  have := sameButTurns_modRing (f := id) s r (k (getRing s r))
  rwa [modRing_id] at this

theorem forEach_sameButTurns {β : Type} {h : β → State → State} (k : ∀ b s, SameButTurns s (h b s)) (l : List β) (s : State) :
    SameButTurns s (forEach l h s) := by
  induction l generalizing s with
  | nil => exact .refl s
  | cons b l ih => exact (k b s).trans (ih (h b s))

theorem joinTurn_sameButTurns (s : State) (r : Fin 1024) : SameButTurns s (joinTurn s r) := by
  unfold joinTurn
  dsimp only
  split
  · exact .refl s
  · split
    · exact (sameButTurns_credit s r fun _ => rfl).trans (sameButTurns_turns _ _)
    · exact .refl s

theorem leaveTurn_sameButTurns (s : State) (r : Fin 1024) : SameButTurns s (leaveTurn s r) :=
  (sameButTurns_credit s r fun _ => rfl).trans (sameButTurns_turns _ _)

theorem clearTurns_sameButTurns (s : State) (c : Consumer) : SameButTurns s (clearTurns s c) :=
  forEach_sameButTurns (fun r s => leaveTurn_sameButTurns s r) _ s

theorem afterTagFreed_sameButTurns (before s : State) (c : Consumer) : SameButTurns s (afterTagFreed before s c) := by
  unfold afterTagFreed
  split
  · exact .refl s
  · split
    · exact forEach_sameButTurns (fun r s => joinTurn_sameButTurns s r) _ s
    · exact .refl s

/-! ### A fault record (R293, R295) -/

theorem faultBytes_length (seq : Word) (tick : Tick) (f : FaultRec) : (faultBytes seq tick f).length = 32 := by
  simp [faultBytes, leBytes_length]

/-- A stored entry moves PI and the count of posts of its ring, and the schedulers' turns. -/
theorem ringPost_sameButTurns (on : ringOn (getRing s r) = true) (room : ringFull (getRing s r) = false) (bs : List Byte) :
    SameButTurns ((dmWrite s (entryAt (getRing s r) (getRing s r).pi) bs).modRing r fun g =>
      { g with pi := g.pi + 1, posts := g.posts + 1 }) (ringPost s r bs).2 := by
  simp only [ringPost, on, room, Bool.not_false, Bool.and_self, if_true]
  exact joinTurn_sameButTurns _ r

theorem recordFault_stored (on : ringOn (getRing s ringFault) = true) (room : ringFull (getRing s ringFault) = false)
    (f : FaultRec) : recordFault s f = (ringPost s ringFault (faultBytes s.qe.seq s.time f)).2.modQe fun q =>
      { q with seq := nextSeq s.qe.seq, flags := q.flags.set 0 } := by
  simp only [recordFault, (ringPost_stored on room _).1, if_true]

theorem recordFault_lost (h : ringOn (getRing s ringFault) = false ∨ ringFull (getRing s ringFault) = true) (f : FaultRec) :
    recordFault s f = (s.modRing ringFault fun g => { g with full := g.full + 1 }).modQe fun q =>
      { q with seq := nextSeq s.qe.seq, cntFaultLost := q.cntFaultLost + 1, flags := q.flags.set 1 } := by
  simp only [recordFault, ringPost_lost h, Bool.false_eq_true, if_false]

theorem getRing_ringFault (s : State) : getRing s ringFault = s.qe.rings[32] := rfl

/-- Settles O10: a record that ring 32 takes, and one that it loses. -/
theorem faultRecords : Obligations.FaultRecords := by
  intro s f inv
  simp only [← getRing_ringFault]
  refine ⟨recordFault_only s f, recordFault_seq s f, fun on room => ?_, fun lost => ?_⟩
  · obtain ⟨outside, inside⟩ := memWriteBytes_reads inv.1 (entryAt (getRing s ringFault) (getRing s ringFault).pi)
      (faultBytes s.qe.seq s.time f)
    rw [faultBytes_length] at outside inside
    rw [recordFault_stored on room]
    refine ⟨?_, ?_, ringPost_pi on room _, Flags.on_set_same _ (by decide), ?_⟩
    · rwa [State.modQe, (ringPost_stored on room _).2]
    · rwa [State.modQe, (ringPost_stored on room _).2]
    · exact (congrArg Qe.cntFaultLost (ringPost_sameButTurns on room _).2.1 :)
  · rw [recordFault_lost lost]
    exact ⟨rfl, (congrArg Ring.pi (upd_same s.qe.rings ringFault _) :), Flags.on_set_same _ (by decide), rfl⟩

end Sys2Proof.Machine
end

section
/-! Doorbells and the commands of the host (O42): QE_DOORBELL as a requester rings it (R284, R285, R299), the host's commands one at a
time (R287), and the counters. -/

namespace Sys2Proof.Machine

variable {s t : State} {q : Req} {ci : Bool} {r : Fin 1024} {i : BitVec 16} {w : Word}

/-! ### The value of QE_DOORBELL -/

theorem fld_or (v w : Word) (hi lo : Nat) : fld (v ||| w) hi lo = fld v hi lo ||| fld w hi lo := by
  simp only [fld, BitVec.toNat_or, Nat.shiftRight_or_distrib, Nat.or_mod_two_pow]

theorem bellWord_ring (ci : Bool) (r : Fin 1024) (i : BitVec 16) : Fin.ofNat 1024 (fld (bellWord ci r i) 9 0) = r := by
  have ring : fld (put 0 r.val) 9 0 = r.val := by simp [fld, put]
  have side : fld (putB 12 ci) 9 0 = 0 := by cases ci <;> rfl
  have index : fld (put 16 i.toNat) 9 0 = 0 := by simp [fld, put, Nat.shiftLeft_eq]; omega
  simp [bellWord, fld_or, ring, side, index]

theorem bellWord_index (ci : Bool) (r : Fin 1024) (i : BitVec 16) : BitVec.ofNat 16 (fld (bellWord ci r i) 31 16) = i := by
  have ring : fld (put 0 r.val) 31 16 = 0 := by simp [fld, put, Nat.shiftRight_eq_div_pow]; omega
  have side : fld (putB 12 ci) 31 16 = 0 := by cases ci <;> rfl
  have index : fld (put 16 i.toNat) 31 16 = i.toNat := by simp [fld, put, Nat.shiftLeft_eq, Nat.shiftRight_eq_div_pow]; omega
  simp [bellWord, fld_or, ring, side, index]

theorem bellWord_side (ci : Bool) (r : Fin 1024) (i : BitVec 16) : bit (bellWord ci r i) 12 = ci := by
  have ring : bit (put 0 r.val) 12 = false := by
    simp only [bit, put, BitVec.getLsbD_ofNat, Nat.shiftLeft_zero, Nat.testBit_lt_two_pow (Nat.lt_trans r.isLt (by decide : 1024 < 2 ^ 12)),
      Bool.and_false]
  have side : bit (putB 12 ci) 12 = ci := by cases ci <;> rfl
  have index : bit (put 16 i.toNat) 12 = false := by
    simp only [bit, put, BitVec.getLsbD_ofNat, Nat.testBit_shiftLeft, show ¬16 ≤ 12 by decide, decide_false, Bool.false_and, Bool.and_false]
  simp only [bit] at ring side index ⊢
  simp only [bellWord, BitVec.getLsbD_or, ring, side, index, Bool.or_false, Bool.false_or]

/-! ### QE_DOORBELL rung (R284, R299) -/

/-- What a doorbell does to its ring. -/
def bellEffect (ci : Bool) (r : Fin 1024) (i : BitVec 16) (s : State) : State :=
  if ci then doorbellCiEffect r i s else doorbellPiEffect r i s

theorem blockWrite_bell (ecc : Ecc) (s : State) : blockWrite q doorbellAddr (bellWord ci r i) ecc s = bellEffect ci r i s := by
  have block : blockOf doorbellAddr = some .qe := by decide
  have address : doorbellAddr.toNat = 0x8_0010 := rfl
  have acts : scrapDrops s doorbellAddr (bellWord ci r i) = false := by simp [scrapDrops, enables, commitGroup, block, address]
  have rung : qeWrite 0x10 (bellWord ci r i) s = doorbellWrite (bellWord ci r i) s := rfl
  simp only [blockWrite, acts, block, address, Bool.false_eq_true, if_false, Nat.reduceSub, rung, doorbellWrite, bellWord_ring,
    bellWord_index, bellWord_side, bellEffect]

theorem settleDesc_none (h : ∀ x ∈ s.bus.inflight, x.req = q → blockOf x.addr ≠ some .desc) (n : Nat) : settleDesc q n s = s := by
  have none_left : (s.bus.inflight.filter fun b => b.req == q && decide (b.id < n) && blockOf b.addr == some .desc) = [] :=
    List.filter_eq_nil_iff.2 fun x m => by
      have := h x m
      simp +contextual [this]
  rw [settleDesc, none_left]
  rfl

/-- A doorbell with no earlier write to wait for and no bell of MP in its tick acts alone, and no operation ends by it. -/
theorem doorbellEffect_alone (h : ∀ x ∈ s.bus.inflight, x.req = q → blockOf x.addr ≠ some .desc)
    (k : q = .mp ∨ mpWrote s doorbellAddr = none) (only : Only [.qe] s (bellEffect ci r i s))
    (ops : (bellEffect ci r i s).qe.ops = s.qe.ops) :
    doorbellEffect q ci r i s = noteWrote q doorbellAddr (bellWord ci r i) (bellEffect ci r i s) := by
  have bus : (bellEffect ci r i s).bus = s.bus := only .bus (by decide)
  rw [doorbellEffect, settleDesc_none h, regWrite_alone (by decide) k, blockWrite_bell]
  exact noteFence_same (by simp only [unretired, noteWrote, State.modMoment, bus, ops]) (congrArg Bus.epochOrder bus)

/-! ### What it does to its ring (R285) -/

theorem doorbellPiEffect_sets (on : ringOn (getRing s r) = true) (host : ringProdKind r (getRing s r).group.active = 0)
    (low : ((getRing s r).ci - (getRing s r).di).toNat ≤ (i - (getRing s r).di).toNat)
    (high : (i - (getRing s r).di).toNat ≤ ringSize (getRing s r).group.active) :
    SameButTurns (s.modRing r fun g => { g with
      pi := i, posts := g.posts + BitVec.ofNat 16 ((i - (getRing s r).di).toNat - ringHeld g) }) (doorbellPiEffect r i s) := by
  simp only [doorbellPiEffect, on, host, low, high, beq_self_eq_true, and_self, decide_true, Bool.and_self, if_true]
  split
  · exact joinTurn_sameButTurns _ r
  · exact leaveTurn_sameButTurns _ r

theorem doorbellPiEffect_ignored (h : ringOn (getRing s r) = false ∨ ringProdKind r (getRing s r).group.active ≠ 0 ∨
      (i - (getRing s r).di).toNat < ((getRing s r).ci - (getRing s r).di).toNat ∨
      ringSize (getRing s r).group.active < (i - (getRing s r).di).toNat) : doorbellPiEffect r i s = doorbellBad s := by
  refine if_neg fun k => ?_
  simp only [Bool.and_eq_true, beq_iff_eq, decide_eq_true_eq] at k
  obtain ⟨⟨on, host⟩, low, high⟩ := k
  rcases h with h | h | h | h
  · simp [h] at on
  · exact h host
  · exact Nat.not_lt.2 low h
  · exact Nat.not_lt.2 high h

theorem doorbellCiEffect_takes (on : ringOn (getRing s r) = true) (host : ringConsKind (getRing s r).group.active = 0)
    (held : (i - (getRing s r).di).toNat ≤ ringHeld (getRing s r)) :
    doorbellCiEffect r i s = s.modRing r fun g => { g with ci := i, di := i, done := [] } :=
  if_pos (by simp only [on, host, held, beq_self_eq_true, decide_true, Bool.and_self])

theorem doorbellCiEffect_ignored (h : ringOn (getRing s r) = false ∨ ringConsKind (getRing s r).group.active ≠ 0 ∨
      ringHeld (getRing s r) < (i - (getRing s r).di).toNat) : doorbellCiEffect r i s = doorbellBad s := by
  refine if_neg fun k => ?_
  simp only [Bool.and_eq_true, beq_iff_eq, decide_eq_true_eq] at k
  obtain ⟨⟨on, host⟩, held⟩ := k
  rcases h with h | h | h
  · simp [h] at on
  · exact h host
  · exact Nat.not_lt.2 held h

theorem doorbellBad_only (s : State) : Only [.qe] s (doorbellBad s) := (doorbellBad_moves s (Moves.refl _ s) fun _ h => h).only

theorem ringOn_iff (g : Ring) : ringOn g = true ↔ bit g.group.active.ctrl 0 = true ∧ g.cfgBad = false := by
  simp [ringOn, ringEn]

/-! ### Commands of the host (R287) -/

theorem hostCommand_busy (h : s.qe.result.busy = true) (x : PwReq) : hostCommand s x = s := if_pos h

theorem hostCommand_asks (h : s.qe.result.busy = false) (x : PwReq) : hostCommand s x = { s with
    pw := { s.pw with waiting := s.pw.waiting ++ [x] }
    qe := { s.qe with result := { s.qe.result with busy := true, done := false } } } := if_neg (by simp [h])

/-- The same difference between two states, each with one more write noted. -/
theorem SameButTurns.noteWrote (h : SameButTurns s t) (q : Req) (a w : Word) :
    SameButTurns (noteWrote q a w s) (noteWrote q a w t) := by
  obtain ⟨only, qe, rings⟩ := h
  refine ⟨fun p hp => ?_, qe, rings⟩
  have same := only p hp
  cases p <;> first | exact same | exact congrArg (fun m : Moment => { m with wrote := ⟨q, a, w⟩ :: m.wrote }) same

/-- Settles O42: the doorbell of each side taken or ignored, then the host's commands and the counters. -/
theorem hostDoorbells : Obligations.HostDoorbells := by
  intro s q r i h gen c g a on first noted ignored d asked
  have go (f : State → State) : onSys s f = .next (f s) := onSys_clocked c f
  have off (k : ¬on) : ringOn g = false := Bool.eq_false_iff.2 fun o => k ((ringOn_iff g).1 o)
  -- a doorbell that leaves all but the rings alone
  have rung {ci : Bool} (k : first) (only : Only [.qe] s (bellEffect ci r i s)) (ops : (bellEffect ci r i s).qe.ops = s.qe.ops) :
      onSys s (doorbellEffect q ci r i) = .next (noteWrote q doorbellAddr (bellWord ci r i) (bellEffect ci r i s)) :=
    (go _).trans (congrArg _ (doorbellEffect_alone k.1 k.2 only ops))
  have ignores {ci : Bool} (k : first) (bad : bellEffect ci r i s = doorbellBad s) : onSys s (doorbellEffect q ci r i) = ignored ci := by
    rw [rung k (bad ▸ doorbellBad_only s) (congrArg (·.qe.ops) bad), bad]
    rfl
  refine ⟨fun k o host low high => ?_, fun k bad => ?_, fun k o host held => ?_, fun k bad => ?_, fun busy => ?_, fun free => ?_, go _⟩
  · have sets := doorbellPiEffect_sets ((ringOn_iff g).2 o) host low high
    have only : Only [.qe] s (doorbellPiEffect r i s) := (doorbellPiEffect_moves r i s (Moves.refl _ s) fun _ h => h).only
    exact ⟨_, rung (ci := false) k only (congrArg Qe.ops sets.2.1 :), sets.noteWrote q doorbellAddr (bellWord false r i)⟩
  · exact ignores (ci := false) k (doorbellPiEffect_ignored (bad.imp_left off))
  · have takes := doorbellCiEffect_takes ((ringOn_iff g).2 o) host held
    have only : Only [.qe] s (doorbellCiEffect r i s) := (doorbellCiEffect_moves r i s (Moves.refl _ s) fun _ h => h).only
    refine (rung (ci := true) k only (congrArg (·.qe.ops) takes)).trans ?_
    rw [show bellEffect true r i s = _ from takes]
    rfl
  · exact ignores (ci := true) k (doorbellCiEffect_ignored (bad.imp_left off))
  · have idle (x : PwReq) : onSys s (fun s => hostCommand s x) = .next s := (go _).trans (congrArg _ (hostCommand_busy busy x))
    exact ⟨idle _, idle _, idle _, idle _, idle _⟩
  · have asks (x : PwReq) : onSys s (fun s => hostCommand s x) = asked x := (go _).trans (congrArg _ (hostCommand_asks free x))
    exact ⟨asks _, asks _, asks _, asks _, asks _⟩

end Sys2Proof.Machine
end

section
/-! The entries of the rings (O43): the scheduler's pick (R290), the entry it takes (R288, R291), an entry whose timeout has run out (R292,
R298), and the commit of a ring (R276, R278, R279). -/

namespace Sys2Proof.Machine

variable {s t u : State} {c : Consumer} {r : Fin 1024} {i : BitVec 16} {e : Taken} {code : Byte}

/-! ### The pick of the scheduler (R290) -/

theorem setTurn_sameButTurns (s : State) (c : Consumer) (cls : Fin 4) (rs : List (Fin 1024)) : SameButTurns s (setTurn s c cls rs) :=
  sameButTurns_turns s _

theorem pickClass_empty {k : Fin 4} (h : turnOf s c k = []) : pickClass s c k = none := by simp only [pickClass, h]

theorem pickClass_inTurn {k : Fin 4} {rest : List (Fin 1024)} (h : turnOf s c k = r :: rest) (turn : (getRing s r).inTurn = true)
    (credit : nextCost s r ≤ (getRing s r).deficit) :
    pickClass s c k = some (r, s.modRing r fun x => { x with deficit := x.deficit - nextCost s r }) := by
  simp only [pickClass, h, turn, credit, if_true]

theorem pickRing_eq (s : State) (c : Consumer) : pickRing s c =
    (pickClass s c 0).or ((pickClass s c 1).or ((pickClass s c 2).or (pickClass s c 3))) := by
  unfold pickRing
  cases pickClass s c 0 <;> cases pickClass s c 1 <;> cases pickClass s c 2 <;> rfl

/-- The first class with a ready ring is served. -/
theorem pickRing_class {k : Fin 4} (above : ∀ j, j < k → pickClass s c j = none) (x : Fin 1024 × State)
    (picks : pickClass s c k = some x) : pickRing s c = some x := by
  rw [pickRing_eq]
  match k with
  | 0 => simp [picks]
  | 1 => simp [picks, above 0]
  | 2 => simp [picks, above 0, above 1]
  | 3 => simp [picks, above 0, above 1, above 2]

theorem pickRing_none (h : ∀ k, pickClass s c k = none) : pickRing s c = none := by simp [pickRing_eq, h]

theorem pickRound_sameButTurns {cls : Fin 4} {rings : List (Fin 1024)} {x : Fin 1024 × State}
    (h : pickRound s c cls rings = some x) : SameButTurns s x.2 := by
  unfold pickRound at h
  split at h
  · cases h
  · split at h
    · cases h
    · cases h
      have credits (k : Nat) (l : List (Fin 1024)) (v : State) : SameButTurns v (forEach l (fun x v =>
          v.modRing x fun d => { d with deficit := d.deficit + k * turnGrant v x }) v) :=
        forEach_sameButTurns (fun x v => sameButTurns_credit v x fun _ => rfl) l v
      exact ((((sameButTurns_credit s _ fun _ => rfl).trans (credits _ _ _)).trans (credits _ _ _)).trans
        (sameButTurns_credit _ _ fun _ => rfl)).trans (setTurn_sameButTurns _ _ _ _)

theorem pickClass_sameButTurns {k : Fin 4} {x : Fin 1024 × State} (h : pickClass s c k = some x) : SameButTurns s x.2 := by
  unfold pickClass at h
  split at h
  · cases h
  · dsimp only at h
    split at h
    · split at h
      · cases h
        exact sameButTurns_credit s _ fun _ => rfl
      · exact (sameButTurns_credit s _ fun _ => rfl).trans (pickRound_sameButTurns h)
    · exact pickRound_sameButTurns h

theorem pickRing_sameButTurns {x : Fin 1024 × State} (h : pickRing s c = some x) : SameButTurns s x.2 := by
  simp only [pickRing_eq, Option.or_eq_some_iff] at h
  rcases h with h | ⟨_, h | ⟨_, h | ⟨_, h⟩⟩⟩ <;> exact pickClass_sameButTurns h

/-! ### The entry taken (R288, R290) -/

theorem dispatchEffect_idle (h : accepts s c = false ∨ tagFree s c = false ∨ pickRing s c = none) : dispatchEffect c s = s := by
  unfold dispatchEffect
  rcases h with h | h | h
  · simp [h]
  · simp [h]
  · simp only [h]
    split <;> rfl

/-- What the consumer takes from the ring: its entry at CI, with its STATUS so far and its timeout. -/
def takes (s : State) (c : Consumer) (r : Fin 1024) : Taken :=
  let a := (getRing s r).group.active
  let e := entryBytes s r (getRing s r).ci
  { ring := r, idx := (getRing s r).ci, cons := c, at_ := s.clock, entry := e, ref := entryRef r (isMgmtRing a) e, offered := true,
    repeats := 0, verdict := dispatchVerdict s c e, addr := entryAt (getRing s r) (getRing s r).ci, limit := ringTimeout a }

/-- The entry held and CI past it. -/
def entryTaken (s : State) (c : Consumer) (r : Fin 1024) : State :=
  (s.modRing r fun g => { g with ci := g.ci + 1 }).modQe fun q => { q with taken := q.taken ++ [takes s c r] }

theorem dispatchEffect_takes (ready : accepts s c = true) (tag : tagFree s c = true) (pick : pickRing s c = some (r, u)) :
    dispatchEffect c s = deliver (afterTake (entryTaken u c r) r c) (takes u c r) (ringTx (getRing u r).group.active) := by
  simp only [dispatchEffect, ready, tag, Bool.and_self, if_true, pick]
  rfl

theorem afterTake_sameButTurns (s : State) (r : Fin 1024) (c : Consumer) : SameButTurns s (afterTake s r c) := by
  have leaves : SameButTurns s (if ringWaiting (getRing s r) then s else leaveTurn s r) := by
    split
    · exact .refl s
    · exact leaveTurn_sameButTurns s r
  unfold afterTake
  generalize (if ringWaiting (getRing s r) then s else leaveTurn s r) = u at leaves
  dsimp only
  split
  · exact leaves
  · exact leaves.trans (clearTurns_sameButTurns _ c)

theorem mem_map_verdict {l : List Taken} {x : Taken} (p : Taken → Bool) (v : Byte) (m : x ∈ l) :
    ∃ w, { x with verdict := w } ∈ l.map fun y => if p y then { y with verdict := v } else y := by
  by_cases k : p x = true
  · exact ⟨v, List.mem_map.2 ⟨x, m, if_pos k⟩⟩
  · exact ⟨x.verdict, List.mem_map.2 ⟨x, m, if_neg k⟩⟩

/-- What an entry starts leaves the rings alone, and of the entries taken it changes the STATUS alone. -/
theorem deliver_keeps (s : State) (t : Taken) (tx : Fin 8) : (deliver s t tx).qe.rings = s.qe.rings ∧
    ∀ x ∈ s.qe.taken, ∃ v, { x with verdict := v } ∈ (deliver s t tx).qe.taken := by
  have keeps : ∀ x ∈ s.qe.taken, ∃ v, { x with verdict := v } ∈ s.qe.taken := fun x m => ⟨x.verdict, m⟩
  unfold deliver
  split
  · split <;> exact ⟨rfl, keeps⟩
  · exact ⟨rfl, keeps⟩
  all_goals
    dsimp only
    split
    · exact ⟨rfl, keeps⟩
    · generalize checkRange s (mdWrite t.entry) (mdAddr t.entry) (mdWords t.entry) = why
      dsimp only [State.modQe]
      split
      · cases why <;> exact ⟨rfl, keeps⟩
      · have marked {x : Taken} := mem_map_verdict (l := s.qe.taken) (x := x)
          (fun y => why.isSome && y.ring == t.ring && y.idx == t.idx) stDenied
        cases why <;> exact ⟨rfl, fun _ m => marked m⟩

theorem SameButTurns.entryBytes (h : SameButTurns s t) (r : Fin 1024) (i : BitVec 16) : entryBytes t r i = entryBytes s r i := by
  have dm : t.dm = s.dm := h.1 .dm (by decide)
  rw [Machine.entryBytes, dm, h.ring r]
  rfl

theorem takes_sameButTurns (h : SameButTurns s u) (c : Consumer) (r : Fin 1024) (v : Byte) :
    { takes u c r with verdict := v } = { takes s c r with verdict := v } := by
  have clock : u.clock = s.clock := h.1 .clock (by decide)
  simp only [takes, clock, h.entryBytes]
  rw [h.ring r]
  rfl

theorem dispatchEffect_entry (ready : accepts s c = true) (tag : tagFree s c = true) (pick : pickRing s c = some (r, u)) :
    (getRing (dispatchEffect c s) r).ci = (getRing s r).ci + 1 ∧ (getRing (dispatchEffect c s) r).pi = (getRing s r).pi ∧
      (getRing (dispatchEffect c s) r).di = (getRing s r).di ∧ ∃ v, { takes s c r with verdict := v } ∈ (dispatchEffect c s).qe.taken := by
  have picked : SameButTurns s u := pickRing_sameButTurns pick
  have after := afterTake_sameButTurns (entryTaken u c r) r c
  obtain ⟨rings, taken⟩ := deliver_keeps (afterTake (entryTaken u c r) r c) (takes u c r) (ringTx (getRing u r).group.active)
  rw [← dispatchEffect_takes ready tag pick] at rings taken
  have ring : getRing (dispatchEffect c s) r = getRing (afterTake (entryTaken u c r) r c) r := by rw [getRing, rings]; rfl
  have past : getRing (entryTaken u c r) r = { getRing u r with ci := (getRing u r).ci + 1 } := upd_same _ _ _
  have held : takes u c r ∈ (afterTake (entryTaken u c r) r c).qe.taken := by
    rw [after.2.1]
    exact List.mem_append_right _ (List.mem_singleton_self _)
  obtain ⟨v, found⟩ := taken _ held
  rw [ring, after.ring r, past, picked.ring r]
  exact ⟨rfl, rfl, rfl, v, takes_sameButTurns picked c r v ▸ found⟩

/-! ### A timeout (R291, R292, R298) -/

theorem timedOut_iff (s : State) (e : Taken) : timedOut s e = true ↔ e.limit ≠ 0 ∧ e.at_ + 400 * e.limit ≤ s.clock := by
  simp [timedOut, Nat.mul_comm]

theorem ringTimeoutEffect_none (h : findTaken s r i = none) : ringTimeoutEffect r i s = s := by simp only [ringTimeoutEffect, h]

theorem ringTimeoutEffect_waits (h : findTaken s r i = some e) (k : timedOut s e = false) : ringTimeoutEffect r i s = s := by
  simp only [ringTimeoutEffect, h, k, Bool.not_false, if_true]

/-- An entry that completes in the clock of the expiry completes as it would have without it. -/
theorem ringTimeoutEffect_completes (h : findTaken s r i = some e) (k : timedOut s e = true) (ends : endStatus s e = some code) :
    ringTimeoutEffect r i s = entryCompleteEffect r i s := by
  simp only [ringTimeoutEffect, entryCompleteEffect, h, k, ends, Bool.not_true, Bool.false_eq_true, if_false]

/-- An entry ended by its timeout, and counted. -/
def expired (s : State) (e : Taken) : State :=
  (completeEntry (abandonWork s e) e stTimeout (heldRef s e)).modQe fun q =>
    { q with cntTimeout := q.cntTimeout + 1, flags := q.flags.set 3 }

theorem ringTimeoutEffect_expires (h : findTaken s r i = some e) (k : timedOut s e = true) (runs : endStatus s e = none) :
    ∃ f, ringTimeoutEffect r i s = noteFence s (recordFault (expired s e) f) := by
  simp only [ringTimeoutEffect, h, k, runs, Bool.not_true, Bool.false_eq_true, if_false]
  exact ⟨_, rfl⟩

/-- A completion moves the rings, the turns and the list of entries taken, and nothing else of the engine. -/
theorem completeEntry_qe (s : State) (e : Taken) (code : Byte) (ref : Option (Fin 2048 × BitVec 7)) :
    ∃ rings turns taken, (completeEntry s e code ref).qe = { s.qe with rings := rings, turns := turns, taken := taken } := by
  have noted (v : State) : (noteEgress v e.cons code).qe = v.qe :=
    (noteEgress_moves v e.cons code (Moves.refl [.egr] v) (by decide)).only .qe (by decide)
  have released (v : State) : (pwReleaseRef v ref).qe = v.qe :=
    (pwReleaseRef_moves v ref (Moves.refl [.pw] v) (by decide)).only .qe (by decide)
  unfold completeEntry
  dsimp only
  rw [(afterTagFreed_sameButTurns s _ e.cons).2.1, released, noted]
  exact ⟨_, _, _, rfl⟩

theorem abandonWork_qe (s : State) (e : Taken) : ∃ ops, (abandonWork s e).qe = { s.qe with ops := ops } := by
  unfold abandonWork
  split
  · exact ⟨_, rfl⟩
  · split <;> exact ⟨_, rfl⟩
  · exact ⟨_, rfl⟩

theorem expired_qe (h : findTaken s r i = some e) : findTaken (expired s e) r i = none ∧
    (expired s e).qe.cntTimeout = s.qe.cntTimeout + 1 ∧ (expired s e).qe.flags.on 3 = true ∧ (expired s e).qe.seq = s.qe.seq := by
  obtain ⟨ops, left⟩ := abandonWork_qe s e
  obtain ⟨rings, turns, taken, done⟩ := completeEntry_qe (abandonWork s e) e stTimeout (heldRef s e)
  have found : findTaken (abandonWork s e) r i = some e := by rw [findTaken, left]; exact h
  refine ⟨findTaken_completeEntry found stTimeout (heldRef s e), ?_, Flags.on_set_same _ (by decide), ?_⟩
  · rw [expired, State.modQe, done, left]
  · rw [expired, State.modQe, done, left]

/-- A record leaves the entries taken, the count of timeouts and every flag that was set. -/
theorem recordFault_keeps (s : State) (f : FaultRec) : (recordFault s f).qe.taken = s.qe.taken ∧
    (recordFault s f).qe.cntTimeout = s.qe.cntTimeout ∧ ∀ j, s.qe.flags.on j = true → (recordFault s f).qe.flags.on j = true := by
  by_cases h : ringOn (getRing s ringFault) = false ∨ ringFull (getRing s ringFault) = true
  · rw [recordFault_lost h]
    exact ⟨rfl, rfl, fun j => Flags.on_set_of_on 1⟩
  · obtain ⟨on, room⟩ : ringOn (getRing s ringFault) = true ∧ ringFull (getRing s ringFault) = false := by simpa using h
    have qe := (ringPost_sameButTurns on room (faultBytes s.qe.seq s.time f)).2.1
    rw [recordFault_stored on room]
    refine ⟨(congrArg Qe.taken qe :), (congrArg Qe.cntTimeout qe :), fun j k => ?_⟩
    have flags : (ringPost s ringFault (faultBytes s.qe.seq s.time f)).2.qe.flags = s.qe.flags := (congrArg Qe.flags qe :)
    exact Flags.on_set_of_on 0 (flags ▸ k)

/-! ### A commit of a ring (R276, R278, R279) -/

theorem ringCommitEffect_waits (h : (getRing s r).group.pending = false ∨ ringMustWait s r = true) : ringCommitEffect r s = s :=
  if_pos (by rcases h with h | h <;> simp [h])

/-- The end of a commit: the ring leaves its list of turns when it is disabled, enabled or moved, and joins the list of its class when
it is ready. -/
def rejoined (out on : Bool) (r : Fin 1024) (s : State) : State :=
  let s := if out then leaveTurn s r else s
  if on then joinTurn s r else s

theorem rejoined_sameButTurns (out on : Bool) (r : Fin 1024) (s : State) : SameButTurns s (rejoined out on r s) := by
  cases out <;> cases on
  · exact .refl s
  · exact joinTurn_sameButTurns s r
  · exact leaveTurn_sameButTurns s r
  · exact (leaveTurn_sameButTurns s r).trans (joinTurn_sameButTurns _ r)

theorem ringCommitEffect_rejects (pending : (getRing s r).group.pending = true) (free : ringMustWait s r = false)
    (bad : ringInvalid s r (getRing s r).group.shadow = true) (off : ringOn (getRing s r) = false) :
    SameButTurns ((s.modQe fun q => { q with flags := q.flags.set 5 }).modRing r fun g =>
      { g with cfgBad := true, group := g.group.reject }) (ringCommitEffect r s) := by
  simp only [ringCommitEffect, pending, free, bad, off, Bool.not_true, Bool.not_false, Bool.false_and, Bool.or_self, Bool.true_or,
    Bool.false_eq_true, if_false, if_true]
  exact leaveTurn_sameButTurns _ r

/-- A ring with its valid group applied. -/
def ringApplied (g : Ring) : Ring :=
  { g with
    cfgBad := false
    group := { g.group with active := g.group.shadow, pending := g.group.again, again := false, wait := 0, count := g.group.count + 1 }
    pi := if ringEn g.group.shadow = true ∧ ringOn g = false ∧ g.pi = g.di then 0 else g.pi
    ci := if ringEn g.group.shadow = true ∧ ringOn g = false ∧ g.pi = g.di then 0 else g.ci
    di := if ringEn g.group.shadow = true ∧ ringOn g = false ∧ g.pi = g.di then 0 else g.di
    done := if ringEn g.group.shadow = true ∧ ringOn g = false ∧ g.pi = g.di then [] else g.done }

theorem modRing_modRing (s : State) (r : Fin 1024) (f g : Ring → Ring) :
    (s.modRing r f).modRing r g = s.modRing r fun x => g (f x) := by
  simp only [State.modRing, State.modQe, upd_upd]

theorem ringCommitEffect_applies (pending : (getRing s r).group.pending = true) (free : ringMustWait s r = false)
    (good : ringInvalid s r (getRing s r).group.shadow = false)
    (stays : ringOn (getRing s r) = false ∨ ringEn (getRing s r).group.shadow = true) :
    SameButTurns (s.modRing r ringApplied) (ringCommitEffect r s) := by
  have kept : (ringOn (getRing s r) && !ringEn (getRing s r).group.shadow) = false := by rcases stays with h | h <;> simp [h]
  simp only [ringCommitEffect, pending, free, good, kept, Bool.not_true, Bool.not_false, Bool.true_and, Bool.or_self,
    Bool.false_eq_true, if_false]
  refine SameButTurns.trans ?_ (rejoined_sameButTurns _ _ r _)
  by_cases opens : ringEn (getRing s r).group.shadow = true ∧ ringOn (getRing s r) = false
  · obtain ⟨en, off⟩ := opens
    simp only [en, off, Bool.not_false, Bool.and_self, if_true, modRing_modRing]
    refine sameButTurns_modRing s r ?_
    by_cases empty : (getRing s r).pi = (getRing s r).di <;> simp [ringApplied, en, off, empty, Shadowed.apply]
  · have same : (ringEn (getRing s r).group.shadow && !ringOn (getRing s r)) = false := by simpa using opens
    rw [same, if_neg Bool.false_ne_true]
    refine sameButTurns_modRing s r ?_
    simp [ringApplied, ← and_assoc, opens, Shadowed.apply]

/-- Settles O43: the pick and the entry it takes, then the timeout by what the entry finds, then the commit by its outcome. -/
theorem ringEntries : Obligations.RingEntries := by
  intro s c r i hc g
  have go (f : State → State) : onSys s f = .next (f s) := onSys_clocked hc f
  have keeps {f : State → State} (k : f s = s) : onSys s f = .next s := (go f).trans (congrArg _ k)
  refine ⟨fun h => keeps (dispatchEffect_idle h), fun k above rest first turn credit => ?_, fun h => ?_, fun u ready tag pick => ?_,
    fun h => keeps (ringTimeoutEffect_none h), fun e found => ⟨fun early => ?_, fun limit late => ⟨fun code ends => ?_, fun runs => ?_⟩⟩,
    fun h => keeps (ringCommitEffect_waits h), fun pending free => ⟨fun bad off => ?_, fun good stays => ?_⟩⟩
  · exact pickRing_class (fun j lt => pickClass_empty (above j lt)) _ (pickClass_inTurn first turn credit)
  · exact pickRing_none fun k => pickClass_empty (h k)
  · obtain ⟨ci, pi, di, v, taken⟩ := dispatchEffect_entry ready tag pick
    exact ⟨_, go _, (dispatchEffect_moves c s (Moves.refl _ s) fun _ h => h).only, ci, pi, di, _, taken, rfl, rfl, rfl, rfl, rfl, rfl⟩
  · refine keeps (ringTimeoutEffect_waits found (Bool.eq_false_iff.2 fun k => ?_))
    obtain ⟨limit, late⟩ := (timedOut_iff s e).1 k
    exact early.elim limit (Nat.not_lt.2 late)
  · exact (go _).trans ((congrArg _ (ringTimeoutEffect_completes found ((timedOut_iff s e).2 ⟨limit, late⟩) ends)).trans (go _).symm)
  · obtain ⟨f, effect⟩ := ringTimeoutEffect_expires found ((timedOut_iff s e).2 ⟨limit, late⟩) runs
    obtain ⟨gone, counted, flag, seq⟩ := expired_qe found
    obtain ⟨taken, count, flags⟩ := recordFault_keeps (expired s e) f
    have qe : (ringTimeoutEffect r i s).qe = (recordFault (expired s e) f).qe := effect ▸ noteFence_only s _ .qe (by decide)
    refine ⟨_, go _, (ringTimeoutEffect_moves r i s (Moves.refl _ s) fun _ h => h).only, ?_⟩
    rw [findTaken, qe, taken, count, recordFault_seq, counted, seq]
    exact ⟨gone, rfl, flags 3 flag, rfl⟩
  · exact ⟨_, go _, ringCommitEffect_rejects pending free bad off⟩
  · exact ⟨_, go _, ringCommitEffect_applies pending free good stays⟩

end Sys2Proof.Machine
end

section
/-! One step (O1): the command at the front of the queue, or a tick. -/

namespace Sys2Proof.Machine

theorem step_front {s : State} {c : Instr} {rest : List Instr} (h : s.pending = c :: rest) :
    step s = exec c { s with pending := rest } := by
  simp only [step, h]

/-- Settles O1: a step looks at the front of the queue alone. -/
theorem stepRunsTheFront : Obligations.StepRunsTheFront :=
  fun _ _ _ => ⟨step_front rfl, step_front, step_empty⟩

end Sys2Proof.Machine
end

section
/-! What software does to an SPI controller (O56): the queue (R487, R490, R498), the FIFOs (R503, R510), ABORT and RESUME (R496, R507), the
settings (R504) and the mode fault (R505). -/

namespace Sys2Proof.Machine

variable {s : State} {m : Fin 2}

/-! ### One controller -/

/-- The state in which controller m has become u. -/
def withSpc (s : State) (m : Fin 2) (u : Spc) : State := { s with spc := upd s.spc m fun _ => u }

theorem modSpc_eq (s : State) (m : Fin 2) (f : Spc → Spc) : s.modSpc m f = withSpc s m (f (getSpc s m)) := rfl

@[simp] theorem getSpc_withSpc (s : State) (m : Fin 2) (u : Spc) : getSpc (withSpc s m u) m = u := upd_same _ _ _

@[simp] theorem withSpc_withSpc (s : State) (m : Fin 2) (u v : Spc) : withSpc (withSpc s m u) m v = withSpc s m v := by
  simp only [withSpc, upd_upd]

theorem withSpc_self (s : State) (m : Fin 2) : withSpc s m (getSpc s m) = s :=
  congrArg (fun v => { s with spc := v }) (upd_id _ _ _ rfl)

/-! ### The FIFOs and the queue -/

/-- Bytes that find no room are lost whole (R503). -/
def Spc.txLost (u : Spc) : Spc := { u with tally := u.tally.bump 6, flags := u.flags.set 9 }

theorem spcTxWrite_fits {bs : List Byte} (h : (getSpc s m).tx.length + bs.length ≤ 64) :
    spcTxWrite m bs s = withSpc s m { getSpc s m with tx := (getSpc s m).tx ++ bs.map fun b => (b, s.clock) } := by
  rw [spcTxWrite, modSpc_eq, if_neg (Nat.not_lt.2 h)]

theorem spcTxWrite_lost {bs : List Byte} (h : 64 < (getSpc s m).tx.length + bs.length) :
    spcTxWrite m bs s = withSpc s m (getSpc s m).txLost := by
  rw [spcTxWrite, modSpc_eq, if_pos h]; rfl

theorem spcCmdWriteEffect_slave (w : Word) (h : spcSlave (spcAct s m) = true) :
    spcCmdWriteEffect m w s = withSpc s m (countReject (getSpc s m)) := by
  rw [spcCmdWriteEffect, modSpc_eq, if_pos h]

theorem spcCmdWriteEffect_full (w : Word) (h : ¬spcSlave (spcAct s m) = true) (k : 32 ≤ (getSpc s m).queue.length) :
    spcCmdWriteEffect m w s = withSpc s m { getSpc s m with tally := (getSpc s m).tally.bump 7 } := by
  rw [spcCmdWriteEffect, modSpc_eq, if_neg h, if_pos k]

theorem spcCmdWriteEffect_queued (w : Word) (h : ¬spcSlave (spcAct s m) = true) (k : (getSpc s m).queue.length < 32) :
    spcCmdWriteEffect m w s = withSpc s m { getSpc s m with queue := (getSpc s m).queue ++ [w], contWait := false } := by
  rw [spcCmdWriteEffect, modSpc_eq, if_neg h, if_neg (Nat.not_le.2 k)]

/-! ### RESUME, the settings and the mode fault -/

theorem ss0Active_iff : ss0Active s m (spcAct s m) = true ↔ inputLevel s (sigSs m 0) = bit (spcAct s m).cfg 12 := by
  simp [ss0Active]

theorem resumeEffect_claimed (h : ss0Active s m (spcAct s m) = true) : resumeEffect m s = s := if_pos h

theorem resumeEffect_free (h : ¬ss0Active s m (spcAct s m) = true) :
    resumeEffect m s = withSpc s m { getSpc s m with halted := false } := if_neg h

/-- An enabled controller with a frame open: a slave's own frame, or a master's with its chain (R504). -/
def frameIsOpen (u : Spc) : Prop :=
  bit u.group.active.cfg 0 = true ∧
    if bit u.group.active.cfg 1 = true then u.slaveFrame = true else u.frameOpen = true ∨ u.chain = true

theorem spcSafe_iff : spcSafe s m = true ↔ (getSpc s m).group.pending = true ∧ ¬frameIsOpen (getSpc s m) := by
  simp only [spcSafe, spcEn, spcSlave, frameIsOpen]
  by_cases on : bit (getSpc s m).group.active.cfg 0 = true <;> by_cases slave : bit (getSpc s m).group.active.cfg 1 = true <;>
    simp [on, slave]

theorem spcCommitEffect_waits (h : (getSpc s m).group.pending = false ∨ frameIsOpen (getSpc s m)) : spcCommitEffect m s = s :=
  if_neg fun safe => by
    obtain ⟨pending, closed⟩ := spcSafe_iff.1 safe
    exact h.elim (fun none => by simp [none] at pending) closed

theorem spcCommitEffect_applies (h : (getSpc s m).group.pending = true) (k : ¬frameIsOpen (getSpc s m)) :
    spcCommitEffect m s = withSpc s m { getSpc s m with
      group := (getSpc s m).group.apply, cfgBad := spcInvalid (getSpc s m).group.shadow
      flags := (getSpc s m).flags.setIf (spcInvalid (getSpc s m).group.shadow) 10 } :=
  if_pos (spcSafe_iff.2 ⟨h, k⟩)

/-- Another device claims the bus of an enabled master whose SS0 is given to a pin (R505, R515). -/
def busContended (s : State) (m : Fin 2) : Prop :=
  bit (spcAct s m).cfg 0 = true ∧ ¬bit (spcAct s m).cfg 1 = true ∧ bit (spcAct s m).cfg 7 = true ∧ (getSpc s m).cfgBad = false ∧
    sigPin s (sigSs m 0) ≠ none

theorem modeFaultEffect_eq [Decidable (busContended s m)] : modeFaultEffect m s =
    if busContended s m then withSpc s m { spcEmpty (getSpc s m) with
      halted := true, doneNow := 0, tally := (getSpc s m).tally.bump 0, flags := (getSpc s m).flags.set 3 }
    else s :=
  if_congr (by simp [busContended, spcEn, spcSlave, spcMf, Option.isSome_iff_ne_none, and_assoc]) rfl rfl

open Classical in
/-- Settles O56: each command by what it finds in the controller. -/
theorem spcSoftware : Obligations.SpcSoftware := by
  intro s m b w c
  have answer {f : State → State} {t : State} (h : f s = t) : onSys s f = .next t := (onSys_clocked c f).trans (congrArg _ h)
  refine ⟨fun h => answer (spcTxWrite_fits h), fun h => answer (spcTxWrite_lost (Nat.lt_succ_of_le h)),
    fun h => answer (spcTxWrite_fits (Nat.add_le_add_right h 4)), fun h => answer (spcTxWrite_lost (Nat.add_lt_add_right h 4)),
    fun h => answer (spcCmdWriteEffect_slave w h), fun h k => answer (spcCmdWriteEffect_full w h k),
    fun h k => answer (spcCmdWriteEffect_queued w h k), answer rfl, fun h => answer (resumeEffect_free (mt ss0Active_iff.1 h)),
    fun h => answer (resumeEffect_claimed (ss0Active_iff.2 h)), answer rfl, answer rfl, answer rfl,
    fun h => answer (spcCommitEffect_waits h), fun h k good => answer ?_, fun h k bad => answer ?_,
    fun h => answer (modeFaultEffect_eq.trans (if_pos h)), fun h => answer (modeFaultEffect_eq.trans (if_neg h))⟩
  · rw [spcCommitEffect_applies h k, getSpc, good]; rfl
  · rw [spcCommitEffect_applies h k, getSpc, bad]; rfl

end Sys2Proof.Machine
end

section
/-! Commands of the SPI master (O57): the bits of a byte (R486), the start of a command (R487, R489, R492), and the bytes it moves (R488,
R491, R495). -/

namespace Sys2Proof.Machine

variable {s : State} {m : Fin 2} {u : Spc} {w : Word} {rest : List Word} {k : BitVec 2} {r : SpcRun}

/-! ### Bits of a byte (R486) -/

/-- The number that bits spell, the lowest first, has those bits. -/
theorem testBit_foldr_bits (l : List Bool) (i : Nat) :
    (l.foldr (fun (b : Bool) (n : Nat) => (if b then 1 else 0) + 2 * n) 0).testBit i = l.getD i false := by
  induction l generalizing i with
  | nil => simp
  | cons b l ih =>
    cases i with
    | zero => cases b <;> simp [Nat.testBit_zero, Nat.add_mod]
    | succ i =>
      rw [Nat.testBit_succ, List.getD_cons_succ, ← ih]
      congr 1
      cases b <;> simp only [List.foldr_cons] <;> split <;> omega

theorem getD_map_bits (x : Byte) (i : Nat) (h : i < 8) : ((List.range 8).map fun i => bit x i).getD i false = bit x i := by
  simp [List.getD_eq_getElem?_getD, h]

theorem getD_map_bits_reverse (x : Byte) (i : Nat) (h : i < 8) :
    ((List.range 8).map fun i => bit x i).reverse.getD i false = bit x (7 - i) := by
  simp [List.getD_eq_getElem?_getD, h]

/-- Bit i of a received byte: the level at its own sampling edge, where bit 7 travels first or, with LSB_FIRST, bit 0. -/
theorem bit_wireByte (g : SpcGroup) (x : SpiBits) (i : Nat) (h : i < 8) : bit (wireByte g (sampled g x)) i =
    bit (if bit g.cfg 2 = bit g.cfg 3 then x.rise else x.fall) (if bit g.cfg 4 then i else 7 - i) := by
  have edge : (if samplesRising g then x.rise else x.fall) = if bit g.cfg 2 = bit g.cfg 3 then x.rise else x.fall :=
    if_congr (by simp [samplesRising, spcCpol, spcCpha]) rfl rfl
  rw [wireByte, sampled, edge, bit, BitVec.getLsbD_ofNat, testBit_foldr_bits, decide_eq_true h, Bool.true_and]
  by_cases lsb : bit g.cfg 4 = true
  · simp only [spcLsb, lsb, if_true]; exact getD_map_bits _ i h
  · simp only [spcLsb, lsb, if_false, Bool.false_eq_true]; exact getD_map_bits_reverse _ i h

theorem received_eq (s : State) (g : SpcGroup) (sig : Nat) (x : SpiBits) :
    received s g sig x = if sigPin s sig = none then 0 else wireByte g (sampled g x) := by
  cases h : sigPin s sig <;> simp [received, h]

theorem spcOut_sck (h : spcMasterLive s m = true) : spcOut s m 0 = some (spcCpol (spcAct s m)) := by
  simp only [spcOut, h, if_true]

/-! ### The head of the queue (R487 to R489, R492) -/

theorem spcStartEffect_idle (k : BitVec 2) (h : ¬spcMasterLive s m = true ∨ (getSpc s m).run ≠ none ∨ (getSpc s m).queue = []) :
    spcStartEffect k m s = s := by
  simp only [spcStartEffect]
  split
  · next ready =>
    obtain ⟨live, idle⟩ : spcMasterLive s m = true ∧ (getSpc s m).run = none := by simpa using ready
    simp [(h.resolve_left (not_not_intro live)).resolve_left (not_not_intro idle)]
  · rfl

section
variable (queue : (getSpc s m).queue = w :: rest)
include queue

theorem spcStartEffect_other (kind : cmdKind w ≠ k) : spcStartEffect k m s = s := by
  simp only [spcStartEffect, queue, if_neg kind, ite_self]

theorem spcStartEffect_starts (live : spcMasterLive s m = true) (idle : (getSpc s m).run = none) (kind : cmdKind w = k) :
    spcStartEffect k m s = withSpc s m (startHead s.clock (spcAct s m) (getSpc s m) w rest) := by
  simp only [spcStartEffect, queue, if_pos kind, live, idle, Option.isNone_none, Bool.and_self, if_true, modSpc_eq]

end

/-- The controller whose queue has given up its head: the chain's first command names the select (R489). -/
def Spc.headTaken (u : Spc) (w : Word) (rest : List Word) : Spc :=
  { u with queue := rest, contWait := false, chain := true, sel := if u.chain then u.sel else BitVec.ofNat 4 (fld w 15 12)
           wordPos := if u.chain then u.wordPos else 0 }

theorem cmdRejected_iff (g : SpcGroup) (w : Word) : cmdRejected g w = true ↔
    cmdKind w ≠ 3 ∧ (bit g.cfg 5 = true ∨ bit g.cfg 8 = true) ∧ cmdCount w % (fld g.cfg 10 9 + 1) ≠ 0 := by
  simp [cmdRejected, spcPerWord, spcWframe, spcWord, and_assoc]

theorem startHead_rejected {clock : Nat} {g : SpcGroup} (h : cmdRejected g w = true) :
    startHead clock g u w rest = endCommand (countReject (u.headTaken w rest)) (bit w 16) := if_pos h

theorem startHead_runs {clock : Nat} {g : SpcGroup} (h : ¬cmdRejected g w = true) :
    startHead clock g u w rest = { u.headTaken w rest with
      frameOpen := u.frameOpen || decide (cmdKind w ≠ 3)
      run := some ⟨cmdKind w, cmdCount w, bit w 16, clock + cmdCount w * (8 * (fld g.clk 11 0 + 1))⟩ } := by
  have opens : (cmdKind w != 3) = decide (cmdKind w ≠ 3) := Bool.eq_iff_iff.2 (by simp)
  rw [startHead, if_neg h, opens]; rfl

/-! ### The bytes of a command (R488, R491, R495) -/

theorem takesTx_iff (k : BitVec 2) : takesTx k = true ↔ k = 0 ∨ k = 1 := by simp [takesTx]
theorem storesRx_iff (k : BitVec 2) : storesRx k = true ↔ k = 0 ∨ k = 2 := by simp [storesRx]

/-- A byte waits for the byte it sends or for the room it needs. -/
theorem byteReady_iff (u : Spc) (k : BitVec 2) : byteReady u k = true ↔
    ¬(((k = 0 ∨ k = 1) ∧ u.tx = []) ∨ ((k = 0 ∨ k = 2) ∧ 64 ≤ u.rx.length)) := by
  rw [← takesTx_iff, ← storesRx_iff]
  cases takes : takesTx k <;> cases stores : storesRx k <;> simp [byteReady, takes, stores]

/-- The controller after one byte of the command r, got being the byte received. -/
def Spc.moved (g : SpcGroup) (u : Spc) (r : SpcRun) (got : Byte) : Spc :=
  { u with
    tx := if r.kind = 0 ∨ r.kind = 1 then u.tx.tail else u.tx
    rx := if r.kind = 0 ∨ r.kind = 2 then u.rx ++ [⟨got, false, true⟩] else u.rx
    lastMosi := some (if r.kind = 0 ∨ r.kind = 1 then (u.tx.map (·.1)).headD 0 else g.fill.setWidth 8), stalled := false
    wordPos := if u.wordPos + 1 = fld g.cfg 10 9 + 1 then 0 else u.wordPos + 1
    frameOpen := !(bit g.cfg 5 && decide (u.wordPos + 1 = fld g.cfg 10 9 + 1))
    run := some { r with left := r.left - 1 } }

theorem moveByte_eq (g : SpcGroup) (u : Spc) (r : SpcRun) (got : Byte) : moveByte g u r got =
    if r.left ≤ 1 then endCommand (countDone (u.moved g r got)) r.cont else u.moved g r got := by
  have word (n : Nat) : ((if u.wordPos + 1 = n then 0 else u.wordPos + 1) == 0) = decide (u.wordPos + 1 = n) := by
    split <;> simp [*]
  simp only [moveByte, takesTx_iff, storesRx_iff, List.drop_one, word]
  rfl

theorem masterByteEffect_none (miso : SpiBits) (h : (getSpc s m).run = none) : masterByteEffect m miso s = s := by
  simp only [masterByteEffect, modSpc_eq, h, withSpc_self]

theorem masterByteEffect_dead (miso : SpiBits) (h : ¬spcMasterLive s m = true) : masterByteEffect m miso s = s := by
  simp only [masterByteEffect, modSpc_eq, h, Bool.not_false, Bool.true_or, if_true]
  cases (getSpc s m).run <;> simp only [withSpc_self]

section
variable (run : (getSpc s m).run = some r)
include run

theorem masterByteEffect_waits (miso : SpiBits) (h : r.kind = 3 ∨ ¬byteReady (getSpc s m) r.kind = true) :
    masterByteEffect m miso s = s := by
  have stays : (!spcMasterLive s m || r.kind == 3 || !byteReady (getSpc s m) r.kind) = true := by
    rcases h with h | h <;> simp [h]
  simp only [masterByteEffect, modSpc_eq, run, stays, if_true, withSpc_self]

theorem masterByteEffect_moves_byte (miso : SpiBits) (live : spcMasterLive s m = true) (kind : r.kind ≠ 3)
    (ready : byteReady (getSpc s m) r.kind = true) : masterByteEffect m miso s =
      withSpc s m (moveByte (spcAct s m) (getSpc s m) r (received s (spcAct s m) (sigMiso m) miso)) := by
  have goes : (!spcMasterLive s m || r.kind == 3 || !byteReady (getSpc s m) r.kind) = false := by
    rw [live, beq_eq_false_iff_ne.2 kind, ready]; rfl
  simp only [masterByteEffect, modSpc_eq, run, goes, Bool.false_eq_true, if_false]

end

/-- Settles O57: the bits of a byte, the start of a command by its kind, and the bytes it moves. -/
theorem spcMasterCommands : Obligations.SpcMasterCommands := by
  intro s m miso x c u g becomes live ended head rejected starts
  have answer {f : State → State} {t : State} (h : f s = t) : onSys s f = .next t := (onSys_clocked c f).trans (congrArg _ h)
  have begins {k : BitVec 2} {w : Word} {rest : List Word} (alive : live) (idle : u.run = none) (queue : u.queue = w :: rest)
      (kind : cmdKind w = k) :
      (rejected w → onSys s (spcStartEffect k m) =
        becomes (ended { head w rest with tally := u.tally.bump 5, flags := u.flags.set 8 } (bit w 16))) ∧
      (¬rejected w → onSys s (spcStartEffect k m) = becomes { head w rest with
        frameOpen := u.frameOpen || decide (cmdKind w ≠ 3)
        run := some ⟨cmdKind w, cmdCount w, bit w 16, s.clock + cmdCount w * (8 * (fld g.clk 11 0 + 1))⟩ }) := by
    have start := spcStartEffect_starts queue alive idle kind
    exact ⟨fun bad => answer (start.trans (congrArg _ (startHead_rejected ((cmdRejected_iff _ w).2 bad)))),
      fun good => answer (start.trans (congrArg _ (startHead_runs (mt (cmdRejected_iff _ w).1 good))))⟩
  refine ⟨bit_wireByte g x, spcOut_sck, fun h => ⟨answer (spcStartEffect_idle 0 h), answer (spcStartEffect_idle 1 h),
      answer (spcStartEffect_idle 2 h), answer (spcStartEffect_idle 3 h)⟩,
    fun w rest alive idle queue => ⟨begins alive idle queue, begins alive idle queue, begins alive idle queue,
      begins alive idle queue, fun ne => answer (spcStartEffect_other queue ne), fun ne => answer (spcStartEffect_other queue ne),
      fun ne => answer (spcStartEffect_other queue ne), fun ne => answer (spcStartEffect_other queue ne)⟩,
    fun h => answer (h.elim (masterByteEffect_dead miso) (masterByteEffect_none miso)), fun r alive run => ?_⟩
  intro sends stores waits got word moved
  have goes (kind : r.kind ≠ 3) (free : ¬waits) : masterByteEffect m miso s =
      withSpc s m (if r.left ≤ 1 then endCommand (countDone (u.moved g r got)) r.cont else u.moved g r got) := by
    rw [masterByteEffect_moves_byte run miso alive kind ((byteReady_iff u r.kind).2 free), moveByte_eq, received_eq]; rfl
  refine ⟨fun h => answer (masterByteEffect_waits run miso (h.imp_right fun k => ?_)), fun kind free more => answer ?_,
    fun kind free last => answer ?_⟩
  · exact fun ready => (byteReady_iff u r.kind).1 ready k
  · rw [goes kind free, if_neg (by omega)]; rfl
  · rw [goes kind free, if_pos last]; rfl

end Sys2Proof.Machine
end

section
/-! Frames of the SPI slave (O58): the byte it chooses to send (R499), a byte received (R500, R511), and the end of a frame (R501, R502). -/

namespace Sys2Proof.Machine

variable {s : State} {m : Fin 2} {u : Spc}

/-! ### The byte that waits for room (R500, R511) -/

theorem spcSettle_none (h : u.rxHeld = none) : spcSettle u = u := by simp only [spcSettle, h]

theorem spcSettle_some {c : SpcRx} (h : u.rxHeld = some c) : spcSettle u =
    if u.rx.length < 64 then { u with rx := u.rx ++ [c], rxHeld := none }
    else { u with rxHeld := none, slaveLost := true, tally := u.tally.bump 1, flags := u.flags.set 4 } := by
  simp only [spcSettle, h]

/-! ### The byte the slave sends next (R499) -/

/-- The slave sends BUSY. -/
def Spc.sendsBusy (u : Spc) : Spc :=
  { u with slaveNext := none, slaveOut := (u.group.active.fill >>> 8).setWidth 8, tally := u.tally.bump 2, flags := u.flags.set 5 }

theorem slaveChoose_empty (h : (getSpc s m).tx = []) : slaveChoose s m = withSpc s m (getSpc s m).sendsBusy := by
  simp only [slaveChoose, h]; rfl

section
variable {b : Byte} {t : Nat} {rest : List (Byte × Nat)} (h : (getSpc s m).tx = (b, t) :: rest)
include h

theorem slaveChoose_old (old : t + 40 ≤ s.clock) :
    slaveChoose s m = withSpc s m { getSpc s m with slaveNext := some b, slaveOut := b, tx := rest } := by
  simp only [slaveChoose, h, if_pos old, modSpc_eq, List.drop_one, List.tail_cons]

theorem slaveChoose_taken (young : s.clock < t + 40) (v : freeValue s % 2 = 0) : slaveChoose s m =
    withSpc s.freeStep m { getSpc s m with slaveNext := some b, slaveOut := b, tx := rest } := by
  simp only [slaveChoose, h, if_neg (Nat.not_le.2 young), if_pos v, modSpc_eq]
  simp only [getSpc, State.freeStep] at h ⊢
  simp only [h, List.drop_one, List.tail_cons]

theorem slaveChoose_left (young : s.clock < t + 40) (v : freeValue s % 2 ≠ 0) :
    slaveChoose s m = withSpc s.freeStep m (getSpc s m).sendsBusy := by
  simp only [slaveChoose, h, if_neg (Nat.not_le.2 young), if_neg v]; rfl

end

/-! ### A frame begins, and a byte of it arrives -/

theorem slaveStartEffect_idle (h : ¬(spcSlaveLive s m = true ∧ (getSpc s m).slaveFrame = false ∧ sigPin s (sigSs m 0) ≠ none)) :
    slaveStartEffect m s = s :=
  if_neg (by simpa [Option.isSome_iff_ne_none, and_assoc] using h)

theorem slaveStartEffect_starts (h : spcSlaveLive s m = true ∧ (getSpc s m).slaveFrame = false ∧ sigPin s (sigSs m 0) ≠ none) :
    slaveStartEffect m s = slaveChoose (withSpc s m { getSpc s m with
      slaveFrame := true, slaveBytes := 0, slaveLost := false, slaveFlushed := false }) m :=
  if_pos (by simpa [Option.isSome_iff_ne_none, and_assoc] using h)

theorem slaveByteEffect_idle (mosi : SpiBits) (h : ¬((getSpc s m).slaveFrame = true ∧ sigPin s (sigSck m) ≠ none)) :
    slaveByteEffect m mosi s = s :=
  if_neg (by simpa [Option.isSome_iff_ne_none] using h)

theorem slaveByteEffect_stores (mosi : SpiBits) (h : (getSpc s m).slaveFrame = true ∧ sigPin s (sigSck m) ≠ none) :
    slaveByteEffect m mosi s = slaveChoose (withSpc s m (slaveStore
      ⟨if sigPin s (sigMosi m) = none then 0 else wireByte (spcAct s m) (sampled (spcAct s m) mosi), false,
        !spcWframe (spcAct s m)⟩ (getSpc s m))) m := by
  rw [← received_eq]
  exact if_pos (by simpa [Option.isSome_iff_ne_none] using h)

/-! ### The end of a frame (R501, R502) -/

/-- The controller whose slave frame has ended after the given bits of a byte cut short; a chosen byte of which no bit was sent is the
head of the TX FIFO again. -/
def Spc.frameEnded (v : Spc) (bits : Nat) : Spc :=
  { v with
    slaveFrame := false, framesNow := v.framesNow + 1, slaveNext := none
    tally := (v.tally.bumpIf (decide (bits ≠ 0)) 3).bumpIf (decide (bits ≠ 0) && v.slaveNext.isSome) 9
    flags := v.flags.setIf (decide (bits ≠ 0)) 6
    tx := match decide (bits ≠ 0), v.slaveNext with
      | false, some b => (b, 0) :: v.tx
      | _, _ => v.tx }

theorem frameEnded_tx (v : Spc) (bits : Nat) : (v.frameEnded bits).tx =
    if bits = 0 then (v.slaveNext.toList.map fun b => (b, 0)) ++ v.tx else v.tx := by
  cases next : v.slaveNext <;> cases bits <;> simp [Spc.frameEnded, next]

/-- Every byte of a frame with WFRAME is a whole word, and none was lost (R502). -/
def frameWhole (g : SpcGroup) (v : Spc) (bits : Nat) : Prop :=
  v.slaveBytes % (fld g.cfg 10 9 + 1) = 0 ∧ bits = 0 ∧ v.slaveLost = false ∧ v.slaveFlushed = false

theorem slaveEndEffect_idle (bits : Nat) (h : (getSpc s m).slaveFrame = false) : slaveEndEffect m bits s = s :=
  if_neg (by simp [h])

theorem slaveEndEffect_ends (bits : Nat) (h : (getSpc s m).slaveFrame = true) (free : ¬spcWframe (spcAct s m) = true) :
    slaveEndEffect m bits s = withSpc s m ((spcSettle (getSpc s m)).frameEnded bits) := by
  rw [slaveEndEffect, if_pos h, modSpc_eq]
  exact congrArg _ (if_pos (by simp [free]))

section
variable {bits : Nat} (h : (getSpc s m).slaveFrame = true) (words : spcWframe (spcAct s m) = true)
include h words

theorem slaveEndEffect_accepts (whole : frameWhole (spcAct s m) (spcSettle (getSpc s m)) bits) :
    slaveEndEffect m bits s = withSpc s m { (spcSettle (getSpc s m)).frameEnded bits with
      rx := acceptFrame (spcSettle (getSpc s m)).rx } := by
  rw [slaveEndEffect, if_pos h, modSpc_eq]
  refine congrArg _ ((if_neg (by simp [words])).trans (if_pos ?_))
  simpa [frameWhole, spcWord] using whole

theorem slaveEndEffect_rejects (broken : ¬frameWhole (spcAct s m) (spcSettle (getSpc s m)) bits) :
    slaveEndEffect m bits s = withSpc s m { (spcSettle (getSpc s m)).frameEnded bits with
      rx := (spcSettle (getSpc s m)).rx.filter (·.committed)
      tally := ((spcSettle (getSpc s m)).frameEnded bits).tally.bump 4
      flags := ((spcSettle (getSpc s m)).frameEnded bits).flags.set 7 } := by
  rw [slaveEndEffect, if_pos h, modSpc_eq]
  refine congrArg _ ((if_neg (by simp [words])).trans (if_neg ?_))
  simpa [frameWhole, spcWord] using broken

end

/-- Settles O58: the start, the bytes and the end of a frame, and the byte chosen by what the TX FIFO holds. -/
theorem spcSlaveFrames : Obligations.SpcSlaveFrames := by
  intro s m mosi bits c u g put v begun got c' stored cut ended whole starts clocks
  have answer {f : State → State} {t : State} (h : f s = t) : onSys s f = .next t := (onSys_clocked c f).trans (congrArg _ h)
  have frame : v.frameEnded bits = ended :=
    congrArg (fun tx => { v.frameEnded bits with tx := tx }) (frameEnded_tx v bits)
  refine ⟨spcSettle_none, fun _ => spcSettle_some, fun h => answer (slaveStartEffect_idle h),
    fun h => answer (slaveStartEffect_starts h), fun h => answer (slaveByteEffect_idle mosi h),
    fun h => answer (slaveByteEffect_stores mosi h), fun h => answer (slaveEndEffect_idle bits h),
    fun h => ⟨fun free => ?_, fun words good => ?_, fun words bad => ?_⟩, fun t => ⟨slaveChoose_empty, fun b at_ rest tx => ?_⟩⟩
  · rw [← frame]
    exact answer (slaveEndEffect_ends bits h (Bool.eq_false_iff.1 free))
  · rw [← frame]
    exact answer (slaveEndEffect_accepts h words good)
  · rw [← frame]
    exact answer (slaveEndEffect_rejects h words bad)
  · exact ⟨slaveChoose_old tx, slaveChoose_taken tx, slaveChoose_left tx⟩

end Sys2Proof.Machine
end

section
/-! Pins and pin interrupts (O59): what a pin drives (R513 to R517), the pin of an input signal (R514, R515), and the lines of the pin
interrupts (R521 to R524, R530, R532). -/

namespace Sys2Proof.Machine

variable {s : State} {p : Fin 96} {sig : Nat} {k : Fin 16} {level : Bool} {l : Pil}

/-! ### What a pin drives -/

section
variable (noTest : extestDrive s p.val = none)
include noTest

theorem pinDrive_unreleased (h : released s = false) : pinDrive s p = none := by
  simp only [pinDrive, noTest, h, Bool.not_false, if_true]

variable (h : released s = true)
include h

theorem pinDrive_none (out : functionOut s p = none) : pinDrive s p = none := by
  simp [pinDrive, noTest, h, out]

/-- Without OD a pin drives the output of its function. -/
theorem pinDrive_some {b : Bool} (out : functionOut s p = some b) (od : bit (getPin s p) 15 = false) : pinDrive s p = some b := by
  cases b <;> simp [pinDrive, noTest, h, out, pinOd, od]

theorem pinDrive_openDrain (od : bit (getPin s p) 15 = true) : pinDrive s p ≠ some true := by
  rcases out : functionOut s p with _ | _ | _ <;> simp [pinDrive, noTest, h, out, pinOd, od]

end

theorem functionOut_gpio (h : pinFunc (getPin s p) = 0) : functionOut s p =
    if bit s.pio.oe[pinBank p] (p.val % 16) then some (bit s.pio.out[pinBank p] (p.val % 16)) else none := by
  simp only [functionOut, h]

theorem functionOut_signal (h : pinFunc (getPin s p) = 2) : functionOut s p = signalOut s (fld (getPin s p) 9 4) := by
  simp only [functionOut, h]; rfl

theorem functionOut_analog (h : pinFunc (getPin s p) = 3) : functionOut s p = none := by
  simp only [functionOut, h]

theorem signalOut_txd (h : sig < 18) : signalOut s sig = some (uaTxd s (Fin.ofNat 18 sig)) := if_pos h

theorem signalOut_input (h : 18 ≤ sig) (k : sig < 36 ∨ 50 ≤ sig) : signalOut s sig = none := by
  rw [signalOut, if_neg (by omega), if_neg (by omega)]

theorem pinLevel_analog (h : pinFunc (getPin s p) = 3) : pinLevel s p = false := by
  simp [pinLevel, pinAnalog, h]

/-! ### The pin of an input signal -/

theorem sigPin_some (h : sigPin s sig = some p) : carries s sig p = true ∧ ∀ q : Fin 96, q < p → carries s sig q = false := by
  obtain ⟨found, i, hi, at_, below⟩ := List.find?_eq_some_iff_getElem.1 h
  refine ⟨found, fun q lt => ?_⟩
  simp only [allFin, List.getElem_finRange] at at_ below
  subst at_
  simpa using below q.val lt

theorem sigPin_none (h : sigPin s sig = none) (q : Fin 96) : carries s sig q = false := by
  simpa using List.find?_eq_none.1 h q (List.mem_finRange q)

/-! ### The lines of the pin interrupts -/

/-- The state in which line k has become l. -/
def withPil (s : State) (k : Fin 16) (l : Pil) : State := { s with pio := { s.pio with pil := upd s.pio.pil k fun _ => l } }

theorem modPil_eq (s : State) (k : Fin 16) (f : Pil → Pil) : s.modPil k f = withPil s k (f (getPil s k)) := rfl

@[simp] theorem getPil_withPil (s : State) (k : Fin 16) (l : Pil) : getPil (withPil s k l) k = l := upd_same _ _ _

@[simp] theorem withPil_withPil (s : State) (k : Fin 16) (l l' : Pil) : withPil (withPil s k l) k l' = withPil s k l' := by
  simp only [withPil, upd_upd]

theorem withPil_self (s : State) (k : Fin 16) : withPil s k (getPil s k) = s :=
  congrArg (fun v => { s with pio := { s.pio with pil := v } }) (upd_id _ _ _ rfl)

theorem pilOff_iff (w : Word) : pilOff w = true ↔ 6 ≤ fld w 2 0 ∨ fld w 6 4 = 0 := by
  simp only [pilOff, Bool.or_eq_true, decide_eq_true_iff, beq_iff_eq]; rfl

/-- The line whose synchronizer shows a level: a change of it starts the count of agreeing samples again (R522). -/
def Pil.sees (l : Pil) (shown : Bool) : Pil := if shown = l.raw then l else { l with raw := shown, agree := 0 }

theorem sees_raw (l : Pil) (shown : Bool) : (l.sees shown).raw = shown := by
  unfold Pil.sees; split
  · next h => exact h.symm
  · rfl

theorem sees_fields (l : Pil) (shown : Bool) : (l.sees shown).cfg = l.cfg ∧ (l.sees shown).level = l.level ∧
    (l.sees shown).edges = l.edges ∧ (l.sees shown).missed = l.missed := by
  unfold Pil.sees; split <;> exact ⟨rfl, rfl, rfl, rfl⟩

/-- What the synchronizer of line k shows when the board gives it a level: the device's own level wins. -/
def pilShown (s : State) (k : Fin 16) (level : Bool) : Bool := (ownLevel s (pilPin k (getPil s k).cfg)).getD level

theorem pilInput_off (level : Bool) (h : pilOff (getPil s k).cfg = true) : pilInput k level s = s := if_pos h

theorem pilInput_on (h : ¬pilOff (getPil s k).cfg = true) :
    pilInput k level s = withPil s k ((getPil s k).sees (pilShown s k level)) := by
  rw [pilInput, if_neg h]
  by_cases same : pilShown s k level = (getPil s k).raw
  · rw [Pil.sees, if_pos same, withPil_self]; exact if_pos same
  · rw [Pil.sees, if_neg same]; exact if_neg same

/-- The line is at a sample and has seen its new level long enough (R522). -/
def pilReady (s : State) (l : Pil) : Prop :=
  (s.clock % 4 = 0 ∧ (bit l.cfg 16 = false ∨ now s % 400 < 4)) ∧ l.raw ≠ l.level ∧ fld l.cfg 15 8 ≤ l.agree

theorem pilRipe_iff (h : ¬pilOff l.cfg = true) : pilRipe (withPil s k l) k = true ↔ pilReady s l := by
  have clock : (withPil s k l).clock = s.clock := rfl
  have time : now (withPil s k l) = now s := rfl
  simp [pilRipe, pilReady, pilSamples, pclkEnds, h, clock, time, and_assoc]

theorem pilEdgeEffect_off (level : Bool) (h : pilOff (getPil s k).cfg = true) : pilEdgeEffect k level s = s := by
  have idle : pilRipe s k = false := by simp [pilRipe, h]
  simp only [pilEdgeEffect, pilInput_off level h, idle, Bool.and_false, Bool.false_eq_true, if_false]

theorem pilAccept_quiet {shown : Bool} (raw : l.raw = shown) (h : pilActive (fld l.cfg 6 4) shown = false) :
    pilAccept k (withPil s k l) = withPil s k { l with level := shown, agree := 0 } := by
  simp [pilAccept, modPil_eq, pilMode, raw, h]

theorem pilAccept_active {shown : Bool} (raw : l.raw = shown) (h : pilActive (fld l.cfg 6 4) shown = true) :
    pilAccept k (withPil s k l) = (withPil s k { l with
      level := shown, agree := 0, edges := l.edges + 1, stamp := s.time
      missed := if s.pio.flags.on k.val then satInc l.missed else l.missed }).modPio fun p =>
        { p with flags := p.flags.set k.val } := by
  simp only [pilAccept, modPil_eq, getPil_withPil, withPil_withPil, pilMode, raw, h, if_true]
  rfl

section
variable (on : ¬pilOff (getPil s k).cfg = true)
include on

theorem pilEdgeEffect_waits (h : s.moment.late = false ∨ ¬pilReady s ((getPil s k).sees (pilShown s k level))) :
    pilEdgeEffect k level s = withPil s k ((getPil s k).sees (pilShown s k level)) := by
  rw [pilEdgeEffect, pilInput_on on]
  refine if_neg fun c => ?_
  obtain ⟨late, ripe⟩ := Bool.and_eq_true_iff.1 c
  refine h.elim (fun early => Bool.false_ne_true (early.symm.trans late)) fun not => not ((pilRipe_iff ?_).1 ripe)
  rwa [(sees_fields _ _).1]

theorem pilEdgeEffect_accepts (late : s.moment.late = true) (h : pilReady s ((getPil s k).sees (pilShown s k level))) :
    pilEdgeEffect k level s = pilAccept k (withPil s k ((getPil s k).sees (pilShown s k level))) := by
  rw [pilEdgeEffect, pilInput_on on]
  refine if_pos (Bool.and_eq_true_iff.2 ⟨late, (pilRipe_iff ?_).2 h⟩)
  rwa [(sees_fields _ _).1]

end

/-- What a new configuration of line k lets it see. -/
def pilMoved (s : State) (k : Fin 16) (w : Word) : Bool :=
  if fld (getPil s k).cfg 2 0 = fld w 2 0 then (getPil s k).raw else pinLevel s (pilPin k w)

section
variable {v w : Word} (fields : w = v &&& 0x0001FF77)
include fields

theorem pilCfgEffect_moved
    (h : (fld (getPil s k).cfg 2 0 ≠ fld w 2 0 ∨ fld (getPil s k).cfg 15 8 ≠ fld w 15 8) ∧ fld w 2 0 < 6) :
    pilCfgEffect k v s =
      withPil s k { getPil s k with cfg := w, raw := pilMoved s k w, level := pilMoved s k w, agree := 0 } := by
  subst fields
  rw [pilCfgEffect, modPil_eq]
  refine congrArg _ (if_pos ?_)
  simp only [Bool.and_eq_true, Bool.or_eq_true, bne_iff_ne, decide_eq_true_iff]
  exact h

theorem pilCfgEffect_stays
    (h : ¬((fld (getPil s k).cfg 2 0 ≠ fld w 2 0 ∨ fld (getPil s k).cfg 15 8 ≠ fld w 15 8) ∧ fld w 2 0 < 6)) :
    pilCfgEffect k v s = withPil s k { getPil s k with cfg := w } := by
  subst fields
  rw [pilCfgEffect, modPil_eq]
  refine congrArg _ (if_neg ?_)
  simp only [Bool.and_eq_true, Bool.or_eq_true, bne_iff_ne, decide_eq_true_iff]
  exact h

end

/-- Settles O59: the banks, the pins, the input signals, and the lines by what they show and have seen. -/
theorem pinCommands : Obligations.PinCommands := by
  intro s b m k level w p sig c l becomes v pin shown seen samples ripe off moved new
  have answer {f : State → State} {t : State} (h : f s = t) : onSys s f = .next t := (onSys_clocked c f).trans (congrArg _ h)
  obtain ⟨cfg, accepted, edges, missed⟩ : (l.sees shown).cfg = l.cfg ∧ (l.sees shown).level = l.level ∧
    (l.sees shown).edges = l.edges ∧ (l.sees shown).missed = l.missed := sees_fields l shown
  have raw : (l.sees shown).raw = shown := sees_raw l shown
  have off_iff : pilOff (getPil s k).cfg = true ↔ off := pilOff_iff _
  have ready_iff : pilReady s (l.sees shown) ↔ ripe := by rw [pilReady, raw, cfg, accepted]; rfl
  have accepts (on : ¬off) (late : s.moment.late = true) (ready : ripe) :
      pilEdgeEffect k level s = pilAccept k (withPil s k (l.sees shown)) :=
    pilEdgeEffect_accepts (mt off_iff.1 on) late (ready_iff.2 ready)
  refine ⟨answer rfl, answer rfl, answer rfl, fun noTest => ⟨pinDrive_unreleased noTest, fun free => ⟨fun gpio oe => ?_,
      fun gpio oe od => ?_, fun sel txd od => ?_, fun sel low input => ?_, fun analog => ?_, pinDrive_openDrain noTest free⟩⟩,
    fun h => ?_, fun h => ?_, fun h => answer (pilEdgeEffect_off level (off_iff.2 h)),
    fun on => ⟨fun waits => answer ?_, fun late ready => ⟨fun quiet => answer ?_, fun active => answer ?_⟩⟩,
    fun h => answer (pilCfgEffect_moved rfl h), fun h => answer (pilCfgEffect_stays rfl h)⟩
  · exact pinDrive_none noTest free ((functionOut_gpio gpio).trans (if_neg (Bool.eq_false_iff.1 oe)))
  · exact pinDrive_some noTest free ((functionOut_gpio gpio).trans (if_pos oe)) od
  · exact pinDrive_some noTest free ((functionOut_signal sel).trans (signalOut_txd txd)) od
  · exact pinDrive_none noTest free ((functionOut_signal sel).trans (signalOut_input low input))
  · exact ⟨pinDrive_none noTest free (functionOut_analog analog), pinLevel_analog analog⟩
  · obtain ⟨found, below⟩ := sigPin_some h
    exact ⟨found, by simp only [inputLevel, h], below⟩
  · exact ⟨by simp only [inputLevel, h], sigPin_none h⟩
  · exact pilEdgeEffect_waits (mt off_iff.1 on) (waits.imp_right (mt ready_iff.1))
  · rw [accepts on late ready, pilAccept_quiet raw (by rwa [cfg])]; rfl
  · rw [accepts on late ready, pilAccept_active raw (by rwa [cfg]), edges, missed]; rfl

end Sys2Proof.Machine
end

section
/-! What software does to a UART (O53): its FIFOs and its BREAK (R460, R471, R481), QUIET (R475), and a change of the connection or of the
settings with the characters it cuts (R477, R478). -/

namespace Sys2Proof.Machine

variable {s : State} {n : Fin 18} {u : Ua} {c : BitVec 9} {rest : List (BitVec 9)}

/-! ### One UART -/

/-- The state in which UART n has become u. -/
def withUa (s : State) (n : Fin 18) (u : Ua) : State := { s with ua := upd s.ua n fun _ => u }

theorem modUa_eq (s : State) (n : Fin 18) (f : Ua → Ua) : s.modUa n f = withUa s n (f (getUa s n)) := rfl

@[simp] theorem getUa_withUa (s : State) (n : Fin 18) (u : Ua) : getUa (withUa s n u) n = u := upd_same _ _ _

@[simp] theorem withUa_withUa (s : State) (n : Fin 18) (u v : Ua) : withUa (withUa s n u) n v = withUa s n v := by
  simp only [withUa, upd_upd]

@[simp] theorem withUa_self (s : State) (n : Fin 18) : withUa s n (getUa s n) = s :=
  congrArg (fun v => { s with ua := v }) (upd_id _ _ _ rfl)

theorem withUa_only (s : State) (n : Fin 18) (u : Ua) : Only [.ua] s (withUa s n u) :=
  ((Moves.refl _ s).modUa (by decide) n fun _ => u).only

theorem withUa_others (s : State) (n : Fin 18) (u : Ua) : Others n s.ua (withUa s n u).ua :=
  fun _ ne => upd_other _ _ _ _ ne.symm

/-! ### The character being sent and the one in assembly -/

theorem uaSending_iff : uaSending s n = true ↔ ∃ f, (getUa s n).frame = some f ∧ s.clock < f.end_ := by
  cases h : (getUa s n).frame <;> simp [uaSending, h]

theorem inAssembly_iff : inAssembly u = true ↔ ∃ k bits prev, u.arm = .assembling k bits prev := by
  cases h : u.arm <;> simp [inAssembly, h]

/-- The transmitter is free for a character. -/
def transmitterFree (s : State) (n : Fin 18) : Prop :=
  uaLive s n = true ∧ (getUa s n).brk = false ∧ ¬(∃ f, (getUa s n).frame = some f ∧ s.clock < f.end_) ∧
    (getUa s n).gapUntil ≤ s.clock

theorem uaCanSend_iff : uaCanSend s n = true ↔ transmitterFree s n ∧ (getUa s n).tx ≠ [] := by
  rw [transmitterFree, ← uaSending_iff]
  simp [uaCanSend, and_assoc]

theorem characterTransmitEffect_idle (h : ¬transmitterFree s n ∨ (getUa s n).tx = []) : characterTransmitEffect n s = s :=
  if_neg fun can => h.elim (fun busy => busy (uaCanSend_iff.1 can).1) (uaCanSend_iff.1 can).2

/-- UART u with the oldest character of its TX FIFO on the line; with IR_EN a character in assembly is discarded (R476). -/
def Ua.transmits (u : Ua) (frame : TxFrame) (rest : List (BitVec 9)) : Ua :=
  { u with
    tx := rest, before := u.frame, frame := some frame
    tally := u.tally.bumpIf (uaIr u.group.active && inAssembly u) 5
    arm := if uaIr u.group.active && inAssembly u then .waitMark else u.arm }

theorem characterTransmitEffect_sends (free : transmitterFree s n) (tx : (getUa s n).tx = c :: rest) :
    characterTransmitEffect n s = withUa s n ((getUa s n).transmits (newFrame s (uaAct s n) c) rest) := by
  rw [characterTransmitEffect, if_pos (uaCanSend_iff.2 ⟨free, by simp [tx]⟩)]
  by_cases discards : (uaIr (uaAct s n) && inAssembly (getUa s n)) = true
  · have discards' : (uaIr (getUa s n).group.active && inAssembly (getUa s n)) = true := discards
    simp only [discards, discards', if_true, uaDiscard, modUa_eq, getUa_withUa, withUa_withUa, uaBump, tx, Ua.transmits,
      Tally.bumpIf]
    rfl
  · have discards' : ¬(uaIr (getUa s n).group.active && inAssembly (getUa s n)) = true := discards
    simp only [discards, discards', if_false, modUa_eq, tx, Ua.transmits, Tally.bumpIf, Bool.false_eq_true]

/-! ### UA_TXDATA -/

theorem uaTxWriteEffect_room (c : BitVec 9) (h : (getUa s n).tx.length < 16) :
    uaTxWriteEffect n c s = withUa s n { getUa s n with tx := (getUa s n).tx ++ [c] } := by
  simp only [uaTxWriteEffect, if_neg (Nat.not_le.2 h), modUa_eq]

theorem uaTxWriteEffect_lost (c : BitVec 9) (h : 16 ≤ (getUa s n).tx.length) (busy : ¬transmitterFree s n) :
    uaTxWriteEffect n c s = withUa s n (uaTxLost (getUa s n)) := by
  simp only [uaTxWriteEffect, if_pos h, characterTransmitEffect_idle (.inl busy), modUa_eq]

/-- A full FIFO gives its oldest character to a transmitter that is free, and takes the new one (R481). -/
theorem uaTxWriteEffect_passes {first : BitVec 9} (tx : (getUa s n).tx = first :: rest) (full : rest.length = 15)
    (free : transmitterFree s n) : uaTxWriteEffect n c s =
      withUa s n { (getUa s n).transmits (newFrame s (uaAct s n) first) rest with tx := rest ++ [c] } := by
  have before : 16 ≤ (getUa s n).tx.length := by simp [tx, full]
  have after : ¬16 ≤ ((getUa s n).transmits (newFrame s (uaAct s n) first) rest).tx.length := by simp [Ua.transmits, full]
  simp only [uaTxWriteEffect, if_pos before, characterTransmitEffect_sends free tx, modUa_eq, getUa_withUa, withUa_withUa,
    if_neg after]
  rfl

/-! ### BREAK and QUIET -/

theorem breakEffect_same {v : Bool} (h : (getUa s n).brk = v) : breakEffect n v s = s := by
  simp [breakEffect, modUa_eq, h]

theorem breakEffect_begins (h : (getUa s n).brk = false) :
    breakEffect n true s = withUa s n { getUa s n with brk := true, brkFrom := s.clock } := by
  simp [breakEffect, modUa_eq, h]

theorem breakEffect_ends (h : (getUa s n).brk = true) : breakEffect n false s = withUa s n { getUa s n with
    brk := false, gapUntil := lineFree s (getUa s n) + 16 * samplePeriod (uaAct s n) } := by
  simp [breakEffect, modUa_eq, h]

theorem quietExitEffect_over (h : (getUa s n).quietFrom + 16 * samplePeriod (uaAct s n) ≤ s.clock) :
    quietExitEffect n s = withUa s n { getUa s n with quiet := false } := by
  rw [quietExitEffect, modUa_eq]; exact congrArg _ (if_pos h)

theorem quietExitEffect_early (h : s.clock < (getUa s n).quietFrom + 16 * samplePeriod (uaAct s n)) : quietExitEffect n s = s := by
  rw [quietExitEffect, modUa_eq]; exact (congrArg _ (if_neg (Nat.not_le.2 h))).trans (withUa_self s n)

/-! ### A change of the connection or of the settings -/

/-- What such a change leaves of UART u when a character is being sent or none is. -/
def Ua.cut (u : Ua) (sending : Bool) : Ua :=
  { u with
    flags := u.flags.setIf sending 7
    tally := (u.tally.bumpIf sending 6).bumpIf (inAssembly u) 5
    arm := .waitMark, pulses := [], frame := none, before := none }

theorem uaCut_eq (s : State) (n : Fin 18) : uaCut s n = withUa s n ((getUa s n).cut (uaSending s n)) := by
  have same : inAssembly (uaTxLost (getUa s n)) = inAssembly (getUa s n) := rfl
  cases sending : uaSending s n
  · cases assembling : inAssembly (getUa s n) <;>
      simp [uaCut, uaDiscard, modUa_eq, sending, assembling, Ua.cut, Flags.setIf, Tally.bumpIf, uaBump]
  · cases assembling : inAssembly (getUa s n) <;>
      simp [uaCut, uaDiscard, modUa_eq, sending, same, assembling, Ua.cut, Flags.setIf, Tally.bumpIf, uaBump] <;> rfl

theorem uaRouteEffect_same {pins loop : Bool} (h : (getUa s n).pins = pins) (k : (getUa s n).loop = loop) :
    uaRouteEffect n pins loop s = s := if_pos (by simp [h, k])

theorem uaRouteEffect_changed {pins loop : Bool} (h : (getUa s n).pins ≠ pins ∨ (getUa s n).loop ≠ loop) :
    uaRouteEffect n pins loop s = withUa s n { (getUa s n).cut (uaSending s n) with pins := pins, loop := loop } := by
  refine (if_neg fun same => ?_).trans ?_
  · obtain ⟨a, b⟩ : (getUa s n).pins = pins ∧ (getUa s n).loop = loop := by simpa using same
    exact h.elim (· a) (· b)
  · rw [uaCut_eq, modUa_eq, getUa_withUa, withUa_withUa]

theorem uaCommitEffect_idle (h : (getUa s n).group.pending = false) : uaCommitEffect n s = s := if_neg (by simp [h])

theorem uaCommitEffect_applies {bad : Bool} (h : (getUa s n).group.pending = true)
    (k : uaInvalid (getUa s n).group.shadow = bad) : uaCommitEffect n s =
      withUa s n { (getUa s n).cut (uaSending s n) with
        group := (getUa s n).group.apply, cfgBad := bad, quiet := false
        flags := ((getUa s n).cut (uaSending s n)).flags.setIf bad 8 } := by
  subst k
  refine (if_pos h).trans ?_
  rw [uaCut_eq, modUa_eq, getUa_withUa, withUa_withUa]
  rfl

/-- Settles O53: each command by what it finds in the UART. -/
theorem uartSoftware : Obligations.UartSoftware := by
  intro s n c v pins loop clocked u g becomes period sending assembling canSend cut applied
  have answer {f : State → State} {t : State} (h : f s = t) : onSys s f = .next t :=
    (onSys_clocked clocked f).trans (congrArg _ h)
  have cut_eq : u.cut (uaSending s n) = cut := by
    rw [Bool.eq_iff_iff.2 ((uaSending_iff (s := s) (n := n)).trans decide_eq_true_iff.symm)]; rfl
  refine ⟨inAssembly_iff, fun h => answer (uaTxWriteEffect_room c h), fun h busy => answer (uaTxWriteEffect_lost c h busy),
    fun first rest tx full free => ⟨_, answer (uaTxWriteEffect_passes tx full free), withUa_only _ _ _, withUa_others _ _ _, ?_⟩,
    answer rfl, answer rfl, answer rfl, fun h => answer (breakEffect_same h), fun h => answer (breakEffect_begins h),
    fun h => answer (breakEffect_ends h), fun h => answer (quietExitEffect_over h), fun h => answer (quietExitEffect_early h),
    fun h k => answer (uaRouteEffect_same h k), fun h => answer ?_, fun h => answer (uaCommitEffect_idle h),
    fun h good => answer ?_, fun h bad => answer ?_⟩
  · rw [show ∀ u, (withUa s n u).ua[n.val] = u from getUa_withUa s n]
    exact ⟨rfl, rfl, _, rfl, rfl, rfl⟩
  · rw [uaRouteEffect_changed h, ← cut_eq]; rfl
  · rw [uaCommitEffect_applies h good]
    simp only [applied, ← cut_eq]; rfl
  · rw [uaCommitEffect_applies h bad]
    simp only [applied, ← cut_eq]; rfl

end Sys2Proof.Machine
end

section
/-! Receiving undoes framing (O55): each step of the pipeline of R459 has its inverse. -/

namespace Sys2Proof.Machine

variable {g : UaGroup} {c : BitVec 9}

@[simp] theorem orderBits_length (g : UaGroup) (bs : List Bool) : (orderBits g bs).length = bs.length := by
  unfold orderBits; split <;> simp

theorem orderBits_orderBits (g : UaGroup) (bs : List Bool) : orderBits g (orderBits g bs) = bs := by
  unfold orderBits; split <;> simp

@[simp] theorem dataBits_length (g : UaGroup) (c : BitVec 9) : (dataBits g c).length = uaBits g := by simp [dataBits]

theorem ofBits_eq_foldr (l : List Bool) : ofBits l = l.foldr (fun b n => (if b then 1 else 0) + 2 * n) 0 := by
  induction l with
  | nil => rfl
  | cons b l ih => rw [ofBits, List.foldr_cons, ih]

/-- The data bits of a character that fits the length in force spell it. -/
theorem ofBits_dataBits (h : c.toNat < 2 ^ uaBits g) : ofBits (dataBits g c) = c.toNat := by
  refine Nat.eq_of_testBit_eq fun i => ?_
  rw [ofBits_eq_foldr, testBit_foldr_bits]
  by_cases lt : i < uaBits g
  · simp [dataBits, List.getD_eq_getElem?_getD, lt, bit, BitVec.getLsbD]
  · have none : c.toNat.testBit i = false :=
      Nat.testBit_lt_two_pow (h.trans_le (Nat.pow_le_pow_right (by decide) (Nat.not_lt.1 lt)))
    simp [dataBits, List.getD_eq_getElem?_getD, lt, none]

/-- The parity bit that follows the data, when parity is enabled. -/
def parityPart (g : UaGroup) (c : BitVec 9) : List Bool := if uaParBits g = 1 then [parityBit g (dataBits g c)] else []

/-- The framed levels between start and stop, back at their logical values. -/
theorem framed_levels (g : UaGroup) (c : BitVec 9) : (((framed g c).drop 1).dropLast.map fun b => b != uaInv g) =
    orderBits g (dataBits g c) ++ parityPart g c := by
  have undo : ((fun b => b != uaInv g) ∘ fun b => b != uaInv g) = id := by funext b; simp
  simp [framed, parityPart, undo]

/-- Settles O55: the levels of a character are its data in the order sent and its parity, and each is recovered. -/
theorem uartFramingRoundTrip : Obligations.UartFramingRoundTrip := by
  intro g c fits
  have data : orderBits g ((orderBits g (dataBits g c) ++ parityPart g c).take (uaBits g)) = dataBits g c := by
    rw [List.take_left' (by simp), orderBits_orderBits]
  have parity : (orderBits g (dataBits g c) ++ parityPart g c).drop (uaBits g) = parityPart g c := List.drop_left' (by simp)
  rw [unframe, framed_levels]
  simp only [data, parity, ofBits_dataBits fits, BitVec.ofNat_toNat, BitVec.setWidth_eq, Prod.mk.injEq, true_and]
  by_cases on : uaParBits g = 1 <;> simp [on, parityPart]

end Sys2Proof.Machine
end

section
/-! Characters received and sent (O54): the levels a receiver samples (R463, R474, R476, R477), what each sample period makes of a
character (R464 to R467), and the light of IrDA (R474 to R476). -/

namespace Sys2Proof.Machine

variable {s : State} {n : Fin 18} {u : Ua} {g : UaGroup} {rx : UaSamples} {level prev : Bool} {bits : List Bool} {k : Nat}

/-! ### What is sampled -/

theorem uaSource_own (h : (getUa s n).loop = true) : uaSource s n = .own := by simp only [uaSource, h, if_true]

theorem uaSource_pin {p : Fin 96} (loop : (getUa s n).loop = false) (pins : (getUa s n).pins = true)
    (h : sigPin s (sigRxd n) = some p) : uaSource s n = .line (.pin p) := by
  simp only [uaSource, loop, pins, h, Bool.false_eq_true, if_false, if_true]

theorem uaSource_channel {c : Fin 16} (loop : (getUa s n).loop = false) (pins : (getUa s n).pins = false)
    (live : pinsLive s = true) (h : uaChannel s n = some c) : uaSource s n = .line (.serTfg c) := by
  simp only [uaSource, loop, pins, live, h, Bool.false_eq_true, if_false, Bool.not_true]

theorem rxLevels_own (rx : UaSamples) (h : uaSource s n = .own) : rxLevels s n rx = some
    (if uaIr (uaAct s n) then List.replicate rx.levels.length true
      else pastLevels s n rx.levels.length (framedAt (getUa s n))) := by
  simp only [rxLevels, h]

theorem rxLevels_line (rx : UaSamples) {l : UaLine} (h : uaSource s n = .line l) (ir : uaIr (uaAct s n) = false) :
    rxLevels s n rx = if l = rx.line then some (rx.levels.map fun b => b != bit (uaAct s n).cfg 12) else none := by
  simp only [rxLevels, h, ir, Bool.false_eq_true, if_false]

/-- No accepted pulse holds the framed level at 0 in tick t (R474). -/
theorem irLow_eq_false_iff {t : Nat} : irLow u t = false ↔
    ∀ p ∈ u.pulses, t < p ∨ p + 16 * samplePeriod u.group.active ≤ t := by
  simp only [irLow, List.any_eq_false, decide_eq_true_iff]
  exact forall₂_congr fun p _ => by omega

theorem rxLevels_ir (rx : UaSamples) {l : UaLine} (h : uaSource s n = .line l) (ir : uaIr (uaAct s n) = true) :
    rxLevels s n rx = some (pastLevels s n rx.levels.length fun t =>
      decide (∀ p ∈ (getUa s n).pulses, t < p ∨ p + 16 * samplePeriod (uaAct s n) ≤ t)) := by
  have dark (t : Nat) : (!irLow (getUa s n) t) =
      decide (∀ p ∈ (getUa s n).pulses, t < p ∨ p + 16 * samplePeriod (uaAct s n) ≤ t) :=
    Bool.eq_iff_iff.2 ((by simp : _ ↔ irLow (getUa s n) t = false).trans (irLow_eq_false_iff.trans decide_eq_true_iff.symm))
  simp only [rxLevels, h, ir, if_true, dark]

theorem rxLevels_idle (rx : UaSamples) (h : uaSource s n = .idle) : rxLevels s n rx =
    some (List.replicate rx.levels.length (uaIr (uaAct s n) || !bit (uaAct s n).cfg 12)) := by
  simp only [rxLevels, h]

/-! ### One sample period of a character -/

/-- The sample periods from the first of the start bit to the last of parity. -/
def framePeriods (g : UaGroup) : Nat := 16 * (1 + uaBits g + uaParBits g)

theorem framePeriods_ge (g : UaGroup) : 96 ≤ framePeriods g := by simp only [framePeriods, uaBits]; omega

theorem framePeriods_mod (g : UaGroup) : framePeriods g % 16 = 0 := Nat.mul_mod_right _ _

/-- A sample period before the one that stores the character, without a new start in the stop bit. -/
theorem rxStep_goesOn (h : k + 1 ≠ framePeriods g + 9) (none : k + 1 < framePeriods g ∨ prev = false ∨ level = true) :
    rxStep g (.assembling k bits prev) level =
      if (k + 1) % 16 ≠ 8 then (.assembling (k + 1) bits level, .none)
      else if k + 1 = 8 ∧ level = true then (.armed true, .discard)
      else (.assembling (k + 1) (bits ++ [level]) level, .none) := by
  have keeps : (decide (framePeriods g ≤ k + 1) && prev && !level) = false := by
    rcases none with h | h | h <;> simp [h]
  exact (if_neg h).trans (if_neg (Bool.eq_false_iff.1 keeps))

theorem rxStep_start (h : k = 7) : rxStep g (.assembling k bits prev) level =
    if level then (.armed true, .discard) else (.assembling 8 (bits ++ [false]) false, .none) := by
  have long := framePeriods_ge g
  rw [rxStep_goesOn (by omega) (.inl (by omega))]
  subst h
  cases level <;> rfl

theorem rxStep_sample (h : k + 1 ≤ framePeriods g + 8) (at_ : (k + 1) % 16 = 8) (start : k ≠ 7)
    (none : k + 1 < framePeriods g ∨ prev = false ∨ level = true) : rxStep g (.assembling k bits prev) level =
      (.assembling (k + 1) (bits ++ [level]) level, .none) := by
  rw [rxStep_goesOn (by omega) none, if_neg (not_not_intro at_), if_neg (by omega)]

theorem rxStep_between (h : k + 1 < framePeriods g) (off : (k + 1) % 16 ≠ 8) : rxStep g (.assembling k bits prev) level =
    (.assembling (k + 1) bits level, .none) := by
  rw [rxStep_goesOn (by omega) (.inl h), if_pos off]

/-- A change from 1 to 0 in the stop bit ends the character early (R465). -/
theorem rxStep_early (h : framePeriods g ≤ k + 1) (lt : k + 1 < framePeriods g + 9) (was : prev = true) (is : level = false) :
    rxStep g (.assembling k bits prev) level = (.assembling 0 [] false, .store (rxChar g bits true)) := by
  refine (if_neg (Nat.ne_of_lt lt)).trans (if_pos ?_)
  rw [was, is, Bool.and_true, Bool.not_false, Bool.and_true]
  exact decide_eq_true h

theorem rxStep_stores (h : k + 1 = framePeriods g + 9) :
    (rxStep g (.assembling k bits prev) level).2 = .store (rxChar g bits false) :=
  congrArg Prod.snd (if_pos h)

/-! ### The character stored -/

theorem bits_all_low : (bits.all fun b => !b) = true ↔ true ∉ bits := by
  simp only [List.all_eq_true, Bool.not_eq_true']
  exact ⟨fun h m => by simpa using h true m, fun h b m => by cases b <;> simp_all⟩

theorem rxChar_framed {early : Bool} (h : early = true ∨ true ∈ bits) : rxChar g bits early =
    { data := (unframe g ((bits.drop 1).take (uaBits g + uaParBits g))).1, fe := early || !bits.getLastD true
      pe := (unframe g ((bits.drop 1).take (uaBits g + uaParBits g))).2, brk := false, ovr := false } := by
  refine if_neg fun c => ?_
  obtain ⟨late, low⟩ := Bool.and_eq_true_iff.1 c
  exact h.elim (fun e => by simp [e] at late) (bits_all_low.1 low)

theorem rxChar_break {early : Bool} (h : early = false) (low : true ∉ bits) :
    rxChar g bits early = { data := 0, fe := true, pe := false, brk := true, ovr := false } :=
  if_pos (Bool.and_eq_true_iff.2 ⟨by rw [h]; rfl, bits_all_low.2 low⟩)

theorem uaSettle_none (h : u.rxHeld = none) : uaSettle u = u := by simp only [uaSettle, h]

theorem uaPush_eq (c : RxChar) (h : u.rxHeld = none) : uaPush c u =
    let stored := { u with
      flags := ((u.flags.setIf c.fe 2).setIf c.pe 3).setIf c.brk 5
      tally := ((u.tally.bumpIf c.fe 0).bumpIf c.pe 1).bumpIf c.brk 3 }
    if u.rx.length < 16 then { stored with rx := u.rx ++ [c] } else { stored with rxHeld := some c } := by
  rw [uaPush, uaSettle_none h]

/-! ### CHARACTER_RECEIVE -/

/-- UART u after one sample period. -/
def Ua.samples (u : Ua) (level : Bool) : Ua :=
  match (rxStep u.group.active u.arm level).2 with
  | .none => { u with arm := (rxStep u.group.active u.arm level).1 }
  | .store c => uaPush c { u with arm := (rxStep u.group.active u.arm level).1 }
  | .discard => uaBump { u with arm := (rxStep u.group.active u.arm level).1 } 5

theorem forEach_uaSample_others (ls : List Bool) (s : State) : Others n s.ua (forEach ls (uaSample n) s).ua := by
  induction ls generalizing s with
  | nil => exact fun _ _ => rfl
  | cons l ls ih => exact fun j ne => (ih (uaSample n l s) j ne).trans (withUa_others s n _ j ne)

theorem characterReceiveEffect_idle (h : uaLive s n = false ∨ (getUa s n).quiet = true ∨ rxLevels s n rx = none) :
    characterReceiveEffect n rx s = s := by
  simp only [characterReceiveEffect]
  split
  · rfl
  · next live =>
    obtain ⟨on, loud⟩ : uaLive s n = true ∧ (getUa s n).quiet = false := by simpa using live
    have dark := (h.resolve_left (by simp [on])).resolve_left (by simp [loud])
    simp only [dark]

theorem characterReceiveEffect_samples {ls : List Bool} (live : uaLive s n = true) (loud : (getUa s n).quiet = false)
    (h : rxLevels s n rx = some ls) : characterReceiveEffect n rx s = forEach ls (uaSample n) s := by
  simp only [characterReceiveEffect, live, loud, h, Bool.not_true, Bool.or_self, Bool.false_eq_true, if_false]

/-! ### Light -/

/-- Light reaches a live receiver that its own character does not blind. -/
theorem seesLight_iff : seesLight s n = true ↔ uaLive s n = true ∧ uaIr (uaAct s n) = true ∧
    ¬(∃ f, (getUa s n).frame = some f ∧ s.clock < f.end_ + f.unit) ∧ ∃ l, uaSource s n = .line l := by
  have blind : irBlind s (getUa s n) = true ↔ ∃ f, (getUa s n).frame = some f ∧ s.clock < f.end_ + f.unit := by
    cases h : (getUa s n).frame <;> simp [irBlind, h]
  rw [← blind]
  cases h : uaSource s n <;> simp [seesLight, h, and_assoc]

theorem irPulseEffect_dark (h : ¬seesLight s n = true ∨ (getUa s n).quiet = true) : irPulseEffect n s = s :=
  if_neg fun c => by
    obtain ⟨sees, loud⟩ := Bool.and_eq_true_iff.1 c
    exact h.elim (· sees) fun quiet => by simp [quiet] at loud

theorem irPulseEffect_low (h : seesLight s n = true) (loud : (getUa s n).quiet = false) : irPulseEffect n s =
    withUa s n { getUa s n with
      pulses := s.clock :: (getUa s n).pulses.filter fun p => decide (s.clock < p + 16 * 16 * samplePeriod (uaAct s n)) } :=
  if_pos (by simp [h, loud])

theorem irFloodEffect_dark (h : ¬seesLight s n = true) : irFloodEffect n s = s := if_neg h

theorem irFloodEffect_quiet (h : seesLight s n = true) : irFloodEffect n s = withUa s n { getUa s n with
    quiet := true, quietFrom := s.clock, arm := .waitMark, pulses := [], flags := (getUa s n).flags.set 6
    tally := (getUa s n).tally.bump 4 } := if_pos h

/-- Settles O54: what is sampled, one sample period, the character it gives, and the commands. -/
theorem uartCharacters : Obligations.UartCharacters := by
  intro s n rx level prev early k bits c clocked u g becomes N period ir step result
  have go (f : State → State) : onSys s f = .next (f s) := onSys_clocked clocked f
  have answer {f : State → State} {t : State} (h : f s = t) : onSys s f = .next t := (go f).trans (congrArg _ h)
  have long : 96 ≤ 16 * N := framePeriods_ge g
  have whole : (16 * N) % 16 = 0 := framePeriods_mod g
  refine ⟨fun h => rxLevels_own rx (uaSource_own h), fun l => rxLevels_line rx, fun l => rxLevels_ir rx, rxLevels_idle rx,
    fun p => uaSource_pin, fun ch => uaSource_channel, rfl, ⟨rfl, rfl⟩, rxStep_start,
    fun lt at_ start => rxStep_sample (Nat.le_of_lt lt |>.trans (Nat.le_add_right _ _)) at_ start (.inl lt),
    rxStep_between, rxStep_early, fun at_ keeps => rxStep_sample (Nat.le_of_eq at_) (by omega) (by omega) (.inr keeps),
    rxStep_stores, rxChar_framed, rxChar_break, uaPush_eq c, fun h => answer (characterReceiveEffect_idle h),
    fun live loud h => (answer (characterReceiveEffect_samples live loud h)).trans ?_,
    fun ls live loud h => ⟨_, go _, (characterReceiveEffect_moves n rx s (Moves.refl _ s) (by decide)).only, ?_⟩,
    ⟨fun h => answer (characterTransmitEffect_idle h), fun first rest free tx => answer (characterTransmitEffect_sends free tx)⟩,
    fun h => answer (irPulseEffect_dark (h.imp_left (mt seesLight_iff.1))), fun h loud => answer (irPulseEffect_low (seesLight_iff.2 h) loud),
    fun h => answer (irFloodEffect_dark (mt seesLight_iff.1 h)), fun h => answer (irFloodEffect_quiet (seesLight_iff.2 h))⟩
  · rfl
  · rw [characterReceiveEffect_samples live loud h]
    exact forEach_uaSample_others ls s

end Sys2Proof.Machine
end

section
/-! The packet at the front of the stream buffer (R397): its header, its data words, and what taking it leaves. -/

namespace Sys2Proof.Machine

variable {s : State} {rest bs : List Byte} {w a : Word} {ws : List Word} {k : Pkt} {act : State → List Word → State} {why : WReason}

/-! ### A stream that fails (R402, R404) -/

theorem cfgFail_shut (s : State) (why : WReason) : streamOpen (cfgFail s why) = false := by
  simp [streamOpen, (cfgFail_cfg s why).1]

theorem lossCheck_cfgFail (s : State) (why : WReason) : lossCheck (cfgFail s why) = cfgFail s why :=
  lossCheck_shut (cfgFail_shut s why)

theorem cfgFail_slots (s : State) (why : WReason) : (cfgFail s why).cfg.slots = s.cfg.slots := by
  have kept : (failState s why).cfg.slots = s.cfg.slots := by
    unfold failState
    split
    · split <;> rfl
    · rfl
  rw [cfgFail_eq]
  split
  · rw [discardIdle_halted (beq_iff_eq.2 (failState_cfg s why).1)]; exact kept
  · exact kept

/-- A stream that fails from a state t that the command reached within its frame. -/
theorem cfgFail_fails {ps : List Part} {t : State} (h : Moves ps s t) (m : ∀ p ∈ [Part.mp, .cfg], p ∈ ps) (why : WReason) :
    Only ps s (cfgFail t why) ∧ (cfgFail t why).cfg.phase = .failed ∧ (cfgFail t why).cfg.reason = why := by
  obtain ⟨phase, reason, _⟩ := cfgFail_cfg t why
  exact ⟨(cfgFail_moves t why h m).only, phase, reason⟩

/-! ### Words at the front of the buffer -/

/-- The bytes of words in the order of the stream (R396). -/
def wordBytes (ws : List Word) : List Byte := ws.flatMap fun w => beBytes 4 w.toNat

theorem wordBytes_length (ws : List Word) : (wordBytes ws).length = 4 * ws.length := flatMap_beBytes_length ws

theorem wordBytes_cons (w : Word) (ws : List Word) : wordBytes (w :: ws) = beBytes 4 w.toNat ++ wordBytes ws := rfl

theorem front_word (w : Word) (ws : List Word) (rest : List Byte) :
    BitVec.ofNat 32 (ofBe ((wordBytes (w :: ws) ++ rest).take 4)) = w := by
  rw [wordBytes_cons, List.append_assoc, List.take_left' (beBytes_four_length _), ofBe_beBytes_four]

theorem front_data (w : Word) (ws : List Word) (rest : List Byte) :
    beWords (((wordBytes (w :: ws) ++ rest).take (4 * (w :: ws).length)).drop 4) = ws := by
  rw [List.take_left' (wordBytes_length _), wordBytes_cons, List.drop_left' (beBytes_four_length _)]
  exact beWords_flatMap_beBytes ws

theorem front_second (w a : Word) (rest : List Byte) : ofBe (((wordBytes [w, a] ++ rest).take 8).drop 4) = a.toNat := by
  have two : (wordBytes [w, a]).length = 8 := wordBytes_length _
  rw [List.take_left' two, wordBytes_cons, List.drop_left' (beBytes_four_length _)]
  have small : ofBe (beBytes 4 a.toNat) < 2 ^ 32 := by
    rw [beBytes_four]
    simp only [ofBe, List.reverse_cons, List.reverse_nil, List.nil_append, List.cons_append, ofLe, BitVec.toNat_ofNat]
    omega
  have back := congrArg BitVec.toNat (ofBe_beBytes_four a)
  rwa [BitVec.toNat_ofNat, Nat.mod_eq_of_lt small, ← List.append_nil (beBytes 4 a.toNat)] at back

/-- The controller is between packets, and no byte of its stream was discarded. -/
structure TakesPackets (s : State) : Prop where
  runs : cfgRuns s = true
  phase : s.cfg.phase = .header ∨ s.cfg.phase = .frames
  between : s.cfg.parse.framesLeft = 0
  whole : s.mp.losses = []

theorem frontHeader_short (h : s.mp.buffer.length < 4) : frontHeader s = none := if_neg (by simp [Nat.not_le.2 h])

theorem frontHeader_word (q : TakesPackets s) (buf : s.mp.buffer = wordBytes (w :: ws) ++ rest) : frontHeader s = some w := by
  have long : 4 ≤ s.mp.buffer.length := by rw [buf, List.length_append, wordBytes_length, List.length_cons]; omega
  have ready : (s.cfg.phase == .header || s.cfg.phase == .frames) = true := by rcases q.phase with h | h <;> simp [h]
  rw [frontHeader, if_pos (by simp [q.runs, ready, q.between, long]), buf, front_word]

/-! ### Bytes taken from the buffer -/

/-- The bytes at the front taken. -/
def State.bytesTaken (s : State) (rest : List Byte) : State := s.modMp fun m => { m with buffer := rest }

/-- The bytes at the front taken into the stream's running check. -/
def State.packetTaken (s : State) (bs rest : List Byte) : State :=
  (s.bytesTaken rest).modCfg fun g => { g with parse := { g.parse with crcBytes := g.parse.crcBytes ++ bs } }

theorem bytesTaken_moves (s : State) (rest : List Byte) : Moves [.mp, .cfg] s (s.bytesTaken rest) :=
  (Moves.refl _ s).modMp (by decide) _

theorem packetTaken_moves (s : State) (bs rest : List Byte) : Moves [.mp, .cfg] s (s.packetTaken bs rest) :=
  (bytesTaken_moves s rest).modCfg (by decide) _

theorem dropFront_front (buf : s.mp.buffer = bs ++ rest) (whole : s.mp.losses = []) :
    s.modMp (dropFront bs.length) = s.bytesTaken rest := by
  simp [State.bytesTaken, State.modMp, dropFront, buf, whole]

theorem consume_unchecked (buf : s.mp.buffer = bs ++ rest) (whole : s.mp.losses = []) :
    consume s bs.length false = s.bytesTaken rest := dropFront_front buf whole

theorem consume_checked (buf : s.mp.buffer = bs ++ rest) (whole : s.mp.losses = []) :
    consume s bs.length true = s.packetTaken bs rest := by
  have front : s.mp.buffer.take bs.length = bs := by rw [buf, List.take_left' rfl]
  simp only [consume, front, if_true, dropFront_front buf whole]
  rfl

/-! ### A packet taken, and a header that is none -/

theorem takePacket_none (h : frontHeader s = none) : takePacket k act s = s := by simp only [takePacket, h]

theorem takeCtl_none {v : Nat} {f : State → State} (h : frontHeader s = none) : takeCtl v f s = s := by simp only [takeCtl, h]

section
variable (q : TakesPackets s)
include q

theorem takePacket_noPacket (buf : s.mp.buffer = wordBytes [a] ++ rest) (no : pktOf a = none) :
    takePacket k act s = cfgFail (s.bytesTaken rest) .format := by
  have one : (wordBytes [a]).length = 4 := wordBytes_length [a]
  simp only [takePacket, frontHeader_word q buf, no, ← one, consume_unchecked buf q.whole]

theorem takeCtl_noPacket {v : Nat} {f : State → State} (buf : s.mp.buffer = wordBytes [a] ++ rest) (no : pktOf a = none) :
    takeCtl v f s = cfgFail (s.bytesTaken rest) .format := by
  simp only [takeCtl, frontHeader_word q buf, no, takePacket_noPacket q buf no]
  rfl

section
variable (buf : s.mp.buffer = wordBytes (w :: ws) ++ rest) (kind : pktOf w = some k) (count : ws.length = pktWords k w)
include buf kind count

theorem takePacket_whole : takePacket k act s =
    lossCheck (act (consume s (wordBytes (w :: ws)).length (k != .end_)) ws) := by
  have length : 4 + 4 * pktWords k w = (wordBytes (w :: ws)).length := by
    rw [wordBytes_length, List.length_cons, count]; omega
  have enough : ¬(k ≠ k ∨ s.mp.buffer.length < (wordBytes (w :: ws)).length) := by
    rw [buf, List.length_append]
    exact fun h => h.elim (· rfl) (by omega)
  have data : beWords ((s.mp.buffer.take (wordBytes (w :: ws)).length).drop 4) = ws := by
    rw [buf, wordBytes_length, front_data]
  simp only [takePacket, frontHeader_word q buf, kind, length, if_neg enough, data]

theorem takePacket_checked (ne : k ≠ .end_) :
    takePacket k act s = lossCheck (act (s.packetTaken (wordBytes (w :: ws)) rest) ws) := by
  rw [takePacket_whole q buf kind count, bne_iff_ne.2 ne, consume_checked buf q.whole]

end

theorem takePacket_end (buf : s.mp.buffer = wordBytes [w, a] ++ rest) (kind : pktOf w = some .end_)
    (count : pktWords .end_ w = 1) : takePacket .end_ act s = lossCheck (act (s.bytesTaken rest) [a]) := by
  rw [takePacket_whole q buf kind count.symm]
  exact congrArg (fun t => lossCheck (act t [a])) (consume_unchecked buf q.whole)

/-! ### The commands of CTL (R399) -/

section
variable {v : Nat} {f : State → State} (buf : s.mp.buffer = wordBytes [0x2300_0001, a] ++ rest)
include buf

theorem takeCtl_packet (h : a.toNat = v ∨ 2 < a.toNat) : takeCtl v f s =
    takePacket .ctl (fun s ws => if (ws.getD 0 0).toNat = v then f s else cfgFail s .format) s := by
  have second : ofBe ((s.mp.buffer.take 8).drop 4) = a.toNat := by rw [buf, front_second]
  simp only [takeCtl, frontHeader_word q buf, second]
  exact if_neg fun c => h.elim c.2.2.2 (Nat.not_lt.2 c.2.2.1)

theorem takeCtl_command (h : a.toNat = v) :
    takeCtl v f s = lossCheck (f (s.packetTaken (wordBytes [0x2300_0001, a]) rest)) := by
  rw [takeCtl_packet q buf (.inl h), takePacket_checked q buf (by decide) rfl (by decide)]
  exact congrArg lossCheck (if_pos h)

theorem takeCtl_undefined (h : 2 < a.toNat) (le : v ≤ 2) :
    takeCtl v f s = cfgFail (s.packetTaken (wordBytes [0x2300_0001, a]) rest) .format := by
  rw [takeCtl_packet q buf (.inr h), takePacket_checked q buf (by decide) rfl (by decide)]
  exact (congrArg lossCheck (if_neg (by simp only [List.getD_cons_zero]; omega))).trans (lossCheck_cfgFail _ _)

end

end

/-- A packet of the header is taken in its own stage alone (R398). -/
theorem headerPacket_inStage {n : Nat} {f : Parse → List Word → Parse} (phase : s.cfg.phase = .header)
    (stage : s.cfg.parse.stage = n) : headerPacket n f s ws =
      s.modCfg fun c => { c with parse := { f c.parse ws with stage := n + 1 } } := if_pos ⟨phase, stage⟩

theorem headerPacket_outOfStage {n : Nat} {f : Parse → List Word → Parse} (stage : s.cfg.parse.stage ≠ n) :
    headerPacket n f s ws = cfgFail s .format := if_neg fun c => stage c.2

end Sys2Proof.Machine
end

section
/-! Header packets (O26), in the order of the grammar of R398, with the checks of BEGIN (R400). -/

namespace Sys2Proof.Machine

variable {s : State} {rest : List Byte} {a b : Word} {v : Vector Word 8}

theorem eight_toList (v : Vector Word 8) : eight v.toList = v := by
  ext i hi
  simp [eight, List.getD_eq_getElem?_getD]

theorem pair_length {n : Nat} (a b : Word) (h : n = 2) : [a, b].length = n := h.symm

theorem eight_length {n : Nat} (v : Vector Word 8) (h : n = 8) : v.toList.length = n := v.length_toList.trans h.symm

/-! ### The packets before BEGIN -/

section
variable (q : TakesPackets s)
include q

theorem nopEffect_taken (buf : s.mp.buffer = wordBytes [0] ++ rest) : nopEffect s = s.packetTaken (wordBytes [0]) rest := by
  rw [nopEffect, takePacket_checked q buf (by decide) rfl (by decide)]
  exact lossCheck_none q.whole

theorem ctlNopEffect_taken (buf : s.mp.buffer = wordBytes [0x2300_0001, 0] ++ rest) :
    ctlNopEffect s = s.packetTaken (wordBytes [0x2300_0001, 0]) rest := by
  rw [ctlNopEffect, takeCtl_command (v := 0) q buf rfl]
  exact lossCheck_none q.whole

/-- A packet of the header that is allowed only in stage n, at the front of the buffer. -/
theorem headerPacket_taken {k : Pkt} {n : Nat} {f : Parse → List Word → Parse} {w : Word} {ws : List Word}
    (buf : s.mp.buffer = wordBytes (w :: ws) ++ rest) (kind : pktOf w = some k) (count : ws.length = pktWords k w)
    (ne : k ≠ .end_) (phase : s.cfg.phase = .header) (stage : s.cfg.parse.stage = n) : takePacket k (headerPacket n f) s =
      (s.packetTaken (wordBytes (w :: ws)) rest).modCfg fun c => { c with parse := { f c.parse ws with stage := n + 1 } } := by
  rw [takePacket_checked q buf kind count ne,
    headerPacket_inStage (s := s.packetTaken (wordBytes (w :: ws)) rest) phase stage]
  exact lossCheck_none q.whole

theorem headerPacket_fails {k : Pkt} {n : Nat} {f : Parse → List Word → Parse} {w : Word} {ws : List Word}
    (buf : s.mp.buffer = wordBytes (w :: ws) ++ rest) (kind : pktOf w = some k) (count : ws.length = pktWords k w)
    (ne : k ≠ .end_) (stage : s.cfg.parse.stage ≠ n) : takePacket k (headerPacket n f) s =
      cfgFail (s.packetTaken (wordBytes (w :: ws)) rest) .format := by
  rw [takePacket_checked q buf kind count ne,
    headerPacket_outOfStage (s := s.packetTaken (wordBytes (w :: ws)) rest) stage]
  exact lossCheck_cfgFail _ _

theorem seqEffect_taken (buf : s.mp.buffer = wordBytes [0x2500_0002, a, b] ++ rest) (phase : s.cfg.phase = .header)
    (stage : s.cfg.parse.stage = 2) : seqEffect s =
      ((s.packetTaken (wordBytes [0x2500_0002, a, b]) rest).modCfg fun c =>
        { c with parse := { c.parse with seq := a, target := b, stage := 3 } }).modCfg fun g =>
          { g with target := BitVec.ofNat 3 (b.toNat % 4) } := by
  rw [seqEffect, takePacket_checked q buf (by decide) (pair_length a b (by decide)) (by decide)]
  simp only [headerPacket_inStage (s := s.packetTaken (wordBytes [0x2500_0002, a, b]) rest) phase stage]
  exact (congrArg lossCheck (if_pos phase)).trans (lossCheck_none q.whole)

theorem seqEffect_fails (buf : s.mp.buffer = wordBytes [0x2500_0002, a, b] ++ rest) (stage : s.cfg.parse.stage ≠ 2) :
    seqEffect s = cfgFail (s.packetTaken (wordBytes [0x2500_0002, a, b]) rest) .format := by
  rw [seqEffect, takePacket_checked q buf (by decide) (pair_length a b (by decide)) (by decide)]
  simp only [headerPacket_outOfStage (s := s.packetTaken (wordBytes [0x2500_0002, a, b]) rest) stage]
  refine (congrArg lossCheck (if_neg ?_)).trans (lossCheck_cfgFail _ _)
  rw [(cfgFail_cfg _ _).1]
  decide

/-! ### BEGIN and ABORT -/

theorem ctlAbortEffect_fails (buf : s.mp.buffer = wordBytes [0x2300_0001, 2] ++ rest) (phase : s.cfg.phase = .header) :
    ctlAbortEffect s = cfgFail (s.packetTaken (wordBytes [0x2300_0001, 2]) rest) .aborted := by
  rw [ctlAbortEffect, takeCtl_command (v := 2) q buf rfl]
  have isOpen : streamOpen (s.packetTaken (wordBytes [0x2300_0001, 2]) rest) = true := by
    simp [streamOpen, State.packetTaken, State.bytesTaken, phase]
  have early : (s.packetTaken (wordBytes [0x2300_0001, 2]) rest).cfg.phase ≠ .erasing := by
    simp [State.packetTaken, State.bytesTaken, phase]
  rw [endEarly, if_neg early, if_pos isOpen, lossCheck_cfgFail]

section
variable (buf : s.mp.buffer = wordBytes [0x2300_0001, 1] ++ rest)
include buf

theorem beginEffect_outOfStage (stage : s.cfg.parse.stage ≠ 6) :
    beginEffect s = cfgFail (s.packetTaken (wordBytes [0x2300_0001, 1]) rest) .format := by
  rw [beginEffect, takeCtl_command (v := 1) q buf rfl]
  exact (congrArg lossCheck (if_neg fun c => stage c.2)).trans (lossCheck_cfgFail _ _)

variable (phase : s.cfg.phase = .header) (stage : s.cfg.parse.stage = 6)
include phase stage

theorem beginEffect_refused {why : WReason} (h : beginFails s = some why) :
    beginEffect s = cfgFail (s.packetTaken (wordBytes [0x2300_0001, 1]) rest) why := by
  have same : beginFails (s.packetTaken (wordBytes [0x2300_0001, 1]) rest) = some why := h
  rw [beginEffect, takeCtl_command (v := 1) q buf rfl]
  refine (congrArg lossCheck (if_pos ⟨phase, stage⟩)).trans ?_
  simp only [same, lossCheck_cfgFail]

theorem beginEffect_erases {d : Fin 3} (h : beginFails s = none) (target : targetSlot s = some d) : beginEffect s =
    (modSlotNv (s.packetTaken (wordBytes [0x2300_0001, 1]) rest) d fun n => { n with st := .incomplete }).modCfg fun c =>
      { c with phase := .erasing, frames := 0, parse := { c.parse with expected := some 0 } } := by
  have same : beginFails (s.packetTaken (wordBytes [0x2300_0001, 1]) rest) = none := h
  have slot : targetSlot (s.packetTaken (wordBytes [0x2300_0001, 1]) rest) = some d := target
  rw [beginEffect, takeCtl_command (v := 1) q buf rfl]
  refine (congrArg lossCheck (if_pos ⟨phase, stage⟩)).trans ?_
  simp only [same, slot]
  exact lossCheck_none q.whole

end

end

/-- BEGIN passes its checks only for a target that is a slot. -/
theorem beginFails_none (h : beginFails s = none) : ∃ d, targetSlot s = some d := by
  cases target : targetSlot s with
  | some d => exact ⟨d, rfl⟩
  | none =>
    simp only [beginFails, target] at h
    repeat' split at h
    all_goals cases h

theorem targetSlot_some {d : Fin 3} (h : targetSlot s = some d) : s.cfg.target.toNat = d.val := by
  unfold targetSlot at h
  split at h
  · next lt =>
    cases h
    exact (Nat.mod_eq_of_lt lt).symm
  · cases h

/-! ### What every packet meets -/

/-- The commands of the header packets. -/
def headerCommands : List Instr := [.nop, .idc, .seq, .len, .ztab, .sig, .begin_, .ctlAbort, .ctlNop]

theorem header_noHeader {c : Instr} (clocked : Clocked s) (mem : c ∈ headerCommands) (h : frontHeader s = none) :
    exec c s = .next s := by
  have answer {f : State → State} {t : State} (h : f s = t) : onSys s f = .next t :=
    (onSys_clocked clocked f).trans (congrArg _ h)
  simp only [headerCommands, List.mem_cons, List.not_mem_nil, or_false] at mem
  rcases mem with rfl | rfl | rfl | rfl | rfl | rfl | rfl | rfl | rfl
  case inr.inr.inr.inr.inr.inr.inl | inr.inr.inr.inr.inr.inr.inr.inl | inr.inr.inr.inr.inr.inr.inr.inr =>
    exact answer (takeCtl_none h)
  all_goals exact answer (takePacket_none h)

theorem header_noPacket {c : Instr} (clocked : Clocked s) (mem : c ∈ headerCommands) (q : TakesPackets s)
    (buf : s.mp.buffer = wordBytes [a] ++ rest) (no : pktOf a = none) :
    exec c s = .next (cfgFail (s.bytesTaken rest) .format) := by
  have answer {f : State → State} {t : State} (h : f s = t) : onSys s f = .next t :=
    (onSys_clocked clocked f).trans (congrArg _ h)
  simp only [headerCommands, List.mem_cons, List.not_mem_nil, or_false] at mem
  rcases mem with rfl | rfl | rfl | rfl | rfl | rfl | rfl | rfl | rfl
  case inr.inr.inr.inr.inr.inr.inl | inr.inr.inr.inr.inr.inr.inr.inl | inr.inr.inr.inr.inr.inr.inr.inr =>
    exact answer (takeCtl_noPacket q buf no)
  all_goals exact answer (takePacket_noPacket q buf no)

/-- Settles O26: the packet at the front, by its header and the stage of the grammar. -/
theorem headerPackets : Obligations.HeaderPackets := by
  intro s rest a b v c clocked runs phase between whole bytes stage front taken format
  have q : TakesPackets s := ⟨runs, .inl phase, between, whole⟩
  have answer {f : State → State} {t : State} (h : f s = t) : onSys s f = .next t :=
    (onSys_clocked clocked f).trans (congrArg _ h)
  have fails {t : State} {why : WReason} (h : Moves [.mp, .cfg] s t) (slots : t.cfg.slots = s.cfg.slots) :
      Only [.mp, .cfg] s (cfgFail t why) ∧ (cfgFail t why).cfg.phase = .failed ∧ (cfgFail t why).cfg.reason = why ∧
        (cfgFail t why).cfg.slots = s.cfg.slots := by
    obtain ⟨only, failed, reason⟩ := cfgFail_fails h (fun _ m => m) why
    exact ⟨only, failed, reason, (cfgFail_slots t why).trans slots⟩
  have failed {ws : List Word} {why : WReason} := fails (why := why) (packetTaken_moves s (wordBytes ws) rest) rfl
  have malformed {ws : List Word} {c' : Instr} (e : c = c')
      (h : exec c' s = .next (cfgFail (s.packetTaken (wordBytes ws) rest) .format)) : format := ⟨_, e ▸ h, failed⟩
  refine ⟨fun mem => ⟨fun short => header_noHeader clocked mem (frontHeader_short short), fun buf no => ?_⟩,
    fun buf => answer (nopEffect_taken q buf),
    fun buf st => answer (headerPacket_taken q buf (by decide) (pair_length a b (by decide)) (by decide) phase st),
    fun buf st => answer (seqEffect_taken q buf phase st),
    fun buf st => answer (headerPacket_taken q buf (by decide) rfl (by decide) phase st),
    fun buf st => answer ?_, fun buf st => answer ?_, fun buf => answer (ctlNopEffect_taken q buf),
    fun buf => ⟨_, answer (ctlAbortEffect_fails q buf phase), failed⟩, fun buf big mem => ?_,
    fun buf st => ⟨fun r h => ⟨_, answer (beginEffect_refused q buf phase st h), failed⟩, fun h => ?_⟩,
    fun buf st e => ?_, fun buf st e => ?_, fun buf st e => ?_, fun buf st e => ?_, fun buf st e => ?_, fun buf st e => ?_⟩
  · exact ⟨_, header_noPacket clocked mem q buf no, fails (bytesTaken_moves s rest) rfl⟩
  · rw [ztabEffect, headerPacket_taken q (k := .ztab) buf (by decide) (eight_length v (by decide)) (by decide) phase st, eight_toList]; rfl
  · rw [sigEffect, headerPacket_taken q (k := .sig) buf (by decide) (eight_length v (by decide)) (by decide) phase st, eight_toList]; rfl
  · simp only [List.mem_cons, List.not_mem_nil, or_false] at mem
    rcases mem with rfl | rfl | rfl
    · exact ⟨_, answer (takeCtl_undefined q buf big (by decide)), failed⟩
    · exact ⟨_, answer (takeCtl_undefined q buf big (by decide)), failed⟩
    · exact ⟨_, answer (takeCtl_undefined q buf big (by decide)), failed⟩
  · obtain ⟨d, target⟩ := beginFails_none h
    exact ⟨d, targetSlot_some target, answer (beginEffect_erases q buf phase st h target)⟩
  · exact malformed e (answer (headerPacket_fails q buf (by decide) (pair_length a b (by decide)) (by decide) st))
  · exact malformed e (answer (seqEffect_fails q buf st))
  · exact malformed e (answer (headerPacket_fails q buf (by decide) rfl (by decide) st))
  · exact malformed e (answer (headerPacket_fails q (k := .ztab) buf (by decide) (eight_length v (by decide)) (by decide) st))
  · exact malformed e (answer (headerPacket_fails q (k := .sig) buf (by decide) (eight_length v (by decide)) (by decide) st))
  · exact malformed e (answer (beginEffect_outOfStage q buf st))

end Sys2Proof.Machine
end

section
/-! The write of an image (O27): the erase of the slot (R401, R403, R411), its frames (R395, R397, R398, R402), and the checks that make
it VALID (R401, R402). -/

namespace Sys2Proof.Machine

variable {s : State} {rest : List Byte} {a : Word} {b : Fin 3} {f : CfgFrame} {ok : Bool}

theorem modSlotNv_modSlotNv (s : State) (b : Fin 3) (f g : NvSlot → NvSlot) :
    modSlotNv (modSlotNv s b f) b g = modSlotNv s b fun n => g (f n) := by
  simp only [modSlotNv, State.modCfg, upd_upd]

/-! ### The erase (R401, R403, R411) -/

section
variable (target : targetSlot s = some b)
include target

theorem erasingDoneEffect_idle (ok : Bool) (h : s.cfg.phase ≠ .erasing) : erasingDoneEffect ok s = s := by
  simp only [erasingDoneEffect, target, if_pos h]

variable (phase : s.cfg.phase = .erasing)
include phase

theorem erasingDoneEffect_begins (aborting : s.cfg.parse.aborting = false) (whole : s.mp.losses = []) :
    erasingDoneEffect true s = s.modCfg fun g => { g with
      phase := .frames, parse := { s.cfg.parse with stage := 6 }, slots := upd g.slots b fun n =>
        { n with writes := satInc n.writes, frames := [], hdr := parsedHeader s.cfg.parse, hdrCrcOk := true } } := by
  simp only [erasingDoneEffect, target]
  refine (if_neg (not_not_intro phase)).trans ((if_neg (by decide)).trans ((if_neg (Bool.eq_false_iff.1 aborting)).trans ?_))
  rw [lossCheck_none (by exact whole), modSlotNv_modSlotNv]
  rfl

theorem erasingDoneEffect_aborted (aborting : s.cfg.parse.aborting = true) :
    ∃ t, Moves [.mp, .cfg, .free] s t ∧ erasingDoneEffect true s = cfgFail t .aborted := by
  simp only [erasingDoneEffect, target]
  refine ⟨_, ?_, (if_neg (not_not_intro phase)).trans ((if_neg (by decide)).trans (if_pos aborting))⟩
  exact (((Moves.refl _ s).modCfg (by decide) _).freeStep (by decide)).modCfg (by decide) _

theorem erasingDoneEffect_failed : ∃ t, Moves [.mp, .cfg, .qe, .dm] s t ∧
    erasingDoneEffect false s = cfgFail t (if s.cfg.parse.aborting then .aborted else .program) := by
  simp only [erasingDoneEffect, target]
  refine ⟨_, ?_, (if_neg (not_not_intro phase)).trans (if_pos rfl)⟩
  exact (recordFault_moves _ _ ((Moves.refl _ s).modCfg (by decide) _) (by decide)).modCfg (by decide) _

end

/-! ### The packets of the frames (R397, R398) -/

/-- The fields of the header of an FDATA packet with x data words. -/
theorem fdata_fields {x : Nat} (fits : x < 2 ^ 24) : let w : Word := 0x2200_0000 + BitVec.ofNat 32 x
    fld w 31 29 = 1 ∧ fld w 28 24 = 2 ∧ fld w 23 0 = x := by
  have value : ((0x2200_0000 : Word) + BitVec.ofNat 32 x).toNat = 0x2200_0000 + x := by
    have base : (0x2200_0000 : Word).toNat = 0x2200_0000 := rfl
    rw [BitVec.toNat_add, BitVec.toNat_ofNat, base]
    omega
  norm_num [fld, value, Nat.shiftRight_eq_div_pow]
  omega

/-- An FDATA packet of n frames. -/
theorem fdata_header {n : Nat} (some_frame : 0 < n) (fits : 97 * n < 2 ^ 24) :
    pktOf (0x2200_0000 + BitVec.ofNat 32 (97 * n)) = some .fdata ∧ fld (0x2200_0000 + BitVec.ofNat 32 (97 * n)) 23 0 / 97 = n := by
  obtain ⟨type, reg, count⟩ := fdata_fields fits
  refine ⟨?_, by rw [count, Nat.mul_div_cancel_left n (by decide)]⟩
  simp only [pktOf, type, reg, count]
  exact if_pos (by omega)

section
variable (q : TakesPackets s)
include q

section
variable (buf : s.mp.buffer = wordBytes [0x2100_0001, a] ++ rest)
include buf

theorem faddrEffect_taken (phase : s.cfg.phase = .frames) (stage : s.cfg.parse.stage = 6) (expected : s.cfg.parse.expected = some a) :
    faddrEffect s = (s.packetTaken (wordBytes [0x2100_0001, a]) rest).modCfg fun g =>
      { g with parse := { g.parse with stage := 7 } } := by
  rw [faddrEffect, takePacket_checked q buf (by decide) rfl (by decide)]
  refine (congrArg lossCheck ((if_neg ?_).trans (if_pos expected))).trans (lossCheck_none q.whole)
  exact fun c => c.elim (· phase) (· stage)

theorem faddrEffect_order (phase : s.cfg.phase = .frames) (stage : s.cfg.parse.stage = 6) (expected : s.cfg.parse.expected ≠ some a) :
    faddrEffect s = cfgFail (s.packetTaken (wordBytes [0x2100_0001, a]) rest) .order := by
  rw [faddrEffect, takePacket_checked q buf (by decide) rfl (by decide)]
  refine (congrArg lossCheck ((if_neg ?_).trans (if_neg expected))).trans (lossCheck_cfgFail _ _)
  exact fun c => c.elim (· phase) (· stage)

theorem faddrEffect_format (stage : s.cfg.parse.stage ≠ 6) :
    faddrEffect s = cfgFail (s.packetTaken (wordBytes [0x2100_0001, a]) rest) .format := by
  rw [faddrEffect, takePacket_checked q buf (by decide) rfl (by decide)]
  exact (congrArg lossCheck (if_pos (.inr stage))).trans (lossCheck_cfgFail _ _)

end

theorem fdataEffect_taken {n : Nat} (phase : s.cfg.phase = .frames) (buf : s.mp.buffer = wordBytes [a] ++ rest) (kind : pktOf a = some .fdata)
    (count : fld a 23 0 / 97 = n) : fdataEffect s = (s.packetTaken (wordBytes [a]) rest).modCfg fun g =>
      { g with parse := { g.parse with framesLeft := n, fdataSeen := true, stage := 6 } } := by
  have first : BitVec.ofNat 32 (ofBe (s.mp.buffer.take 4)) = a := by rw [buf, front_word]
  simp only [fdataEffect, first, count]
  rw [takePacket_checked q buf kind rfl (by decide)]
  exact (congrArg lossCheck (if_neg (not_not_intro phase))).trans (lossCheck_none q.whole)

section
variable (buf : s.mp.buffer = wordBytes [0x2900_0001, a] ++ rest)
include buf

theorem endEffect_taken (phase : s.cfg.phase = .frames) (stage : s.cfg.parse.stage = 6) (seen : s.cfg.parse.fdataSeen = true) :
    endEffect s = (s.bytesTaken rest).modCfg fun g => { g with
      phase := .finishing, parse := { g.parse with endCrc := some a, endCrcWant := crc32c g.parse.crcBytes } } := by
  rw [endEffect, takePacket_end q buf (by decide) (by decide)]
  refine (congrArg lossCheck (if_neg ?_)).trans (lossCheck_none q.whole)
  exact fun c => c.elim (· phase) fun c => c.elim (· stage) fun c => by
    rw [show (s.bytesTaken rest).cfg.parse.fdataSeen = true from seen] at c; cases c

theorem endEffect_format (h : s.cfg.parse.stage ≠ 6 ∨ s.cfg.parse.fdataSeen = false) :
    endEffect s = cfgFail (s.bytesTaken rest) .format := by
  rw [endEffect, takePacket_end q buf (by decide) (by decide)]
  refine (congrArg lossCheck (if_pos (.inr (h.imp_right fun c => ?_)))).trans (lossCheck_cfgFail _ _)
  rw [show (s.bytesTaken rest).cfg.parse.fdataSeen = false from c]; rfl

end

end

/-! ### A frame register filled (R395, R402) -/

/-- A whole frame of an FDATA packet is in the buffer, and a frame register is free for it. -/
def frameWaits (s : State) : Prop :=
  s.cfg.phase = .frames ∧ s.cfg.parse.framesLeft ≠ 0 ∧ 388 ≤ s.mp.buffer.length ∧ s.cfg.parse.queued = []

theorem frameArrivalEffect_idle (h : ¬frameWaits s) : frameArrivalEffect s = s :=
  if_neg fun ⟨phase, left, long, free⟩ => h ⟨phase, left, long, by simpa using free⟩

/-- The state in which the bytes of a frame have left the buffer. -/
def State.frameTaken (s : State) : State := s.packetTaken (s.mp.buffer.take 388) (s.mp.buffer.drop 388)

theorem consume_frame (long : 388 ≤ s.mp.buffer.length) (whole : s.mp.losses = []) : consume s 388 true = s.frameTaken := by
  have length : (s.mp.buffer.take 388).length = 388 := by simp [long]
  exact length ▸ consume_checked (List.take_append_drop 388 s.mp.buffer).symm whole

/-- The stream's header with a whole frame in a frame register. -/
def Parse.filled (p : Parse) (e : Word) (f : CfgFrame) : Parse :=
  let p := { p with framesLeft := p.framesLeft - 1, framesTaken := p.framesTaken + 1, expected := nextFrame e }
  if p.current.isNone then { p with current := some f, attempt := 0 } else { p with queued := [f] }

theorem filled_fields (p : Parse) (e : Word) (f : CfgFrame) : (p.filled e f).expected = nextFrame e ∧
    (p.filled e f).framesLeft = p.framesLeft - 1 ∧ (p.filled e f).framesTaken = p.framesTaken + 1 ∧
    (p.filled e f).crcBytes = p.crcBytes ∧
    (p.current = none → (p.filled e f).current = some f ∧ (p.filled e f).attempt = 0 ∧ (p.filled e f).queued = p.queued) ∧
    (p.current ≠ none → (p.filled e f).current = p.current ∧ (p.filled e f).queued = [f]) := by
  cases h : p.current <;> simp [Parse.filled, h]

section
variable (h : frameWaits s) (whole : s.mp.losses = [])
include h whole

theorem frameArrivalEffect_count (expected : s.cfg.parse.expected = none) :
    frameArrivalEffect s = cfgFail s.frameTaken .count := by
  obtain ⟨phase, left, long, free⟩ := h
  refine (if_pos ⟨phase, left, long, by simp [free]⟩).trans ?_
  simp only [consume_frame long whole, expected]

theorem frameArrivalEffect_eq {e : Word} (expected : s.cfg.parse.expected = some e) : frameArrivalEffect s =
    if crc32c ((s.mp.buffer.take 388).take 384) ≠ (beWords (s.mp.buffer.take 388)).getD 96 0 then cfgFail s.frameTaken .frameCrc
    else s.frameTaken.modCfg fun c => { c with parse := c.parse.filled e ⟨e, beWords (s.mp.buffer.take 388)⟩ } := by
  obtain ⟨phase, left, long, free⟩ := h
  refine (if_pos ⟨phase, left, long, by simp [free]⟩).trans ?_
  rw [List.take_take, Nat.min_eq_left (by decide)]
  simp only [consume_frame long whole, expected]
  exact if_congr Iff.rfl rfl (lossCheck_none (by exact whole))

end

/-! ### A frame programmed (R401, R403) -/

theorem frameProgramDoneEffect_idle (ok : Bool) (h : s.cfg.parse.current = none ∨ writeRuns s = false) :
    frameProgramDoneEffect ok s = s := by
  simp only [frameProgramDoneEffect]
  split
  · next current _ => rw [if_pos (by simp [h.resolve_left (by simp [current])])]
  · rfl

/-- The record of a frame whose programming did not succeed at the first attempt. -/
def frameRecord (perm : Bool) (b : Fin 3) (p : Parse) (f : CfgFrame) : FaultRec :=
  { perm := perm, blk := blkCfg, kind := 1, inst := b.val, retries := p.attempt, d0 := f.addr }

/-- The state with such a record and the flag of the controller. -/
def frameRecorded (perm : Bool) (s : State) (b : Fin 3) (f : CfgFrame) : State :=
  (recordFault s (frameRecord perm b s.cfg.parse f)).modCfg fun c => { c with flags := c.flags.set 4 }

/-- A frame stands in its slot, and the frame register that waits begins. -/
def frameStored (s : State) (b : Fin 3) (f : CfgFrame) : State :=
  (modSlotNv s b fun n => { n with frames := n.frames ++ [f] }).modCfg fun c =>
    { c with frames := c.frames + 1, parse := nextRegister c.parse }

section
variable (current : s.cfg.parse.current = some f) (target : targetSlot s = some b) (runs : writeRuns s = true)
include current target runs

theorem frameProgramDoneEffect_done (whole : s.mp.losses = []) : frameProgramDoneEffect true s =
    frameStored (if s.cfg.parse.attempt = 0 then s else frameRecorded false s b f) b f := by
  simp only [frameProgramDoneEffect, current, target, runs, Bool.not_true, Bool.false_eq_true, if_false, if_true]
  refine lossCheck_none ?_
  split
  · exact whole
  · exact (congrArg Mp.losses ((recordFault_only _ _) .mp (by decide))).trans whole

theorem frameProgramDoneEffect_retries (few : s.cfg.parse.attempt < 2) : frameProgramDoneEffect false s =
    s.modCfg fun g => { g with parse := { g.parse with attempt := g.parse.attempt + 1 } } := by
  simp only [frameProgramDoneEffect, current, target, runs, Bool.not_true, Bool.false_eq_true, if_false,
    if_neg (Nat.not_le.2 few)]

theorem frameProgramDoneEffect_fails (many : 2 ≤ s.cfg.parse.attempt) :
    frameProgramDoneEffect false s = cfgFail (frameRecorded true s b f) .program := by
  simp only [frameProgramDoneEffect, current, target, runs, Bool.not_true, Bool.false_eq_true, if_false, if_pos many]
  rfl

end

/-- A frame that a later attempt has stored (R403). -/
theorem frameStored_recorded (s : State) (b : Fin 3) (f : CfgFrame) : let t := frameStored (frameRecorded false s b f) b f
    Only [.cfg, .qe, .dm] s t ∧ t.cfg.flags.on 4 = true ∧
      t.cfg.slots[b.val] = { s.cfg.slots[b.val] with frames := s.cfg.slots[b.val].frames ++ [f] } ∧
      t.cfg.parse = nextRegister s.cfg.parse ∧ t.dm = (recordFault s (frameRecord false b s.cfg.parse f)).dm := by
  have recorded : Moves [.cfg, .qe, .dm] s (frameRecorded false s b f) :=
    (recordFault_moves s _ (Moves.refl _ s) (by decide)).modCfg (by decide) _
  have cfg : (frameRecorded false s b f).cfg = { s.cfg with flags := s.cfg.flags.set 4 } :=
    congrArg (fun c : Cfg => { c with flags := c.flags.set 4 }) (recordFault_cfg _ _)
  refine ⟨((recorded.modCfg (by decide) _).modCfg (by decide) _).only, ?_⟩
  simp only [frameStored, modSlotNv, State.modCfg, cfg, upd_same]
  exact ⟨Flags.on_set_same _ (by decide), trivial, trivial, rfl⟩

/-! ### The checks at the end (R401, R402) -/

/-- The target slot VALID, and the stream done. -/
def imageValid (s : State) (b : Fin 3) : State :=
  settle (refreshView ((modSlotNv s b fun n => { n with st := .valid }).modCfg fun c =>
    { c with phase := .done, flags := c.flags.set 0 }) b)

/-- After the last frame the controller looks for the next sync word, and changes nothing but the buffer. -/
theorem settle_done_cfg (h : s.cfg.phase = .done) : (settle s).cfg = s.cfg := by
  cases runs : cfgRuns s
  · rw [settle_stopped runs]
  · rw [settle_searching runs (by simp [searching, h])]; rfl

theorem imageValid_fields (s : State) (b : Fin 3) : Only [.mp, .cfg] s (imageValid s b) ∧ (imageValid s b).cfg.phase = .done ∧
    (imageValid s b).cfg.flags.on 0 = true ∧ (imageValid s b).cfg.slots[b.val] = { s.cfg.slots[b.val] with st := .valid } := by
  refine ⟨(settle_moves _ ((((Moves.refl _ s).modCfg (by decide) _).modCfg (by decide) _).modCfg (by decide) _) (by decide)).only, ?_⟩
  rw [imageValid, settle_done_cfg rfl]
  exact ⟨rfl, Flags.on_set_same _ (by decide), upd_same _ _ _⟩

section
variable (target : targetSlot s = some b)
include target

theorem finishingDoneEffect_idle (h : s.cfg.phase ≠ .finishing ∨ s.cfg.parse.current ≠ none) : finishingDoneEffect s = s := by
  simp only [finishingDoneEffect, target]
  exact if_pos (h.imp_right Option.isSome_iff_ne_none.2)

variable (phase : s.cfg.phase = .finishing) (programmed : s.cfg.parse.current = none)
include phase programmed

theorem finishingDoneEffect_eq : finishingDoneEffect s =
    if s.cfg.parse.framesTaken ≠ imageFrames then cfgFail s .count
    else if s.cfg.parse.endCrc ≠ some s.cfg.parse.endCrcWant then cfgFail s .streamCrc
    else if imageSignature s.cfg.slots[b.val] ≠ s.cfg.parse.sig.toList then cfgFail s .signature
    else imageValid s b := by
  simp only [finishingDoneEffect, target]
  exact if_neg (by simp [phase, programmed])

end

/-- Settles O27: the erase, the packets and registers of the frames, their programming, and the last checks. -/
theorem imageWrite : Obligations.ImageWrite := by
  intro s rest a b ok clocked target whole bytes p front rested failed slot
  have go (f : State → State) : onSys s f = .next (f s) := onSys_clocked clocked f
  have answer {f : State → State} {t : State} (h : f s = t) : onSys s f = .next t := (go f).trans (congrArg _ h)
  have fails {c : Instr} {t : State} {why : WReason} {ps : List Part} (h : exec c s = .next (cfgFail t why))
      (parts : ∀ p ∈ [Part.mp, .cfg], p ∈ ps) (m : Moves ps s t) : failed c why ps := ⟨_, h, cfgFail_fails m parts why⟩
  have here : ∀ p ∈ [Part.mp, .cfg], p ∈ [Part.mp, .cfg] := fun _ m => m
  refine ⟨fun h => answer (erasingDoneEffect_idle target ok h), fun h k => answer (erasingDoneEffect_begins target h k whole),
    fun h k => ?_, fun h => ?_, fun runs h between => ?_, fun h => answer (frameArrivalEffect_idle fun w => ?_),
    fun h left long free => ?_, fun h => answer (frameProgramDoneEffect_idle ok h), fun f current runs => ?_,
    fun h => answer (finishingDoneEffect_idle target h), fun h programmed => ?_⟩
  · obtain ⟨t, moves, e⟩ := erasingDoneEffect_aborted target h k
    exact fails (answer e) (by decide) moves
  · obtain ⟨t, moves, e⟩ := erasingDoneEffect_failed target h
    exact fails (answer e) (by decide) moves
  · have q : TakesPackets s := ⟨runs, .inr h, between, whole⟩
    refine ⟨fun buf st ex => answer (faddrEffect_taken q buf h st ex),
      fun buf st ex => fails (answer (faddrEffect_order q buf h st ex)) here (packetTaken_moves s _ rest),
      fun buf st => fails (answer (faddrEffect_format q buf st)) here (packetTaken_moves s _ rest),
      fun n pos fits e buf => ?_, fun buf st seen => answer (endEffect_taken q buf h st seen),
      fun buf bad => fails (answer (endEffect_format q buf bad)) here (bytesTaken_moves s rest)⟩
    subst e
    obtain ⟨kind, count⟩ := fdata_header pos fits
    exact answer (fdataEffect_taken q h buf kind count)
  · obtain ⟨phase, left, long, free⟩ := w
    exact h.elim (fun short => Nat.not_le.2 short long) fun h => h.elim left fun h => h.elim (· free) (· phase)
  · have waits : frameWaits s := ⟨h, left, long, free⟩
    have taken : Moves [.mp, .cfg] s s.frameTaken := packetTaken_moves s _ _
    refine ⟨fun none => fails (answer (frameArrivalEffect_count waits whole none)) here taken, fun e expected bad => ?_,
      fun e expected good => ?_⟩
    · exact fails (answer ((frameArrivalEffect_eq waits whole expected).trans (if_pos bad))) here taken
    · obtain ⟨next, left', taken', crc, first, second⟩ := filled_fields s.frameTaken.cfg.parse e ⟨e, beWords (s.mp.buffer.take 388)⟩
      refine ⟨_, answer ((frameArrivalEffect_eq waits whole expected).trans (if_neg (not_not_intro good))),
        (taken.modCfg (by decide) _).only, rfl, h, next, left', taken', crc, fun none => ?_, second⟩
      obtain ⟨current, attempt, queued⟩ := first none
      exact ⟨current, attempt, queued.trans free⟩
  · refine ⟨fun first => answer ?_, fun few => answer (frameProgramDoneEffect_retries current target runs few),
      fun more => ?_, fun many => ?_⟩
    · rw [frameProgramDoneEffect_done current target runs whole, if_pos first]; rfl
    · exact ⟨_, answer ((frameProgramDoneEffect_done current target runs whole).trans (congrArg (frameStored · b f) (if_neg more))),
        frameStored_recorded s b f⟩
    · exact fails (answer (frameProgramDoneEffect_fails current target runs many)) (by decide)
        ((recordFault_moves s _ (Moves.refl _ s) (by decide)).modCfg (by decide) _)
  · have ends := finishingDoneEffect_eq target h programmed
    refine ⟨fun few => ?_, fun all crc => ?_, fun all crc => ⟨fun sig => ?_, fun sig => ?_⟩⟩
    · exact fails (answer (ends.trans (if_pos few))) here (Moves.refl _ s)
    · exact fails (answer (ends.trans ((if_neg (not_not_intro all)).trans (if_pos crc)))) here (Moves.refl _ s)
    · exact fails (answer (ends.trans ((if_neg (not_not_intro all)).trans ((if_neg (not_not_intro crc)).trans (if_pos sig)))))
        here (Moves.refl _ s)
    · exact ⟨_, answer (ends.trans ((if_neg (not_not_intro all)).trans ((if_neg (not_not_intro crc)).trans
        (if_neg (not_not_intro sig))))), imageValid_fields s b⟩

end Sys2Proof.Machine
end

section
/-! The commands and the stream of a swap zone (O51): OPEN and RESTORE (R429, R433, R457), ABORT (R432), and the words of a zone stream
(R430, R432, R437). -/

namespace Sys2Proof.Machine

variable {s : State} {z y : Fin 8} {x was : Zone} {f : Zone → Zone} {w fa : Word}

theorem forall_mem_toList_iff {α : Type} {n : Nat} {v : Vector α n} {p : α → Prop} :
    (∀ x ∈ v.toList, p x) ↔ ∀ j : Fin n, p v[j.val] := by
  simp only [Vector.mem_toList_iff, Vector.mem_iff_getElem]
  exact ⟨fun h j => h _ ⟨j.val, j.isLt, rfl⟩, fun h x ⟨i, lt, e⟩ => e ▸ h ⟨i, lt⟩⟩

/-! ### One zone -/

/-- The state in which zone z has become x. -/
def withZone (s : State) (z : Fin 8) (x : Zone) : State :=
  { s with scb := { s.scb with zones := upd s.scb.zones z fun _ => x } }

/-- The same when the change ends the zone's comparison in this pass (R440). -/
def zoneMoved (s : State) (z : Fin 8) (x : Zone) (flags : Flags 6) : State :=
  { s with scb := { s.scb with zones := upd s.scb.zones z fun _ => x, changed := z :: s.scb.changed, flags := flags } }

theorem modZone_eq (s : State) (z : Fin 8) (f : Zone → Zone) : s.modZone z f = withZone s z (f (getZone s z)) := rfl

theorem zoneFail_eq (s : State) (z : Fin 8) (reason : BitVec 3) : zoneFail s z reason =
    zoneMoved s z { getZone s z with st := .failed, reason := reason, next := none } (s.scb.flags.set 2) := rfl

theorem getZone_withZone (s : State) (z : Fin 8) (x : Zone) : getZone (withZone s z x) z = x := upd_same _ _ _

theorem getZone_withZone_other (s : State) (x : Zone) (h : y ≠ z) : getZone (withZone s y x) z = getZone s z :=
  upd_other _ _ _ _ h

theorem zoneMoved_withZone (s : State) (z : Fin 8) (x x' : Zone) (flags : Flags 6) :
    zoneMoved (withZone s z x) z x' flags = zoneMoved s z x' flags := by
  simp only [zoneMoved, withZone, upd_upd]

theorem withZone_zoneMoved (s : State) (z : Fin 8) (x x' : Zone) (flags : Flags 6) :
    withZone (zoneMoved s z x flags) z x' = zoneMoved s z x' flags := by
  simp only [zoneMoved, withZone, upd_upd]

/-! ### OPEN and RESTORE (R429, R433, R457) -/

/-- No operation of a zone is running on it. -/
def Zone.idle (x : Zone) : Prop := x.st ≠ .loading ∧ x.st ≠ .verifying ∧ x.st ≠ .restoring

theorem zoneFree_iff : zoneFree s z = true ↔ released s = true ∧ (getZone s z).st ≠ .none ∧ ∀ j : Fin 8, s.scb.zones[j.val].idle := by
  have all : (s.scb.zones.toList.all fun x => !zoneBusy x.st) = true ↔ ∀ j : Fin 8, s.scb.zones[j.val].idle := by
    rw [List.all_eq_true, ← forall_mem_toList_iff (p := Zone.idle)]
    exact forall₂_congr fun x _ => by simp [zoneBusy, Zone.idle, and_assoc]
  simp only [zoneFree, Bool.and_eq_true, bne_iff_ne, all, and_assoc]

/-- A declared zone keeps its columns whatever its state becomes. -/
theorem zoneOf_zoneMoved {c : Nat} {flags : Flags 6} (h : zoneHasCol x c = zoneHasCol (getZone s z) c) :
    zoneOf (zoneMoved s z x flags) c = zoneOf s c := by
  have same : (fun j : Fin 8 => zoneHasCol (upd s.scb.zones z fun _ => x)[j.val] c) = fun j : Fin 8 => zoneHasCol s.scb.zones[j.val] c := by
    funext j
    by_cases e : z = j
    · subst e; rw [upd_same]; exact h
    · rw [upd_other _ _ _ _ e]
  simp only [zoneOf, zoneMoved, same]

/-- An accepted OPEN or RESTORE in which zone z becomes x, and o is the reload that the pass goes on with. -/
def zoneTakenWith (s : State) (z : Fin 8) (x : Zone) (o : Option Reload) : State :=
  ((zoneMoved s z x s.scb.flags).modScb fun b => { b with reload := o }).modMoment fun m =>
    { m with zoneWas := some (z, getZone s z) }

/-- A reload of the pass in the zone is given up, another one goes on (R423). -/
def zoneTaken (s : State) (z : Fin 8) (x : Zone) : State :=
  zoneTakenWith s z x (s.scb.reload.filter fun r => zoneOf s (faColumn r.frame) != some z)

/-- OPEN and RESTORE leave a zone its columns. -/
theorem zoneTake_eq (h : ∀ c, zoneHasCol (f (getZone s z)) c = zoneHasCol (getZone s z) c) :
    zoneTake z f s = zoneTaken s z (f (getZone s z)) := by
  have column (c : Nat) : zoneOf (setZone s z f) c = zoneOf s c := zoneOf_zoneMoved (h c)
  have pass : (setZone s z f).scb.reload = s.scb.reload := rfl
  have goesOn : (setZone s z f).modMoment (fun m => { m with zoneWas := some (z, getZone s z) }) =
      zoneTakenWith s z (f (getZone s z)) s.scb.reload := rfl
  have givenUp : ((setZone s z f).modScb fun b => { b with reload := none }).modMoment
      (fun m => { m with zoneWas := some (z, getZone s z) }) = zoneTakenWith s z (f (getZone s z)) none := rfl
  simp only [zoneTake, zoneTaken, pass, column]
  cases r : s.scb.reload with
  | none => exact goesOn.trans (congrArg _ r)
  | some r' =>
    by_cases inside : zoneOf s (faColumn r'.frame) = some z
    · dsimp only
      rw [if_pos inside, Option.filter_some, inside, bne_self_eq_false, if_neg Bool.false_ne_true]
      exact givenUp
    · dsimp only
      rw [if_neg inside, Option.filter_some, if_pos (bne_iff_ne.2 inside)]
      exact goesOn.trans (congrArg _ r)

theorem zoneCommand_refused (first : zoneYield z s = s) (h : ¬zoneFree s z = true) :
    zoneCommand z f s = withZone s z { getZone s z with result := 2 } := by
  simp only [zoneCommand, first, if_neg h, modZone_eq]

theorem zoneCommand_taken {t : State} (first : zoneYield z s = t) (h : zoneFree t z = true)
    (k : ∀ c, zoneHasCol (f (getZone t z)) c = zoneHasCol (getZone t z) c) :
    zoneCommand z f s = zoneTaken t z (f (getZone t z)) := by
  simp only [zoneCommand, first, if_pos h, zoneTake_eq k]

/-- The command of the present tick for the lowest zone is the one that counts (R457). -/
theorem zoneYield_first (h : ∀ y was, s.moment.zoneWas = some (y, was) → y.val ≤ z.val) : zoneYield z s = s := by
  unfold zoneYield
  split
  · next y was e => exact if_neg (Nat.not_lt.2 (h y was e))
  · rfl

theorem zoneYield_wins (h : s.moment.zoneWas = some (y, was)) (lt : z.val < y.val) :
    zoneYield z s = withZone s y { was with result := 2 } := by
  simp only [zoneYield, h, if_pos lt, modZone_eq]

/-- What OPEN makes of a zone. -/
def Zone.opened (x : Zone) : Zone :=
  { x with st := .loading, reason := 0, result := 1, next := some (firstFrame x), received := 0, words := [], sigWords := [] }

/-- What RESTORE makes of a zone. -/
def Zone.restored (x : Zone) : Zone :=
  { x with st := .restoring, result := 1, next := none, restoreFrom := some (firstFrame x), restoreFails := 0 }

/-- OPEN and RESTORE leave a declared zone declared, with its columns. -/
def KeepsColumns (f : Zone → Zone) : Prop := ∀ x : Zone, x.st ≠ .none → ∀ c, zoneHasCol (f x) c = zoneHasCol x c

theorem opened_keepsColumns : KeepsColumns Zone.opened := fun x h c => by
  rw [zoneHasCol, zoneHasCol, bne_iff_ne.2 h]; rfl
theorem restored_keepsColumns : KeepsColumns Zone.restored := fun x h c => by
  rw [zoneHasCol, zoneHasCol, bne_iff_ne.2 h]; rfl

/-- A command beside one for a zone of a higher number, which is refused instead (R457). -/
theorem zoneCommand_wins (h : s.moment.zoneWas = some (y, was)) (lt : z.val < y.val) (free : released s = true)
    (declared : (getZone s z).st ≠ .none) (idle : was.idle) (others : ∀ j : Fin 8, j ≠ y → s.scb.zones[j.val].idle)
    (k : KeepsColumns f) : Only [.moment, .scb] s (zoneCommand z f s) ∧
      (zoneCommand z f s).scb.zones[z.val] = f (getZone s z) ∧
      (zoneCommand z f s).scb.zones[y.val] = { was with result := 2 } := by
  have ne : y ≠ z := fun e => by rw [e] at lt; exact lt.false
  have same : getZone (withZone s y { was with result := 2 }) z = getZone s z := getZone_withZone_other s _ ne
  have goes : zoneFree (withZone s y { was with result := 2 }) z = true := by
    refine zoneFree_iff.2 ⟨free, same ▸ declared, fun j => ?_⟩
    by_cases e : y = j
    · subst e; exact (upd_same s.scb.zones y fun _ => { was with result := 2 }).symm ▸ idle
    · exact (upd_other s.scb.zones y j (fun _ => { was with result := 2 }) e).symm ▸ others j (Ne.symm e)
  rw [zoneCommand_taken (zoneYield_wins h lt) goes (k _ (same ▸ declared)), same]
  exact ⟨(((Moves.refl _ s).set_scb (by decide) _).set_moment (by decide) _ |>.set_scb (by decide) _).only, upd_same _ _ _,
    (upd_other _ _ _ _ ne.symm).trans (upd_same _ _ _)⟩

/-! ### ABORT and VERIFY (R431, R432) -/

theorem zoneAbortEffect_idle (h : released s = false ∨ ((getZone s z).st ≠ .loading ∧ (getZone s z).st ≠ .verifying)) :
    zoneAbortEffect z s = s :=
  if_neg fun ⟨free, st⟩ => h.elim (fun off => by simp [off] at free) fun h => st.elim h.1 h.2

theorem zoneAbortEffect_fails (free : released s = true) (st : (getZone s z).st = .loading ∨ (getZone s z).st = .verifying) :
    zoneAbortEffect z s = zoneMoved s z { getZone s z with st := .failed, reason := 3, next := none, result := 1 }
      (s.scb.flags.set 2) := by
  refine (if_pos ⟨free, st⟩).trans ?_
  have fields : getZone (zoneFail s z 3) z = { getZone s z with st := .failed, reason := 3, next := none } := upd_same _ _ _
  rw [modZone_eq, fields, zoneFail_eq, withZone_zoneMoved]

/-- What the latches hold of a zone agrees with its frames' check words and with the signature of the stream (R431). -/
def zoneGood (s : State) (x : Zone) : Prop :=
  (∀ f ∈ zoneConfigFrames x, frameOk (latchFrame s f) = true) ∧ zoneSignature s x = x.sigWords

theorem zoneVerifyDoneEffect_idle (h : released s = false ∨ (getZone s z).st ≠ .verifying) : zoneVerifyDoneEffect z s = s :=
  if_pos (h.imp_left fun off => by simp [off])

section
variable (free : released s = true) (st : (getZone s z).st = .verifying)
include free st

theorem zoneVerifyDoneEffect_loaded (good : zoneGood s (getZone s z)) : zoneVerifyDoneEffect z s =
    zoneMoved s z { getZone s z with st := .loaded, sig := eight (getZone s z).sigWords } (s.scb.flags.set 4) :=
  (if_neg (by simp [free, st])).trans (if_pos (by simpa [zoneGood] using good))

theorem zoneVerifyDoneEffect_fails (bad : ¬zoneGood s (getZone s z)) : zoneVerifyDoneEffect z s =
    zoneMoved s z { getZone s z with st := .failed, reason := 2, next := none } (s.scb.flags.set 2) :=
  (if_neg (by simp [free, st])).trans (if_neg (by simpa [zoneGood] using bad))

end

/-! ### The zone stream (R430, R432, R437) -/

theorem zdataWriteEffect_none (w : Word) (h : ∀ j : Fin 8, s.scb.zones[j.val].st ≠ .loading) : zdataWriteEffect w s = s := by
  have none : loadingZone s = none := List.find?_eq_none.2 fun j _ => by simpa [getZone] using h j
  simp only [zdataWriteEffect, none]

/-- The search finds the one zone that passes. -/
theorem find?_allFin_of_unique {p : Fin 8 → Bool} (h : p z = true) (others : ∀ j : Fin 8, j ≠ z → ¬p j = true) :
    (allFin 8).find? p = some z := by
  obtain ⟨j, found⟩ := Option.isSome_iff_exists.1 (List.find?_isSome.2 ⟨z, List.mem_finRange z, h⟩ : ((allFin 8).find? p).isSome)
  exact (Classical.not_not.1 (mt (others j) (not_not_intro (List.find?_some found)))) ▸ found

theorem loadingZone_some (h : s.scb.zones[z.val].st = .loading) (others : ∀ j : Fin 8, j ≠ z → s.scb.zones[j.val].st ≠ .loading) :
    loadingZone s = some z :=
  find?_allFin_of_unique (beq_iff_eq.2 h) fun j ne => mt beq_iff_eq.1 (others j ne)

section
variable (loading : loadingZone s = some z)
include loading

theorem zdataWriteEffect_word (w : Word) : zdataWriteEffect w s = zoneWord z w s := by simp only [zdataWriteEffect, loading]

theorem zdataWriteEffect_frame (next : (getZone s z).next = some fa) : zdataWriteEffect w s =
    if ((getZone s z).words.isEmpty && decide (2 ≤ (loadHeld s).length)) = true then zoneFail s z 4
    else if ((getZone s z).words ++ [w]).length < 97 then s.modZone z fun x => { x with words := (getZone s z).words ++ [w] }
    else zoneFrame z { addr := fa, words := (getZone s z).words ++ [w] } s := by
  simp only [zdataWriteEffect_word loading, zoneWord, next]

theorem zdataWriteEffect_overrun (next : (getZone s z).next = some fa) (first : (getZone s z).words = [])
    (busy : 2 ≤ (loadHeld s).length) : zdataWriteEffect w s =
      zoneMoved s z { getZone s z with st := .failed, reason := 4, next := none } (s.scb.flags.set 2) :=
  (zdataWriteEffect_frame loading next).trans (if_pos (by simp [first, busy]))

section
variable (next : (getZone s z).next = some fa) (room : (getZone s z).words ≠ [] ∨ (loadHeld s).length < 2)
include next room

theorem zdataWriteEffect_room : zdataWriteEffect w s =
    if (getZone s z).words.length < 96 then withZone s z { getZone s z with words := (getZone s z).words ++ [w] }
    else zoneFrame z { addr := fa, words := (getZone s z).words ++ [w] } s := by
  refine (zdataWriteEffect_frame loading next).trans ((if_neg ?_).trans (if_congr ?_ rfl rfl))
  · rcases room with h | h <;> simp [h]
  · rw [List.length_append, List.length_singleton]; omega

end

theorem zdataWriteEffect_signature (next : (getZone s z).next = none) : zdataWriteEffect w s =
    if (getZone s z).sigWords.length < 7 then withZone s z { getZone s z with sigWords := (getZone s z).sigWords ++ [w] }
    else zoneMoved s z { getZone s z with sigWords := (getZone s z).sigWords ++ [w], st := .verifying } s.scb.flags := by
  have full : ((getZone s z).sigWords ++ [w]).length < 8 ↔ (getZone s z).sigWords.length < 7 := by
    rw [List.length_append, List.length_singleton]; omega
  refine Eq.trans ?_ (if_congr full rfl rfl)
  rw [zdataWriteEffect_word loading, zoneWord]
  split
  · next fa h => rw [next] at h; cases h
  · rfl

end

theorem zoneFrame_bad {x : CfgFrame} (bad : frameOk x = false) : zoneFrame z x s =
    zoneMoved s z { getZone s z with words := [], st := .failed, reason := 1, next := none } (s.scb.flags.set 2) := by
  rw [zoneFrame, if_pos (by simp [bad]), modZone_eq, zoneFail_eq, zoneMoved_withZone, getZone_withZone]
  rfl

/-- A frame whose check word agrees goes into the latches, and its load buffer is held until it is written (R437). -/
theorem zoneFrame_good {x : CfgFrame} (good : frameOk x = true) : zoneFrame z x s = { s with
    cfg := { s.cfg with latches := x :: s.cfg.latches.filter fun y => y.addr != x.addr }
    scb := { s.scb with
      loadBusy := loadHeld s ++ [max s.clock ((loadHeld s).foldl max 0) + 194]
      zones := upd s.scb.zones z fun v => { v with
        words := [], received := v.received + 1, next := nextFrameIn v.first.toNat v.last.toNat x.addr } } } := by
  rw [zoneFrame, if_neg (by simp [good])]
  rfl

end Sys2Proof.Machine
end

section
/-! The reload of a zone by RESTORE (O51): frames in the latches (R389, R438), the frames of a zone in RESTORING, and the theorem that
settles O51. -/

namespace Sys2Proof.Machine

variable {s t u : State} {z : Fin 8} {f g : Word} {x : CfgFrame}

/-! ### Frames in the latches and in the booted slot -/

theorem latchFrame_writeLatch (s : State) (x : CfgFrame) (f : Word) :
    latchFrame (writeLatch s x) f = if x.addr = f then x else latchFrame s f := by
  unfold latchFrame writeLatch
  simp only [State.modCfg_fields]
  by_cases e : x.addr = f
  · simp [e]
  · rw [List.find?_cons_of_neg (by simpa using e), if_neg e, List.find?_filter]
    have same : (fun y : CfgFrame => y.addr == f) = fun y => decide ((y.addr != x.addr) = true ∧ (y.addr == f) = true) := by
      funext y
      by_cases k : y.addr = f
      · simp [k, Ne.symm e]
      · simp [k]
    simp only [same]

theorem latchFrame_congr (h : t.cfg.latches = s.cfg.latches) (f : Word) : latchFrame t f = latchFrame s f := by
  simp only [latchFrame, h]

theorem bootedFrame_congr (booted : t.cfg.booted = s.cfg.booted) (slots : t.cfg.slots = s.cfg.slots) (f : Word) :
    bootedFrame t f = bootedFrame s f := by
  simp only [bootedFrame, bootedSlot, getNv, booted, slots]

theorem bootedFrame_addr (h : bootedFrame s f = some x) : x.addr = f := by
  unfold bootedFrame at h
  split at h
  · exact beq_iff_eq.1 (List.find?_some (p := fun x : CfgFrame => x.addr == f) h)
  · cases h

theorem slotFrameOk_iff : slotFrameOk s f = true ↔ ∃ x, bootedFrame s f = some x ∧ frameOk x = true := by
  rw [slotFrameOk, Option.any_eq_true]

/-! ### Records of the scrubber -/

theorem scbRecord_scb (s : State) (r : FaultRec) : (scbRecord s r).scb = { s.scb with flags := s.scb.flags.set 0 } :=
  congrArg (fun b : Scb => { b with flags := b.flags.set 0 }) (recordFault_only s { r with blk := blkScb } .scb (by decide))

theorem scbRecord_cfg (s : State) (r : FaultRec) : (scbRecord s r).cfg = s.cfg := recordFault_cfg s _

/-! ### The frames of a zone in RESTORING (R433, R438) -/

/-- What the reload of frames of zone z leaves: the booted slot, the other zones, and every frame of the booted slot that the latches hold. -/
structure Reloads (z : Fin 8) (s t : State) : Prop where
  booted : t.cfg.booted = s.cfg.booted
  slots : t.cfg.slots = s.cfg.slots
  zone : ∃ o n, t.scb.zones = upd s.scb.zones z fun x => { x with restoreFrom := o, restoreFails := n }
  latches : ∀ f x, bootedFrame s f = some x → latchFrame s f = x → latchFrame t f = x

theorem Reloads.bootedFrame (h : Reloads z s t) (f : Word) : bootedFrame t f = bootedFrame s f := bootedFrame_congr h.booted h.slots f

theorem Reloads.slotFrameOk (h : Reloads z s t) (f : Word) : slotFrameOk t f = slotFrameOk s f := by
  simp only [Machine.slotFrameOk, h.bootedFrame]

theorem Reloads.fields (h : Reloads z s t) :
    ∃ o n, getZone t z = { getZone s z with restoreFrom := o, restoreFails := n } := by
  obtain ⟨o, n, e⟩ := h.zone
  exact ⟨o, n, by rw [getZone, e, upd_same]; rfl⟩

theorem Reloads.others (h : Reloads z s t) : Others z s.scb.zones t.scb.zones := by
  obtain ⟨o, n, e⟩ := h.zone
  exact e ▸ upd_others _ _ _

theorem Reloads.refl (z : Fin 8) (s : State) : Reloads z s s :=
  ⟨rfl, rfl, ⟨_, _, (upd_id _ _ _ rfl).symm⟩, fun _ _ _ h => h⟩

theorem Reloads.trans (h : Reloads z s t) (k : Reloads z t u) : Reloads z s u where
  booted := k.booted.trans h.booted
  slots := k.slots.trans h.slots
  zone := by
    obtain ⟨_, _, e⟩ := h.zone
    obtain ⟨o, n, e'⟩ := k.zone
    exact ⟨o, n, by rw [e', e, upd_upd]⟩
  latches f x b l := k.latches f x ((h.bootedFrame f).trans b) (h.latches f x b l)

/-- The zone z is DAMAGED, with SCB_FLAGS DAMAGED and FAULT. -/
structure Damages (z : Fin 8) (s t : State) : Prop where
  slots : t.cfg.slots = s.cfg.slots
  others : Others z s.scb.zones t.scb.zones
  st : (getZone t z).st = .damaged
  changed : z ∈ t.scb.changed
  damaged : t.scb.flags.on 3 = true
  fault : t.scb.flags.on 0 = true

theorem Reloads.damages (h : Reloads z s t) (k : Damages z t u) : Damages z s u :=
  { k with slots := k.slots.trans h.slots, others := fun j ne => (k.others j ne).trans (h.others j ne) }

theorem zoneDamaged_scb (s : State) (z : Fin 8) (f : Word) : (zoneDamaged s z f).scb = { s.scb with
    zones := upd s.scb.zones z fun x => { x with st := .damaged, restoreFrom := none }
    changed := z :: s.scb.changed, flags := (s.scb.flags.set 3).set 0 } := by
  rw [zoneDamaged, scbRecord_scb]
  rfl

theorem zoneDamaged_damages (s : State) (z : Fin 8) (f : Word) : Damages z s (zoneDamaged s z f) := by
  have scb := zoneDamaged_scb s z f
  refine ⟨congrArg Cfg.slots (scbRecord_cfg _ _), ?_, ?_, ?_, ?_, ?_⟩
  · rw [scb]; exact upd_others _ _ _
  · rw [getZone, scb, upd_same]
  · rw [scb]; exact List.mem_cons_self
  · rw [scb]; exact Flags.on_set_of_on 0 (Flags.on_set_same _ (by decide))
  · rw [scb]; exact Flags.on_set_same _ (by decide)

/-- A record of the scrubber leaves what a reload speaks of. -/
theorem scbRecord_reloads (s : State) (r : FaultRec) : Reloads z s (scbRecord s r) where
  booted := congrArg Cfg.booted (scbRecord_cfg s r)
  slots := congrArg Cfg.slots (scbRecord_cfg s r)
  zone := ⟨_, _, (congrArg Scb.zones (scbRecord_scb s r)).trans (upd_id _ _ _ rfl).symm⟩
  latches f _ _ l := (latchFrame_congr (congrArg Cfg.latches (scbRecord_cfg s r)) f).trans l

theorem modZone_reloads (s : State) {p : Zone → Zone} {o : Option Word} {n : Nat}
    (h : p (getZone s z) = { getZone s z with restoreFrom := o, restoreFails := n }) : Reloads z s (s.modZone z p) :=
  ⟨rfl, rfl, ⟨o, n, upd_congr _ _ _ _ h⟩, fun _ _ _ h => h⟩

theorem reloadFrame_reloads (booted : bootedFrame s f = some x) :
    Reloads z s (reloadFrame s f) ∧ latchFrame (reloadFrame s f) f = x := by
  have addr : x.addr = f := bootedFrame_addr booted
  have cfg : (reloadFrame s f).cfg = (writeLatch s x).cfg := by simp only [reloadFrame, booted]; rfl
  have zones : (reloadFrame s f).scb.zones = s.scb.zones := by simp only [reloadFrame, booted]; rfl
  have latch (g : Word) : latchFrame (reloadFrame s f) g = if x.addr = g then x else latchFrame s g :=
    (latchFrame_congr (congrArg Cfg.latches cfg) g).trans (latchFrame_writeLatch s x g)
  refine ⟨⟨(congrArg Cfg.booted cfg :), (congrArg Cfg.slots cfg :), ⟨_, _, zones.trans (upd_id _ _ _ rfl).symm⟩, fun g y b l => ?_⟩,
    (latch f).trans (if_pos addr)⟩
  refine (latch g).trans ?_
  split
  · next k => exact Option.some.inj (booted.symm.trans (addr.symm.trans k ▸ b))
  · exact l

/-- A frame that its slot holds damaged, at the third attempt (R438). -/
theorem restoreAttempt_damages (from_ : (getZone s z).restoreFrom = some f) (fails : 2 ≤ (getZone s z).restoreFails) :
    Damages z s (restoreAttempt s z false) := by
  have e : restoreAttempt s z false = zoneDamaged (reloadRecord s (some z) f 2 true) z f := by
    simp only [restoreAttempt, from_, Bool.false_and, Bool.false_eq_true, if_false, if_pos fails]
  exact e ▸ (scbRecord_reloads s _).damages (zoneDamaged_damages _ z f)

/-- A frame that its slot holds whole is in the latches after the attempt, and the walk stands at the next one. -/
theorem restoreAttempt_reloads (from_ : (getZone s z).restoreFrom = some f) (ok : slotFrameOk s f = true) :
    Reloads z s (restoreAttempt s z true) ∧
    (getZone (restoreAttempt s z true) z).restoreFrom = nextFrameIn (getZone s z).first.toNat (getZone s z).last.toNat f ∧
    ∀ x, bootedFrame s f = some x → latchFrame (restoreAttempt s z true) f = x := by
  obtain ⟨y, booted, -⟩ := slotFrameOk_iff.1 ok
  -- the state after the record of the attempts before, if there were any
  obtain ⟨r, recorded, e⟩ : ∃ r, Reloads z s r ∧ restoreAttempt s z true = (reloadFrame r f).modZone z fun x =>
      { x with restoreFrom := nextFrameIn x.first.toNat x.last.toNat f, restoreFails := 0 } := by
    by_cases first : (getZone s z).restoreFails = 0
    · exact ⟨s, .refl z s, by simp only [restoreAttempt, from_, ok, Bool.true_and, if_true, first]⟩
    · exact ⟨_, scbRecord_reloads s _, by simp only [restoreAttempt, from_, ok, Bool.true_and, if_true, if_neg first]; rfl⟩
  obtain ⟨written, latch⟩ := reloadFrame_reloads (z := z) ((recorded.bootedFrame f).trans booted)
  obtain ⟨_, _, zone⟩ := (recorded.trans written).fields
  rw [e]
  refine ⟨(recorded.trans written).trans (modZone_reloads _ rfl), ?_, fun x b => ?_⟩
  · rw [modZone_eq, getZone_withZone, zone]
  · exact latch.trans (Option.some.inj (booted.symm.trans b))

/-! ### The walk over the frames that are left -/

/-- The frames still to be reloaded, in address order. -/
def framesLeft (x : Zone) (k : Nat) : Option Word :=
  Nat.repeat (fun o : Option Word => o.bind (nextFrameIn x.first.toNat x.last.toNat)) k x.restoreFrom

theorem repeat_shift {α : Type} (p : α → α) (a : α) : (k : Nat) → Nat.repeat p k (p a) = Nat.repeat p (k + 1) a
  | 0 => rfl
  | k + 1 => congrArg p (repeat_shift p a k)

theorem framesLeft_none {x : Zone} (h : x.restoreFrom = none) (k : Nat) : framesLeft x k = none := by
  induction k with
  | zero => exact h
  | succ k ih => exact congrArg (fun o : Option Word => o.bind (nextFrameIn x.first.toNat x.last.toNat)) ih

/-- Past the first frame, the rest is what is left from the next one on. -/
theorem framesLeft_next {x y : Zone} (first : y.first = x.first) (last : y.last = x.last) (from_ : x.restoreFrom = some f)
    (next : y.restoreFrom = nextFrameIn x.first.toNat x.last.toNat f) (k : Nat) : framesLeft y k = framesLeft x (k + 1) := by
  rw [framesLeft, framesLeft, first, last, next, from_, ← repeat_shift]
  rfl

/-- Every frame whole in the slot: the walk reloads each. -/
theorem restoreRest_reloads (n : Nat) (ok : ∀ k f, k < n → framesLeft (getZone s z) k = some f → slotFrameOk s f = true) :
    Reloads z s (restoreRest z n s) ∧
    ∀ k f x, k < n → framesLeft (getZone s z) k = some f → bootedFrame s f = some x → latchFrame (restoreRest z n s) f = x := by
  induction n generalizing s with
  | zero => exact ⟨.refl z s, fun k _ _ lt => absurd lt (Nat.not_lt_zero k)⟩
  | succ n ih =>
    rw [restoreRest]
    split
    · next done => exact ⟨.refl z s, fun k f _ _ left => by rw [framesLeft_none done] at left; cases left⟩
    · next f from_ =>
      have whole : slotFrameOk s f = true := ok 0 f (Nat.succ_pos n) from_
      rw [if_pos whole]
      obtain ⟨reloads, next, latch⟩ := restoreAttempt_reloads from_ whole
      obtain ⟨o, m, zone⟩ := reloads.fields
      have left (k : Nat) : framesLeft (getZone (restoreAttempt s z true) z) k = framesLeft (getZone s z) (k + 1) :=
        framesLeft_next (by rw [zone]) (by rw [zone]) from_ next k
      obtain ⟨rest, latches⟩ := ih fun k g lt h => (reloads.slotFrameOk g).trans (ok (k + 1) g (Nat.succ_lt_succ lt) (left k ▸ h))
      refine ⟨reloads.trans rest, fun k g x lt h b => ?_⟩
      cases k with
      | zero =>
        obtain rfl : f = g := Option.some.inj (from_.symm.trans h)
        exact rest.latches f x ((reloads.bootedFrame f).trans b) (latch x b)
      | succ k =>
        exact latches k g x (Nat.lt_of_succ_lt_succ lt) ((left k).trans h) ((reloads.bootedFrame g).trans b)

theorem restoreRest_fails (n : Nat) (from_ : (getZone s z).restoreFrom = some f) (bad : slotFrameOk s f = false) :
    Damages z s (restoreRest z (n + 1) s) := by
  have e : restoreRest z (n + 1) s = restoreAttempt (s.modZone z fun x => { x with restoreFails := 2 }) z false := by
    simp only [restoreRest, from_, bad, Bool.false_eq_true, if_false]
  rw [e, modZone_eq]
  refine (modZone_reloads s (p := fun _ => { getZone s z with restoreFails := 2 }) rfl).damages (restoreAttempt_damages (f := f) ?_ ?_)
  · exact (congrArg Zone.restoreFrom (getZone_withZone s z _)).trans from_
  · exact (congrArg Zone.restoreFails (getZone_withZone s z { getZone s z with restoreFails := 2 })).ge

/-- The walk ends with every frame reloaded, or with the zone DAMAGED. -/
theorem restoreRest_ends (n : Nat) (s : State) : Reloads z s (restoreRest z n s) ∨ Damages z s (restoreRest z n s) := by
  induction n generalizing s with
  | zero => exact .inl (.refl z s)
  | succ n ih =>
    cases from_ : (getZone s z).restoreFrom with
    | none => exact .inl (by simp only [restoreRest, from_]; exact .refl z s)
    | some f =>
      cases ok : slotFrameOk s f with
      | false => exact .inr (restoreRest_fails n from_ ok)
      | true =>
        have e : restoreRest z (n + 1) s = restoreRest z n (restoreAttempt s z true) := by
          simp only [restoreRest, from_, ok, if_true]
        have reloads := (restoreAttempt_reloads from_ ok).1
        exact e ▸ (ih _).imp reloads.trans reloads.damages

/-! ### ZONE_RESTORE_DONE (R433) -/

/-- The zone is released (R433). -/
def zoneReleased (t : State) (z : Fin 8) : State :=
  zoneMoved t z { getZone t z with st := .boot, restoreFrom := none, restoreFails := 0 } (t.scb.flags.set 4)

theorem zoneRestoreDoneEffect_idle (h : released s = false ∨ (getZone s z).st ≠ .restoring) : zoneRestoreDoneEffect z s = s :=
  if_pos (h.imp_left fun off => by simp [off])

section
variable (free : released s = true) (st : (getZone s z).st = .restoring)
include free st

theorem zoneRestoreDoneEffect_released (h : Reloads z s (restoreRest z 10680 s)) :
    zoneRestoreDoneEffect z s = zoneReleased (restoreRest z 10680 s) z := by
  rw [zoneRestoreDoneEffect, if_neg (by simp [free, st])]
  generalize restoreRest z 10680 s = t at h ⊢
  obtain ⟨o, n, zone⟩ := h.fields
  exact if_neg (by rw [zone]; exact not_not_intro st)

theorem zoneRestoreDoneEffect_damaged (h : Damages z s (restoreRest z 10680 s)) : zoneRestoreDoneEffect z s = restoreRest z 10680 s := by
  rw [zoneRestoreDoneEffect, if_neg (by simp [free, st])]
  generalize restoreRest z 10680 s = t at h ⊢
  exact if_pos (by rw [h.st]; decide)

end

theorem Reloads.released (h : Reloads z s t) :
    (zoneReleased t z).scb.zones[z.val] = { getZone s z with st := .boot, restoreFrom := none, restoreFails := 0 } := by
  obtain ⟨o, n, zone⟩ := h.fields
  rw [zoneReleased, zone]
  exact upd_same _ _ _

theorem zoneRestoreDone_only (z : Fin 8) (s : State) : Only [.cfg, .scb, .qe, .dm] s (zoneRestoreDoneEffect z s) :=
  (zoneRestoreDoneEffect_moves z s (Moves.refl _ s) (by decide)).only

section
variable (free : released s = true) (st : (getZone s z).st = .restoring)
include free st

/-- ZONE_RESTORE_DONE with every frame left whole in the slot. -/
theorem zoneRestoreDone_whole (ok : ∀ k f, k < 10680 → framesLeft (getZone s z) k = some f → slotFrameOk s f = true) :
    (zoneRestoreDoneEffect z s).scb.zones[z.val] = { getZone s z with st := .boot, restoreFrom := none, restoreFails := 0 } ∧
    (zoneRestoreDoneEffect z s).scb.flags.on 4 = true ∧
    ∀ k f x, k < 10680 → framesLeft (getZone s z) k = some f → bootedFrame s f = some x →
      latchFrame (zoneRestoreDoneEffect z s) f = x := by
  obtain ⟨reloads, latches⟩ := restoreRest_reloads 10680 ok
  rw [zoneRestoreDoneEffect_released free st reloads]
  exact ⟨reloads.released, Flags.on_set_same _ (by decide), latches⟩

/-- ZONE_RESTORE_DONE with the first frame left damaged in the slot. -/
theorem zoneRestoreDone_bad (from_ : (getZone s z).restoreFrom = some f) (bad : slotFrameOk s f = false) :
    Damages z s (zoneRestoreDoneEffect z s) := by
  have damages := restoreRest_fails 10679 from_ bad
  rwa [zoneRestoreDoneEffect_damaged free st damages]

theorem zoneRestoreDone_keeps : (zoneRestoreDoneEffect z s).cfg.slots = s.cfg.slots ∧ z ∈ (zoneRestoreDoneEffect z s).scb.changed ∧
    Others z s.scb.zones (zoneRestoreDoneEffect z s).scb.zones := by
  rcases restoreRest_ends (z := z) 10680 s with reloads | damages
  · rw [zoneRestoreDoneEffect_released free st reloads]
    exact ⟨reloads.slots, List.mem_cons_self, fun j ne => (upd_others _ _ _ j ne).trans (reloads.others j ne)⟩
  · rw [zoneRestoreDoneEffect_damaged free st damages]
    exact ⟨damages.slots, damages.changed, damages.others⟩

end

/-- Settles O51: the commands of a zone by zoneCommand, the stream by the zone in LOADING, and RESTORE by the walk over the frames left. -/
theorem swapZones : Obligations.SwapZones := by
  unfold Obligations.SwapZones
  intro s z w clocked x quiet moved taken idle free first good
  have answer {p : State → State} {t : State} (h : p s = t) : onSys s p = .next t := (onSys_clocked clocked p).trans (congrArg _ h)
  have frees : zoneFree s z = true ↔ free := zoneFree_iff
  refine ⟨fun lowest => ?_, fun y was at_ lt rel decl idl others => ?_, fun rel st => answer (zoneAbortEffect_fails rel st),
    fun h => answer (zoneAbortEffect_idle h), fun h => answer (zdataWriteEffect_none w h), fun loading others => ?_,
    fun h => answer (zoneVerifyDoneEffect_idle h), fun rel st => ⟨fun h => answer (zoneVerifyDoneEffect_loaded rel st h),
      fun h => answer (zoneVerifyDoneEffect_fails rel st h)⟩, fun h => answer (zoneRestoreDoneEffect_idle h), fun rel st => ?_⟩
  · have one := zoneYield_first lowest
    refine ⟨fun h => ?_, fun h => ?_⟩
    · have go := frees.2 h
      exact ⟨answer (zoneCommand_taken (f := Zone.opened) one go (opened_keepsColumns _ h.2.1)),
        answer (zoneCommand_taken (f := Zone.restored) one go (restored_keepsColumns _ h.2.1))⟩
    · have no := mt frees.1 h
      exact ⟨answer (zoneCommand_refused one no), answer (zoneCommand_refused one no)⟩
  · obtain ⟨only, zone, other⟩ := zoneCommand_wins at_ lt rel decl idl others opened_keepsColumns
    obtain ⟨only', zone', other'⟩ := zoneCommand_wins at_ lt rel decl idl others restored_keepsColumns
    exact ⟨⟨_, answer rfl, only, congrArg Zone.st zone, congrArg Zone.result zone, other⟩,
      ⟨_, answer rfl, only', congrArg Zone.st zone', congrArg Zone.result zone', other'⟩⟩
  · have one := loadingZone_some loading others
    refine ⟨fun f next => ⟨fun empty busy => answer (zdataWriteEffect_overrun one next empty busy), fun lt room => ?_,
      fun full bad => ?_, fun full ok => ?_⟩, fun next => ⟨fun lt => ?_, fun full => ?_⟩⟩
    · exact answer ((zdataWriteEffect_room one next room).trans (if_pos lt))
    · exact answer ((zdataWriteEffect_room one next (.inl (List.ne_nil_of_length_pos (lt_of_lt_of_le (by decide) full)))).trans
        ((if_neg (not_lt.2 full)).trans (zoneFrame_bad bad)))
    · exact answer ((zdataWriteEffect_room one next (.inl (List.ne_nil_of_length_pos (lt_of_lt_of_le (by decide) full)))).trans
        ((if_neg (not_lt.2 full)).trans (zoneFrame_good ok)))
    · exact answer ((zdataWriteEffect_signature one next).trans (if_pos lt))
    · exact answer ((zdataWriteEffect_signature one next).trans (if_neg (not_lt.2 full)))
  · obtain ⟨slots, changed, others⟩ := zoneRestoreDone_keeps rel st
    refine ⟨_, answer rfl, zoneRestoreDone_only z s, slots, changed, others, zoneRestoreDone_whole rel st, fun f from_ bad => ?_⟩
    have damages := zoneRestoreDone_bad rel st from_ bad
    exact ⟨damages.st, damages.damaged, damages.fault⟩

end Sys2Proof.Machine
end

section
/-! The pass of the scrubber (O52): its start (R434, R444), the visit of a frame (R434, R435, R439, R448), and the records of the
scrubber. -/

namespace Sys2Proof.Machine

variable {s t u : State} {f d : Word} {z : Fin 8} {flips : List Nat} {x : CfgFrame} {i : Nat}

/-! ### Records -/

theorem scbRecord_seq (s : State) (r : FaultRec) : (scbRecord s r).qe.seq = nextSeq s.qe.seq := recordFault_seq s _

theorem scbRecord_only (s : State) (r : FaultRec) : Only [.scb, .qe, .dm] s (scbRecord s r) :=
  (scbRecord_moves s r (Moves.refl _ s) (by decide)).only

theorem zoneDamaged_seq (s : State) (z : Fin 8) (f : Word) : (zoneDamaged s z f).qe.seq = nextSeq s.qe.seq := scbRecord_seq _ _

theorem zoneDamaged_only (s : State) (z : Fin 8) (f : Word) : Only [.scb, .qe, .dm] s (zoneDamaged s z f) :=
  (zoneDamaged_moves s z f (Moves.refl _ s) (by decide)).only

/-! ### PASS_START (R434, R444) -/

/-- INTERVAL has passed since the last pass. -/
def IntervalOver (s : State) : Prop :=
  ∀ at_, s.scb.lastPassEnd = some at_ → at_ + max 2 (400000 * (scrubCfg s).1.toNat) ≤ s.clock

theorem passDue_iff : passDue s = true ↔ IntervalOver s := by
  unfold passDue IntervalOver
  split
  · next none => simp [none]
  · next at_ e =>
    simp only [e, oneMs, Option.some.injEq, forall_eq']
    exact decide_eq_true_iff

/-- The scrubber at the start of a pass. -/
def passStarted (s : State) : Scb :=
  { s.scb with
    cfgA := (headerCfg s).1, cfgB := (headerCfg s).1, cfgC := (headerCfg s).1, hdrDefault := (headerCfg s).2, passBusy := true
    reloadPass := s.scb.sigFault.isSome, passNext := some 0, changed := [], imgBytes := [], zoneBytes := [], reload := none
    passFrom := s.clock }

theorem passStartEffect_idle (h : released s = false ∨ s.scb.passBusy = true ∨ ¬IntervalOver s) : passStartEffect s = s := by
  refine if_neg ?_
  simp only [Bool.and_eq_true, Bool.not_eq_true', passDue_iff]
  rintro ⟨⟨free, busy⟩, due⟩
  rcases h with off | running | early
  · exact Bool.false_ne_true (off.symm.trans free)
  · exact Bool.false_ne_true (busy.symm.trans running)
  · exact early due

section
variable (free : released s = true) (idle : s.scb.passBusy = false) (due : IntervalOver s)
include free idle due

theorem passStartEffect_due : passStartEffect s =
    if (headerCfg s).1 != scrubCfg s then voteRecord { s with scb := passStarted s } 0 else { s with scb := passStarted s } :=
  if_pos (by simp only [free, idle, passDue_iff.2 due]; rfl)

theorem passStartEffect_agrees (h : (headerCfg s).1 = scrubCfg s) : passStartEffect s = { s with scb := passStarted s } := by
  rw [passStartEffect_due free idle due, h, bne_self_eq_false, if_neg Bool.false_ne_true]

theorem passStartEffect_differs (h : (headerCfg s).1 ≠ scrubCfg s) : passStartEffect s = voteRecord { s with scb := passStarted s } 0 := by
  rw [passStartEffect_due free idle due, if_pos (bne_iff_ne.2 h)]

end

theorem voteRecord_scb (s : State) (d : Word) :
    (voteRecord s d).scb = { s.scb with cntVote := s.scb.cntVote + 1, flags := s.scb.flags.set 0 } := scbRecord_scb _ _

theorem voteRecord_seq (s : State) (d : Word) : (voteRecord s d).qe.seq = nextSeq s.qe.seq := scbRecord_seq _ _

/-! ### When a frame is visited (R434, R437, R448) -/

/-- The pass can visit a frame. -/
def PassFree (s : State) : Prop :=
  released s = true ∧ s.scb.passBusy = true ∧ s.scb.reload = none ∧ ∀ k : Fin 8, s.scb.zones[k.val].st ≠ .verifying

theorem passFree_iff : passFree s = true ↔ PassFree s := by
  have all : (s.scb.zones.toList.all fun x => x.st != .verifying) = true ↔ ∀ k : Fin 8, s.scb.zones[k.val].st ≠ .verifying := by
    rw [List.all_eq_true, ← forall_mem_toList_iff (p := fun x : Zone => x.st ≠ .verifying)]
    exact forall₂_congr fun x _ => bne_iff_ne
  simp only [passFree, PassFree, Bool.and_eq_true, Option.isNone_iff_eq_none, all, and_assoc]

theorem frameScrubEffect_idle (h : s.scb.passNext = none ∨ ¬PassFree s) (flips : List Nat) : frameScrubEffect flips s = s := by
  unfold frameScrubEffect
  split
  · rfl
  · next f next =>
    have held : ¬PassFree s := h.resolve_left (by rw [next]; exact Option.some_ne_none f)
    exact if_pos (by simpa using mt passFree_iff.1 held)

section
variable (pass : PassFree s) (next : s.scb.passNext = some f)
include pass next

theorem frameScrubEffect_next (flips : List Nat) : frameScrubEffect flips s =
    if (s.moment.late || (zoneOf s (faColumn f)).isNone) = true then
      scrubFrame (s.modMoment fun m => { m with scrub := none }) f flips
    else if s.moment.scrub.isSome = true then s else s.modMoment fun m => { m with scrub := some flips } := by
  simp only [frameScrubEffect, next, passFree_iff.2 pass, Bool.not_true, Bool.false_eq_true, if_false]

theorem frameScrubEffect_stands (zone : zoneOf s (faColumn f) ≠ none) (early : s.moment.late = false) (flips : List Nat) :
    frameScrubEffect flips s =
      if s.moment.scrub.isSome = true then s else { s with moment := { s.moment with scrub := some flips } } :=
  (frameScrubEffect_next pass next flips).trans (if_neg (by simp [zone, early]))

theorem frameScrubEffect_visits (h : zoneOf s (faColumn f) = none ∨ s.moment.late = true) (flips : List Nat) :
    frameScrubEffect flips s = scrubFrame (s.modMoment fun m => { m with scrub := none }) f flips :=
  (frameScrubEffect_next pass next flips).trans (if_pos (by rcases h with h | h <;> simp [h]))

end

/-! ### The visit (R434, R435, R439) -/

theorem visited_static (h : zoneOf s (faColumn f) = none) : visited s f = true := by simp only [visited, h]

/-- The visit with the upsets since the last one already in the latches. -/
def scrubFrameOf (s : State) (f : Word) (x : CfgFrame) : State :=
  if !visited s f then passAdvance (s.modScb fun b => { b with cntSkipped := b.cntSkipped + 1 }) f
  else if s.scb.reloadPass && (zoneOf s (faColumn f)).isNone then
    s.modScb fun b => { b with reload := some { frame := f, failures := 0 } }
  else if frameOk x then passAdvance (passUpdate s f) f
  else
    (singleBit x).elim (scrubRepair s f) fun i =>
      passAdvance (passUpdate (scbRecord ((writeLatch s (flipBit x i)).modScb fun b =>
        { b with cntCorrected := b.cntCorrected + 1, lastFrame := f })
        { perm := false, blk := blkScb, kind := 1, inst := 0, d0 := f, d1 := BitVec.ofNat 32 i }) f) f

theorem scrubFrame_eq (s : State) (f : Word) (flips : List Nat) : scrubFrame s f flips =
    scrubFrameOf (if flips.isEmpty then s else writeLatch s (flips.foldl flipBit (latchFrame s f))) f
      (flips.foldl flipBit (latchFrame s f)) := by
  unfold scrubFrame scrubFrameOf
  generalize flips.foldl flipBit (latchFrame s f) = x
  dsimp only
  generalize singleBit x = bit
  cases bit <;> rfl

theorem scrubFrameOf_skips (h : visited s f = false) (x : CfgFrame) : scrubFrameOf s f x =
    s.modScb fun b => { b with cntSkipped := b.cntSkipped + 1, passNext := nextConfigFrame f, reload := none } :=
  if_pos (by simp [h])

theorem scrubFrameOf_reloads (zone : zoneOf s (faColumn f) = none) (reload : s.scb.reloadPass = true) (x : CfgFrame) :
    scrubFrameOf s f x = s.modScb fun b => { b with reload := some ⟨f, 0⟩ } :=
  (if_neg (by simp [visited_static zone])).trans (if_pos (by simp [reload, zone]))

section
variable (seen : visited s f = true) (goes : s.scb.reloadPass = false ∨ zoneOf s (faColumn f) ≠ none)
include seen goes

theorem scrubFrameOf_checks (x : CfgFrame) : scrubFrameOf s f x =
    if frameOk x = true then passAdvance (passUpdate s f) f
    else
      (singleBit x).elim (scrubRepair s f) fun i =>
        passAdvance (passUpdate (scbRecord ((writeLatch s (flipBit x i)).modScb fun b =>
          { b with cntCorrected := b.cntCorrected + 1, lastFrame := f })
          { perm := false, blk := blkScb, kind := 1, inst := 0, d0 := f, d1 := BitVec.ofNat 32 i }) f) f := by
  refine (if_neg (by simp [seen])).trans (if_neg ?_)
  rcases goes with off | zone
  · simp [off]
  · simp [zone]

theorem scrubFrameOf_whole (h : frameOk x = true) : scrubFrameOf s f x = passAdvance (passUpdate s f) f :=
  (scrubFrameOf_checks seen goes x).trans (if_pos h)

theorem scrubFrameOf_corrects (bad : frameOk x = false) (bit : singleBit x = some i) : scrubFrameOf s f x =
    passAdvance (passUpdate (scbRecord ((writeLatch s (flipBit x i)).modScb fun b =>
      { b with cntCorrected := b.cntCorrected + 1, lastFrame := f })
      { perm := false, blk := blkScb, kind := 1, inst := 0, d0 := f, d1 := BitVec.ofNat 32 i }) f) f := by
  rw [scrubFrameOf_checks seen goes, if_neg (by simp [bad]), bit, Option.elim]

theorem scrubFrameOf_repairs (bad : frameOk x = false) (bit : singleBit x = none) : scrubFrameOf s f x = scrubRepair s f := by
  rw [scrubFrameOf_checks seen goes, if_neg (by simp [bad]), bit, Option.elim]

end

/-! ### What a visited frame leaves -/

theorem passUpdate_static (h : zoneOf s (faColumn f) = none) :
    passUpdate s f = s.modScb fun b => { b with imgBytes := b.imgBytes ++ cfgFrameBytes (latchFrame s f) } := by
  simp only [passUpdate, h]

theorem passUpdate_loaded (h : zoneOf s (faColumn f) = some z) (st : (getZone s z).st = .loaded) :
    passUpdate s f = s.modScb fun b => { b with zoneBytes := b.zoneBytes ++ [(z, cfgFrameBytes (latchFrame s f))] } := by
  simp only [passUpdate, h, if_pos st]

theorem passUpdate_boot (h : zoneOf s (faColumn f) = some z) (st : (getZone s z).st ≠ .loaded) : passUpdate s f = s := by
  simp only [passUpdate, h, if_neg st]

/-- The bytes of a visited frame leave everything of the scrubber but the signatures of the pass. -/
theorem passUpdate_eq (s : State) (f : Word) : ∃ i z, passUpdate s f = s.modScb fun b => { b with imgBytes := i, zoneBytes := z } := by
  unfold passUpdate
  split
  · exact ⟨_, _, rfl⟩
  · split
    · exact ⟨_, _, rfl⟩
    · exact ⟨_, _, rfl⟩

theorem scrubRepair_reloads (h : zoneOf s (faColumn f) = none ∨ ∃ z, zoneOf s (faColumn f) = some z ∧ (getZone s z).st = .boot) :
    scrubRepair s f = s.modScb fun b => { b with reload := some ⟨f, 0⟩ } := by
  rcases h with none | ⟨z, zone, boot⟩
  · simp only [scrubRepair, none]
  · simp only [scrubRepair, zone, if_pos boot]

theorem scrubRepair_damages (zone : zoneOf s (faColumn f) = some z) (st : (getZone s z).st = .loaded) :
    scrubRepair s f = passAdvance (zoneDamaged s z f) f := by
  simp only [scrubRepair, zone, st]
  rfl

/-- What a visit leaves that corrected bit i of the frame as read (R435). -/
structure Corrects (s : State) (f : Word) (x : CfgFrame) (i : Nat) (t : State) : Prop where
  latch : latchFrame t x.addr = flipBit x i
  count : t.scb.cntCorrected = s.scb.cntCorrected + 1
  last : t.scb.lastFrame = f
  next : t.scb.passNext = nextConfigFrame f
  fault : t.scb.flags.on 0 = true
  seq : t.qe.seq = nextSeq s.qe.seq

theorem Corrects.congr (h : Corrects t f x i u) (scb : t.scb = s.scb) (qe : t.qe = s.qe) : Corrects s f x i u :=
  ⟨h.latch, scb ▸ h.count, h.last, h.next, h.fault, qe ▸ h.seq⟩

theorem corrected_corrects (s : State) (f : Word) (x : CfgFrame) (i : Nat) (r : FaultRec) :
    Corrects s f x i (passAdvance (passUpdate (scbRecord ((writeLatch s (flipBit x i)).modScb fun b =>
      { b with cntCorrected := b.cntCorrected + 1, lastFrame := f }) r) f) f) := by
  generalize e : (writeLatch s (flipBit x i)).modScb (fun b => { b with cntCorrected := b.cntCorrected + 1, lastFrame := f }) = u
  have latches : (scbRecord u r).cfg.latches = u.cfg.latches := congrArg Cfg.latches (scbRecord_cfg u r)
  have scb := scbRecord_scb u r
  obtain ⟨img, zone, updated⟩ := passUpdate_eq (scbRecord u r) f
  rw [updated]
  subst e
  refine ⟨?_, (congrArg Scb.cntCorrected scb :), (congrArg Scb.lastFrame scb :), rfl, ?_, scbRecord_seq _ r⟩
  · exact (latchFrame_congr latches x.addr).trans ((latchFrame_writeLatch s (flipBit x i) x.addr).trans (if_pos rfl))
  · exact (congrArg (fun b : Scb => b.flags.on 0) scb).trans (Flags.on_set_same _ (by decide))

theorem visited_congr (h : t.scb = s.scb) (f : Word) : visited t f = visited s f := by
  simp only [visited, zoneOf, getZone, h]

/-- The visit that corrects a single bit. -/
theorem scrubFrame_corrects (seen : visited s f = true) (goes : s.scb.reloadPass = false ∨ zoneOf s (faColumn f) ≠ none)
    (bad : frameOk (flips.foldl flipBit (latchFrame s f)) = false) (bit : singleBit (flips.foldl flipBit (latchFrame s f)) = some i) :
    Corrects s f (flips.foldl flipBit (latchFrame s f)) i (scrubFrame s f flips) := by
  rw [scrubFrame_eq]
  -- the upsets leave everything but the latches
  obtain ⟨scb, qe⟩ : (if flips.isEmpty then s else writeLatch s (flips.foldl flipBit (latchFrame s f))).scb = s.scb ∧
      (if flips.isEmpty then s else writeLatch s (flips.foldl flipBit (latchFrame s f))).qe = s.qe := by
    split <;> exact ⟨rfl, rfl⟩
  rw [scrubFrameOf_corrects ((visited_congr scb f).trans seen) (by simpa only [zoneOf, scb] using goes) bad bit]
  exact (corrected_corrects _ f _ i _).congr scb qe

/-- With no upset since the last visit. -/
theorem scrubFrame_quiet (s : State) (f : Word) : scrubFrame s f [] = scrubFrameOf s f (latchFrame s f) := scrubFrame_eq s f []

end Sys2Proof.Machine
end

section
/-! The reload of a frame by the pass (R438, R439, R441), the end of a pass (R436, R439, R440), the correction of a copy (R443), SAVE
(R445), and the theorem that settles O52. -/

namespace Sys2Proof.Machine

variable {s t u : State} {f : Word} {z : Fin 8} {r : Reload} {ok : Bool}

/-! ### RELOAD_ATTEMPT (R438) -/

theorem passUpdate_qe (s : State) (f : Word) : (passUpdate s f).qe = s.qe := by
  obtain ⟨i, z, e⟩ := passUpdate_eq s f
  rw [e]; rfl

theorem passUpdate_sys (s : State) (f : Word) : (passUpdate s f).sys = s.sys := by
  obtain ⟨i, z, e⟩ := passUpdate_eq s f
  rw [e]; rfl

theorem passUpdate_flags (s : State) (f : Word) : (passUpdate s f).scb.flags = s.scb.flags := by
  obtain ⟨i, z, e⟩ := passUpdate_eq s f
  rw [e]; rfl

theorem passUpdate_cntReloaded (s : State) (f : Word) : (passUpdate s f).scb.cntReloaded = s.scb.cntReloaded := by
  obtain ⟨i, z, e⟩ := passUpdate_eq s f
  rw [e]; rfl

theorem passUpdate_cfg (s : State) (f : Word) : (passUpdate s f).cfg = s.cfg := by
  obtain ⟨i, z, e⟩ := passUpdate_eq s f
  rw [e]; rfl

theorem reloadAttemptEffect_idle (none : s.scb.reload = none) (h : ∀ k : Fin 8, s.scb.zones[k.val].st ≠ .restoring) (ok : Bool) :
    reloadAttemptEffect ok s = s := by
  have noZone : ((allFin 8).find? fun z => (getZone s z).st == .restoring) = .none :=
    List.find?_eq_none.2 fun k _ => by simpa [getZone] using h k
  simp only [reloadAttemptEffect, none, noZone]

theorem reloadAttemptEffect_pass (h : s.scb.reload = some r) (ok : Bool) : reloadAttemptEffect ok s =
    if (ok && slotFrameOk s r.frame) = true then reloadVerified s r
    else if 2 ≤ r.failures then reloadLost s r
    else s.modScb fun b => { b with reload := some { r with failures := r.failures + 1 } } := by
  simp only [reloadAttemptEffect, h]

/-- The attempt of the pass verified. -/
theorem reloadVerified_leaves (s : State) (r : Reload) : Only [.cfg, .scb, .qe, .dm] s (reloadVerified s r) ∧
    (reloadVerified s r).scb.reload = none ∧ (reloadVerified s r).scb.passNext = nextConfigFrame r.frame ∧
    (reloadVerified s r).scb.cntReloaded = s.scb.cntReloaded + 1 ∧
    ∀ x, bootedFrame s r.frame = some x → latchFrame (reloadVerified s r) r.frame = x := by
  obtain ⟨u, e, count, latches⟩ : ∃ u, reloadVerified s r = passAdvance (passUpdate u r.frame) r.frame ∧
      u.scb.cntReloaded = (reloadFrame s r.frame).scb.cntReloaded ∧ u.cfg = (reloadFrame s r.frame).cfg := by
    refine ⟨_, rfl, ?_⟩
    split
    · exact ⟨rfl, rfl⟩
    · exact ⟨(congrArg Scb.cntReloaded (scbRecord_scb (reloadFrame s r.frame) _) :), scbRecord_cfg _ _⟩
  have reloaded : (reloadFrame s r.frame).scb.cntReloaded = s.scb.cntReloaded + 1 := by
    unfold reloadFrame
    split <;> rfl
  refine ⟨(reloadVerified_moves s r (Moves.refl _ s) (by decide)).only, rfl, rfl, ?_, fun x booted => ?_⟩
  · exact e ▸ (passUpdate_cntReloaded u _).trans (count.trans reloaded)
  · have cfg : (reloadVerified s r).cfg = (reloadFrame s r.frame).cfg := e ▸ (passUpdate_cfg u _).trans latches
    exact (latchFrame_congr (congrArg Cfg.latches cfg) _).trans (reloadFrame_reloads (z := 0) booted).2

/-! ### A reload that stays bad (R438, R439, R441) -/

/-- Bit 1 of SCB_FLAGS, and with RECONF_EN a request for a reconfiguration (R441). -/
theorem staticBad_eq (s : State) : staticBad s = { s with
    scb := { s.scb with flags := s.scb.flags.set 1 }
    sys := { s.sys with reconfReq := s.sys.reconfReq || (scrubCfg s).2 } } := by
  cases en : (scrubCfg s).2 with
  | true => rw [Bool.or_true]; exact if_pos en
  | false => rw [Bool.or_false]; exact if_neg (by rw [Bool.not_eq_true]; exact en)

/-- The record of a static frame that stays bad: of the image fault in a reload pass, else of the reload. -/
def lostRecord (s : State) (r : Reload) : State :=
  match s.scb.reloadPass, s.scb.sigFault with
  | true, some n =>
    (scbRecord s { perm := true, blk := blkScb, kind := 3, inst := 0, retries := 2, d0 := n }).modScb fun b =>
      { b with sigFault := none, reloadPass := false }
  | _, _ => reloadRecord s none r.frame 2 true

theorem scrubCfg_congr (a : t.scb.cfgA = s.scb.cfgA) (b : t.scb.cfgB = s.scb.cfgB) (c : t.scb.cfgC = s.scb.cfgC) :
    scrubCfg t = scrubCfg s := by
  simp only [scrubCfg, a, b, c]

theorem scbRecord_scrubCfg (s : State) (x : FaultRec) : scrubCfg (scbRecord s x) = scrubCfg s := by
  have scb := scbRecord_scb s x
  exact scrubCfg_congr (congrArg Scb.cfgA scb :) (congrArg Scb.cfgB scb :) (congrArg Scb.cfgC scb :)

theorem lostRecord_leaves (s : State) (r : Reload) : (lostRecord s r).qe.seq = nextSeq s.qe.seq ∧
    (lostRecord s r).sys = s.sys ∧ scrubCfg (lostRecord s r) = scrubCfg s := by
  have sys (x : FaultRec) : (scbRecord s x).sys = s.sys := scbRecord_only s x .sys (by decide)
  unfold lostRecord
  split
  · exact ⟨scbRecord_seq s _, sys _, scbRecord_scrubCfg s _⟩
  · exact ⟨scbRecord_seq s _, sys _, scbRecord_scrubCfg s _⟩

theorem reloadLost_static (h : zoneOf s (faColumn r.frame) = none) :
    reloadLost s r = passAdvance (passUpdate (staticBad (lostRecord s r)) r.frame) r.frame := by
  simp only [reloadLost, h]
  rfl

theorem reloadLost_zone (h : zoneOf s (faColumn r.frame) = some z) :
    reloadLost s r = passAdvance (zoneDamaged (reloadRecord s (some z) r.frame 2 true) z r.frame) r.frame := by
  simp only [reloadLost, h]

theorem reloadLost_ends (s : State) (r : Reload) :
    (reloadLost s r).scb.reload = none ∧ (reloadLost s r).scb.passNext = nextConfigFrame r.frame := by
  cases h : zoneOf s (faColumn r.frame) with
  | none => rw [reloadLost_static h]; exact ⟨rfl, rfl⟩
  | some z => rw [reloadLost_zone h]; exact ⟨rfl, rfl⟩

theorem reloadLost_reconf (h : zoneOf s (faColumn r.frame) = none) : (reloadLost s r).scb.flags.on 1 = true ∧
    (reloadLost s r).qe.seq = nextSeq s.qe.seq ∧ (reloadLost s r).sys.reconfReq = (s.sys.reconfReq || (scrubCfg s).2) := by
  obtain ⟨seq, sys, cfg⟩ := lostRecord_leaves s r
  rw [reloadLost_static h, staticBad_eq, ← cfg, ← sys, ← seq]
  refine ⟨?_, congrArg Qe.seq (passUpdate_qe _ _), congrArg Sys.reconfReq (passUpdate_sys _ _)⟩
  exact (congrArg (fun b : Flags 6 => b.on 1) (passUpdate_flags _ _)).trans (Flags.on_set_same _ (by decide))

theorem reloadLost_damages (h : zoneOf s (faColumn r.frame) = some z) : (reloadLost s r).scb.zones[z.val].st = .damaged ∧
    (reloadLost s r).scb.flags.on 3 = true ∧ (reloadLost s r).qe.seq = nextSeq (nextSeq s.qe.seq) ∧ (reloadLost s r).sys = s.sys := by
  rw [reloadLost_zone h]
  have damages := zoneDamaged_damages (reloadRecord s (some z) r.frame 2 true) z r.frame
  refine ⟨damages.st, damages.damaged, ?_, ?_⟩
  · exact (zoneDamaged_seq _ z _).trans (congrArg nextSeq (scbRecord_seq s _))
  · exact (zoneDamaged_only _ z _ .sys (by decide)).trans (scbRecord_only s _ .sys (by decide))

/-! ### An attempt for a zone in RESTORING -/

theorem reloadAttemptEffect_zone (none : s.scb.reload = none) (st : s.scb.zones[z.val].st = .restoring)
    (others : ∀ k : Fin 8, k ≠ z → s.scb.zones[k.val].st ≠ .restoring) (ok : Bool) :
    reloadAttemptEffect ok s = restoreAttempt s z ok := by
  have found : ((allFin 8).find? fun z => (getZone s z).st == .restoring) = some z :=
    find?_allFin_of_unique (beq_iff_eq.2 st) fun j ne => mt beq_iff_eq.1 (others j ne)
  simp only [reloadAttemptEffect, none, found]

theorem restoreAttempt_again (from_ : (getZone s z).restoreFrom = some f) (bad : ok = false ∨ slotFrameOk s f = false)
    (few : (getZone s z).restoreFails < 2) :
    restoreAttempt s z ok = s.modZone z fun x => { x with restoreFails := x.restoreFails + 1 } := by
  have no : (ok && slotFrameOk s f) = false := Bool.and_eq_false_iff.2 bad
  simp only [restoreAttempt, from_, no, Bool.false_eq_true, if_false, if_neg (not_le.2 few)]

/-! ### PASS_END (R436, R439, R440) -/

/-- The scrubber at the end of a pass, before the signatures are compared. -/
def passEnded (s : State) : State :=
  s.modScb fun b =>
    { b with passBusy := false, passCount := b.passCount + 1,
             passTime := BitVec.ofNat 20 (min ((s.clock - b.passFrom) / 400) 0xFFFFF), lastPassEnd := some s.clock }

theorem passEndEffect_idle (h : released s = false ∨ s.scb.passBusy = false ∨ s.scb.passNext ≠ none ∨ s.scb.reload ≠ none) :
    passEndEffect s = s := by
  refine if_neg ?_
  simp only [Bool.and_eq_true, Option.isNone_iff_eq_none]
  rintro ⟨⟨⟨free, busy⟩, next⟩, reload⟩
  rcases h with off | idle | more | waits
  · exact Bool.false_ne_true (off.symm.trans free)
  · exact Bool.false_ne_true (idle.symm.trans busy)
  · exact more next
  · exact waits reload

theorem passEndEffect_ends (free : released s = true) (busy : s.scb.passBusy = true) (next : s.scb.passNext = none)
    (reload : s.scb.reload = none) : passEndEffect s =
      (forEach (allFin 8) (fun z s => checkZone s z) (checkImage (passEnded s))).modScb fun b =>
        { b with reloadPass := false, imgBytes := [], zoneBytes := [] } :=
  if_pos (by simp only [free, busy, next, reload]; rfl)

/-- What the comparison of the signatures leaves of the pass. -/
structure SamePass (s t : State) : Prop where
  busy : t.scb.passBusy = s.scb.passBusy
  count : t.scb.passCount = s.scb.passCount
  time : t.scb.passTime = s.scb.passTime
  last : t.scb.lastPassEnd = s.scb.lastPassEnd

theorem SamePass.refl (s : State) : SamePass s s := ⟨rfl, rfl, rfl, rfl⟩

theorem SamePass.trans (h : SamePass s t) (k : SamePass t u) : SamePass s u :=
  ⟨k.busy.trans h.busy, k.count.trans h.count, k.time.trans h.time, k.last.trans h.last⟩

theorem scbRecord_samePass (s : State) (x : FaultRec) : SamePass s (scbRecord s x) := by
  have scb := scbRecord_scb s x
  exact ⟨(congrArg Scb.passBusy scb :), (congrArg Scb.passCount scb :), (congrArg Scb.passTime scb :), (congrArg Scb.lastPassEnd scb :)⟩

theorem staticBad_samePass (s : State) : SamePass s (staticBad s) := by
  rw [staticBad_eq]
  exact ⟨rfl, rfl, rfl, rfl⟩

theorem zoneDamaged_samePass (s : State) (z : Fin 8) (f : Word) : SamePass s (zoneDamaged s z f) := by
  have scb := zoneDamaged_scb s z f
  exact ⟨(congrArg Scb.passBusy scb :), (congrArg Scb.passCount scb :), (congrArg Scb.passTime scb :), (congrArg Scb.lastPassEnd scb :)⟩

theorem zoneDamaged_sigFault (s : State) (z : Fin 8) (f : Word) : (zoneDamaged s z f).scb.sigFault = s.scb.sigFault :=
  (congrArg Scb.sigFault (zoneDamaged_scb s z f) :)

theorem missed_samePass (s : State) : SamePass s (s.modScb fun b => { b with cntSigFail := b.cntSigFail + 1 }) :=
  ⟨rfl, rfl, rfl, rfl⟩

theorem setSigFault_samePass (s : State) (o : Option Word) : SamePass s (s.modScb fun b => { b with sigFault := o }) :=
  ⟨rfl, rfl, rfl, rfl⟩

theorem checkImage_samePass (s : State) : SamePass s (checkImage s) := by
  unfold checkImage
  split
  · exact .refl s
  · dsimp only
    split
    · split
      · exact .refl s
      · exact (missed_samePass s).trans (setSigFault_samePass _ _)
    · split
      · exact (scbRecord_samePass s _).trans (setSigFault_samePass _ none)
      · exact (missed_samePass s).trans (((scbRecord_samePass _ _).trans (setSigFault_samePass _ none)).trans (staticBad_samePass _))

theorem checkZone_keeps (s : State) (z : Fin 8) : SamePass s (checkZone s z) ∧ (checkZone s z).scb.sigFault = s.scb.sigFault := by
  unfold checkZone
  dsimp only
  split
  · exact ⟨.refl s, rfl⟩
  · split
    · exact ⟨.refl s, rfl⟩
    · exact ⟨(missed_samePass s).trans (zoneDamaged_samePass _ z _), zoneDamaged_sigFault _ z _⟩

theorem forEach_checkZone_keeps (l : List (Fin 8)) (s : State) : SamePass s (forEach l (fun z s => checkZone s z) s) ∧
    (forEach l (fun z s => checkZone s z) s).scb.sigFault = s.scb.sigFault := by
  induction l generalizing s with
  | nil => exact ⟨.refl s, rfl⟩
  | cons z l ih =>
    obtain ⟨same, fault⟩ := checkZone_keeps s z
    obtain ⟨rest, faults⟩ := ih (checkZone s z)
    exact ⟨same.trans rest, faults.trans fault⟩

/-- The signature of the pass is that of the booted image in slot k (R439). -/
def imageMatches (s : State) (k : Fin 3) : Prop := beWords (sha256 s.scb.imgBytes) = s.cfg.views[k.val].hdr.sig.toList

/-- A pass with no fault of the image open before it. -/
theorem checkImage_sigFault {k : Fin 3} (slot : bootedSlot s = some k) (none : s.scb.sigFault = none) :
    (imageMatches s k → (checkImage s).scb.sigFault = .none) ∧
    (¬imageMatches s k → (checkImage s).scb.sigFault = some s.scb.passCount) := by
  refine ⟨fun same => ?_, fun differs => ?_⟩
  · simp only [checkImage, slot, none, beq_iff_eq, if_pos (imageMatches.eq_1 s k ▸ same)]
  · simp only [checkImage, slot, none, beq_iff_eq, if_neg (imageMatches.eq_1 s k ▸ differs)]
    rfl

section
variable (free : released s = true) (busy : s.scb.passBusy = true) (next : s.scb.passNext = none) (reload : s.scb.reload = none)
include free busy next reload

theorem passEndEffect_samePass : SamePass (passEnded s) (passEndEffect s) := by
  rw [passEndEffect_ends free busy next reload]
  generalize passEnded s = u
  obtain ⟨zones, -⟩ := forEach_checkZone_keeps (allFin 8) (checkImage u)
  generalize forEach (allFin 8) (fun z s => checkZone s z) (checkImage u) = v at zones
  exact ((checkImage_samePass u).trans zones).trans ⟨rfl, rfl, rfl, rfl⟩

theorem passEndEffect_sigFault {k : Fin 3} (slot : bootedSlot s = some k) (none : s.scb.sigFault = none) :
    (imageMatches s k → (passEndEffect s).scb.sigFault = .none) ∧
    (¬imageMatches s k → (passEndEffect s).scb.sigFault = some (s.scb.passCount + 1)) := by
  obtain ⟨same, differs⟩ := checkImage_sigFault (s := passEnded s) slot none
  obtain ⟨-, zones⟩ := forEach_checkZone_keeps (allFin 8) (checkImage (passEnded s))
  have image : imageMatches (passEnded s) k = imageMatches s k := rfl
  rw [passEndEffect_ends free busy next reload]
  rw [image] at same differs
  generalize forEach (allFin 8) (fun z s => checkZone s z) (checkImage (passEnded s)) = t at zones
  exact ⟨fun h => zones.trans (same h), fun h => zones.trans (differs h)⟩

end

/-! ### VOTE_CORRECTION (R443) and SAVE (R445) -/

/-- Three equal copies vote for their value. -/
theorem scrubCfg_of_copies {v : Byte × Bool} (a : s.scb.cfgA = v) (b : s.scb.cfgB = v) (c : s.scb.cfgC = v) : scrubCfg s = v := by
  simp only [scrubCfg, a, b, c, vote3, BitVec.and_self, BitVec.or_self, Bool.and_self, Bool.or_self]

theorem voteRecord_scrubCfg (s : State) (d : Word) : scrubCfg (voteRecord s d) = scrubCfg s := by
  have scb := voteRecord_scb s d
  exact scrubCfg_congr (congrArg Scb.cfgA scb :) (congrArg Scb.cfgB scb :) (congrArg Scb.cfgC scb :)

theorem voteCorrectionEffect_leaves (what : VoteTarget) (s : State) : scrubCfg (voteCorrectionEffect what s) = scrubCfg s ∧
    (voteCorrectionEffect what s).scb.cntVote = s.scb.cntVote + 1 ∧ (voteCorrectionEffect what s).scb.flags.on 0 = true ∧
    (voteCorrectionEffect what s).qe.seq = nextSeq s.qe.seq := by
  have count (u : State) (d : Word) : (voteRecord u d).scb.cntVote = u.scb.cntVote + 1 := (congrArg Scb.cntVote (voteRecord_scb u d) :)
  have flag (u : State) (d : Word) : (voteRecord u d).scb.flags.on 0 = true :=
    (congrArg (fun b : Scb => b.flags.on 0) (voteRecord_scb u d)).trans (Flags.on_set_same _ (by decide))
  cases what with
  | register off =>
    exact ⟨(voteRecord_scrubCfg _ _).trans (scrubCfg_of_copies rfl rfl rfl), count _ _, flag _ _, voteRecord_seq _ _⟩
  | sequencing => exact ⟨voteRecord_scrubCfg _ _, count _ _, flag _ _, voteRecord_seq _ _⟩

theorem saveEffect_scrapped (h : scrapped s = true) : saveEffect s = s := if_pos h

theorem saveEffect_starts (h : scrapped s = false) (idle : s.scb.saving = none) :
    saveEffect s = s.modScb fun b => { b with saving := some (b.stageInterval, b.stageReconf) } :=
  (if_neg (by simp [h])).trans (if_neg (by simp [idle]))

theorem saveEffect_waits (h : scrapped s = false) (busy : s.scb.saving ≠ none) : saveEffect s = noteRetry .save s :=
  (if_neg (by simp [h])).trans (if_pos (Option.isSome_iff_ne_none.2 busy))

theorem saveDoneEffect_idle (h : s.scb.saving = none) : saveDoneEffect s = s := by
  simp only [saveDoneEffect, h]

/-- The header takes the settings that a SAVE wrote; o is the SAVE that runs then. -/
def saved (s : State) (v : Byte × Bool) (o : Option (Byte × Bool)) : State :=
  { s with
    moment := { s.moment with header := some (s.cfg.scrubCopyA, s.cfg.scrubCopyB) }
    scb := { s.scb with flags := s.scb.flags.set 5, saving := o }
    cfg := { s.cfg with scrubCopyA := some v, scrubCopyB := some v } }

theorem saveDoneEffect_eq {v : Byte × Bool} (h : s.scb.saving = some v) :
    saveDoneEffect s = if s.moment.retry.contains .save = true then saveEffect (saved s v none) else saved s v none := by
  simp only [saveDoneEffect, h]
  rfl

theorem saveDoneEffect_saves {v : Byte × Bool} (h : s.scb.saving = some v) : saveDoneEffect s = saved s v
    (if s.moment.retry.contains .save = true ∧ scrapped s = false then some (s.scb.stageInterval, s.scb.stageReconf) else none) := by
  rw [saveDoneEffect_eq h]
  by_cases again : s.moment.retry.contains .save = true
  · rw [if_pos again]
    cases scrap : scrapped s with
    | true => exact (saveEffect_scrapped (s := saved s v none) scrap).trans (congrArg _ (if_neg (by simp)).symm)
    | false => exact (saveEffect_starts (s := saved s v none) scrap rfl).trans (congrArg (saved s v) (if_pos ⟨again, rfl⟩).symm)
  · exact (if_neg again).trans (congrArg _ (if_neg fun h => again h.1).symm)

end Sys2Proof.Machine
end

section
/-! The clauses of O52 about a visit and a reload put together, and the theorem that settles it. -/

namespace Sys2Proof.Machine

variable {s : State} {f : Word} {z : Fin 8} {flips : List Nat} {i : Nat}

/-- The visit of a frame is done and the scrubber is b'. -/
def visitTo (s : State) (b : Scb) : State := { s with moment := { s.moment with scrub := none }, scb := b }

/-- The state in which a visit is made that stood at its tick's end (R448). -/
def visiting (s : State) : State := s.modMoment fun m => { m with scrub := none }

section
variable (pass : PassFree s) (next : s.scb.passNext = some f) (now : zoneOf s (faColumn f) = none ∨ s.moment.late = true)
include pass next now

/-- The visit with no upset since the last one. -/
theorem frameScrub_visit : frameScrubEffect [] s =
    scrubFrameOf (visiting s) f (latchFrame s f) :=
  (frameScrubEffect_visits pass next now []).trans (scrubFrame_quiet _ f)

theorem frameScrub_skips (h : visited s f = false) : frameScrubEffect [] s =
    visitTo s { s.scb with cntSkipped := s.scb.cntSkipped + 1, passNext := nextConfigFrame f, reload := none } := by
  rw [frameScrub_visit pass next now, scrubFrameOf_skips (s := visiting s) h]
  rfl

theorem frameScrub_reloadPass (reload : s.scb.reloadPass = true) (zone : zoneOf s (faColumn f) = none) :
    frameScrubEffect [] s = visitTo s { s.scb with reload := some ⟨f, 0⟩ } := by
  rw [frameScrub_visit pass next now, scrubFrameOf_reloads (s := visiting s) zone reload]
  rfl

section
variable (seen : visited s f = true) (goes : s.scb.reloadPass = false ∨ zoneOf s (faColumn f) ≠ none)
include seen goes

section
variable (whole : frameOk (latchFrame s f) = true)
include whole

theorem frameScrub_whole : frameScrubEffect [] s = passAdvance (passUpdate (visiting s) f) f :=
  (frameScrub_visit pass next now).trans (scrubFrameOf_whole (s := visiting s) seen goes whole)

theorem frameScrub_static (zone : zoneOf s (faColumn f) = none) : frameScrubEffect [] s = visitTo s { s.scb with
    imgBytes := s.scb.imgBytes ++ cfgFrameBytes (latchFrame s f), passNext := nextConfigFrame f, reload := none } := by
  rw [frameScrub_whole pass next now seen goes whole, passUpdate_static (s := visiting s) zone]
  rfl

theorem frameScrub_boot (zone : zoneOf s (faColumn f) = some z) (st : s.scb.zones[z.val].st = .boot) :
    frameScrubEffect [] s = visitTo s { s.scb with passNext := nextConfigFrame f, reload := none } := by
  rw [frameScrub_whole pass next now seen goes whole,
    passUpdate_boot (s := visiting s) zone (fun h => by cases st.symm.trans h)]
  rfl

theorem frameScrub_loaded (zone : zoneOf s (faColumn f) = some z) (st : s.scb.zones[z.val].st = .loaded) :
    frameScrubEffect [] s = visitTo s { s.scb with
      zoneBytes := s.scb.zoneBytes ++ [(z, cfgFrameBytes (latchFrame s f))], passNext := nextConfigFrame f, reload := none } := by
  rw [frameScrub_whole pass next now seen goes whole, passUpdate_loaded (s := visiting s) zone st]
  rfl

end

theorem frameScrub_corrects (bad : frameOk (flips.foldl flipBit (latchFrame s f)) = false)
    (bit : singleBit (flips.foldl flipBit (latchFrame s f)) = some i) :
    Corrects s f (flips.foldl flipBit (latchFrame s f)) i (frameScrubEffect flips s) := by
  rw [frameScrubEffect_visits pass next now flips]
  exact (scrubFrame_corrects (s := visiting s) seen goes bad bit).congr rfl rfl

section
variable (bad : frameOk (latchFrame s f) = false) (bit : singleBit (latchFrame s f) = none)
include bad bit

theorem frameScrub_repairs : frameScrubEffect [] s = scrubRepair (visiting s) f :=
  (frameScrub_visit pass next now).trans (scrubFrameOf_repairs (s := visiting s) seen goes bad bit)

theorem frameScrub_reloads
    (h : zoneOf s (faColumn f) = none ∨ (zoneOf s (faColumn f) = some z ∧ s.scb.zones[z.val].st = .boot)) :
    frameScrubEffect [] s = visitTo s { s.scb with reload := some ⟨f, 0⟩ } :=
  (frameScrub_repairs pass next now seen goes bad bit).trans (scrubRepair_reloads (s := visiting s) (h.imp_right fun h => ⟨z, h⟩))

theorem frameScrub_damages (zone : zoneOf s (faColumn f) = some z) (st : s.scb.zones[z.val].st = .loaded) :
    Only [.moment, .scb, .qe, .dm] s (frameScrubEffect [] s) ∧ (frameScrubEffect [] s).scb.zones[z.val].st = .damaged ∧
      (frameScrubEffect [] s).scb.flags.on 3 = true ∧ (frameScrubEffect [] s).scb.passNext = nextConfigFrame f ∧
      (frameScrubEffect [] s).qe.seq = nextSeq s.qe.seq := by
  rw [frameScrub_repairs pass next now seen goes bad bit,
    scrubRepair_damages (s := visiting s) zone st]
  have damages := zoneDamaged_damages (visiting s) z f
  have moves := (Moves.refl [.moment, .scb, .qe, .dm] s).modMoment (by decide) fun m => { m with scrub := none }
  exact ⟨(passAdvance_moves _ f (zoneDamaged_moves _ z f moves (by decide)) (by decide)).only, damages.st, damages.damaged, rfl,
    zoneDamaged_seq _ z f⟩

end

end

end

/-- Settles O52: a visit by what the frame's zone and its check word say, a reload by its attempts, and a pass's end by its signatures. -/
theorem frameScrubber : Obligations.FrameScrubber := by
  unfold Obligations.FrameScrubber
  intro s flips ok what j clocked b becomes hd started recorded due
  have answer {p : State → State} {t : State} (h : p s = t) : onSys s p = .next t := (onSys_clocked clocked p).trans (congrArg _ h)
  refine ⟨fun h => answer (passStartEffect_idle h), fun free idle interval => ⟨fun h => answer (passStartEffect_agrees free idle interval h),
    fun h => ?_⟩, ⟨fun h => answer (frameScrubEffect_idle (h.imp_right id) flips), fun f pass next => ?_⟩,
    fun none h => answer (reloadAttemptEffect_idle none h ok), fun r reload => ?_, fun f none st others from_ bad few => ?_,
    fun h => answer (passEndEffect_idle h), fun free busy next reload => ?_, ?_, fun h => answer (saveEffect_scrapped h),
    fun h idle => answer (saveEffect_starts h idle), fun h busy => answer (saveEffect_waits h busy),
    fun h => answer (saveDoneEffect_idle h), fun v h => answer (saveDoneEffect_saves h)⟩
  · have e := passStartEffect_differs free idle interval h
    exact ⟨_, answer rfl, (passStartEffect_moves s (Moves.refl _ s) (by decide)).only, e ▸ voteRecord_scb _ 0, e ▸ voteRecord_seq _ 0⟩
  · refine ⟨fun zone early => ⟨fun first => ?_, fun again => ?_⟩, fun now => ⟨fun h => answer (frameScrub_skips pass next now h),
      fun reload zone => answer (frameScrub_reloadPass pass next now reload zone), fun ⟨seen, goes⟩ whole => ⟨?_, ?_, ?_⟩,
      fun i ⟨seen, goes⟩ bad bit => ?_, fun ⟨seen, goes⟩ bad bit => ⟨fun zone => ?_, fun zone st => ?_⟩⟩⟩
    · exact answer ((frameScrubEffect_stands pass next zone early flips).trans (if_neg (by simp [first])))
    · exact answer ((frameScrubEffect_stands pass next zone early flips).trans (if_pos (Option.isSome_iff_ne_none.2 again)))
    · exact fun zone => answer (frameScrub_static pass next now seen goes whole zone)
    · exact fun zone st => answer (frameScrub_boot pass next now seen goes whole zone st)
    · exact fun zone st => answer (frameScrub_loaded pass next now seen goes whole zone st)
    · have h := frameScrub_corrects pass next now seen goes bad bit
      exact ⟨_, answer rfl, (frameScrubEffect_moves flips s (Moves.refl _ s) (by decide)).only, h.latch, h.count, h.last, h.next,
        h.fault, h.seq⟩
    · exact answer (frameScrub_reloads pass next now seen goes bad bit zone)
    · exact ⟨_, answer rfl, frameScrub_damages pass next now seen goes bad bit zone st⟩
  · have e := reloadAttemptEffect_pass reload ok
    refine ⟨fun ⟨good, whole⟩ => ?_, fun no few => ?_, fun no many => ?_⟩
    · rw [if_pos (Bool.and_eq_true_iff.2 ⟨good, whole⟩)] at e
      exact ⟨_, answer e, reloadVerified_leaves s r⟩
    · rw [if_neg (mt Bool.and_eq_true_iff.1 no), if_neg (not_le.2 few)] at e
      exact answer e
    · rw [if_neg (mt Bool.and_eq_true_iff.1 no), if_pos many] at e
      obtain ⟨done, goesOn⟩ := reloadLost_ends s r
      exact ⟨_, answer e, (reloadLost_moves s r (Moves.refl _ s) (by decide)).only, done, goesOn, reloadLost_reconf,
        reloadLost_damages⟩
  · exact answer ((reloadAttemptEffect_zone none st others ok).trans (restoreAttempt_again from_ bad few))
  · have same := passEndEffect_samePass free busy next reload
    exact ⟨_, answer rfl, (passEndEffect_moves s (Moves.refl _ s) (by decide)).only, same.busy, same.count, same.time, same.last,
      fun k slot none => passEndEffect_sigFault free busy next reload slot none⟩
  · exact ⟨_, answer rfl, (voteCorrectionEffect_moves what s (Moves.refl _ s) (by decide)).only, voteCorrectionEffect_leaves what s⟩

end Sys2Proof.Machine
end

section
/-! Ports of the herd link: one rule for each operation on a port, what a message leaves of the block, and training (R340, R355, R356). -/

namespace Sys2Proof.Machine

variable {s t : State} {p : Fin 2} {slot : HlSlot} {f : HlErr} {ta : BitVec 16} {l : Nat}

/-! ### One port -/

/-- The state in which port p of the herd link has become q. -/
def withPort (s : State) (p : Fin 2) (q : HlPort) : State := { s with hl := { s.hl with ports := upd s.hl.ports p fun _ => q } }

theorem modPort_eq (s : State) (p : Fin 2) (f : HlPort → HlPort) : s.modPort p f = withPort s p (f (getPort s p)) := rfl

theorem getPort_withPort (s : State) (p : Fin 2) (q : HlPort) : getPort (withPort s p q) p = q := upd_same _ _ _

theorem withPort_withPort (s : State) (p : Fin 2) (q q' : HlPort) : withPort (withPort s p q) p q' = withPort s p q' := by
  simp only [withPort, upd_upd]

theorem hlOn_iff : hlOn s = true ↔ s.sys.hlLock = true ∧ pinsLive s = true := Bool.and_eq_true_iff

theorem recordFault_hl (s : State) (r : FaultRec) : (recordFault s r).hl = s.hl := recordFault_only s r .hl (by decide)

/-! ### Good messages (R340, R355, R356) -/

theorem goodMessage_train (h : (getPort s p).st = .train) :
    goodMessage s p = withPort s p { getPort s p with goodRun := (getPort s p).goodRun + 1 } := by
  simp only [goodMessage, h, modPort_eq]

theorem goodMessage_other (train : (getPort s p).st ≠ .train) (up : (getPort s p).st ≠ .up) : goodMessage s p = s := by
  unfold goodMessage
  dsimp only
  split
  · next h => exact absurd h train
  · next h => exact absurd h up
  · rfl

/-- A port whose error counter stands at 0 counts no good messages. -/
theorem goodMessage_zero (up : (getPort s p).st = .up) (zero : (getPort s p).err = 0) : goodMessage s p = s := by
  simp only [goodMessage, up, if_pos zero]

section
variable (up : (getPort s p).st = .up)
include up

theorem goodMessage_counts (err : 0 < (getPort s p).err) (few : (getPort s p).good + 1 < 256) :
    goodMessage s p = withPort s p { getPort s p with good := (getPort s p).good + 1 } := by
  simp only [goodMessage, up, if_neg (Nat.ne_of_gt err), if_pos few, modPort_eq]

/-- Every 256th good message takes 1 from the error counter. -/
theorem goodMessage_takes (err : 0 < (getPort s p).err) (full : 256 ≤ (getPort s p).good + 1)
    (stays : (getPort s p).fault = none ∨ (getPort s p).err ≠ 1) :
    goodMessage s p = withPort s p { getPort s p with good := 0, err := (getPort s p).err - 1 } := by
  simp only [goodMessage, up, if_neg (Nat.ne_of_gt err), if_neg (not_lt.2 full), modPort_eq]
  split
  · next f fault => exact if_neg (stays.resolve_left (by rw [fault]; exact Option.some_ne_none f))
  · rfl

/-- The record of a port's fault. -/
def portRecord (p : Fin 2) (perm retired : Bool) (f : HlErr) : FaultRec :=
  { perm := perm, blk := blkHl, kind := 1, inst := p.val, retired := retired, d0 := BitVec.ofNat 32 f.high, d1 := BitVec.ofNat 32 f.bad }

/-- At 0 an open fault closes with its record. -/
theorem goodMessage_closes (one : (getPort s p).err = 1) (full : 256 ≤ (getPort s p).good + 1) (fault : (getPort s p).fault = some f) :
    goodMessage s p =
      ((recordFault (withPort s p { getPort s p with good := 0, err := 0 }) (portRecord p false false f)).modPort p fun q =>
        { q with fault := none, faultSeq := s.qe.seq }).modHl fun l => { l with flags := l.flags.set 7 } := by
  simp only [goodMessage, up, one, if_neg Nat.one_ne_zero, if_neg (not_lt.2 full), fault, if_true, modPort_eq, Nat.sub_self]
  rfl

theorem goodMessage_closes_hl (one : (getPort s p).err = 1) (full : 256 ≤ (getPort s p).good + 1)
    (fault : (getPort s p).fault = some f) : (goodMessage s p).hl = { s.hl with
      flags := s.hl.flags.set 7
      ports := upd s.hl.ports p fun _ => { getPort s p with good := 0, err := 0, fault := none, faultSeq := s.qe.seq } } := by
  have hl := recordFault_hl (withPort s p { getPort s p with good := 0, err := 0 }) (portRecord p false false f)
  rw [goodMessage_closes up one full fault, State.modHl, State.modPort, State.modHl, hl]
  simp only [withPort, upd_upd]

end

/-! ### Bad messages (R339, R355 to R357) -/

theorem slotBad_missing (s : State) (p : Fin 2) : slotBad s p .missing = decide ((getPort s p).st = .up) :=
  Bool.eq_iff_iff.2 (beq_iff_eq.trans decide_eq_true_iff.symm)

theorem slotBad_groups_iff (s : State) (p : Fin 2) (g : List (BitVec 10)) :
    slotBad s p (.groups g) = true ↔ hlOn s = true ∧ ∀ m, slotMessage g = some m → messageGood m = false := by
  simp only [slotBad, Bool.and_eq_true, Bool.not_eq_true']
  cases slotMessage g <;> simp

theorem messageGood_iff (m : List Byte) : messageGood m = true ↔ (crc16 (m.take 14)).toNat = ofBe (m.drop 14) ∧
    fld (byteAt m 0) 7 4 ∈ [0, 1, 2, 3, 4, 5, 8, 9, 10, 11] ∧ fld (byteAt m 0) 1 0 = 0 ∧ fld (byteAt m 1) 1 0 = 0 ∧
    (fld (byteAt m 0) 7 4 = 4 → fld (byteAt m 12) 7 4 = 0) := by
  simp only [messageGood, reservedZero, hlTypes, Bool.and_eq_true, Bool.or_eq_true, beq_iff_eq, bne_iff_ne, and_assoc, imp_iff_not_or]
  exact and_congr_right fun _ => and_congr_left fun _ => decide_eq_true_iff

theorem badMessageEffect_good (h : slotBad s p slot = false) : badMessageEffect p slot s = s := if_neg (by simp [h])

theorem badMessageEffect_bad (h : slotBad s p slot = true) : badMessageEffect p slot s = badMessage s p := if_pos h

theorem badMessage_train (h : (getPort s p).st = .train) :
    badMessage s p = withPort s p { getPort s p with cntBad := (getPort s p).cntBad + 1, goodRun := 0 } := by
  simp only [badMessage, h, modPort_eq]

theorem badMessage_other (train : (getPort s p).st ≠ .train) (up : (getPort s p).st ≠ .up) : badMessage s p = s := by
  unfold badMessage
  dsimp only
  split
  · next h => exact absurd h train
  · next h => exact absurd h up
  · rfl

/-- An UP port after a bad message: 8 more on the error counter, which stops at 255. -/
def portBad (q : HlPort) (fault : Option HlErr) : HlPort :=
  { q with cntBad := q.cntBad + 1, err := min (q.err + 8) 255, fault := fault }

section
variable (up : (getPort s p).st = .up)
include up

/-- The LINK fault opens at 96. -/
theorem badMessage_closed (none : (getPort s p).fault = none) : badMessage s p =
    if 96 ≤ min ((getPort s p).err + 8) 255 then
      let g : HlErr := { high := min ((getPort s p).err + 8) 255, bad := 1 }
      let s' := (withPort s p (portBad (getPort s p) (some g))).modHl fun l => { l with flags := l.flags.set 0 }
      if min ((getPort s p).err + 8) 255 = 255 then portFail s' p g else s'
    else withPort s p (portBad (getPort s p) .none) := by
  simp only [badMessage, up, none]
  by_cases opens : 96 ≤ min ((getPort s p).err + 8) 255
  · simp only [if_pos opens]; rfl
  · simp only [if_neg opens]; rfl

theorem badMessage_open (fault : (getPort s p).fault = some f) : badMessage s p =
    let g : HlErr := { high := max f.high (min ((getPort s p).err + 8) 255), bad := f.bad + 1 }
    if min ((getPort s p).err + 8) 255 = 255 then portFail (withPort s p (portBad (getPort s p) (some g))) p g
    else withPort s p (portBad (getPort s p) (some g)) := by
  simp only [badMessage, up, fault]
  rfl

theorem badMessage_below (none : (getPort s p).fault = none) (low : (getPort s p).err + 8 < 96) :
    badMessage s p = withPort s p (portBad (getPort s p) .none) :=
  (badMessage_closed up none).trans (if_neg (by omega))

theorem badMessage_opens (none : (getPort s p).fault = none) (high : 96 ≤ (getPort s p).err + 8) (room : (getPort s p).err + 8 < 255) :
    badMessage s p = (withPort s p (portBad (getPort s p) (some ⟨(getPort s p).err + 8, 1⟩))).modHl fun l =>
      { l with flags := l.flags.set 0 } := by
  have eight : min ((getPort s p).err + 8) 255 = (getPort s p).err + 8 := Nat.min_eq_left (Nat.le_of_lt room)
  rw [badMessage_closed up none, eight, if_pos high, if_neg (Nat.ne_of_lt room)]

theorem badMessage_goesOn (fault : (getPort s p).fault = some f) (room : (getPort s p).err + 8 < 255) :
    badMessage s p = withPort s p (portBad (getPort s p) (some ⟨max f.high ((getPort s p).err + 8), f.bad + 1⟩)) := by
  have eight : min ((getPort s p).err + 8) 255 = (getPort s p).err + 8 := Nat.min_eq_left (Nat.le_of_lt room)
  rw [badMessage_open up fault, eight]
  exact if_neg (Nat.ne_of_lt room)

theorem badMessage_fails (fault : (getPort s p).fault = some f) (full : 255 ≤ (getPort s p).err + 8) :
    badMessage s p = portFail (withPort s p (portBad (getPort s p) (some ⟨max f.high 255, f.bad + 1⟩))) p ⟨max f.high 255, f.bad + 1⟩ := by
  have top : min ((getPort s p).err + 8) 255 = 255 := Nat.min_eq_right full
  rw [badMessage_open up fault, top]
  exact if_pos rfl

end

/-! ### The failure of a port (R356, R357) -/

/-- A class-0 message as it is originated: it waits for its first slot, with three copies for each port (R344). -/
def newOut (s : State) (ev : HerdEvent) (h : Fin 4) (delta reason : Nat) (seq : Word) : HlOut :=
  { ev := ev, herd := h, delta := delta, reason := BitVec.ofNat 8 reason, seq := seq, serial := s.hl.serial, since := s.clock, tEff := none,
    left := Vector.replicate 2 3 }

theorem originate_eq (s : State) (ev : HerdEvent) (h : Fin 4) (delta reason : Nat) (seq : Word) : originate s ev h delta reason seq =
    { s with hl := { s.hl with serial := s.hl.serial + 1, out0 := s.hl.out0 ++ [newOut s ev h delta reason seq] } } := rfl

/-- The RETIREs that a list of herds originates for one record. -/
structure RetiresHerds (s t : State) (l : List (Fin 4)) (seq : Word) (more : List HlOut) : Prop where
  hl : ∃ n, t.hl = { s.hl with serial := n, out0 := s.hl.out0 ++ more }
  herds : more.map (·.herd) = l
  each : ∀ o ∈ more, o.ev = .retire ∧ o.delta = 448 ∧ o.seq = seq

theorem forEach_originate_retires (l : List (Fin 4)) (s : State) (seq : Word) :
    ∃ more, RetiresHerds s (forEach l (fun h s => originate s .retire h 448 blkHl seq) s) l seq more := by
  induction l generalizing s with
  | nil => exact ⟨[], ⟨s.hl.serial, by rw [List.append_nil]; rfl⟩, rfl, fun _ h => absurd h List.not_mem_nil⟩
  | cons h l ih =>
    obtain ⟨more, ⟨n, hl⟩, herds, each⟩ := ih (originate s .retire h 448 blkHl seq)
    refine ⟨newOut s .retire h 448 blkHl seq :: more, ⟨n, hl.trans ?_⟩, congrArg (h :: ·) herds, ?_⟩
    · rw [originate_eq, List.append_assoc, List.singleton_append]
    · rintro o (_ | ⟨_, k⟩)
      · exact ⟨rfl, rfl, rfl⟩
      · exact each o k

/-- What the failure of port p leaves of the block. -/
theorem portFail_leaves (s : State) (p : Fin 2) (f : HlErr) : ∃ n more, (portFail s p f).hl = { s.hl with
      flags := (s.hl.flags.set 1).set 7
      ports := upd s.hl.ports p fun q =>
        { q with st := .failed, fault := none, faultSeq := s.qe.seq, timeDue := false, readyDue := 0 }
      serial := n, out0 := s.hl.out0 ++ more } ∧
    more.map (·.herd) = herdsAcross s p ∧ ∀ o ∈ more, o.ev = .retire ∧ o.delta = 448 ∧ o.seq = s.qe.seq := by
  generalize record : portRecord p true (!(herdsAcross s p).isEmpty) f = r
  obtain ⟨more, ⟨n, hl⟩, herds, each⟩ := forEach_originate_retires (herdsAcross s p)
    (((recordFault s r).modPort p fun q =>
      { q with st := .failed, fault := none, faultSeq := s.qe.seq, timeDue := false, readyDue := 0 }).modHl fun l =>
      { l with flags := (l.flags.set 1).set 7 }) s.qe.seq
  subst record
  refine ⟨n, more, hl.trans ?_, herds, each⟩
  simp only [State.modHl, State.modPort, recordFault_hl]

theorem portFail_counts (s : State) (p : Fin 2) (f : HlErr) : (portFail s p f).hl.goodTimes = s.hl.goodTimes ∧
    (getPort (portFail s p f) p).cntBad = (getPort s p).cntBad := by
  obtain ⟨n, more, hl, -⟩ := portFail_leaves s p f
  exact ⟨by rw [hl], by rw [getPort, hl, upd_same]; rfl⟩

/-- A bad message on an UP port is counted, whatever it does to the port. -/
theorem badMessage_counts (up : (getPort s p).st = .up) : (badMessage s p).hl.goodTimes = s.hl.goodTimes ∧
    (getPort (badMessage s p) p).cntBad = (getPort s p).cntBad + 1 := by
  have count (o : Option HlErr) : (getPort (withPort s p (portBad (getPort s p) o)) p).cntBad = (getPort s p).cntBad + 1 := by
    rw [getPort_withPort]; rfl
  cases fault : (getPort s p).fault with
  | none =>
    rw [badMessage_closed up fault]
    dsimp only
    split
    · split
      · obtain ⟨times, same⟩ := portFail_counts ((withPort s p (portBad (getPort s p)
          (some ⟨min ((getPort s p).err + 8) 255, 1⟩))).modHl fun l => { l with flags := l.flags.set 0 }) p
          ⟨min ((getPort s p).err + 8) 255, 1⟩
        exact ⟨times, same.trans (count _)⟩
      · exact ⟨rfl, count _⟩
    · exact ⟨rfl, count _⟩
  | some f =>
    rw [badMessage_open up fault]
    dsimp only
    split
    · obtain ⟨times, same⟩ := portFail_counts (withPort s p (portBad (getPort s p)
        (some ⟨max f.high (min ((getPort s p).err + 8) 255), f.bad + 1⟩))) p ⟨max f.high (min ((getPort s p).err + 8) 255), f.bad + 1⟩
      exact ⟨times, same.trans (count _)⟩
    · exact ⟨rfl, count _⟩

end Sys2Proof.Machine
end

section
/-! Training, PROBE and ECHO, and TIME messages (R340, R345), and the theorem that settles O47. -/

namespace Sys2Proof.Machine

variable {s t : State} {p : Fin 2} {ta : BitVec 16} {l : Nat} {head : HlHead} {value r : Tick}

/-! ### Training (R340) -/

theorem trainStartEffect_starts (en : portEn s p = true) (down : (getPort s p).st = .down) (on : hlOn s = true) :
    trainStartEffect p s = withPort s p (portTrain (getPort s p)) :=
  if_pos (by simp [en, down, on])

theorem trainStartEffect_idle (h : ¬portEn s p = true ∨ (getPort s p).st ≠ .down ∨ ¬hlOn s = true) : trainStartEffect p s = s := by
  refine if_neg ?_
  simp only [Bool.and_eq_true, beq_iff_eq]
  rintro ⟨⟨en, down⟩, on⟩
  exact h.elim (· en) fun h => h.elim (· down) (· on)

theorem portReviveEffect_trains (h : (getPort s p).st = .failed ∨ (getPort s p).st = .long) :
    portReviveEffect p s = withPort s p (portTrain (portFresh (getPort s p))) := if_pos h

section
variable (failed : (getPort s p).st ≠ .failed) (long : (getPort s p).st ≠ .long)
include failed long

theorem portReviveEffect_forgets (disabled : (getPort s p).st = .disabled) (kept : (getPort s p).kept ≠ .down) :
    portReviveEffect p s = withPort s p { portFresh (getPort s p) with kept := .down } :=
  (if_neg (not_or.2 ⟨failed, long⟩)).trans (if_pos ⟨disabled, kept⟩)

theorem portReviveEffect_idle (h : (getPort s p).st ≠ .disabled ∨ (getPort s p).kept = .down) : portReviveEffect p s = s :=
  (if_neg (not_or.2 ⟨failed, long⟩)).trans (if_neg fun ⟨disabled, kept⟩ => h.elim (· disabled) kept)

end

theorem measuredL_none {trips : List (Nat × Nat)} (h : trips.length < 16) : measuredL trips = none := by
  cases trips with
  | nil => rfl
  | cons x r => exact if_pos h

theorem measuredL_some {trips : List (Nat × Nat)} (h : 16 ≤ trips.length) : ∃ l, measuredL trips = some l := by
  cases trips with
  | nil => exact absurd h (by decide)
  | cons x r => exact ⟨_, if_neg (not_lt.2 h)⟩

theorem trainCompleteEffect_idle (h : (getPort s p).st ≠ .train) : trainCompleteEffect p s = s := if_neg h

theorem trainCompleteEffect_unmeasured (st : (getPort s p).st = .train) (h : measuredL (getPort s p).trips = none) :
    trainCompleteEffect p s = s := by
  simp only [trainCompleteEffect, if_pos st, h]

theorem trainCompleteEffect_measured (st : (getPort s p).st = .train) (h : measuredL (getPort s p).trips = some l) :
    trainCompleteEffect p s =
      if 24 < l then withPort s p { getPort s p with st := .long }
      else if 16 ≤ (getPort s p).goodRun then withPort s p { getPort s p with st := .up } else s := by
  simp only [trainCompleteEffect, if_pos st, h, modPort_eq]

/-! ### PROBE and ECHO (R340) -/

theorem idleMessageEffect_off (h : ¬hlOn s = true) (p : Fin 2) : idleMessageEffect p s = s := if_neg h
theorem idleMessageEffect_on (h : hlOn s = true) (p : Fin 2) : idleMessageEffect p s = goodMessage s p := if_pos h
theorem probeEffect_off (h : ¬hlOn s = true) (p : Fin 2) : probeEffect p s = s := if_pos (by simp [h])
theorem echoEffect_off (h : ¬hlOn s = true) (p : Fin 2) (ta : BitVec 16) : echoEffect p ta s = s := if_pos (by simp [h])

theorem probeEffect_noted (on : hlOn s = true)
    (st : (getPort s p).st = .train ∨ (getPort s p).st = .up ∨ (getPort s p).st = .long) : probeEffect p s =
      (goodMessage s p).modPort p fun q => { q with echoes := q.echoes ++ [(goodMessage s p).clock] } :=
  (if_neg (by simp [on])).trans (if_pos st)

theorem probeEffect_counts (on : hlOn s = true)
    (st : ¬((getPort s p).st = .train ∨ (getPort s p).st = .up ∨ (getPort s p).st = .long)) : probeEffect p s = goodMessage s p :=
  (if_neg (by simp [on])).trans (if_neg st)

theorem echoEffect_unasked (on : hlOn s = true) (h : (getPort s p).probeAt = []) (ta : BitVec 16) :
    echoEffect p ta s = goodMessage s p := by
  simp only [echoEffect, on, h, Bool.not_true, Bool.false_eq_true, if_false]

/-- The round trip of the oldest PROBE, which left at sent. -/
def echoTrip (s : State) (p : Fin 2) (ta : BitVec 16) (sent : Nat) (rest : List Nat) : State :=
  s.modPort p fun q => { q with probeAt := rest, trips := q.trips ++ [(s.clock - sent, ta.toNat)] }

/-- L as the round trips of a port give it. -/
def echoMeasure (s : State) (p : Fin 2) : State :=
  match measuredL (getPort s p).trips with
  | some l => (s.modPort p fun q => { q with l := showL s l }).freeStep
  | none => s

theorem echoMeasure_none (h : measuredL (getPort s p).trips = none) : echoMeasure s p = s := by
  simp only [echoMeasure, h]

theorem echoMeasure_some (h : measuredL (getPort s p).trips = some l) :
    echoMeasure s p = (withPort s p { getPort s p with l := showL s l }).freeStep := by
  simp only [echoMeasure, h, modPort_eq]

section
variable {sent : Nat} {rest : List Nat} (on : hlOn s = true) (h : (getPort s p).probeAt = sent :: rest)
include on h

theorem echoEffect_asked (ta : BitVec 16) : echoEffect p ta s = echoMeasure (echoTrip (goodMessage s p) p ta sent rest) p := by
  simp only [echoEffect, on, h, Bool.not_true, Bool.false_eq_true, if_false]
  rfl

variable (train : (getPort s p).st = .train)
include train

/-- The port in TRAIN after an ECHO: one more good message, and one round trip more. -/
def portEchoed (s : State) (p : Fin 2) (ta : BitVec 16) (sent : Nat) (rest : List Nat) : HlPort :=
  { getPort s p with
    goodRun := (getPort s p).goodRun + 1, probeAt := rest, trips := (getPort s p).trips ++ [(s.clock - sent, ta.toNat)] }

theorem echoEffect_train (ta : BitVec 16) : echoEffect p ta s = echoMeasure (withPort s p (portEchoed s p ta sent rest)) p := by
  rw [echoEffect_asked on h, echoTrip, goodMessage_train train, modPort_eq, getPort_withPort, withPort_withPort]
  rfl

theorem echoEffect_early (few : (getPort s p).trips.length < 15) (ta : BitVec 16) :
    echoEffect p ta s = withPort s p (portEchoed s p ta sent rest) := by
  rw [echoEffect_train on h train]
  refine echoMeasure_none (measuredL_none ?_)
  rw [getPort_withPort, portEchoed, List.length_append, List.length_singleton]
  omega

/-- The 16th round trip gives L. -/
theorem echoEffect_measures (many : 15 ≤ (getPort s p).trips.length) (ta : BitVec 16) :
    ∃ l, measuredL ((getPort s p).trips ++ [(s.clock - sent, ta.toNat)]) = some l ∧
      echoEffect p ta s = (withPort s p { portEchoed s p ta sent rest with
        l := showL (withPort s p (portEchoed s p ta sent rest)) l }).freeStep := by
  obtain ⟨l, measured⟩ : ∃ l, measuredL ((getPort s p).trips ++ [(s.clock - sent, ta.toNat)]) = some l :=
    measuredL_some (by rw [List.length_append, List.length_singleton]; omega)
  refine ⟨l, measured, ?_⟩
  rw [echoEffect_train on h train, echoMeasure_some (l := l) (by rw [getPort_withPort]; exact measured), getPort_withPort, withPort_withPort]

end

/-! ### TIME (R345) -/

theorem anyUp_iff : anyUp s = true ↔ ∃ k : Fin 2, (getPort s k).st = .up := by
  simp only [anyUp, portUp, Bool.or_eq_true, beq_iff_eq]
  exact ⟨fun h => h.elim (⟨0, ·⟩) (⟨1, ·⟩), fun ⟨k, h⟩ => by
    match k with
    | 0 => exact .inl h
    | 1 => exact .inr h⟩

/-- A TIME is due: none was sent in the last 128 slots. -/
def timeIsDue (s : State) : Bool := match s.hl.timeSentAt with | none => true | some t => decide (t + 4096 ≤ s.clock)

theorem timeIsDue_iff : timeIsDue s = true ↔
    s.hl.timeSentAt = none ∨ ∃ at_, s.hl.timeSentAt = some at_ ∧ at_ + 4096 ≤ s.clock := by
  unfold timeIsDue
  split
  · next e => simp [e]
  · next at_ e => simp [e]

theorem timeOriginateEffect_eq (s : State) : timeOriginateEffect s =
    if (isTimeLead s && timeIsDue s && anyUp s) = true then
      (markUp s fun q => { q with timeDue := true }).modHl fun l => { l with timeSentAt := some s.clock }
    else s := rfl

theorem timeOriginateEffect_idle (h : isTimeLead s = false ∨ ¬anyUp s = true ∨ ¬timeIsDue s = true) : timeOriginateEffect s = s := by
  refine (timeOriginateEffect_eq s).trans (if_neg ?_)
  simp only [Bool.and_eq_true]
  rintro ⟨⟨lead, due⟩, up⟩
  exact h.elim (fun not => Bool.false_ne_true (not.symm.trans lead)) fun h => h.elim (· up) (· due)

theorem timeOriginateEffect_due (lead : isTimeLead s = true) (up : anyUp s = true) (due : timeIsDue s = true) : timeOriginateEffect s =
    (markUp s fun q => { q with timeDue := true }).modHl fun l => { l with timeSentAt := some s.clock } :=
  (timeOriginateEffect_eq s).trans (if_pos (by simp only [lead, up, due]; rfl))

/-! ### What a message leaves of the block -/

/-- A message moves the ports and the flags of the block. -/
def MessageLeaves (s t : State) : Prop := ∃ ports flags, t.hl = { s.hl with ports := ports, flags := flags }

theorem MessageLeaves.refl (s : State) : MessageLeaves s s := ⟨_, _, rfl⟩

theorem MessageLeaves.trans {u : State} (h : MessageLeaves s t) (k : MessageLeaves t u) : MessageLeaves s u := by
  obtain ⟨_, _, e⟩ := h
  obtain ⟨ports, flags, e'⟩ := k
  exact ⟨ports, flags, by rw [e', e]⟩

theorem withPort_leaves (s : State) (p : Fin 2) (q : HlPort) : MessageLeaves s (withPort s p q) := ⟨_, _, rfl⟩

theorem goodMessage_leaves (s : State) (p : Fin 2) : MessageLeaves s (goodMessage s p) := by
  by_cases train : (getPort s p).st = .train
  · exact goodMessage_train train ▸ withPort_leaves s p _
  by_cases up : (getPort s p).st = .up
  case neg => exact (goodMessage_other train up).symm ▸ .refl s
  by_cases zero : (getPort s p).err = 0
  · exact (goodMessage_zero up zero).symm ▸ .refl s
  have err : 0 < (getPort s p).err := Nat.pos_of_ne_zero zero
  rcases Nat.lt_or_ge ((getPort s p).good + 1) 256 with few | full
  · exact goodMessage_counts up err few ▸ withPort_leaves s p _
  by_cases stays : (getPort s p).fault = none ∨ (getPort s p).err ≠ 1
  · exact goodMessage_takes up err full stays ▸ withPort_leaves s p _
  · obtain ⟨open_, one⟩ := not_or.1 stays
    obtain ⟨f, fault⟩ := Option.ne_none_iff_exists'.1 open_
    exact ⟨_, _, goodMessage_closes_hl up (not_not.1 one) full fault⟩

theorem forward_leaves (s : State) (head : HlHead) (type : Nat) (payload : List Byte) : MessageLeaves s (forward s head type payload) := by
  unfold forward
  dsimp only
  split
  · exact ⟨_, _, rfl⟩
  · exact .refl s

/-- A message taken and forwarded (R341). -/
theorem forwarded_leaves (s : State) (head : HlHead) (type : Nat) (payload : List Byte) :
    MessageLeaves s (forward (goodMessage s head.port) head type payload) :=
  (goodMessage_leaves s head.port).trans (forward_leaves _ head type payload)

theorem onUp_idle (h : ¬hlOn s = true ∨ (getPort s p).st ≠ .up) (f : State → State) : onUp s p f = idleMessageEffect p s := by
  unfold onUp idleMessageEffect
  by_cases on : hlOn s = true
  · have down : portUp s p = false := by simpa [portUp] using h.resolve_left (not_not_intro on)
    simp only [on, down, Bool.not_true, Bool.false_eq_true, if_false, if_true]
  · simp only [on, Bool.not_false, if_true, Bool.false_eq_true, if_false]

theorem onUp_up (on : hlOn s = true) (up : (getPort s p).st = .up) (f : State → State) : onUp s p f = f s :=
  (if_neg (by simp [on])).trans (if_pos (by simp [portUp, up]))

/-! ### TIME received (R345) -/

/-- The payload of a TIME, taken and forwarded. -/
def timeForward (s : State) (head : HlHead) (value : Tick) : State :=
  forward (goodMessage s head.port) head 3 (beBytes 8 value.toNat)

/-- The error that a follower finds in a TIME. -/
def timeErr (s : State) (head : HlHead) (value r : Tick) : Int := timeError value r head.hops (getPort s head.port).l

/-- The error is shown in HL_TIME_ERR. -/
def timeShown (s : State) (e : Int) : State := (s.modHl fun l => { l with lastErr := showErr s e }).freeStep

section
variable (on : hlOn s = true) (up : (getPort s head.port).st = .up)
include on up

theorem timeMessageEffect_foreign (foreign : head.origin ≠ hlTimeDev s) : timeMessageEffect head value r s =
    timeForward (s.modHl fun l => { l with cntForeign := l.cntForeign + 1 }) head value :=
  (onUp_up on up _).trans (if_pos foreign)

theorem timeMessageEffect_lead (own : head.origin = hlTimeDev s) (lead : isTimeLead s = true) :
    timeMessageEffect head value r s = timeForward s head value :=
  (onUp_up on up _).trans ((if_neg (not_not_intro own)).trans (if_pos lead))

section
variable (own : head.origin = hlTimeDev s) (follows : isTimeLead s = false)
include own follows

theorem timeMessageEffect_follower : timeMessageEffect head value r s =
    let e := timeErr s head value r
    if -1 ≤ e ∧ e ≤ 1 then
      adjustTime ((timeForward (timeShown s e) head value).modHl fun l =>
        { l with goodTimes := l.goodTimes + 1, aligned := l.aligned || decide (4 ≤ l.goodTimes + 1) }) e
    else if anyHerdLive s = true then badMessage ((timeShown s e).modHl fun l => { l with goodTimes := 0 }) head.port
    else adjustTime ((timeForward (timeShown s e) head value).modHl fun l =>
      { l with aligned := false, goodTimes := 0, flags := l.flags.set 6, steps := satInc l.steps }) e :=
  (onUp_up on up _).trans ((if_neg (not_not_intro own)).trans (if_neg (by simp [follows])))

end

end

theorem timeForward_leaves (s : State) (head : HlHead) (value : Tick) : MessageLeaves s (timeForward s head value) :=
  forwarded_leaves s head 3 _

theorem timeForward_moves {ps : List Part} {s₀ : State} (h : Moves ps s₀ s) (m : ∀ p ∈ [Part.qe, .hl, .dm], p ∈ ps) (head : HlHead)
    (value : Tick) : Moves ps s₀ (timeForward s head value) :=
  forward_moves _ head 3 _ (goodMessage_moves s head.port h m) fun p k => m p (by simp only [List.mem_singleton.1 k]; decide)

theorem timeForward_time (s : State) (head : HlHead) (value : Tick) : (timeForward s head value).time = s.time :=
  (timeForward_moves (Moves.refl [.qe, .hl, .dm] s) (fun _ h => h) head value).only .time (by decide)

theorem showErr_small {e : Int} (low : -1 ≤ e) (high : e ≤ 1) (s : State) : showErr s e = BitVec.ofInt 8 e :=
  if_pos ⟨by omega, by omega⟩

theorem timeShown_moves (s : State) (e : Int) : Moves [.hl, .qe, .dm, .time, .free] s (timeShown s e) :=
  ((Moves.refl _ s).modHl (by decide) _).freeStep (by decide)

section
variable (on : hlOn s = true) (up : (getPort s head.port).st = .up)
include on up

theorem timeMessage_foreign (foreign : head.origin ≠ hlTimeDev s) : Only [.hl, .qe, .dm] s (timeMessageEffect head value r s) ∧
    (timeMessageEffect head value r s).hl.cntForeign = s.hl.cntForeign + 1 := by
  rw [timeMessageEffect_foreign on up foreign]
  obtain ⟨ports, flags, hl⟩ := timeForward_leaves (s.modHl fun l => { l with cntForeign := l.cntForeign + 1 }) head value
  exact ⟨(timeForward_moves ((Moves.refl _ s).modHl (by decide) _) (by decide) head value).only, by rw [hl]; rfl⟩

theorem timeMessage_lead (own : head.origin = hlTimeDev s) (lead : isTimeLead s = true) :
    Only [.hl, .qe, .dm] s (timeMessageEffect head value r s) ∧ (timeMessageEffect head value r s).hl.cntForeign = s.hl.cntForeign := by
  rw [timeMessageEffect_lead on up own lead]
  obtain ⟨ports, flags, hl⟩ := timeForward_leaves s head value
  exact ⟨(timeForward_moves (Moves.refl _ s) (by decide) head value).only, by rw [hl]⟩

section
variable (own : head.origin = hlTimeDev s) (follows : isTimeLead s = false)
include own follows

/-- A TIME within 1 tick of the follower's own time. -/
theorem timeMessage_close (low : -1 ≤ timeErr s head value r) (high : timeErr s head value r ≤ 1) :
    let t := timeMessageEffect head value r s
    Only [.hl, .qe, .dm, .time, .free] s t ∧ t.time = s.time + BitVec.ofInt 64 (timeErr s head value r) ∧
      t.hl.goodTimes = s.hl.goodTimes + 1 ∧ t.hl.aligned = (s.hl.aligned || decide (4 ≤ s.hl.goodTimes + 1)) ∧
      t.hl.lastErr = BitVec.ofInt 8 (timeErr s head value r) := by
  dsimp only
  rw [timeMessageEffect_follower on up own follows]
  generalize timeErr s head value r = e at low high ⊢
  rw [if_pos ⟨low, high⟩]
  obtain ⟨ports, flags, hl⟩ := timeForward_leaves (timeShown s e) head value
  have moves := timeForward_moves (timeShown_moves s e) (by decide) head value
  refine ⟨(adjustTime_moves _ e (moves.modHl (by decide) _) (by decide)).only, ?_, ?_, ?_, ?_⟩
  · exact congrArg (· + BitVec.ofInt 64 e) (timeForward_time (timeShown s e) head value)
  · exact (congrArg (fun l : Hl => l.goodTimes + 1) hl :)
  · exact (congrArg (fun l : Hl => l.aligned || decide (4 ≤ l.goodTimes + 1)) hl :)
  · exact (congrArg Hl.lastErr hl).trans (showErr_small low high s)

section
variable (far : timeErr s head value r < -1 ∨ 1 < timeErr s head value r)
include far

/-- A step of the follower's time, where no herd runs. -/
theorem timeMessage_steps (quiet : anyHerdLive s = false) :
    let t := timeMessageEffect head value r s
    Only [.hl, .qe, .dm, .time, .free] s t ∧ t.time = s.time + BitVec.ofInt 64 (timeErr s head value r) ∧
      t.hl.aligned = false ∧ t.hl.goodTimes = 0 ∧ t.hl.flags.on 6 = true ∧ t.hl.steps = satInc s.hl.steps := by
  dsimp only
  rw [timeMessageEffect_follower on up own follows]
  generalize timeErr s head value r = e at far ⊢
  rw [if_neg (by omega), if_neg (by simp [quiet])]
  obtain ⟨ports, flags, hl⟩ := timeForward_leaves (timeShown s e) head value
  have moves := timeForward_moves (timeShown_moves s e) (by decide) head value
  refine ⟨(adjustTime_moves _ e (moves.modHl (by decide) _) (by decide)).only, ?_, rfl, rfl, Flags.on_set_same _ (by decide), ?_⟩
  · exact congrArg (· + BitVec.ofInt 64 e) (timeForward_time (timeShown s e) head value)
  · exact (congrArg (fun l : Hl => satInc l.steps) hl :)

/-- Where a herd runs it is taken as bad. -/
theorem timeMessage_bad (live : anyHerdLive s = true) :
    let t := timeMessageEffect head value r s
    Only [.hl, .qe, .dm, .free] s t ∧ t.hl.goodTimes = 0 ∧ (getPort t head.port).cntBad = (getPort s head.port).cntBad + 1 := by
  dsimp only
  rw [timeMessageEffect_follower on up own follows]
  generalize timeErr s head value r = e at far ⊢
  rw [if_neg (by omega), if_pos live]
  obtain ⟨times, count⟩ := badMessage_counts (s := (timeShown s e).modHl fun l => { l with goodTimes := 0 }) (p := head.port) up
  have moves := ((Moves.refl [.hl, .qe, .dm, .free] s).modHl (by decide) fun l => { l with lastErr := showErr s e }).freeStep (by decide)
  exact ⟨(badMessage_moves _ head.port (moves.modHl (by decide) _) (by decide)).only, times, count⟩

end

end

end

/-- Settles O47: each message by the state of its port, a bad one by the port's error counter, and a TIME by its error. -/
theorem herdLinkPorts : Obligations.HerdLinkPorts := by
  unfold Obligations.HerdLinkPorts
  intro s p ta slot head value r clocked q becomes on training bad enabled
  have answer {f : State → State} {t : State} (h : f s = t) : onSys s f = .next t := (onSys_clocked clocked f).trans (congrArg _ h)
  have lanes : hlOn s = true ↔ on := hlOn_iff
  refine ⟨fun en down h => answer (trainStartEffect_starts en down (lanes.2 h)),
    fun h => answer (trainStartEffect_idle (h.imp_right fun h => h.imp_right (mt lanes.1))),
    fun h => answer (portReviveEffect_trains h), fun dis kept => ?_, fun failed long h => answer (portReviveEffect_idle failed long h),
    measuredL_none, fun st => ⟨fun h => answer (trainCompleteEffect_unmeasured st h), fun l h => ?_⟩,
    fun h => answer (trainCompleteEffect_idle h), slotBad_missing s p,
    fun g => (slotBad_groups_iff s p g).trans (and_congr_left fun _ => lanes), messageGood_iff,
    fun h => answer (badMessageEffect_good h), fun h => ?_, fun st h => answer ((badMessageEffect_bad h).trans (badMessage_train st)),
    fun h st => ?_, fun h up => ?_, fun up h => ?_, fun train up => ?_, ⟨fun h => ?_, fun lead up due => ?_⟩, fun h => ?_, fun h up => ?_⟩
  · exact answer (portReviveEffect_forgets (by rw [show (getPort s p).st = _ from dis]; decide)
      (by rw [show (getPort s p).st = _ from dis]; decide) dis kept)
  · have e := trainCompleteEffect_measured st h
    refine ⟨fun long => answer (e.trans (if_pos long)), fun short run => ?_, fun short run => ?_⟩
    · exact answer (e.trans ((if_neg (not_lt.2 short)).trans (if_pos run)))
    · exact answer (e.trans ((if_neg (not_lt.2 short)).trans (if_neg (not_le.2 run))))
  · have off := mt lanes.1 h
    exact ⟨answer (idleMessageEffect_off off p), answer (probeEffect_off off p), answer (echoEffect_off off p ta)⟩
  · have on := lanes.2 h
    have counted := goodMessage_train st
    refine ⟨answer ((idleMessageEffect_on on p).trans counted), answer ?_, fun none => answer ((echoEffect_unasked on none ta).trans counted),
      fun sent rest asked => ⟨fun few => answer (echoEffect_early on asked st few ta), fun many => ?_⟩⟩
    · rw [probeEffect_noted on (.inl st), counted, modPort_eq, getPort_withPort, withPort_withPort]
      rfl
    · obtain ⟨l', measured, e⟩ := echoEffect_measures on asked st many ta
      refine ⟨_, answer e, (((Moves.refl _ s).set_hl (by decide) _).freeStep (by decide)).only, ?_, fun l known small => ?_⟩
      · exact congrArg HlPort.trips (getPort_withPort s p _)
      · obtain rfl : l' = l := Option.some.inj (measured.symm.trans known)
        exact (congrArg HlPort.l (getPort_withPort s p _)).trans (if_pos small)
  · have on := lanes.2 h
    refine ⟨fun zero => ⟨?_, answer ?_, fun none => ?_⟩, fun err few => ?_, fun err full stays => ?_, fun f one full fault => ?_⟩
    · exact answer ((idleMessageEffect_on on p).trans (goodMessage_zero up zero))
    · rw [probeEffect_noted on (.inr (.inl up)), goodMessage_zero up zero]
      rfl
    · exact answer ((echoEffect_unasked on none ta).trans (goodMessage_zero up zero))
    · exact answer ((idleMessageEffect_on on p).trans (goodMessage_counts up err few))
    · exact answer ((idleMessageEffect_on on p).trans (goodMessage_takes up err full stays))
    · exact ⟨_, answer (idleMessageEffect_on on p), (goodMessage_moves s p (Moves.refl _ s) (by decide)).only,
        goodMessage_closes_hl up one full fault⟩
  · have e := badMessageEffect_bad h
    refine ⟨fun none low => answer (e.trans (badMessage_below up none low)), fun none high room => answer (e.trans ?_),
      fun f fault room => answer (e.trans (badMessage_goesOn up fault room)), fun f fault full => ?_⟩
    · exact badMessage_opens up none high room
    · obtain ⟨n, more, hl, herds, each⟩ :=
        portFail_leaves (withPort s p (portBad (getPort s p) (some ⟨max f.high 255, f.bad + 1⟩))) p ⟨max f.high 255, f.bad + 1⟩
      have moves := portFail_moves _ p ⟨max f.high 255, f.bad + 1⟩ ((Moves.refl [.hl, .qe, .dm] s).set_hl (by decide)
        (withPort s p (portBad (getPort s p) (some ⟨max f.high 255, f.bad + 1⟩))).hl) (by decide)
      refine ⟨_, answer (e.trans (badMessage_fails up fault full)), moves.only, ?_, ?_, ?_, more, ?_, herds, each⟩
      · rw [hl]; rfl
      · rw [hl]
        simp only [withPort, upd_upd]
        rfl
      · rw [hl]; rfl
      · rw [hl]; rfl
  · have good := goodMessage_other train up
    refine ⟨answer ?_, answer ?_, fun none => answer ?_, fun long => answer ?_⟩
    · unfold idleMessageEffect
      split
      · exact good
      · rfl
    · unfold badMessageEffect
      split
      · exact badMessage_other train up
      · rfl
    · by_cases on : hlOn s = true
      · exact (echoEffect_unasked on none ta).trans good
      · exact echoEffect_off on p ta
    · by_cases on : hlOn s = true
      · exact (probeEffect_counts on (by rintro (h | h | h) <;> contradiction)).trans good
      · exact probeEffect_off on p
  · exact answer (timeOriginateEffect_idle (h.imp_right fun h => h.imp (mt anyUp_iff.1) (mt timeIsDue_iff.1)))
  · exact answer (timeOriginateEffect_due lead (anyUp_iff.2 up) (timeIsDue_iff.2 due))
  · exact (answer (onUp_idle (h.imp_left (mt lanes.1)) _)).trans (answer rfl).symm
  · have on := lanes.2 h
    refine ⟨fun foreign => ⟨_, ⟨answer rfl, (timeMessage_foreign on up foreign).1⟩, (timeMessage_foreign on up foreign).2⟩,
      fun own lead => ⟨_, ⟨answer rfl, (timeMessage_lead on up own lead).1⟩, (timeMessage_lead on up own lead).2⟩, fun own follows =>
      ⟨fun low high => ?_, fun far quiet => ?_, fun far live => ?_⟩⟩
    · obtain ⟨only, rest⟩ := timeMessage_close on up own follows low high
      exact ⟨_, ⟨answer rfl, only⟩, rest⟩
    · obtain ⟨only, rest⟩ := timeMessage_steps on up own follows far quiet
      exact ⟨_, ⟨answer rfl, only⟩, rest⟩
    · obtain ⟨only, rest⟩ := timeMessage_bad on up own follows far live
      exact ⟨_, ⟨answer rfl, only⟩, rest⟩

end Sys2Proof.Machine
end

section
/-! Herds: one rule for each operation on a herd, what a message of a herd leaves, and the commands of the lead (R351, R352, R354, R365). -/

namespace Sys2Proof.Machine

variable {s t : State} {h : Fin 4} {head : HlHead} {ev : HerdEvent} {e : Sched} {o : HlOut}

/-! ### One herd -/

/-- The state in which herd h has become d. -/
def withHerd (s : State) (h : Fin 4) (d : Herd) : State := { s with hl := { s.hl with herds := upd s.hl.herds h fun _ => d } }

theorem modHerd_eq (s : State) (h : Fin 4) (f : Herd → Herd) : s.modHerd h f = withHerd s h (f (getHerd s h)) := rfl

theorem getHerd_withHerd (s : State) (h : Fin 4) (d : Herd) : getHerd (withHerd s h d) h = d := upd_same _ _ _

/-- A message of herd h moves the ports, the flags, and the herd's record of the ports crossed. -/
def HerdMessageLeaves (h : Fin 4) (s t : State) : Prop :=
  ∃ ports flags x, t.hl = { s.hl with ports := ports, flags := flags, herds := upd s.hl.herds h fun d => { d with cross := x } }

theorem MessageLeaves.crossed {u : State} {p : Fin 2} (k : MessageLeaves s t) (l : MessageLeaves (crossPort t h p) u) :
    HerdMessageLeaves h s u := by
  obtain ⟨_, _, k⟩ := k
  obtain ⟨ports, flags, l⟩ := l
  refine ⟨ports, flags, setBit (getHerd t h).cross p.val, l.trans ?_⟩
  have herd : getHerd t h = getHerd s h := by rw [getHerd, k]; rfl
  have crossed : (crossPort t h p).hl = { t.hl with herds := upd t.hl.herds h fun d =>
      { d with cross := setBit (getHerd t h).cross p.val } } :=
    congrArg (fun v => { t.hl with herds := v }) (upd_congr _ _ _ _ rfl)
  rw [crossed, k]

/-- A message of a herd taken and forwarded (R341, R357). -/
theorem herdMessage_leaves (s : State) (head : HlHead) (type : Nat) (payload : List Byte) :
    HerdMessageLeaves head.herd s (forward (receiveHerd s head) head type payload) :=
  (goodMessage_leaves s head.port).crossed (forward_leaves _ head type payload)

theorem herdMessage_moves {ps : List Part} {s₀ : State} (k : Moves ps s₀ s) (m : ∀ p ∈ [Part.qe, .hl, .dm], p ∈ ps) (type : Nat)
    (payload : List Byte) : Moves ps s₀ (forward (receiveHerd s head) head type payload) :=
  forward_moves _ head type _ (receiveHerd_moves s head k m) fun p k => m p (by simp only [List.mem_singleton.1 k]; decide)

theorem HerdMessageLeaves.fields (k : HerdMessageLeaves h s t) : ∃ x, getHerd t h = { getHerd s h with cross := x } := by
  obtain ⟨_, _, x, e⟩ := k
  exact ⟨x, by rw [getHerd, e, upd_same]; rfl⟩

/-! ### The commands of the lead (R351, R352, R354, R365) -/

theorem herdCommands_follower (lead : isLead s h = false) :
    herdStartEffect h s = s ∧ herdStopEffect h s = s ∧ herdReviveEffect h s = s :=
  ⟨if_pos (by simp [lead]), if_neg (by simp [lead]), if_neg (by simp [lead])⟩

section
variable (lead : isLead s h = true)
include lead

theorem herdStartEffect_lead : herdStartEffect h s =
    if ((getHerd s h).st == .idle && srcValid s (8 + h.val) && allReady s h) = true then originate (markStarting s h) .start h 640 0 0
    else { s with hl := { s.hl with flags := s.hl.flags.set 5 } } :=
  if_neg (by simp [lead])

theorem herdStartEffect_starts (idle : (getHerd s h).st = .idle) (valid : srcValid s (8 + h.val) = true) (ready : allReady s h = true) :
    herdStartEffect h s = originate (withHerd s h { getHerd s h with st := .starting, cross := 0 }) .start h 640 0 0 := by
  rw [herdStartEffect_lead lead, if_pos (by simp [idle, valid, ready]), markStarting, modHerd_eq, if_pos idle]

theorem herdStartEffect_refused (h' : (getHerd s h).st ≠ .idle ∨ srcValid s (8 + h.val) = false ∨ allReady s h = false) :
    herdStartEffect h s = { s with hl := { s.hl with flags := s.hl.flags.set 5 } } :=
  (herdStartEffect_lead lead).trans (if_neg (by rcases h' with k | k | k <;> simp [k]))

theorem herdStopEffect_started (st : (getHerd s h).st = .started) : herdStopEffect h s = originate s .stop h 640 0 0 :=
  if_pos (by simp [lead, st])

theorem herdReviveEffect_retired (st : (getHerd s h).st = .retired) (high : ¬haltLow s = true) :
    herdReviveEffect h s = originate s .revive h 448 0 0 := if_pos (by simp [lead, st, high])

end

theorem herdStopEffect_idle (st : (getHerd s h).st ≠ .started) : herdStopEffect h s = s := if_neg (by simp [st])

theorem herdReviveEffect_idle (k : (getHerd s h).st ≠ .retired ∨ haltLow s = true) : herdReviveEffect h s = s :=
  if_neg (by rcases k with k | k <;> simp [k])

theorem haltLow_iff : haltLow s = true ↔ (s.hl.haltOut = true ∧ pinsLive s = true) ∨ s.hl.haltExt = true := by
  simp only [haltLow, haltDriven, Bool.or_eq_true, Bool.and_eq_true]

/-! ### The schedule of a herd (R344, R364) -/

/-- What the schedule of herd h takes up: a START only where it made the herd STARTING. -/
theorem schedule_leaves (s : State) (h : Fin 4) (e : Sched) : (schedule s h e).hl.seen = s.hl.seen ∧
    (getHerd (schedule s h e) h).st = (getHerd s h).st ∧
    (getHerd (schedule s h e) h).sched =
      if e.ev = .start ∧ (getHerd s h).st ≠ .starting then (getHerd s h).sched else (getHerd s h).sched ++ [e] := by
  unfold schedule
  by_cases late : e.ev = .start ∧ (getHerd s h).st ≠ .starting
  · rw [if_pos late, if_pos late]
    exact ⟨rfl, rfl, rfl⟩
  · rw [if_neg late, if_neg late, modHerd_eq, getHerd_withHerd]
    exact ⟨rfl, rfl, rfl⟩

theorem fixOut0_fixes (none : o.tEff = none) (k : o.ev ≠ .start ∨ (getHerd s o.herd).st = .starting) :
    (fixOut0 s o).2.tEff = some (now s + o.delta) ∧ (getHerd (fixOut0 s o).1 o.herd).sched = (getHerd s o.herd).sched ++
      [{ ev := o.ev, tEff := now s + o.delta, origin := hlDev s, seq := o.seq, localFault := true }] := by
  obtain ⟨-, -, sched⟩ := schedule_leaves (setOut0 s { o with tEff := some (now s + o.delta) }) o.herd
    { ev := o.ev, tEff := now s + o.delta, origin := hlDev s, seq := o.seq, localFault := true }
  simp only [fixOut0, none]
  refine ⟨trivial, sched.trans (if_neg ?_)⟩
  rintro ⟨start, st⟩
  exact k.elim (· start) st

end Sys2Proof.Machine
end

section
/-! Class-0 messages received (R344, R364) and the ticks T_EFF (R351 to R354, R362 to R364), and the theorem that settles O48. -/

namespace Sys2Proof.Machine

variable {s t : State} {h : Fin 4} {head : HlHead} {ev : HerdEvent} {e : Sched} {c : HlCmd}

/-! ### A message received (R344) -/

theorem extend48_congr (k : t.time = s.time) (v : BitVec 48) : extend48 t v = extend48 s v := by
  have same : now t = now s := congrArg BitVec.toNat k
  unfold extend48
  rw [same]

theorem serialSeen_iff (s : State) (o : Fin 8) (n : Byte) : (s.hl.seen.any fun q => q.1 == o && q.2 == n) = true ↔ (o, n) ∈ s.hl.seen := by
  rw [List.any_eq_true]
  exact ⟨fun ⟨q, mem, k⟩ => by
    obtain ⟨a, b⟩ := Bool.and_eq_true_iff.1 k
    rw [← beq_iff_eq.1 a, ← beq_iff_eq.1 b]; exact mem, fun mem => ⟨_, mem, by simp⟩⟩

/-- A START received, as the first copy of its message, makes the herd STARTING before it is forwarded. -/
def startTaken (s : State) (ev : HerdEvent) (h : Fin 4) : State := if ev == .start then markStarting s h else s

/-- A class-0 message taken and forwarded. -/
def class0Forward (s : State) (ev : HerdEvent) (head : HlHead) (c : HlCmd) : State :=
  forward (receiveHerd s head) head (eventType ev) (cmdPayload c)

/-- What herd h notes of a class-0 message. -/
def class0Sched (s : State) (ev : HerdEvent) (head : HlHead) (c : HlCmd) : Sched :=
  { ev := ev, tEff := extend48 s c.tEff, origin := head.origin, seq := c.seq, localFault := false }

section
variable (on : hlOn s = true) (up : (getPort s head.port).st = .up)
include on up

theorem class0Effect_again (seen : (head.origin, c.serial) ∈ s.hl.seen) : class0Effect ev head c s = class0Forward s ev head c := by
  refine (onUp_up on up _).trans ?_
  simp only [(serialSeen_iff s _ _).2 seen, Bool.not_true, Bool.false_and, Bool.false_eq_true, if_false]
  rfl

section
variable (first : (head.origin, c.serial) ∉ s.hl.seen)
include first

theorem class0Effect_other (member : isMember s head.herd = false) :
    class0Effect ev head c s = rememberSerial (class0Forward s ev head c) head.origin c.serial := by
  refine (onUp_up on up _).trans ?_
  simp only [(Bool.not_eq_true _).mp (mt (serialSeen_iff s _ _).1 first), member, Bool.and_false, Bool.false_and, Bool.false_eq_true,
    if_false, Bool.not_false, if_true]
  rfl

theorem class0Effect_member (member : isMember s head.herd = true) : class0Effect ev head c s =
    let u := rememberSerial (class0Forward (startTaken s ev head.herd) ev head c) head.origin c.serial
    schedule u head.herd (class0Sched u ev head c) := by
  refine (onUp_up on up _).trans ?_
  simp only [(Bool.not_eq_true _).mp (mt (serialSeen_iff s _ _).1 first), member, Bool.and_self, Bool.true_and, Bool.not_false, if_true]
  rfl

end

end

theorem class0Forward_leaves (s : State) (ev : HerdEvent) (head : HlHead) (c : HlCmd) :
    HerdMessageLeaves head.herd s (class0Forward s ev head c) := herdMessage_leaves s head _ _

theorem class0Forward_time (s : State) (ev : HerdEvent) (head : HlHead) (c : HlCmd) : (class0Forward s ev head c).time = s.time :=
  (herdMessage_moves (Moves.refl [.qe, .hl, .dm] s) (fun _ h => h) _ _).only .time (by decide)

theorem startTaken_leaves (s : State) (ev : HerdEvent) (h : Fin 4) : (startTaken s ev h).time = s.time ∧
    (getHerd (startTaken s ev h) h).sched = (getHerd s h).sched ∧
    (getHerd (startTaken s ev h) h).st = if ev = .start ∧ (getHerd s h).st = .idle then .starting else (getHerd s h).st := by
  unfold startTaken markStarting
  by_cases start : ev = .start
  · by_cases idle : (getHerd s h).st = .idle
    · rw [if_pos (beq_iff_eq.2 start), if_pos ⟨start, idle⟩, modHerd_eq, getHerd_withHerd, if_pos idle]
      exact ⟨rfl, rfl, rfl⟩
    · rw [if_pos (beq_iff_eq.2 start), if_neg (fun k => idle k.2), modHerd_eq, getHerd_withHerd, if_neg idle]
      exact ⟨rfl, rfl, rfl⟩
  · rw [if_neg (mt beq_iff_eq.1 start), if_neg (fun k => start k.1)]
    exact ⟨rfl, rfl, rfl⟩

theorem starting_iff {st : HerdState} (start : ev = .start) :
    (if ev = .start ∧ st = .idle then .starting else st) = HerdState.starting ↔ st = .idle ∨ st = .starting := by
  subst start
  cases st <;> decide

section
variable (on : hlOn s = true) (up : (getPort s head.port).st = .up)
include on up

theorem class0_again (seen : (head.origin, c.serial) ∈ s.hl.seen) :
    (class0Effect ev head c s).hl.seen = s.hl.seen ∧
    (getHerd (class0Effect ev head c s) head.herd).sched = (getHerd s head.herd).sched ∧
    (getHerd (class0Effect ev head c s) head.herd).st = (getHerd s head.herd).st := by
  rw [class0Effect_again on up seen]
  have leaves := class0Forward_leaves s ev head c
  obtain ⟨x, herd⟩ := leaves.fields
  obtain ⟨_, _, _, hl⟩ := leaves
  exact ⟨by rw [hl], by rw [herd], by rw [herd]⟩

section
variable (first : (head.origin, c.serial) ∉ s.hl.seen)
include first

theorem class0_other (member : isMember s head.herd = false) :
    (head.origin, c.serial) ∈ (class0Effect ev head c s).hl.seen ∧
    (getHerd (class0Effect ev head c s) head.herd).sched = (getHerd s head.herd).sched ∧
    (getHerd (class0Effect ev head c s) head.herd).st = (getHerd s head.herd).st := by
  rw [class0Effect_other on up first member]
  obtain ⟨x, herd⟩ := (class0Forward_leaves s ev head c).fields
  exact ⟨List.mem_cons_self, (congrArg Herd.sched herd :), (congrArg Herd.st herd :)⟩

/-- The first copy for a herd of this device: it is remembered, and its T_EFF scheduled. -/
theorem class0_member (member : isMember s head.herd = true) :
    (head.origin, c.serial) ∈ (class0Effect ev head c s).hl.seen ∧
    (getHerd (class0Effect ev head c s) head.herd).st =
      (if ev = .start ∧ (getHerd s head.herd).st = .idle then .starting else (getHerd s head.herd).st) ∧
    (getHerd (class0Effect ev head c s) head.herd).sched =
      if ev = .start ∧ (getHerd s head.herd).st ≠ .idle ∧ (getHerd s head.herd).st ≠ .starting then (getHerd s head.herd).sched
      else (getHerd s head.herd).sched ++ [class0Sched s ev head c] := by
  rw [class0Effect_member on up first member]
  obtain ⟨time, sched, st⟩ := startTaken_leaves s ev head.herd
  obtain ⟨x, herd⟩ := (class0Forward_leaves (startTaken s ev head.herd) ev head c).fields
  generalize started : startTaken s ev head.herd = a at *
  have after : (class0Forward a ev head c).time = s.time := (class0Forward_time a ev head c).trans time
  generalize forwarded : class0Forward a ev head c = b at *
  have same : class0Sched (rememberSerial b head.origin c.serial) ev head c = class0Sched s ev head c := by
    rw [class0Sched, class0Sched, extend48_congr (s := s) (t := rememberSerial b head.origin c.serial) after]
  obtain ⟨seen, st', sched'⟩ := schedule_leaves (rememberSerial b head.origin c.serial) head.herd (class0Sched s ev head c)
  have herd' : getHerd (rememberSerial b head.origin c.serial) head.herd = { getHerd a head.herd with cross := x } := herd
  dsimp only
  rw [same, seen, st', sched', herd']
  refine ⟨List.mem_cons_self, st, if_congr (and_congr_right fun start => ?_) sched (congrArg (· ++ _) sched)⟩
  rw [st]
  exact (not_congr (starting_iff start)).trans not_or

end

end

/-! ### The ticks T_EFF (R351 to R354, R362 to R364) -/

/-- An effect of that kind on herd h has its tick come. -/
def EventDue (s : State) (h : Fin 4) (ev : HerdEvent) : Prop := ∃ e ∈ (getHerd s h).sched, e.ev = ev ∧ e.tEff ≤ now s

theorem mem_schedDue : e ∈ schedDue s h ev ↔ e ∈ (getHerd s h).sched ∧ e.ev = ev ∧ e.tEff ≤ now s := by
  simp only [schedDue, List.mem_filter, Bool.and_eq_true, beq_iff_eq, decide_eq_true_iff]

theorem schedDue_nil_iff : schedDue s h ev = [] ↔ ¬EventDue s h ev := by
  rw [List.eq_nil_iff_forall_not_mem]
  exact ⟨fun none ⟨e, mem, k⟩ => none e (mem_schedDue.2 ⟨mem, k⟩), fun none e mem => none ⟨e, mem_schedDue.1 mem⟩⟩

theorem schedDue_isEmpty_iff : (schedDue s h ev).isEmpty = true ↔ ¬EventDue s h ev := List.isEmpty_iff.trans schedDue_nil_iff

theorem isMember_schedDone : isMember (schedDone s h ev) h = isMember s h := rfl

theorem schedDone_st : (getHerd (schedDone s h ev) h).st = (getHerd s h).st := by
  rw [schedDone, modHerd_eq, getHerd_withHerd]

/-- What leaves the schedule is of one kind; the others stay due. -/
theorem schedDue_schedDone {ev' : HerdEvent} (ne : ev' ≠ ev) : schedDue (schedDone s h ev) h ev' = schedDue s h ev' := by
  have sched : (getHerd (schedDone s h ev) h).sched = (getHerd s h).sched.filter fun e => !(e.ev == ev && decide (e.tEff ≤ now s)) :=
    congrArg Herd.sched (upd_same _ _ _)
  rw [schedDue, schedDue, sched, List.filter_filter]
  refine List.filter_congr fun e _ => ?_
  by_cases k : e.ev = ev'
  · have other : (e.ev == ev) = false := beq_eq_false_iff_ne.2 (k ▸ ne)
    rw [other, Bool.false_and, Bool.not_false, Bool.and_true]
    rfl
  · have other : (e.ev == ev') = false := beq_eq_false_iff_ne.2 k
    simp only [other, Bool.false_and]

section
variable (none : ¬EventDue s h ev)
include none

theorem herdStartedEffect_none (k : ev = .start) : herdStartedEffect h s = s := if_pos (schedDue_isEmpty_iff.2 (k ▸ none))
theorem herdStoppedEffect_none (k : ev = .stop) : herdStoppedEffect h s = s := if_pos (schedDue_isEmpty_iff.2 (k ▸ none))
theorem herdRevivedEffect_none (k : ev = .revive) : herdRevivedEffect h s = s := if_pos (schedDue_isEmpty_iff.2 (k ▸ none))

end

theorem herdRetiredEffect_none (none : ¬EventDue s h .retire) : herdRetiredEffect h s = s := by
  simp only [herdRetiredEffect, schedDue_nil_iff.2 none, firstRetire]

section
variable (due : EventDue s h .start)
include due

theorem herdStartedEffect_due : herdStartedEffect h s =
    if (!isMember s h || !(schedDue s h .retire).isEmpty || (getHerd s h).st != .starting) = true then schedDone s h .start
    else
      let u := ((schedDone s h .start).modHerd h fun d => { d with st := .started }).modHl fun l => { l with flags := l.flags.set 4 }
      forEach (herdTsqs u h) (fun n s => startTsq s h n) u := by
  refine (if_neg (mt schedDue_isEmpty_iff.1 (not_not_intro due))).trans ?_
  dsimp only
  rw [schedDue_schedDone (by decide), schedDone_st, isMember_schedDone]

theorem herdStartedEffect_gone (k : isMember s h = false ∨ EventDue s h .retire ∨ (getHerd s h).st ≠ .starting) :
    herdStartedEffect h s = schedDone s h .start := by
  refine (herdStartedEffect_due due).trans (if_pos ?_)
  rcases k with out | retires | st
  · simp [out]
  · simp [(Bool.not_eq_true _).mp (mt schedDue_isEmpty_iff.1 (not_not_intro retires))]
  · simp [st]

theorem herdStartedEffect_starts (member : isMember s h = true) (stays : ¬EventDue s h .retire)
    (st : (getHerd s h).st = .starting) :
    (getHerd (herdStartedEffect h s) h).st = .started ∧ (herdStartedEffect h s).hl.flags.on 4 = true := by
  rw [herdStartedEffect_due due, if_neg (by simp [member, st, schedDue_nil_iff.2 stays])]
  dsimp only
  generalize started : ((schedDone s h .start).modHerd h fun d => { d with st := .started }).modHl (fun l =>
    { l with flags := l.flags.set 4 }) = u
  have hl : (forEach (herdTsqs u h) (fun n s => startTsq s h n) u).hl = u.hl :=
    (Moves.each (Moves.refl [.tsq] u) fun n t k => startTsq_moves t h n k fun _ h => h).only .hl (by decide)
  rw [getHerd, hl, ← started]
  exact ⟨congrArg Herd.st (upd_same _ _ _), Flags.on_set_same _ (by decide)⟩

end

section
variable (due : EventDue s h .stop)
include due

theorem herdStoppedEffect_due : herdStoppedEffect h s =
    if (isMember s h && (getHerd s h).st == .started) = true then
      (forEach (herdTsqs (schedDone s h .stop) h) (fun n s => stopTsq s n) (schedDone s h .stop)).modHerd h fun d => { d with st := .idle }
    else schedDone s h .stop := by
  refine (if_neg (mt schedDue_isEmpty_iff.1 (not_not_intro due))).trans ?_
  dsimp only
  rw [schedDone_st, isMember_schedDone]

theorem herdStoppedEffect_gone (k : isMember s h = false ∨ (getHerd s h).st ≠ .started) : herdStoppedEffect h s = schedDone s h .stop :=
  (herdStoppedEffect_due due).trans (if_neg (by rcases k with k | k <;> simp [k]))

theorem herdStoppedEffect_stops (member : isMember s h = true) (st : (getHerd s h).st = .started) :
    (getHerd (herdStoppedEffect h s) h).st = .idle := by
  rw [herdStoppedEffect_due due, if_pos (by simp [member, st])]
  exact congrArg Herd.st (upd_same _ _ _)

end

section
variable (due : EventDue s h .revive)
include due

theorem herdRevivedEffect_due : herdRevivedEffect h s =
    if (isMember s h && (getHerd s h).st == .retired) = true then
      let u := (schedDone s h .revive).modHerd h fun d => { d with st := .idle }
      let v := reviveUnit u (herdChannels u h)
      forEach (herdTsqs v h) (fun n s => s.modTsq n fun t => { t with herdWait := t.herdWait || tsqEn t.group.active }) v
    else schedDone s h .revive := by
  refine (if_neg (mt schedDue_isEmpty_iff.1 (not_not_intro due))).trans ?_
  dsimp only
  rw [schedDone_st, isMember_schedDone]

theorem herdRevivedEffect_gone (k : isMember s h = false ∨ (getHerd s h).st ≠ .retired) :
    herdRevivedEffect h s = schedDone s h .revive :=
  (herdRevivedEffect_due due).trans (if_neg (by rcases k with k | k <;> simp [k]))

theorem herdRevivedEffect_revives (member : isMember s h = true) (st : (getHerd s h).st = .retired) :
    (getHerd (herdRevivedEffect h s) h).st = .idle := by
  rw [herdRevivedEffect_due due, if_pos (by simp [member, st])]
  dsimp only
  generalize idle : (schedDone s h .revive).modHerd h (fun d => { d with st := .idle }) = u
  generalize revived : reviveUnit u (herdChannels u h) = v
  have unit : v.hl = u.hl := revived ▸ (reviveUnit_moves u _ (Moves.refl [.tsq, .cap] u) fun _ h => h).only .hl (by decide)
  have hl : (forEach (herdTsqs v h) (fun n s => s.modTsq n fun t => { t with herdWait := t.herdWait || tsqEn t.group.active }) v).hl =
      v.hl := (Moves.each (Moves.refl [.tsq] v) fun n t k => k.modTsq (by decide) n _).only .hl (by decide)
  rw [getHerd, hl, unit, ← idle]
  exact congrArg Herd.st (upd_same _ _ _)

end

/-! ### The RETIRE that acts (R353, R362) -/

theorem firstRetire_none {l : List Sched} (k : firstRetire l = none) : l = [] := by
  cases l with
  | nil => rfl
  | cons e r =>
    rw [firstRetire] at k
    split at k
    · cases k
    · split at k <;> cases k

/-- It has the earliest T_EFF, and among equal ones the lowest ORIGIN_DEV. -/
theorem firstRetire_some {l : List Sched} (k : firstRetire l = some e) :
    e ∈ l ∧ ∀ e' ∈ l, e.tEff < e'.tEff ∨ (e.tEff = e'.tEff ∧ e.origin.val ≤ e'.origin.val) := by
  induction l generalizing e with
  | nil => cases k
  | cons x r ih =>
    rw [firstRetire] at k
    split at k
    · next none =>
      obtain rfl := Option.some.inj k
      rw [firstRetire_none none]
      exact ⟨List.mem_cons_self, fun e' mem => .inr (by rw [List.mem_singleton.1 mem]; exact ⟨rfl, le_refl _⟩)⟩
    · next f found =>
      obtain ⟨mem, least⟩ := ih found
      split at k
      · next earlier =>
        obtain rfl := Option.some.inj k
        refine ⟨List.mem_cons_of_mem _ mem, fun e' mem' => ?_⟩
        rcases List.mem_cons.1 mem' with rfl | mem'
        · exact earlier.imp_right fun k => ⟨k.1, Nat.le_of_lt k.2⟩
        · exact least e' mem'
      · next later =>
        obtain rfl := Option.some.inj k
        refine ⟨List.mem_cons_self, fun e' mem' => ?_⟩
        rcases List.mem_cons.1 mem' with rfl | mem'
        · exact .inr ⟨rfl, le_refl _⟩
        · have before := least e' mem'
          omega

/-- What the retirement of herd h leaves of the block (R353, R359). -/
theorem retireHerd_hl (s : State) (h : Fin 4) (cause dev : BitVec 3) (seq pointer : Word) : (retireHerd s h cause dev seq pointer).hl =
    { s.hl with
      flags := s.hl.flags.set 2
      herds := upd s.hl.herds h fun d => { d with
        st := .retired, cause := cause, originDev := dev, originSeq := seq, sched := d.sched.filter fun e => e.ev != .start
        cross := if d.st = .idle then 0 else d.cross } } := by
  have hl : (retireList s (herdChannels s h) pointer).hl = s.hl :=
    (retireList_moves s _ pointer (Moves.refl [.tsq, .cap, .pw, .qe, .dm] s) fun _ h => h).only .hl (by decide)
  rw [retireHerd, State.modHl, State.modHerd, State.modHl, hl]

section
variable (due : EventDue s h .retire)
include due

theorem herdRetiredEffect_due : ∃ e, firstRetire (schedDue s h .retire) = some e ∧ herdRetiredEffect h s =
    if (!isMember s h || (getHerd s h).st == .retired) = true then schedDone s h .retire
    else retireHerd (schedDone s h .retire) h (if e.localFault then 1 else 2) (BitVec.ofNat 3 e.origin.val) e.seq
      (if e.localFault then e.seq else 0) := by
  obtain ⟨e, first⟩ : ∃ e, firstRetire (schedDue s h .retire) = some e :=
    Option.ne_none_iff_exists'.1 fun none => schedDue_nil_iff.1 (firstRetire_none none) due
  refine ⟨e, first, ?_⟩
  simp only [herdRetiredEffect, first, schedDone_st, isMember_schedDone]

theorem herdRetiredEffect_gone (k : isMember s h = false ∨ (getHerd s h).st = .retired) :
    herdRetiredEffect h s = schedDone s h .retire := by
  obtain ⟨e, -, eq⟩ := herdRetiredEffect_due due
  exact eq.trans (if_pos (by rcases k with k | k <;> simp [k]))

theorem herdRetiredEffect_retires (member : isMember s h = true) (st : (getHerd s h).st ≠ .retired) :
    let d := getHerd (herdRetiredEffect h s) h
    d.st = .retired ∧ (herdRetiredEffect h s).hl.flags.on 2 = true ∧
    ∃ e ∈ (getHerd s h).sched, e.ev = .retire ∧ e.tEff ≤ now s ∧ d.originDev = BitVec.ofNat 3 e.origin.val ∧ d.originSeq = e.seq ∧
      d.cause = (if e.localFault then 1 else 2) ∧ ∀ e' ∈ (getHerd s h).sched, e'.ev = .retire → e'.tEff ≤ now s →
        e.tEff < e'.tEff ∨ (e.tEff = e'.tEff ∧ e.origin.val ≤ e'.origin.val) := by
  obtain ⟨e, first, eq⟩ := herdRetiredEffect_due due
  rw [if_neg (by simp [member, st])] at eq
  obtain ⟨mem, least⟩ := firstRetire_some first
  obtain ⟨listed, ev, passed⟩ := mem_schedDue.1 mem
  have hl := retireHerd_hl (schedDone s h .retire) h (if e.localFault then 1 else 2) (BitVec.ofNat 3 e.origin.val) e.seq
    (if e.localFault then e.seq else 0)
  have herd := congrArg (fun l : Hl => l.herds[h.val]) hl
  dsimp only at herd ⊢
  rw [upd_same] at herd
  rw [eq, getHerd, herd]
  refine ⟨rfl, (congrArg (fun l : Hl => l.flags.on 2) hl).trans (Flags.on_set_same _ (by decide)), e, listed, ev, passed, rfl, rfl, rfl, ?_⟩
  exact fun e' mem' ev' passed' => least e' (mem_schedDue.2 ⟨mem', ev', passed'⟩)

end

/-- The instruction by which a class-0 message arrives. -/
def class0Instr (ev : HerdEvent) (head : HlHead) (c : HlCmd) : Instr :=
  match ev with
  | .start => .startMessage head c
  | .stop => .stopMessage head c
  | .retire => .retireMessage head c
  | .revive => .reviveMessage head c

theorem exec_class0Instr (ev : HerdEvent) (head : HlHead) (c : HlCmd) (s : State) :
    exec (class0Instr ev head c) s = onSys s (class0Effect ev head c) := by
  cases ev <;> rfl

/-- Settles O48: the lead's commands, a message by its first good copy, and each event by what its tick finds. -/
theorem herdCommands : Obligations.HerdCommands := by
  unfold Obligations.HerdCommands
  intro s h ev head c o clocked d waits sends message due gone low
  have answer {f : State → State} {t : State} (k : f s = t) : onSys s f = .next t := (onSys_clocked clocked f).trans (congrArg _ k)
  have arrives : exec message s = onSys s (class0Effect ev head c) := exec_class0Instr ev head c s
  refine ⟨fun out => ?_, fun lead => ⟨fun idle valid ready => answer (herdStartEffect_starts lead idle valid ready),
    fun k => answer (herdStartEffect_refused lead k), fun st => answer (herdStopEffect_started lead st),
    fun st => answer (herdStopEffect_idle st), fun st high => answer (herdReviveEffect_retired lead st (mt haltLow_iff.1 high)),
    fun k => answer (herdReviveEffect_idle (k.imp_right haltLow_iff.2))⟩, fun none own k => ?_, fun k => ?_, fun on up own => ?_,
    fun none => answer (herdStartedEffect_none none rfl), fun none => answer (herdStoppedEffect_none none rfl),
    fun none => answer (herdRetiredEffect_none none), fun none => answer (herdRevivedEffect_none none rfl),
    fun now_ k => answer (herdStartedEffect_gone now_ k), fun now_ k => answer (herdStoppedEffect_gone now_ k),
    fun now_ k => answer (herdRetiredEffect_gone now_ k), fun now_ k => answer (herdRevivedEffect_gone now_ k), fun member =>
    ⟨fun now_ stays st => ⟨_, answer rfl, ?_, herdStartedEffect_starts now_ member stays st⟩,
      fun now_ st => ⟨_, answer rfl, ?_, herdStoppedEffect_stops now_ member st⟩,
      fun now_ st => ⟨_, answer rfl, ?_, herdRetiredEffect_retires now_ member st⟩,
      fun now_ st => ⟨_, answer rfl, ?_, herdRevivedEffect_revives now_ member st⟩⟩⟩
  · obtain ⟨start, stop, revive⟩ := herdCommands_follower out
    exact ⟨answer start, answer stop, answer revive⟩
  · subst own
    exact fixOut0_fixes none k
  · refine arrives.trans ((answer (onUp_idle (k.imp (fun off => by simp [off]) fun down => ?_) _)).trans (answer rfl).symm)
    simpa [portUp] using down
  · subst own
    have st : (getPort s head.port).st = .up := beq_iff_eq.1 up
    refine ⟨_, arrives.trans (answer rfl), (class0Effect_moves ev head c s (Moves.refl _ s) (by decide)).only, fun first => ?_,
      fun seen => (class0_again on st seen).1, fun k => ?_⟩
    · by_cases member : isMember s head.herd = true
      · obtain ⟨seen, rest⟩ := class0_member (ev := ev) on st first member
        exact ⟨seen, fun _ => rest⟩
      · obtain ⟨seen, -⟩ := class0_other (ev := ev) on st first ((Bool.not_eq_true _).mp member)
        exact ⟨seen, fun k => absurd k member⟩
    · by_cases seen : (head.origin, c.serial) ∈ s.hl.seen
      · exact (class0_again on st seen).2
      · exact (class0_other on st seen (k.resolve_left seen)).2
  · exact (herdStartedEffect_moves h s (Moves.refl _ s) (by decide)).only
  · exact (herdStoppedEffect_moves h s (Moves.refl _ s) (by decide)).only
  · exact (herdRetiredEffect_moves h s (Moves.refl _ s) (by decide)).only
  · exact (herdRevivedEffect_moves h s (Moves.refl _ s) (by decide)).only

end Sys2Proof.Machine
end

section
/-! POSITIONs, READY events, HERD_HALT_N and the settings of the herd link (R347, R348, R350, R358, R359, R361), and the theorem that settles
O49. -/

namespace Sys2Proof.Machine

variable {s t u : State} {h : Fin 4} {head : HlHead} {b : HlPos} {d : Fin 8} {low : Bool}

/-! ### POSITION (R347, R348) -/

/-- The state of REM(h) is not what the last POSITION carried, or 64 slots will have passed. -/
def PositionChanged (s : State) (h : Fin 4) : Prop :=
  (getHerd s h).sentAt = none ∨ gatePos s (8 + h.val) ≠ (getHerd s h).sentPos ∨ remFlags s h ≠ (getHerd s h).sentFlags ∨
    ∃ at_, (getHerd s h).sentAt = some at_ ∧ at_ + 2048 ≤ s.clock + 9

theorem positionIsDue_iff : positionIsDue s h = true ↔ PositionChanged s h := by
  unfold positionIsDue PositionChanged
  dsimp only
  split
  · next none => simp [none]
  · next at_ e => simp [e, or_assoc]

theorem positionDueEffect_idle (k : isLead s h = false ∨ ¬PositionChanged s h) : positionDueEffect h s = s := by
  refine if_neg ?_
  simp only [Bool.and_eq_true, positionIsDue_iff]
  rintro ⟨lead, changed⟩
  exact k.elim (fun out => Bool.false_ne_true (out.symm.trans lead)) (· changed)

theorem positionDueEffect_due (lead : isLead s h = true) (changed : PositionChanged s h) : positionDueEffect h s =
    s.modHerd h fun d => { d with
      due := some ⟨gatePos s (8 + h.val), (srcStamp s (8 + h.val)).toNat, remFlags s h, upPortBits s, false⟩ } :=
  if_pos (by rw [lead, positionIsDue_iff.2 changed]; rfl)

theorem positionSent_waiting {w : PosDue} (first : w.sent = false) : (positionSent s h w).tbe.rem[h.val].waiting =
    s.tbe.rem[h.val].waiting ++ [{ pos := w.pos, stamp := w.stamp, at_ := w.stamp + max 640 (now s - w.stamp + 448) }] := by
  simp only [positionSent, first, Bool.false_eq_true, if_false]
  exact congrArg Rem.waiting (upd_same _ _ _)

/-- The payload of a POSITION as it goes on. -/
def positionPayload (b : HlPos) : List Byte :=
  beBytes 4 b.pos.toNat ++ beBytes 6 b.stamp.toNat ++
    [(putB 0 b.rev ||| putB 1 b.suspect ||| putB 2 b.failed ||| putB 3 b.valid).setWidth 8]

/-- A POSITION taken and forwarded. -/
def positionForward (s : State) (head : HlHead) (b : HlPos) : State := forward (receiveHerd s head) head 4 (positionPayload b)

/-- REM(h) as a POSITION gives it. -/
def positionRem (s : State) (head : HlHead) (b : HlPos) (r : Rem) : Rem :=
  { r with
    pos := b.pos, stamp := BitVec.ofNat 64 (extend48 s b.stamp), valid := b.valid, rev := b.rev, suspect := b.suspect, failed := b.failed
    waiting := r.waiting ++ [{ pos := b.pos, stamp := extend48 s b.stamp,
                               at_ := entryTick (extend48 s b.stamp) (now s - 64 * (head.hops.val + 1)) }] }

/-- What a POSITION of the lead does on a follower, after it was forwarded. -/
def positionTaken (s : State) (head : HlHead) (b : HlPos) : State :=
  remMoved (((s.modHerd head.herd fun d => { d with leadPort := some head.port }).modRem head.herd (positionRem s head b))) head.herd
    ((getRem s head.herd).rev != b.rev)

section
variable (on : hlOn s = true) (up : (getPort s head.port).st = .up)
include on up

theorem positionMessageEffect_eq : positionMessageEffect head b s =
    let u := positionForward s head b
    if head.origin ≠ herdLeadDev u head.herd then u.modHl fun l => { l with cntForeign := l.cntForeign + 1 }
    else if (isMember u head.herd && !isLead u head.herd) = true then positionTaken u head b else u :=
  onUp_up on up _

end

theorem HerdMessageLeaves.group (k : HerdMessageLeaves h s t) : t.hl.group = s.hl.group := by
  obtain ⟨_, _, _, e⟩ := k
  rw [e]

/-- Membership and lead are the group's (R335). -/
theorem isMember_congr (k : t.hl.group = s.hl.group) (h : Fin 4) : isMember t h = isMember s h := by
  simp only [isMember, herdCfg, k]

theorem herdLeadDev_congr (k : t.hl.group = s.hl.group) (h : Fin 4) : herdLeadDev t h = herdLeadDev s h := by
  simp only [herdLeadDev, herdCfg, k]

theorem isLead_congr (k : t.hl.group = s.hl.group) (h : Fin 4) : isLead t h = isLead s h := by
  simp only [isLead, isMember_congr k, herdLeadDev_congr k, hlDev, hlCfg, k]

theorem positionForward_leaves (s : State) (head : HlHead) (b : HlPos) : HerdMessageLeaves head.herd s (positionForward s head b) :=
  herdMessage_leaves s head 4 _

theorem positionForward_only (s : State) (head : HlHead) (b : HlPos) : Only [.hl, .qe, .dm] s (positionForward s head b) :=
  (herdMessage_moves (Moves.refl _ s) (by decide) 4 _).only

section
variable (on : hlOn s = true) (up : (getPort s head.port).st = .up)
include on up

theorem positionMessage_foreign (foreign : head.origin ≠ herdLeadDev s head.herd) :
    let t := positionMessageEffect head b s
    Only [.hl, .qe, .dm] s t ∧ t.hl.cntForeign = s.hl.cntForeign + 1 ∧ (getHerd t head.herd).st = (getHerd s head.herd).st := by
  have leaves := positionForward_leaves s head b
  have only := positionForward_only s head b
  obtain ⟨x, herd⟩ := leaves.fields
  dsimp only
  rw [positionMessageEffect_eq on up]
  dsimp only
  rw [herdLeadDev_congr leaves.group, if_pos foreign]
  obtain ⟨_, _, _, hl⟩ := leaves
  refine ⟨only.trans (((Moves.refl _ _).modHl (by decide) _).only), ?_, (congrArg Herd.st herd :)⟩
  exact (congrArg (fun l : Hl => l.cntForeign + 1) hl :)

section
variable (own : head.origin = herdLeadDev s head.herd)
include own

theorem positionMessage_outside (k : isMember s head.herd = false ∨ isLead s head.herd = true) :
    positionMessageEffect head b s = positionForward s head b := by
  have group := (positionForward_leaves s head b).group
  rw [positionMessageEffect_eq on up]
  dsimp only
  rw [herdLeadDev_congr group, isMember_congr group, isLead_congr group, if_neg (not_not_intro own)]
  exact if_neg (by rcases k with k | k <;> simp [k])

theorem positionMessage_follower (member : isMember s head.herd = true) (follows : isLead s head.herd = false) :
    positionMessageEffect head b s = positionTaken (positionForward s head b) head b := by
  have group := (positionForward_leaves s head b).group
  rw [positionMessageEffect_eq on up]
  dsimp only
  rw [herdLeadDev_congr group, isMember_congr group, isLead_congr group, if_neg (not_not_intro own)]
  exact if_pos (by simp [member, follows])

end

end

theorem positionTaken_hl (s : State) (head : HlHead) (b : HlPos) : (positionTaken s head b).hl =
    { s.hl with herds := upd s.hl.herds head.herd fun d => { d with leadPort := some head.port } } :=
  (remMoved_moves _ head.herd _ (Moves.refl [.tsq, .pw] _) fun _ h => h).only .hl (by decide)

theorem positionTaken_tbe (s : State) (head : HlHead) (b : HlPos) : (positionTaken s head b).tbe =
    { s.tbe with rem := upd s.tbe.rem head.herd (positionRem s head b) } :=
  (remMoved_moves _ head.herd _ (Moves.refl [.tsq, .pw] _) fun _ h => h).only .tbe (by decide)

theorem positionRem_congr (k : t.time = s.time) (head : HlHead) (b : HlPos) (r : Rem) : positionRem t head b r = positionRem s head b r := by
  have same : now t = now s := congrArg BitVec.toNat k
  rw [positionRem, positionRem, extend48_congr k, same]

/-- A POSITION of the lead on a follower of its herd. -/
theorem positionMessage_taken (on : hlOn s = true) (up : (getPort s head.port).st = .up) (own : head.origin = herdLeadDev s head.herd)
    (member : isMember s head.herd = true) (follows : isLead s head.herd = false) :
    let t := positionMessageEffect head b s
    (getHerd t head.herd).st = (getHerd s head.herd).st ∧ (getHerd t head.herd).leadPort = some head.port ∧
      t.tbe = { s.tbe with rem := upd s.tbe.rem head.herd fun _ => positionRem s head b s.tbe.rem[head.herd.val] } := by
  have only := positionForward_only s head b
  have tbe : (positionForward s head b).tbe = s.tbe := only .tbe (by decide)
  have time : (positionForward s head b).time = s.time := only .time (by decide)
  obtain ⟨x, herd⟩ := (positionForward_leaves s head b).fields
  dsimp only
  rw [positionMessage_follower on up own member follows, getHerd, positionTaken_hl, positionTaken_tbe, tbe]
  dsimp only
  rw [upd_same]
  refine ⟨(congrArg Herd.st herd :), rfl, ?_⟩
  exact congrArg (fun v => { s.tbe with rem := v }) (upd_congr _ _ _ _ (positionRem_congr time head b _))

/-! ### READY (R350) -/

theorem eventReadyEffect_eq (on : hlOn s = true) (up : (getPort s head.port).st = .up) : eventReadyEffect head s =
    let u := forward (receiveHerd s head) head 5 [1]
    if isLead u head.herd = true then
      u.modHerd head.herd fun d =>
        { d with readySeen := setBit d.readySeen head.origin.val, readyAt := upd d.readyAt head.origin fun _ => u.clock }
    else u := onUp_up on up _

theorem eventReady_leaves (on : hlOn s = true) (up : (getPort s head.port).st = .up) :
    let g := getHerd (eventReadyEffect head s) head.herd
    (isLead s head.herd = true → g.readySeen = setBit (getHerd s head.herd).readySeen head.origin.val ∧
      g.readyAt = upd (getHerd s head.herd).readyAt head.origin fun _ => s.clock) ∧
    (isLead s head.herd = false → g.readySeen = (getHerd s head.herd).readySeen) := by
  have leaves := herdMessage_leaves s head 5 [1]
  have clock : (forward (receiveHerd s head) head 5 [1]).clock = s.clock :=
    (herdMessage_moves (Moves.refl [.qe, .hl, .dm] s) (fun _ h => h) 5 [1]).only .clock (by decide)
  obtain ⟨x, herd⟩ := leaves.fields
  dsimp only
  rw [eventReadyEffect_eq on up]
  dsimp only
  rw [isLead_congr leaves.group, clock]
  refine ⟨fun lead => ?_, fun follows => ?_⟩
  · rw [if_pos lead, modHerd_eq, getHerd_withHerd, herd]
    exact ⟨rfl, rfl⟩
  · rw [if_neg (by simp [follows]), herd]

/-- A READY is due: none was sent in the last 128 slots. -/
def readyIsDue (s : State) (h : Fin 4) : Bool := match (getHerd s h).readySentAt with | none => true | some t => decide (t + 4096 ≤ s.clock)

/-- The port that the lead's positions come in on is UP. -/
def towardLead (s : State) (h : Fin 4) : Bool := match (getHerd s h).leadPort with | some p => portUp s p | none => false

theorem readyIsDue_iff : readyIsDue s h = true ↔ (getHerd s h).readySentAt = none ∨
    ∃ at_, (getHerd s h).readySentAt = some at_ ∧ at_ + 4096 ≤ s.clock := by
  unfold readyIsDue
  split
  · next e => simp [e]
  · next at_ e => simp [e]

theorem towardLead_iff : towardLead s h = true ↔ ∃ p, (getHerd s h).leadPort = some p ∧ portUp s p = true := by
  unfold towardLead
  split
  · next p e => simp [e]
  · next e => simp [e]

/-- A follower of herd h sends READY. -/
def ReadyGoes (s : State) (h : Fin 4) : Prop :=
  isMember s h = true ∧ isLead s h = false ∧ s.hl.aligned = true ∧ (getHerd s h).st ≠ .retired ∧
    (∃ p, (getHerd s h).leadPort = some p ∧ portUp s p = true) ∧
    ((getHerd s h).readySentAt = none ∨ ∃ at_, (getHerd s h).readySentAt = some at_ ∧ at_ + 4096 ≤ s.clock)

theorem readyGoes_iff : (isMember s h && !isLead s h && s.hl.aligned && (getHerd s h).st != .retired && towardLead s h &&
    readyIsDue s h) = true ↔ ReadyGoes s h := by
  simp only [ReadyGoes, Bool.and_eq_true, Bool.not_eq_true', bne_iff_ne, towardLead_iff, readyIsDue_iff, and_assoc]

theorem readyOriginateEffect_eq (s : State) (h : Fin 4) : readyOriginateEffect h s =
    if (isMember s h && !isLead s h && s.hl.aligned && (getHerd s h).st != .retired && towardLead s h && readyIsDue s h) = true then
      (markUp s fun q => { q with readyDue := setBit q.readyDue h.val }).modHerd h fun d => { d with readySentAt := some s.clock }
    else s := rfl

theorem readyOriginateEffect_goes (k : ReadyGoes s h) : readyOriginateEffect h s =
    (markUp s fun q => { q with readyDue := setBit q.readyDue h.val }).modHerd h fun d => { d with readySentAt := some s.clock } :=
  (readyOriginateEffect_eq s h).trans (if_pos (readyGoes_iff.2 k))

theorem readyOriginateEffect_idle (k : ¬ReadyGoes s h) : readyOriginateEffect h s = s :=
  (readyOriginateEffect_eq s h).trans (if_neg (mt readyGoes_iff.1 k))

theorem readyExpiryEffect_expires (seen : bit (getHerd s h).readySeen d.val = true) (lapsed : (getHerd s h).readyAt[d.val] + 8192 ≤ s.clock) :
    readyExpiryEffect h d s = s.modHerd h fun g => { g with readySeen := assignBit g.readySeen d.val false } :=
  if_pos (by simp [seen, lapsed])

theorem readyExpiryEffect_idle (k : bit (getHerd s h).readySeen d.val = false ∨ s.clock < (getHerd s h).readyAt[d.val] + 8192) :
    readyExpiryEffect h d s = s :=
  if_neg (by rcases k with k | k <;> simp [k])

/-! ### HERD_HALT_N (R358, R359) -/

/-- The wire is low when this device pulls it or another one does. -/
def wireLow (s : State) (own ext : Bool) : Bool := (own && pinsLive s) || ext

/-- Since when the wire is low, once it is seen low or high. -/
def lowSince (s : State) (low : Bool) : Option Nat :=
  if low then (if s.hl.haltSince.isSome then s.hl.haltSince else some s.clock) else none

/-- The wire with what this device and the others give it. -/
def withWire (s : State) (own ext : Bool) : State :=
  { s with hl := { s.hl with haltOut := own, haltExt := ext, haltSince := lowSince s (wireLow s own ext) } }

theorem haltEffect_eq (s : State) : haltEffect s = withWire s true s.hl.haltExt := rfl
theorem haltReleaseEffect_eq (s : State) : haltReleaseEffect s = withWire s false s.hl.haltExt := rfl

theorem haltHighEffect_eq (s : State) : haltHighEffect s =
    { withWire s s.hl.haltOut false with
      hl := { (withWire s s.hl.haltOut false).hl with haltIn := s.hl.haltIn && wireLow s s.hl.haltOut false } } := by
  have wire : haltLow (withWire s s.hl.haltOut false) = wireLow s s.hl.haltOut false := rfl
  have eq : haltHighEffect s = if haltLow (withWire s s.hl.haltOut false) = true then withWire s s.hl.haltOut false
      else (withWire s s.hl.haltOut false).modHl fun l => { l with haltIn := false } := rfl
  rw [eq, wire]
  cases wireLow s s.hl.haltOut false with
  | true => rw [if_pos rfl, Bool.and_true]; rfl
  | false => rw [if_neg Bool.false_ne_true, Bool.and_false]; rfl

/-- HERD_HALT_N is accepted low: low for 4 samples, with HALT_EN, and not accepted yet. -/
def HaltAccepted (s : State) (low : Bool) : Prop :=
  hlHaltEn s = true ∧ wireLow s s.hl.haltOut low = true ∧ s.hl.haltIn = false ∧ ∃ at_, s.hl.haltSince = some at_ ∧ at_ + 3 ≤ s.clock

/-- A wire that is low since this very tick has not been low long enough. -/
theorem haltAccepted_iff : haltAccepted (withWire s s.hl.haltOut low) = true ↔ HaltAccepted s low := by
  have wire : haltLow (withWire s s.hl.haltOut low) = wireLow s s.hl.haltOut low := rfl
  have clock : (withWire s s.hl.haltOut low).clock = s.clock := rfl
  have since : (withWire s s.hl.haltOut low).hl.haltSince = lowSince s (wireLow s s.hl.haltOut low) := rfl
  simp only [haltAccepted, wire, since, Bool.and_eq_true, Bool.not_eq_true', HaltAccepted, and_assoc]
  refine and_congr_right fun _ => and_congr_right fun isLow => and_congr_right fun _ => ?_
  rw [isLow, lowSince, if_pos rfl]
  cases s.hl.haltSince with
  | none => simp [clock]
  | some at_ => simp [clock]

/-- The herds that HERD_HALT_N retires. -/
def haltHerds (s : State) : List (Fin 4) := (allFin 4).filter fun h => isMember s h && (getHerd s h).st != .retired

theorem mem_haltHerds {k : Fin 4} : k ∈ haltHerds s ↔ isMember s k = true ∧ (getHerd s k).st ≠ .retired := by
  simp [haltHerds, allFin]

/-- One herd retired by HERD_HALT_N: R359 names no origin. -/
def haltRetire (h : Fin 4) (s : State) : State := retireHerd s.freeStep h 3 (BitVec.ofNat 3 (freeValue s)) 0 0

theorem haltAcceptEffect_accepts (k : HaltAccepted s low) : haltAcceptEffect low s =
    let u := (withWire s s.hl.haltOut low).modHl fun l => { l with haltIn := true, flags := l.flags.set 3 }
    forEach (haltHerds u) haltRetire u := if_pos (haltAccepted_iff.2 k)

theorem haltAcceptEffect_waits (k : ¬HaltAccepted s low) : haltAcceptEffect low s = withWire s s.hl.haltOut low :=
  if_neg (mt haltAccepted_iff.1 k)

/-- A herd that HERD_HALT_N has retired. -/
def HaltRetired (d : Herd) : Prop := d.st = .retired ∧ d.cause = 3 ∧ d.originSeq = 0

theorem haltRetire_hl (s : State) (h : Fin 4) : (haltRetire h s).hl.haltIn = s.hl.haltIn ∧
    (s.hl.flags.on 3 = true → (haltRetire h s).hl.flags.on 3 = true) ∧ HaltRetired (getHerd (haltRetire h s) h) ∧
    ∀ k, k ≠ h → getHerd (haltRetire h s) k = getHerd s k := by
  have hl := retireHerd_hl s.freeStep h 3 (BitVec.ofNat 3 (freeValue s)) 0 0
  refine ⟨(congrArg Hl.haltIn hl :), fun on => ?_, ?_, fun k ne => ?_⟩
  · rw [haltRetire, hl]; exact Flags.on_set_of_on 2 on
  · rw [haltRetire, getHerd, hl, upd_same]; exact ⟨rfl, rfl, rfl⟩
  · rw [haltRetire, getHerd, hl]; exact upd_other _ _ _ _ ne.symm

theorem forEach_haltRetire (l : List (Fin 4)) (s : State) : (forEach l haltRetire s).hl.haltIn = s.hl.haltIn ∧
    (s.hl.flags.on 3 = true → (forEach l haltRetire s).hl.flags.on 3 = true) ∧
    ∀ k, (k ∈ l → HaltRetired (getHerd (forEach l haltRetire s) k)) ∧ (k ∉ l → getHerd (forEach l haltRetire s) k = getHerd s k) := by
  induction l generalizing s with
  | nil => exact ⟨rfl, id, fun k => ⟨fun mem => absurd mem List.not_mem_nil, fun _ => rfl⟩⟩
  | cons h l ih =>
    obtain ⟨haltIn, flag, retired, others⟩ := haltRetire_hl s h
    obtain ⟨haltIn', flag', herds⟩ := ih (haltRetire h s)
    refine ⟨haltIn'.trans haltIn, flag' ∘ flag, fun k => ⟨fun mem => ?_, fun out => ?_⟩⟩
    · by_cases later : k ∈ l
      · exact (herds k).1 later
      · obtain rfl : k = h := (List.mem_cons.1 mem).resolve_right later
        exact ((herds k).2 later).symm ▸ retired
    · exact ((herds k).2 fun mem => out (List.mem_cons_of_mem h mem)).trans (others k fun e => out (e ▸ List.mem_cons_self))

theorem haltAccept_retires (k : HaltAccepted s low) :
    let t := haltAcceptEffect low s
    t.hl.haltIn = true ∧ t.hl.flags.on 3 = true ∧ ∀ k : Fin 4,
      (isMember s k = true → (getHerd s k).st ≠ .retired → HaltRetired (getHerd t k)) ∧
      (isMember s k = false ∨ (getHerd s k).st = .retired → getHerd t k = getHerd s k) := by
  dsimp only
  rw [haltAcceptEffect_accepts k]
  generalize accepted : (withWire s s.hl.haltOut low).modHl (fun l => { l with haltIn := true, flags := l.flags.set 3 }) = u
  have listed (k : Fin 4) : k ∈ haltHerds u ↔ isMember s k = true ∧ (getHerd s k).st ≠ .retired := accepted ▸ mem_haltHerds
  have herd (k : Fin 4) : getHerd u k = getHerd s k := accepted ▸ rfl
  obtain ⟨haltIn, flag, herds⟩ := forEach_haltRetire (haltHerds u) u
  refine ⟨haltIn.trans (accepted ▸ rfl), flag (accepted ▸ Flags.on_set_same _ (by decide)), fun k =>
    ⟨fun member st => (herds k).1 ((listed k).2 ⟨member, st⟩), fun out => ((herds k).2 fun mem => ?_).trans (herd k)⟩⟩
  obtain ⟨member, st⟩ := (listed k).1 mem
  exact out.elim (fun out => Bool.false_ne_true (out.symm.trans member)) st

/-! ### The settings (R361) -/

theorem hlCommitEffect_idle (k : s.hl.group.pending = false ∨ anyHerdLive s = true) : hlCommitEffect s = s :=
  if_neg (by rcases k with k | k <;> simp [k])

/-- The block with its group applied. -/
def hlApplied (s : State) : State :=
  let t := s.modHl fun l => { l with group := l.group.apply }
  t.modHl fun l => { l with
    ports := Vector.ofFn fun p : Fin 2 => portEnable (portEn t p) (getPort t p)
    herds := Vector.ofFn fun h : Fin 4 => herdEnable (isMember t h) (getHerd t h) }

/-- REM(h) starts again where the commit ends it. -/
def remRestart (s : State) (h : Fin 4) (t : State) : State :=
  if remKept s t h then t else t.modRem h fun r => { Rem.init with localEnc := r.localEnc }

theorem hlCommitEffect_applies (pending : s.hl.group.pending = true) (quiet : anyHerdLive s = false) : hlCommitEffect s =
    forEach (allFin 16) (fun n t => leaveSrcWait t n) (forEach (allFin 4) (remRestart s) (hlApplied s)) :=
  if_pos (by simp [pending, quiet])

theorem remKept_congr (k : t.hl.group = u.hl.group) (s : State) (h : Fin 4) : remKept s t h = remKept s u h := by
  simp only [remKept, isFollower, isMember_congr k, isLead_congr k]

/-- The restart of the sources keeps the block, and the sources that go on. -/
theorem forEach_remRestart (l : List (Fin 4)) (s t : State) : (forEach l (remRestart s) t).hl = t.hl ∧
    ∀ k, remKept s t k = true → (forEach l (remRestart s) t).tbe.rem[k.val] = t.tbe.rem[k.val] := by
  induction l generalizing t with
  | nil => exact ⟨rfl, fun _ _ => rfl⟩
  | cons h l ih =>
    have hl : (remRestart s h t).hl = t.hl := by
      unfold remRestart
      split <;> rfl
    obtain ⟨hl', rems⟩ := ih (remRestart s h t)
    refine ⟨hl'.trans hl, fun k kept => (rems k ((remKept_congr (congrArg Hl.group hl) s k).trans kept)).trans ?_⟩
    unfold remRestart
    split
    · rfl
    · next gone => exact upd_other _ _ _ _ fun e => gone (e ▸ kept)

/-- FAILED and LONG outlast a port's EN (R340, R356). -/
theorem portEnable_st (en : Bool) (q : HlPort) :
    (portEnable en q).st = (if en then (if q.st = .disabled then q.kept else q.st) else .disabled) ∧
    (en = false → q.st = .failed → (portEnable en q).kept = .failed) := by
  cases en with
  | true =>
    by_cases off : q.st = .disabled
    · simp only [portEnable, if_true, if_pos off]
      exact ⟨trivial, nofun⟩
    · simp only [portEnable, if_true, if_neg off]
      exact ⟨trivial, nofun⟩
  | false =>
    by_cases off : q.st = .disabled
    · simp only [portEnable, Bool.false_eq_true, if_false, if_pos off]
      exact ⟨off, fun _ failed => by rw [off] at failed; cases failed⟩
    · simp only [portEnable, Bool.false_eq_true, if_false, if_neg off]
      exact ⟨trivial, fun _ failed => by rw [if_pos (.inl failed)]; exact failed⟩

/-- RETIRED outlasts a herd's EN (R16). -/
theorem herdEnable_st (en : Bool) (d : Herd) :
    (herdEnable en d).st = (if en then (if d.st = .off then (if d.kept then .retired else .idle) else d.st) else .off) ∧
    (en = false → d.st = .retired → (herdEnable en d).kept = true) := by
  cases en with
  | true =>
    by_cases off : d.st = .off
    · simp only [herdEnable, Bool.not_true, Bool.false_eq_true, if_false, if_pos off, if_true]
      exact ⟨trivial, nofun⟩
    · simp only [herdEnable, Bool.not_true, Bool.false_eq_true, if_false, if_neg off, if_true]
      exact ⟨trivial, nofun⟩
  | false => exact ⟨rfl, fun _ retired => by simp [herdEnable, retired]⟩

theorem hlCommit_leaves (pending : s.hl.group.pending = true) (quiet : anyHerdLive s = false) :
    (hlCommitEffect s).hl = (hlApplied s).hl ∧ ∀ k, remKept s (hlCommitEffect s) k = true → (hlCommitEffect s).tbe.rem[k.val] = s.tbe.rem[k.val] := by
  have e := hlCommitEffect_applies pending quiet
  obtain ⟨hl, rems⟩ := forEach_remRestart (allFin 4) s (hlApplied s)
  generalize forEach (allFin 4) (remRestart s) (hlApplied s) = u at e hl rems
  have only : Only [.tsq] u (hlCommitEffect s) := e ▸ (Moves.each (Moves.refl _ u) fun n t k => leaveSrcWait_moves t n k fun _ h => h).only
  have block : (hlCommitEffect s).hl = (hlApplied s).hl := (only .hl (by decide)).trans hl
  refine ⟨block, fun k kept => ?_⟩
  have tbe : (hlCommitEffect s).tbe = u.tbe := only .tbe (by decide)
  rw [tbe]
  exact rems k ((remKept_congr (congrArg Hl.group block) s k).symm.trans kept)

theorem hlApplied_port (s : State) (p : Fin 2) : (hlApplied s).hl.ports[p.val] =
    portEnable (bit s.hl.group.shadow.cfg (8 + p.val)) (getPort s p) := Vector.getElem_ofFn _

theorem hlApplied_herd (s : State) (h : Fin 4) : (hlApplied s).hl.herds[h.val] =
    herdEnable (bit s.hl.group.shadow.herd[h.val] 0) (getHerd s h) := Vector.getElem_ofFn _

/-- Settles O49: a POSITION and a READY by who receives them, HERD_HALT_N by its wire, and the commit port by port and herd by herd. -/
theorem herdState : Obligations.HerdState := by
  unfold Obligations.HerdState
  intro s h d head b low w clocked g r src becomes frame changed
  have answer {f : State → State} {t : State} (k : f s = t) : onSys s f = .next t := (onSys_clocked clocked f).trans (congrArg _ k)
  refine ⟨fun k => answer (positionDueEffect_idle k), fun lead k => answer (positionDueEffect_due lead k), positionSent_waiting,
    fun k => ?_, fun on up own => ?_, ⟨fun k => answer (readyOriginateEffect_goes k), fun k => answer (readyOriginateEffect_idle k)⟩,
    fun seen lapsed => answer (readyExpiryEffect_expires seen lapsed), fun k => answer (readyExpiryEffect_idle k),
    ⟨answer (haltEffect_eq s), answer (haltReleaseEffect_eq s), answer (haltHighEffect_eq s),
      fun k => answer (haltAcceptEffect_waits k), fun k => ?_⟩, answer rfl, fun k => answer (hlCommitEffect_idle k),
    fun pending quiet => ?_⟩
  · have idle : ¬hlOn s = true ∨ (getPort s head.port).st ≠ .up :=
      k.imp (fun off => by simp [off]) fun down => by simpa [portUp] using down
    exact ⟨(answer (onUp_idle idle _)).trans (answer rfl).symm, (answer (onUp_idle idle _)).trans (answer rfl).symm⟩
  · subst own
    have st : (getPort s head.port).st = .up := beq_iff_eq.1 up
    have ready := eventReady_leaves on st
    have only := (eventReadyEffect_moves head s (Moves.refl [.hl, .qe, .dm] s) (by decide)).only
    refine ⟨fun own member follows => ?_, fun own k => ?_, fun foreign => ?_, fun lead => ?_, fun follows => ?_⟩
    · obtain ⟨same, port, tbe⟩ := positionMessage_taken (b := b) on st own member follows
      exact ⟨_, ⟨answer rfl, (positionMessageEffect_moves head b s (Moves.refl _ s) (by decide)).only⟩, same, port, tbe⟩
    · obtain ⟨_, _, _, hl⟩ := positionForward_leaves s head b
      exact ⟨_, ⟨answer (positionMessage_outside on st own k), positionForward_only s head b⟩, (congrArg Hl.cntForeign hl :)⟩
    · obtain ⟨only, count, same⟩ := positionMessage_foreign (b := b) on st foreign
      exact ⟨_, ⟨answer rfl, only⟩, count, same⟩
    · exact ⟨_, ⟨answer rfl, only⟩, ready.1 lead⟩
    · exact ⟨_, ⟨answer rfl, only⟩, ready.2 follows⟩
  · exact ⟨_, answer rfl, (haltAcceptEffect_moves low s (Moves.refl _ s) (by decide)).only, haltAccept_retires k⟩
  · obtain ⟨hl, rems⟩ := hlCommit_leaves pending quiet
    refine ⟨_, answer rfl, (hlCommitEffect_moves s (Moves.refl _ s) (by decide)).only, (congrArg Hl.group hl :), fun p => ?_, fun k => ?_⟩
    · have port := (congrArg (fun l : Hl => l.ports[p.val]) hl).trans (hlApplied_port s p)
      rw [port]
      exact portEnable_st _ (getPort s p)
    · have herd := (congrArg (fun l : Hl => l.herds[k.val]) hl).trans (hlApplied_herd s k)
      obtain ⟨st, kept⟩ := herdEnable_st (bit s.hl.group.shadow.herd[k.val] 0) (getHerd s k)
      rw [herd]
      exact ⟨st, kept, rems k⟩

end Sys2Proof.Machine
end

section
/-! Frames of the egress ports: begun with the gap of their line (R310, R313, R314), read (R315, R316), and discarded with their entry
(R318). -/

namespace Sys2Proof.Machine

variable {s t u : State} {n : Fin 4} {p : Egr} {h : Held} {rest : List Held} {F : Nat} {i : Fin 16} {last : Word} {eccs : List Ecc}

/-! ### The gap of a line (R310, R313) -/

theorem beginLine_under (k : h.fmax.isSome = true) (p : Egr) : beginLine p h = (h, p) := if_pos k

/-- A line begun: F_MAX is fixed, and no gap is known yet. -/
def Held.plain (h : Held) (F : Nat) : Held := { h with fmax := some F, gapValid := false, gap := 0 }

/-- A line begun d identities after the last one of its tracker. -/
def Held.gapped (h : Held) (F : Nat) (d : Int) : Held :=
  if 1 ≤ d then { h.plain F with gapValid := true, gap := BitVec.ofNat 16 (min (d - 1).toNat 0xFFFF) } else h.plain F

/-- F_MAX of the line's class. -/
def lineFmax (p : Egr) (h : Held) : Nat := clsFmax p.group.active.cls[h.cls.val]

section
variable (first : h.fmax = none)
include first

theorem beginLine_first (p : Egr) : beginLine p h =
    ({ h with
        fmax := some (clsFmax (trackLine p h.ring (lineTrig h)).2.group.active.cls[h.cls.val])
        gapValid := (trackLine p h.ring (lineTrig h)).1.1, gap := (trackLine p h.ring (lineTrig h)).1.2 },
      (trackLine p h.ring (lineTrig h)).2) := if_neg (by simp [first])

theorem beginLine_untracked (none : trackerOf p.group.active h.ring = none) : beginLine p h = (h.plain (lineFmax p h), p) := by
  have track : trackLine p h.ring (lineTrig h) = ((false, 0), p) := by simp only [trackLine, none]
  rw [beginLine_first first, track]
  rfl

variable (tracker : trackerOf p.group.active h.ring = some i)
include tracker

theorem beginLine_new (none : p.gapLast[i.val] = none) : beginLine p h =
    (h.plain (lineFmax p h), { p with gapLast := upd p.gapLast i fun _ => some (lineTrig h) }) := by
  have track : trackLine p h.ring (lineTrig h) = ((false, 0), { p with gapLast := upd p.gapLast i fun _ => some (lineTrig h) }) := by
    simp only [trackLine, tracker, none]
  rw [beginLine_first first, track]
  rfl

theorem beginLine_later (known : p.gapLast[i.val] = some last) : beginLine p h =
    (h.gapped (lineFmax p h) (sInt (lineTrig h - last)), { p with
      gapLast := upd p.gapLast i fun _ => some (lineTrig h)
      cntOrder := if 1 ≤ sInt (lineTrig h - last) then p.cntOrder else p.cntOrder + 1 }) := by
  have track : trackLine p h.ring (lineTrig h) =
      if 1 ≤ sInt (lineTrig h - last) then
        ((true, BitVec.ofNat 16 (min (sInt (lineTrig h - last) - 1).toNat 0xFFFF)),
          { p with gapLast := upd p.gapLast i fun _ => some (lineTrig h) })
      else ((false, 0), { p with gapLast := upd p.gapLast i (fun _ => some (lineTrig h)), cntOrder := p.cntOrder + 1 }) := by
    simp only [trackLine, tracker, known]
  rw [beginLine_first first, track, Held.gapped]
  split <;> rfl

end

/-! ### The construction of a frame (R307, R308, R314) -/

/-- The frame of the fragment at byte h.frag of its line, with F_MAX = F and its payload still to be read. -/
def FrameFor (s : State) (n : Fin 4) (f : Frame) (h : Held) (F : Nat) : Prop :=
  f.first = decide (h.frag = 0) ∧ f.fragOffset = BitVec.ofNat 16 h.frag ∧ f.trig = h.trig + BitVec.ofNat 32 h.line ∧ f.user = h.user ∧
    f.lineBytes = BitVec.ofNat 16 h.length ∧ f.ring = BitVec.ofNat 10 h.ring.val ∧
    f.last = decide (h.length ≤ h.frag + min F (h.length - h.frag)) ∧ f.cls = h.cls ∧
    f.stream = BitVec.ofNat 8 (h.cls.val + 8 * n.val + 32 * fld (getEgr s n).group.active.cfg 10 8) ∧ f.gapValid = h.gapValid ∧
    f.gap = h.gap ∧ f.ready = false

theorem buildFrame_frameFor (s : State) (n : Fin 4) (k : h.fmax = some F) : FrameFor s n (buildFrame s n h) h F := by
  have len : fragLen h = min F (h.length - h.frag) := by rw [fragLen, k]; rfl
  have first : (h.frag == 0) = decide (h.frag = 0) := Bool.eq_iff_iff.2 (beq_iff_eq.trans decide_eq_true_iff.symm)
  exact ⟨first, rfl, rfl, rfl, rfl, rfl, by rw [← len]; rfl, rfl, rfl, rfl, rfl, rfl⟩

theorem egrBuilding_iff : egrBuilding p = true ↔ ∃ f ∈ p.frames, f.ready = false := by simp [egrBuilding]

theorem frameBuildEffect_idle (k : egrDiscards s n = true ∨ (getEgr s n).held = [] ∨ (∃ f ∈ (getEgr s n).frames, f.ready = false) ∨
    2 ≤ buffersUsed (getEgr s n)) : frameBuildEffect n s = s := by
  refine if_pos ?_
  simp only [Bool.or_eq_true, Bool.not_eq_true', List.isEmpty_iff]
  rcases k with discards | none | building | full
  · exact .inl (.inl discards)
  · exact .inr none
  · exact .inl (.inr (Bool.eq_false_iff.2 fun go => egrCanStart_iff.1 go (.inl building)))
  · by_cases discards : egrDiscards s n = true
    · exact .inl (.inl discards)
    · exact .inl (.inr (Bool.eq_false_iff.2 fun go => egrCanStart_iff.1 go (.inr ⟨(Bool.not_eq_true _).mp discards, full⟩)))

section
variable (sends : egrDiscards s n = false) (free : ¬∃ f ∈ (getEgr s n).frames, f.ready = false) (room : buffersUsed (getEgr s n) < 2)
  (settled : (getEgr s n).group.pending = false) (held : (getEgr s n).held = h :: rest)
include sends free room settled held

/-- The construction of a frame starts with its line begun. -/
theorem frameBuildEffect_builds : frameBuildEffect n s = withEgr s n { (beginLine (getEgr s n) h).2 with
    held := (beginLine (getEgr s n) h).1 :: rest
    frames := (beginLine (getEgr s n) h).2.frames ++ [buildFrame s n (beginLine (getEgr s n) h).1] } := by
  have start : egrCanStart s n = true := egrCanStart_iff.2 fun k => k.elim free fun k => Nat.not_lt.2 k.2 room
  have none : ¬(egrDiscards s n || !egrCanStart s n || (getEgr s n).held.isEmpty) = true := by simp [sends, start, held]
  rw [frameBuildEffect, if_neg none]
  simp only [egrApply_none settled, held, sends, Bool.false_eq_true, if_false]
  rfl

theorem frameBuildEffect_begun {h' : Held} {p' : Egr} (begun : beginLine (getEgr s n) h = (h', p')) (fmax : h'.fmax = some F)
    (frames : p'.frames = (getEgr s n).frames) : ∃ f, frameBuildEffect n s = withEgr s n { p' with
      held := h' :: rest, frames := (getEgr s n).frames ++ [f] } ∧ FrameFor s n f h' F := by
  refine ⟨buildFrame s n h', ?_, buildFrame_frameFor s n fmax⟩
  rw [frameBuildEffect_builds sends free room settled held, begun, ← frames]

end

/-! ### The end of an entry (R286, R315, R316, R318) -/

/-- A step that leaves the frames, the sequence numbers and the count of discarded frames of port n. -/
structure KeepsFrames (n : Fin 4) (s t : State) : Prop where
  frames : (getEgr t n).frames = (getEgr s n).frames
  pseq : (getEgr t n).pseq = (getEgr s n).pseq
  discFrames : (getEgr t n).discFrames = (getEgr s n).discFrames

theorem KeepsFrames.trans (k : KeepsFrames n s t) (l : KeepsFrames n t u) : KeepsFrames n s u :=
  ⟨l.frames.trans k.frames, l.pseq.trans k.pseq, l.discFrames.trans k.discFrames⟩

theorem keepsFrames_of_egr (k : t.egr = s.egr) : KeepsFrames n s t := by
  have same : getEgr t n = getEgr s n := congrArg (fun v : Vector Egr 4 => v[n.val]) k
  exact ⟨by rw [same], by rw [same], by rw [same]⟩

theorem modEgr_keepsFrames (s : State) (m : Fin 4) (f : Egr → Egr) (frames : ∀ p, (f p).frames = p.frames)
    (pseq : ∀ p, (f p).pseq = p.pseq) (discFrames : ∀ p, (f p).discFrames = p.discFrames) : KeepsFrames n s (s.modEgr m f) := by
  by_cases same : m = n
  · subst same
    have port : getEgr (s.modEgr m f) m = f (getEgr s m) := upd_same _ _ _
    exact ⟨by rw [port, frames], by rw [port, pseq], by rw [port, discFrames]⟩
  · have port : getEgr (s.modEgr m f) n = getEgr s n := upd_other _ _ _ _ same
    exact ⟨by rw [port], by rw [port], by rw [port]⟩

theorem noteEgress_keepsFrames (s : State) (c : Consumer) (code : Byte) : KeepsFrames n s (noteEgress s c code) := by
  unfold noteEgress
  split
  · refine modEgr_keepsFrames s _ _ (fun p => ?_) (fun p => ?_) fun p => ?_
    all_goals
      split
      · rfl
      · split <;> rfl
  · exact keepsFrames_of_egr rfl

theorem completeEntry_keepsFrames (s : State) (t : Taken) (code : Byte) (ref : Option (Fin 2048 × BitVec 7)) :
    KeepsFrames n s (completeEntry s t code ref) := by
  have released (v : State) : (afterTagFreed s (pwReleaseRef v ref) t.cons).egr = v.egr :=
    (afterTagFreed_moves s _ t.cons (pwReleaseRef_moves v ref (Moves.refl [.pw, .qe] v) (by decide)) (by decide)).only .egr (by decide)
  have off := (((dmWrite_moves s (t.addr + 1) [code] (Moves.refl [.qe, .dm] s) (by decide)).modRing (by decide) t.ring fun g =>
    completeIdx g t.idx).modQe (by decide) fun q =>
      { q with taken := q.taken.filter fun u => !(u.ring == t.ring && u.idx == t.idx) }).only .egr (by decide)
  exact (keepsFrames_of_egr off).trans ((noteEgress_keepsFrames _ t.cons code).trans (keepsFrames_of_egr (released _)))

theorem endEntry_ends (s : State) (n : Fin 4) (h : Held) (code : Byte) :
    findTaken (endEntry s n h code) h.ring h.idx = none ∧ KeepsFrames n s (endEntry s n h code) := by
  have off : KeepsFrames n s (s.modEgr n fun p => { p with held := p.held.filter fun x => !(x.ring == h.ring && x.idx == h.idx) }) :=
    modEgr_keepsFrames s n _ (fun _ => rfl) (fun _ => rfl) fun _ => rfl
  unfold endEntry
  dsimp only
  split
  · next none => exact ⟨none, off⟩
  · next found => exact ⟨findTaken_completeEntry found code _, off.trans (completeEntry_keepsFrames _ _ code _)⟩

/-! ### The payload of a frame (R315, R316) -/

theorem payloadReadEffect_idle (k : (getEgr s n).held = [] ∨ ¬∃ f ∈ (getEgr s n).frames, f.ready = false) :
    payloadReadEffect n eccs s = s := by
  unfold payloadReadEffect
  dsimp only
  split
  · rfl
  · next h r held =>
    have idle := k.resolve_left (by rw [held]; exact List.cons_ne_nil h r)
    exact if_pos (by simpa using mt egrBuilding_iff.1 idle)

/-- Reads that find no error leave everything. -/
theorem eccReads_clean {entry : Option (Fin 1024 × BitVec 16)} {ws : List (Nat × Ecc)}
    (clean : ∀ w ∈ ws, eccFound s w.1 w.2 = .clean) : eccReads entry ws s = s := by
  induction ws with
  | nil => rfl
  | cons w ws ih =>
    have one : eccRead s w.1 entry w.2 = s := by simp only [eccRead, clean w List.mem_cons_self]
    have rest : eccReads entry (w :: ws) s = eccReads entry ws (eccRead s w.1 entry w.2) := rfl
    rw [rest, one]
    exact ih fun x mem => clean x (List.mem_cons_of_mem w mem)

theorem readFragment_clean (clean : ∀ w ∈ fragWords s h eccs, eccFound s w.1 w.2 = .clean)
    (inside : fragOffset s h + fragLen h ≤ objSize (heldObj s h)) : readFragment s h eccs = s := by
  rw [readFragment, eccReads_clean clean]
  exact if_neg (not_lt.2 inside)

theorem isBad_clean {w : Nat × Ecc} (clean : eccFound s w.1 w.2 = .clean) : isBad s w = false := by
  simp only [isBad, clean]

section
variable (building : ∃ f ∈ (getEgr s n).frames, f.ready = false) (held : (getEgr s n).held = h :: rest)
include building held

theorem payloadReadEffect_reads : payloadReadEffect n eccs s =
    if (fragWords s h eccs).any (isBad s) = true then poisonEntry s n h eccs
    else
      let t := (readFragment s h eccs).modEgr n fun p => { p with frames := p.frames.map (builtFrame s h) }
      if fragEntryLast h = true then endEntry t n h stOk else t.modEgr n fun p => { p with held := h.advance :: rest } := by
  simp only [payloadReadEffect, held, egrBuilding_iff.2 building, Bool.not_true, Bool.false_eq_true, if_false]

/-- A read that ends uncorrectable abandons the frame and ends the entry. -/
theorem payloadReadEffect_poisons (bad : ∃ w ∈ fragWords s h eccs, isBad s w = true) :
    findTaken (payloadReadEffect n eccs s) h.ring h.idx = none ∧
    (getEgr (payloadReadEffect n eccs s) n).frames = (getEgr s n).frames.filter (·.ready) := by
  rw [payloadReadEffect_reads building held, if_pos (List.any_eq_true.2 bad), poisonEntry]
  have read : getEgr (eccReadsUntil (some (h.ring, h.idx)) (fragWords s h eccs) s) n = getEgr s n :=
    congrArg (fun v : Vector Egr 4 => v[n.val])
      ((eccReadsUntil_moves _ _ s (Moves.refl [.pw, .qe, .dm] s) (by decide)).only .egr (by decide))
  obtain ⟨none, keeps⟩ := endEntry_ends ((eccReadsUntil (some (h.ring, h.idx)) (fragWords s h eccs) s).modEgr n fun p =>
    { p with frames := p.frames.filter (·.ready) }) n h stPoison
  refine ⟨none, keeps.frames.trans ?_⟩
  rw [modEgr_eq, getEgr_withEgr, read]

section
variable (clean : ∀ w ∈ fragWords s h eccs, eccFound s w.1 w.2 = .clean)
  (inside : fragOffset s h + fragLen h ≤ objSize (heldObj s h))
include clean inside

theorem payloadReadEffect_clean : payloadReadEffect n eccs s =
    let t := withEgr s n { getEgr s n with frames := (getEgr s n).frames.map (builtFrame s h) }
    if fragEntryLast h = true then endEntry t n h stOk else t.modEgr n fun p => { p with held := h.advance :: rest } := by
  have good : ¬(fragWords s h eccs).any (isBad s) = true := by
    rw [List.any_eq_true]
    rintro ⟨w, mem, bad⟩
    exact Bool.false_ne_true ((isBad_clean (clean w mem)).symm.trans bad)
  rw [payloadReadEffect_reads building held, if_neg good, readFragment_clean clean inside]
  rfl

/-- The last payload of an entry ends it. -/
theorem payloadReadEffect_ends (ends : fragEntryLast h = true) :
    findTaken (payloadReadEffect n eccs s) h.ring h.idx = none ∧
    (getEgr (payloadReadEffect n eccs s) n).frames = (getEgr s n).frames.map (builtFrame s h) := by
  obtain ⟨none, keeps⟩ := endEntry_ends (withEgr s n { getEgr s n with frames := (getEgr s n).frames.map (builtFrame s h) }) n h stOk
  rw [payloadReadEffect_clean building held clean inside]
  dsimp only
  rw [if_pos ends]
  exact ⟨none, keeps.frames.trans (by rw [getEgr_withEgr])⟩

theorem payloadReadEffect_goesOn (more : fragEntryLast h = false) : payloadReadEffect n eccs s = withEgr s n { getEgr s n with
    held := h.advance :: rest, frames := (getEgr s n).frames.map (builtFrame s h) } := by
  rw [payloadReadEffect_clean building held clean inside]
  dsimp only
  rw [if_neg (by simp [more]), modEgr_eq, getEgr_withEgr, withEgr_withEgr]

end

end

/-! ### A frame on the wire (R309, R312, R317) -/

theorem frameSendEffect_idle (k : egrDiscards s n = true ∨ (getEgr s n).wire.isSome = true ∨ (getEgr s n).frames = []) :
    frameSendEffect n s = s := by
  unfold frameSendEffect
  dsimp only
  split
  · rfl
  · next go =>
    have none : (getEgr s n).frames = [] :=
      (k.resolve_left fun d => go (by simp [d])).resolve_left fun w => go (by simp [w])
    rw [none]

theorem frameSendEffect_oldest {f : Frame} {more : List Frame} (sends : egrDiscards s n = false) (idle : (getEgr s n).wire = none)
    (frames : (getEgr s n).frames = f :: more) : frameSendEffect n s =
      if f.ready = false then s
      else withEgr s n { getEgr s n with
        pseq := upd (getEgr s n).pseq f.cls (· + 1), frames := more
        wire := some (f, frameBytes f (getEgr s n).pseq[f.cls.val] s.time) } := by
  have go : ¬(egrDiscards s n || (getEgr s n).wire.isSome) = true := by simp [sends, idle]
  rw [frameSendEffect, if_neg go, frames]
  dsimp only
  cases f.ready <;> rfl

theorem frameSentEffect_none (k : (getEgr s n).wire = none) : frameSentEffect n s = s := by
  simp only [frameSentEffect, k]

theorem frameSentEffect_leaves {f : Frame} {bytes : List Byte} (k : (getEgr s n).wire = some (f, bytes)) : frameSentEffect n s =
    withEgr s n { getEgr s n with
      wire := none, sent := some bytes, txBytes := (getEgr s n).txBytes + BitVec.ofNat 64 bytes.length
      txFrames := (getEgr s n).txFrames + 1, txLines := if f.last then (getEgr s n).txLines + 1 else (getEgr s n).txLines } := by
  simp only [frameSentEffect, k, modEgr_eq]

/-! ### Frames discarded (R312, R318, R319) -/

theorem frameDiscardEffect_idle (k : egrDiscards s n = false ∨ (getEgr s n).wire.isSome = true ∨
    ((getEgr s n).frames = [] ∧ (getEgr s n).held = [])) : frameDiscardEffect n s = s := by
  unfold frameDiscardEffect
  dsimp only
  split
  · rfl
  · next go =>
    obtain ⟨frames, held⟩ := (k.resolve_left fun d => go (by simp [d])).resolve_left fun w => go (by simp [w])
    rw [frames, held]
    rfl

section
variable (discards : egrDiscards s n = true) (idle : (getEgr s n).wire = none)
include discards idle

theorem frameDiscardEffect_frame {f : Frame} {more : List Frame} (frames : (getEgr s n).frames = f :: more) : frameDiscardEffect n s =
    if f.ready = true then s.modEgr n fun p => { discardFrame p f.cls with frames := more }
    else discardFragment n (s.modEgr n fun p => { p with frames := more }) := by
  have go : ¬(!egrDiscards s n || (getEgr s n).wire.isSome) = true := by simp [discards, idle]
  rw [frameDiscardEffect, if_neg go, frames]

theorem frameDiscardEffect_fragment (frames : (getEgr s n).frames = []) (held : (getEgr s n).held ≠ [])
    (settled : (getEgr s n).group.pending = false) : frameDiscardEffect n s = discardFragment n s := by
  have go : ¬(!egrDiscards s n || (getEgr s n).wire.isSome) = true := by simp [discards, idle]
  rw [frameDiscardEffect, if_neg go, frames]
  simp only [egrApply_none settled, List.isEmpty_iff, if_neg held, discards, if_true]

/-- The fragment under way is discarded out of the port whose frame under construction, if there is one, is given up. -/
theorem frameDiscardEffect_next (held : (getEgr s n).held ≠ [])
    (k : ((getEgr s n).frames = [] ∧ (getEgr s n).group.pending = false) ∨ ∃ f more, (getEgr s n).frames = f :: more ∧ f.ready = false) :
    frameDiscardEffect n s = discardFragment n (withEgr s n { getEgr s n with frames := (getEgr s n).frames.tail }) := by
  rcases k with ⟨none, settled⟩ | ⟨f, more, frames, building⟩
  · have same (l : List Frame) (e : (getEgr s n).frames = l) : { getEgr s n with frames := l } = getEgr s n := by subst e; rfl
    rw [frameDiscardEffect_fragment discards idle none held settled, none, List.tail_nil, same [] none, withEgr_self]
  · rw [frameDiscardEffect_frame discards idle frames, if_neg (by simp [building]), frames]
    rfl

end

theorem discardFragment_under (held : (getEgr s n).held = h :: rest) (fmax : h.fmax = some F) : discardFragment n s =
    let t := withEgr s n { discardFrame (getEgr s n) h.cls with held := h.advance :: rest }
    if fragEntryLast h = true then endEntry t n h stDiscarded else t := by
  simp only [discardFragment, held, beginLine_under (h := h) (by simp [fmax])]
  rfl

end Sys2Proof.Machine
end

section
/-! Fragments discarded (R318) and frames received (R320 to R322), and the theorem that settles O46. -/

namespace Sys2Proof.Machine

variable {s : State} {n : Fin 4} {h : Held} {rest : List Held} {F : Nat} {b : List Byte}

/-! ### Where a fragment ends (R310) -/

theorem fragLast_iff : fragLast h = true ↔ h.length ≤ h.frag + fragLen h := decide_eq_true_iff

theorem fragEntryLast_iff : fragEntryLast h = true ↔ h.length ≤ h.frag + fragLen h ∧ h.nlines ≤ h.line + 1 := by
  rw [fragEntryLast, Bool.and_eq_true, fragLast_iff, decide_eq_true_iff]

theorem advance_last (k : h.length ≤ h.frag + fragLen h) : h.advance = { h with line := h.line + 1, frag := 0, fmax := none } :=
  if_pos (fragLast_iff.2 k)

theorem advance_within (k : ¬h.length ≤ h.frag + fragLen h) : h.advance = { h with frag := h.frag + fragLen h } :=
  if_neg (mt fragLast_iff.1 k)

theorem fragLen_of_fmax (k : h.fmax = some F) : fragLen h = min F (h.length - h.frag) := by rw [fragLen, k]; rfl

theorem gapped_fmax (h : Held) (F : Nat) (d : Int) : (h.gapped F d).fmax = some F := by
  unfold Held.gapped
  split <;> rfl

/-! ### A fragment discarded (R318) -/

section
variable (discards : egrDiscards s n = true) (idle : (getEgr s n).wire = none) (held : (getEgr s n).held = h :: rest)
  (fmax : h.fmax = some F)
  (k : ((getEgr s n).frames = [] ∧ (getEgr s n).group.pending = false) ∨ ∃ f more, (getEgr s n).frames = f :: more ∧ f.ready = false)
include discards idle held fmax k

theorem frameDiscardEffect_under : frameDiscardEffect n s =
    let t := withEgr s n { discardFrame (getEgr s n) h.cls with held := h.advance :: rest, frames := (getEgr s n).frames.tail }
    if fragEntryLast h = true then endEntry t n h stDiscarded else t := by
  have there : (getEgr (withEgr s n { getEgr s n with frames := (getEgr s n).frames.tail }) n).held = h :: rest := by
    rw [getEgr_withEgr]; exact held
  rw [frameDiscardEffect_next discards idle (by rw [held]; exact List.cons_ne_nil h rest) k, discardFragment_under there fmax,
    getEgr_withEgr, withEgr_withEgr]
  rfl

theorem frameDiscardEffect_within (more : h.frag + F < h.length) : frameDiscardEffect n s = withEgr s n
    { discardFrame (getEgr s n) h.cls with held := { h with frag := h.frag + F } :: rest, frames := (getEgr s n).frames.tail } := by
  have len : fragLen h = F := (fragLen_of_fmax fmax).trans (by omega)
  have inside : ¬h.length ≤ h.frag + fragLen h := by omega
  rw [frameDiscardEffect_under discards idle held fmax k, advance_within inside, len]
  exact if_neg fun ends => inside (fragEntryLast_iff.1 ends).1

theorem frameDiscardEffect_ends (lastFrag : h.length ≤ h.frag + F) (lastLine : h.nlines ≤ h.line + 1) :
    findTaken (frameDiscardEffect n s) h.ring h.idx = none ∧
    (getEgr (frameDiscardEffect n s) n).frames = (getEgr s n).frames.tail ∧
    (getEgr (frameDiscardEffect n s) n).pseq = upd (getEgr s n).pseq h.cls (· + 1) ∧
    (getEgr (frameDiscardEffect n s) n).discFrames = (getEgr s n).discFrames + 1 := by
  have ends : fragEntryLast h = true := fragEntryLast_iff.2 ⟨by rw [fragLen_of_fmax fmax]; omega, lastLine⟩
  obtain ⟨none, keeps⟩ := endEntry_ends (withEgr s n
    { discardFrame (getEgr s n) h.cls with held := h.advance :: rest, frames := (getEgr s n).frames.tail }) n h stDiscarded
  rw [frameDiscardEffect_under discards idle held fmax k]
  dsimp only
  rw [if_pos ends]
  exact ⟨none, keeps.frames.trans (by rw [getEgr_withEgr]), keeps.pseq.trans (by rw [getEgr_withEgr]; rfl),
    keeps.discFrames.trans (by rw [getEgr_withEgr]; rfl)⟩

end

/-! ### A frame received (R320 to R322) -/

theorem receiveEffect_down (down : egrUp s n = false) : receiveEffect n b s = s := if_pos (by simp [down])

/-- A frame without its FCS, parsed. -/
def rxParsed (b : List Byte) : RxFrame := parseFrame (b.take (b.length - 4))

/-- What a frame does to the port by the PTP message found in it. -/
def rxMessage (tick : Tick) (p : Egr) (b : List Byte) (found : Option (Nat × Nat × List Byte)) : Egr :=
  found.elim (rxDropped p 4) fun (tr, ip, m) =>
    if m.isEmpty || decide (3 < (byteAt m 0).toNat % 16) then rxDropped p 4
    else if p.rxPi - p.rxCi = 16 then { rxDropped p 5 with flags := p.flags.set 5 }
    else
      { p with
        rxRing := upd p.rxRing (Fin.ofNat 16 p.rxPi.toNat) fun _ => rxEntry tick b (rxParsed b) tr ip m
        rxPi := p.rxPi + 1, cntRxPtp := p.cntRxPtp + 1, flags := p.flags.set 4 }

section
variable (up : egrUp s n = true)
include up

theorem receiveEffect_pause (pause : ofBe ((b.drop 12).take 2) = 0x8808) : receiveEffect n b s =
    withEgr s n { getEgr s n with cntPause := (getEgr s n).cntPause + 1, flags := (getEgr s n).flags.set 3 } :=
  (if_neg (by simp [up])).trans (congrArg (withEgr s n) (if_pos pause))

section
variable (data : ofBe ((b.drop 12).take 2) ≠ 0x8808)
include data

theorem receiveEffect_badFcs (bad : fcsOk b = false) : receiveEffect n b s = withEgr s n (rxDropped (getEgr s n) 1) :=
  (if_neg (by simp [up])).trans (congrArg (withEgr s n) ((if_neg data).trans (if_pos (by simp [bad]))))

section
variable (good : fcsOk b = true)
include good

theorem receiveEffect_badLength (len : b.length < 64 ∨ 9600 < b.length) :
    receiveEffect n b s = withEgr s n (rxDropped (getEgr s n) 2) :=
  (if_neg (by simp [up])).trans (congrArg (withEgr s n) ((if_neg data).trans ((if_neg (by simp [good])).trans (if_pos len))))

section
variable (len : ¬(b.length < 64 ∨ 9600 < b.length))
include len

theorem receiveEffect_other (other : ¬(b.take 6 = macOf (getEgr s n).group.active.srcMacHi (getEgr s n).group.active.srcMacLo ∨
    b.take 6 ∈ ptpMacs)) : receiveEffect n b s = withEgr s n (rxDropped (getEgr s n) 4) :=
  (if_neg (by simp [up])).trans (congrArg (withEgr s n) ((if_neg data).trans ((if_neg (by simp [good])).trans ((if_neg len).trans
    (if_pos (congrArg not (decide_eq_false other)))))))

/-- A whole frame for the port: what it does is its PTP message's. -/
theorem receiveEffect_message (mine : b.take 6 = macOf (getEgr s n).group.active.srcMacHi (getEgr s n).group.active.srcMacLo ∨
    b.take 6 ∈ ptpMacs) : receiveEffect n b s = withEgr s n (rxMessage s.time (getEgr s n) b (ptpMessage (rxParsed b))) := by
  refine (if_neg (by simp [up])).trans (congrArg (withEgr s n) ((if_neg data).trans ((if_neg (by simp [good])).trans ((if_neg len).trans
    ((if_neg fun k => Bool.false_ne_true ((congrArg not (decide_eq_true mine)).symm.trans k)).trans ?_)))))
  unfold rxMessage rxParsed
  generalize ptpMessage (parseFrame (b.take (b.length - 4))) = found
  cases found <;> rfl

end

end

end

end

section
variable {tr ip : Nat} {m : List Byte}

theorem rxMessage_other (k : m = [] ∨ 3 < (byteAt m 0).toNat % 16) (tick : Tick) (p : Egr) (b : List Byte) :
    rxMessage tick p b (some (tr, ip, m)) = rxDropped p 4 := if_pos (by simpa using k)

variable (some_ : m ≠ []) (event : (byteAt m 0).toNat % 16 ≤ 3)
include some_ event

theorem rxMessage_event (tick : Tick) (p : Egr) (b : List Byte) : rxMessage tick p b (some (tr, ip, m)) =
    if p.rxPi - p.rxCi = 16 then { rxDropped p 5 with flags := p.flags.set 5 }
    else
      { p with
        rxRing := upd p.rxRing (Fin.ofNat 16 p.rxPi.toNat) fun _ => rxEntry tick b (rxParsed b) tr ip m
        rxPi := p.rxPi + 1, cntRxPtp := p.cntRxPtp + 1, flags := p.flags.set 4 } :=
  if_neg (by simpa using ⟨some_, event⟩)

end

/-- Settles O46: a frame begun as its line's tracker stands, read as its words come, and discarded or received case by case. -/
theorem egressFrames : Obligations.EgressFrames := by
  unfold Obligations.EgressFrames
  intro s n eccs b clocked p g becomes dropped spent used building frameFor
  have answer {f : State → State} {t : State} (k : f s = t) : onSys s f = .next t := (onSys_clocked clocked f).trans (congrArg _ k)
  refine ⟨fun k => answer (frameBuildEffect_idle k), fun sends free room settled h rest held => ⟨fun F fmax => ?_, fun first => ⟨?_, ?_, ?_⟩⟩,
    fun k => answer (payloadReadEffect_idle k), fun build h rest held => ⟨fun bad => ?_, fun clean inside => ⟨?_, ?_, ?_⟩⟩,
    fun k => answer (frameSendEffect_idle k), fun sends idle f more frames => ⟨fun k => ?_, fun k => ?_⟩,
    fun k => answer (frameSentEffect_none k), fun f bytes k => answer (frameSentEffect_leaves k),
    fun k => answer (frameDiscardEffect_idle k), fun discards idle => ⟨fun f more frames ready => ?_, fun h rest F held fmax k => ⟨?_, ?_⟩⟩,
    fun down => answer (receiveEffect_down down), fun up => ⟨fun pause => answer (receiveEffect_pause up pause),
      fun data bad => answer (receiveEffect_badFcs up data bad), fun data good => ⟨fun len => answer (receiveEffect_badLength up data good len),
        fun low high => ?_⟩⟩⟩
  · obtain ⟨f, e, k⟩ := frameBuildEffect_begun sends free room settled held (beginLine_under (by rw [fmax]; rfl) _) fmax rfl
    refine ⟨f, answer (e.trans ?_), k⟩
    exact congrArg (fun l => withEgr s n { getEgr s n with held := l, frames := (getEgr s n).frames ++ [f] }) held.symm
  · intro none
    obtain ⟨f, e, k⟩ := frameBuildEffect_begun sends free room settled held (beginLine_untracked first none) rfl rfl
    exact ⟨f, answer e, k⟩
  · intro i tracker new
    obtain ⟨f, e, k⟩ := frameBuildEffect_begun sends free room settled held (beginLine_new first tracker new) rfl rfl
    exact ⟨f, answer e, k⟩
  · intro i last tracker known
    obtain ⟨f, e, k⟩ := frameBuildEffect_begun sends free room settled held (beginLine_later first tracker known) (gapped_fmax h _ _) rfl
    exact ⟨f, answer e, k⟩
  · have only := (payloadReadEffect_moves n eccs s (Moves.refl [.pw, .qe, .egr, .dm] s) (by decide)).only
    exact ⟨_, answer rfl, only, payloadReadEffect_poisons build held bad⟩
  · intro lastFrag lastLine
    have only := (payloadReadEffect_moves n eccs s (Moves.refl [.pw, .qe, .egr, .dm] s) (by decide)).only
    exact ⟨_, answer rfl, only, payloadReadEffect_ends build held clean inside (fragEntryLast_iff.2 ⟨lastFrag, lastLine⟩)⟩
  · intro lastFrag line
    have more : fragEntryLast h = false := Bool.eq_false_iff.2 fun k => absurd (fragEntryLast_iff.1 k).2 (not_le.2 line)
    refine answer ((payloadReadEffect_goesOn build held clean inside more).trans ?_)
    rw [advance_last lastFrag]
    rfl
  · intro within
    have more : fragEntryLast h = false := Bool.eq_false_iff.2 fun k => within (fragEntryLast_iff.1 k).1
    refine answer ((payloadReadEffect_goesOn build held clean inside more).trans ?_)
    rw [advance_within within]
    rfl
  · exact answer ((frameSendEffect_oldest sends idle frames).trans (if_pos k))
  · exact answer ((frameSendEffect_oldest sends idle frames).trans (if_neg (by simp [k])))
  · exact answer ((frameDiscardEffect_frame discards idle frames).trans (if_pos ready))
  · exact fun within => answer (frameDiscardEffect_within discards idle held fmax k within)
  · intro lastFrag lastLine
    have only := (frameDiscardEffect_moves n s (Moves.refl [.pw, .qe, .egr, .dm] s) (by decide)).only
    exact ⟨_, answer rfl, only, frameDiscardEffect_ends discards idle held fmax k lastFrag lastLine⟩
  · have len : ¬(b.length < 64 ∨ 9600 < b.length) := not_or.2 ⟨not_lt.2 low, not_lt.2 high⟩
    refine ⟨fun other => answer (receiveEffect_other up data good len other), fun mine => ?_⟩
    have e := receiveEffect_message up data good len mine
    refine ⟨fun none => answer (e.trans ?_), fun tr ip m found k => answer (e.trans ?_), fun tr ip m found some_ event => ?_⟩
    · rw [rxParsed, none]; rfl
    · rw [rxParsed, found, rxMessage_other k]; rfl
    · rw [rxParsed, found, rxMessage_event some_ event] at e
      exact ⟨fun full => answer (e.trans (congrArg (withEgr s n) (if_pos full))),
        fun room => answer (e.trans (congrArg (withEgr s n) (if_neg room)))⟩

end Sys2Proof.Machine
end
